-- ==== Sys2Proof/Machine/Table.lean ====
section
/-! DEFINITION. Sparse tables in one canonical form: memory, object stores, registers of many instances. -/

namespace Sys2Proof.Machine

/-- A table keyed by numbers. Keys rise strictly and no entry equals the value `d` that an unlisted key reads as
(the two conditions are `Tbl.wf d`), so equal tables are equal lists. -/
abbrev Tbl (α : Type) := List (Nat × α)

/-- The value at key `k`; `d` where nothing is listed. -/
def Tbl.get {α : Type} (d : α) : Tbl α → Nat → α
  | [], _ => d
  | (j, v) :: t, k => if k = j then v else Tbl.get d t k

/-- The table with key `k` holding `v`, in canonical form again: an entry equal to `d` is not listed. -/
def Tbl.set {α : Type} [DecidableEq α] (d : α) : Tbl α → Nat → α → Tbl α
  | [], k, v => if v = d then [] else [(k, v)]
  | (j, w) :: t, k, v =>
    if k < j then (if v = d then (j, w) :: t else (k, v) :: (j, w) :: t)
    else if k = j then (if v = d then t else (k, v) :: t)
    else (j, w) :: Tbl.set d t k v

/-- The entry `f` makes of the present one. -/
def Tbl.upd {α : Type} [DecidableEq α] (d : α) (t : Tbl α) (k : Nat) (f : α → α) : Tbl α :=
  Tbl.set d t k (f (Tbl.get d t k))

/-- Every listed key is above `lo` and rises, and no listed value is `d`. -/
def Tbl.okFrom {α : Type} [DecidableEq α] (d : α) : Option Nat → Tbl α → Bool
  | _, [] => true
  | lo, (j, v) :: t => (lo.all (· < j)) && decide (v ≠ d) && Tbl.okFrom d (some j) t

/-- The canonical form of a table whose unlisted keys read `d`. -/
def Tbl.wf {α : Type} [DecidableEq α] (d : α) (t : Tbl α) : Bool := Tbl.okFrom d none t

/-- The values of the first listed keys that satisfy `p`, in ascending key order. -/
def Tbl.keysWhere {α : Type} (p : Nat → α → Bool) (t : Tbl α) : List Nat :=
  (t.filter (fun e => p e.1 e.2)).map (·.1)

/-- The table with every listed value changed by `f` (entries that become `d` drop out). -/
def Tbl.mapAll {α : Type} [DecidableEq α] (d : α) (t : Tbl α) (f : Nat → α → α) : Tbl α :=
  t.filterMap (fun e => if f e.1 e.2 = d then none else some (e.1, f e.1 e.2))

/-- The lowest key below `n` at which the table reads `d`, if there is one. -/
def Tbl.freeBelow {α : Type} [DecidableEq α] (d : α) (t : Tbl α) (n : Nat) : Option Nat :=
  (List.range n).find? (fun k => decide (Tbl.get d t k = d))

end Sys2Proof.Machine
end

