-- ==== Sys2Proof/Word.lean ====
section
/-! DEFINITION. The plain words of the model: bytes, the field widths the spec uses most, and nothing else. -/

namespace Sys2Proof

/-- One byte of memory, of a packet or of a record (00 R8). -/
abbrev Byte := BitVec 8

/-- A chip ID: group [15:8], member [7:0] (00 Table 0-3). -/
abbrev ChipId := BitVec 16

/-- A 4-byte register or field (22, 23). -/
abbrev Word32 := BitVec 32

/-- An 8-byte register or field. -/
abbrev Word64 := BitVec 64

end Sys2Proof
end

