-- ==== Sys2Proof/Machine/Types.lean ====
section
/-! DEFINITION. The things commands and blocks are made of: packets, control blocks, training sets, enumerations of the spec's tables. -/

namespace Sys2Proof.Machine

/-- The grade of the part (00 Table 0-1). -/
inductive Grade where
  | F | L | S
  deriving DecidableEq, Repr

/-- The stepping of the part (00 Table 0-1). -/
inductive Stepping where
  | A1 | B0
  deriving DecidableEq, Repr

/-- The states of a port (02 Table 2-5a), and PARKED, the state of a port powered down by request (20 R869, 22 FAB_PORT). -/
inductive PortState where
  | down | training | incompatible | held | active | fenced | parked
  deriving DecidableEq, Repr

/-- The training states of a port (02 Table 2-3); ACTIVE is a state of the port, not of training. -/
inductive TrainState where
  | lock | equalize | align | config
  deriving DecidableEq, Repr

/-- The content of a training set block (02 Table 2-2), as the receiver decodes it. -/
structure TrainSet where
  tstate : BitVec 4
  lane   : BitVec 1
  port   : BitVec 5
  preset : BitVec 3
  ready  : Bool
  chip   : ChipId
  cinc   : BitVec 8
  proto  : BitVec 4
  stands : BitVec 4
  nlevel : BitVec 8
  deriving DecidableEq, Repr

/-- A 66-bit block of a lane, descrambled: its sync header, the bit transmitted first lowest, and its 64 payload bits (02 R64). -/
structure Block where
  sync    : BitVec 2
  payload : BitVec 64
  deriving DecidableEq, Repr

/-- One flit: 32 bytes (02 R68). -/
abbrev Flit := List Byte

/-- A link control word (02 Table 2-4). -/
structure Lcw where
  gseq   : BitVec 12
  gcnt   : BitVec 3
  empty  : Bool
  ackseq : BitVec 12
  ackv   : Bool
  nak    : Bool
  gcrc   : BitVec 32
  cvcA   : BitVec 5
  ccntA  : BitVec 6
  cvcB   : BitVec 5
  ccntB  : BitVec 6
  lcrc   : BitVec 16
  /-- the reserved bits LCW0 [31:30] and LCW1 [39:30], which the LCRC covers -/
  rsv0   : BitVec 2 := 0
  rsv1   : BitVec 10 := 0
  deriving DecidableEq, Repr

/-- Who belongs to a newly formed domain: its members, its root, the designated standby, the active front end, 0x0000 for none
(02 R128, R129, 14 R623, R625). The spec gives the EPOCH payload no layout (log 16). -/
structure Roster where
  members  : List ChipId
  root     : ChipId
  standby  : Option ChipId
  frontEnd : ChipId
  /-- the links of the domain: chip, port, partner, partner's port -/
  links    : List (ChipId × Nat × ChipId × Nat)
  /-- ports of the domain that have left ACTIVE: chip, port -/
  downs    : List (ChipId × Nat) := []
  deriving DecidableEq, Repr

/-- A command of the manager whose part on the members takes effect at an EPOCH commit: opcode, instance and its 64-byte message
(15 R660; logs 16 and 53). -/
structure CmdPart where
  opcode : BitVec 8
  inst   : BitVec 6
  msg    : List Byte
  deriving DecidableEq, Repr

/-- What a chip tells the root of one of its links in REPORT (02 Table 2-7). -/
structure ReportLink where
  port        : BitVec 5
  partner     : BitVec 48
  partnerPort : BitVec 5
  deriving DecidableEq, Repr

/-- A REPORT as the root keeps it (02 Table 2-7, R122): serial, requested ID and links; with the flags of the candidate key
and the standby eligibility that designation needs (14 R625). -/
structure Report where
  serial    : BitVec 48
  requested : ChipId
  pcie      : Bool
  preferred : Bool
  eligible  : Bool
  links     : List ReportLink
  deriving DecidableEq, Repr

/-- What a packet of a type whose payload the spec does not lay out says: DISC (Table 2-7), EPOCH, FENCE_NOTICE and MGMT (02 Table 2-6;
logs 15 to 17), and the transfers of a collective (11 R550; log 15). -/
inductive CtlMsg where
  | elect (key : Word64)
  | parent
  | report (r : Report)
  | assign (serial : BitVec 48) (id : ChipId) (depoch : Word32)
  | reject (serial : BitVec 48) (reason : BitVec 8)
  | ready (serial : BitVec 48)
  /-- EPOCH: a prepare with the chips it names lost, its acknowledgement, a commit, a port that has left ACTIVE (02 R131, R983) -/
  | prepare (depoch : Word32) (lost : List ChipId) (part : Option CmdPart)
  | prepareAck (depoch : Word32) (status : BitVec 16)
  | commit (depoch : Word32) (routing : Bool) (roster : Option Roster) (part : Option CmdPart)
  | portLeft (port : Nat)
  /-- FENCE_NOTICE: the chip to fence (02 R141) -/
  | fence (chip : ChipId)
  /-- MGMT: a register write or read of the MGMT window by an agent, 3 the root, perhaps on the manager's behalf, 4 the Security Controller;
  and its answer (02 Table 2-6, 22 R920) -/
  | mgmt (agent : BitVec 3) (behalf : Bool) (off : BitVec 24) (wide : Bool) (write : Option Word64)
  | mgmtAnswer (off : BitVec 24) (value : Word64) (ok : Bool)
  /-- an access of an instance to a device-resident ring: INST_DR_SEL, INSTANCE offset, and INST_GUILTY_ACK at 0x60; and its answer (23 R971) -/
  | ring (inst : BitVec 6) (sel : Word32) (off : BitVec 16) (wide : Bool) (write : Option Word64)
  | ringAnswer (inst : BitVec 6) (value : Word64)
  /-- such an access met an error that the function's own error status records -/
  | refused (inst : BitVec 6) (errBit : BitVec 4)
  /-- a device-resident ring of the sender became guilty, or was acknowledged -/
  | guilt (inst : BitVec 6) (ring : BitVec 6) (guilty : Bool)
  /-- an invalidation of cached translations, and its report (03 R180) -/
  | inval (inst : BitVec 6) (all : Bool) (base : BitVec 48) (pages : Word32)
  | invalDone
  /-- the incarnation of a chip is asked of the root, and its answer (02 R134) -/
  | incRequest (chip : ChipId)
  | incAnswer (chip : ChipId) (inc : BitVec 8)
  /-- a chip is declared unresponsive, to the root or the standby (02 R135, R984) -/
  | declare (chip : ChipId)
  /-- a member's lock was broken (15 R683) -/
  | lockBroken (agent : BitVec 3) (gen : BitVec 16)
  /-- a function of a portal that is not the active front end has been reset (15 R684; log 50) -/
  | flr (inst : BitVec 6)
  /-- of a share of a buffer, by its owner context and that context's generation: whether it has moved, and whether an operation of it waits only
  for stands, slots or table entries (07 R400, R403) -/
  | progress (ctx : BitVec 10) (gen : BitVec 16) (moved waits : Bool)
  /-- stands reserved on every chip to the real-time ring with an RT_SLOT (05 R274) -/
  | reserve (inst : BitVec 6) (slot : BitVec 4) (mask : BitVec 8)
  /-- between the participants of a collective, matched by the key of 11 R550: a rank and whether its check failed, elements of a rank's values, the
  request of a replaying share, its refusal (11 R545, 12 R564, R1002) -/
  | announce (key : List Byte) (rank : Nat) (check : BitVec 16)
  | contribute (key : List Byte) (rank index : Nat) (bytes : List Byte)
  | replayAsk (key : List Byte)
  | replayFail (key : List Byte) (status : BitVec 16)
  deriving DecidableEq, Repr

/-- A packet: the header of 02 Table 2-5, its reserved bits of byte 5 and the payload. -/
structure Packet where
  dst    : ChipId
  src    : ChipId
  type   : BitVec 8
  mc     : Bool
  ord    : Bool
  tail   : Bool
  sig    : Bool
  vl     : BitVec 3
  rsv    : Bool
  tinc   : BitVec 8
  sinc   : BitVec 8
  tid    : BitVec 24
  inst   : BitVec 6
  iovf   : Bool
  irpl   : Bool
  pktidx : BitVec 16
  pktcnt : BitVec 16
  addr   : BitVec 48
  len    : BitVec 9
  iepoch : BitVec 7
  obj    : BitVec 14
  kind   : BitVec 2
  amount : BitVec 16
  pcrc   : BitVec 32
  data   : List Byte
  /-- the leaf its source reached the address through has ENC (16 R723); Table 2-5 gives it no bit (log 31) -/
  enc    : Bool
  /-- what the payload of a DISC, EPOCH, FENCE_NOTICE or MGMT packet, or of a collective's WRITE, says; the spec lays out no bytes for it
  (logs 15 to 17) -/
  msg    : Option CtlMsg
  deriving DecidableEq, Repr

/-- A packet with every field zero, the base the senders build on. -/
def Packet.zero : Packet :=
  { dst := 0, src := 0, type := 0, mc := false, ord := false, tail := false, sig := false, vl := 0, rsv := false,
    tinc := 0, sinc := 0, tid := 0, inst := 0, iovf := false, irpl := false, pktidx := 0, pktcnt := 1, addr := 0,
    len := 0, iepoch := 0, obj := 0, kind := 0, amount := 0, pcrc := 0, data := [], enc := false, msg := none }

/-- How the host answers a read the device issued (04 R216, R980). -/
inductive HostReply where
  | data (bytes : List Byte)
  | unsupported
  | abort
  | poisoned
  deriving DecidableEq, Repr

/-- What the endpoint finds wrong with a TLP it receives, with its link or with its own transaction buffers (04 Table 4-6). -/
inductive TlpError where
  | poisoned | ecrc | unexpected | malformed | overflow | flowControl | dataLink | receiver | badTlp | badDllp | replayTimer | replayNum
  | corrected | internal
  deriving DecidableEq, Repr

/-- Severities of an error message. -/
inductive Severity where
  | correctable | nonfatal | fatal
  deriving DecidableEq, Repr

/-- The two host rings and the device-resident ring (05, 07). -/
inductive RingKind where
  | sq | cq | dr
  deriving DecidableEq, Repr

/-- The ways a register access reaches the chip: the two register windows of the PCIe endpoint, by offset (04 Table 4-4), and a debugger, by
LPA (03 Table 3-1). -/
inductive Window where
  | mgmt | instance_ | debug
  deriving DecidableEq, Repr

/-- What an observed comparison of an operation's checkers says (12 R509): they agree, or one differs. -/
inductive Check where
  | agree
  | differ (tile : Nat)
  deriving DecidableEq, Repr

/-- The outcome of a power or clock measurement and of a self-test, given by the environment. -/
inductive Verdict where
  | pass | fail
  deriving DecidableEq, Repr

end Sys2Proof.Machine
end

