-- ==== Sys2Proof/Machine/BlocksA.lean ====
section
/-! DEFINITION. The parts of the state that belong to configuration, rings, dispatch and the Gallery (01, 05, 07, 08, 15, 22, 23). -/

namespace Sys2Proof.Machine

/-- Every register of the shadow configuration set (15 "Active and shadow sets", 22 mark H, 15 R660 for stands and rings).
State holds one active and one shadow copy. Registers are held whole, their reserved bits zero. -/
structure CfgSet where
  /-- FE_EVQ_BASE, SIZE, THRESH, CONS, NOTIFY (22 Table 22-4) -/
  evqBase   : Word64
  evqSize   : BitVec 5
  evqThresh : BitVec 17
  evqCons   : Word32
  evqNotify : Word32
  /-- FAB_LIMITS (22 Table 22-10) -/
  limits    : Word32
  /-- FAB_GRP and FAB_MBR (02 R112), FAB_MC (02 R117) -/
  grp       : Tbl Word64
  mbr       : Tbl Word64
  mc        : Tbl Word32
  /-- OWNER, SHARED and SGRP of flags, tallies and barriers (08 R408) -/
  flagOwn   : Tbl (BitVec 12)
  tallyOwn  : Tbl (BitVec 12)
  barOwn    : Tbl (BitVec 12)
  /-- barrier configuration (08 Table 8-4), 93 bits in two registers -/
  barLo     : Tbl Word64
  barHi     : Tbl (BitVec 29)
  /-- share group masks (08, 22 GAL_SGRP) -/
  sgrp      : Tbl Word64
  /-- translation roots by instance (03 R170, 22 XLT_ROOT) -/
  xltRoot   : Tbl Word64
  /-- host slots, slot s of instance i at 8i + s (03 R182): control word, BUS_BASE register, LIMIT -/
  slotCtl   : Tbl Word32
  slotBase  : Tbl Word64
  slotLimit : Tbl Word32
  /-- stand mask allotted to each instance on this chip (15 Table 15-1) -/
  stands    : Tbl (BitVec 8)
  /-- device-resident rings allotted to each instance: FIRST in [7:0], COUNT in [15:8] (15 Table 15-4) -/
  drRings   : Tbl (BitVec 16)
  deriving DecidableEq, Repr

/-- The configuration set at reset (22): zero but for FAB_LIMITS. -/
def CfgSet.reset : CfgSet :=
  { evqBase := 0, evqSize := 0, evqThresh := 0, evqCons := 0, evqNotify := 0, limits := 0x03E80004, grp := [], mbr := [],
    mc := [], flagOwn := [], tallyOwn := [], barOwn := [], barLo := [], barHi := [], sgrp := [], xltRoot := [],
    slotCtl := [], slotBase := [], slotLimit := [], stands := [], drRings := [] }

/-! ## Rings (05, 07) -/

/-- The configuration fields of a submission ring (05 Table 5-1, 07 R401). -/
structure SqCfg where
  size     : BitVec 5
  base     : BitVec 48
  cq       : BitVec 8
  realTime : Bool
  rtSlot   : BitVec 4
  reserve  : BitVec 8
  tagBase  : BitVec 48
  shadowPi : BitVec 48
  pollUs   : BitVec 16
  weight   : BitVec 8
  burst    : BitVec 6
  hangMs   : BitVec 16
  deriving DecidableEq, Repr

/-- A guilty ring: its capture slot (none: no slot was free, 13 R586) and whether its GUILTY record is written. -/
structure Guilt where
  slot    : Option Nat
  written : Bool
  /-- the sequence of 13 R576 has come to its GUILTY record -/
  done    : Bool
  tag     : Nat
  status  : BitVec 16
  deriving DecidableEq, Repr

/-- One portal submission ring: configuration and run state (05, 23 Table 23-4). -/
structure Sq where
  cfg      : SqCfg
  /-- accepted producer index K, fetch index, release index: free-running modulo 2^32 -/
  k        : BitVec 32
  fetch    : BitVec 32
  release  : BitVec 32
  /-- expected tag E and executed-through watermark W -/
  e        : Nat
  w        : Nat
  /-- tags above W whose record is written (05 R267) -/
  doneTags : List Nat
  /-- re-delivered entries, stale doorbells, faults after the first: saturating counts (23 SQ_COUNTS) -/
  redeliv  : BitVec 16
  stale    : BitVec 16
  faults   : BitVec 16
  /-- entries asked of the host and not yet arrived -/
  asked    : Nat
  /-- entries arrived and not yet judged, oldest first: ring index and the 64 bytes -/
  arrived  : List (BitVec 32 × List Byte)
  /-- accepted entries not admitted (the ring-entry cache), oldest first -/
  cache    : List (List Byte)
  /-- the ring index of each, by tag, and the tags of those being fetched again (13 Table 13-6, code 2) -/
  slots    : List (Nat × BitVec 32)
  again    : List Nat
  credit   : Nat
  /-- BURST in the present round (05 R278) -/
  roundBurst : Nat
  guilty   : Option Guilt
  halted   : Bool
  admitted : Nat
  /-- judged slots not yet released: the journal epoch each waits for, 0 for none (05 R256) -/
  unreleased : List Nat
  /-- the epoch that carries its RING_CFG, before which nothing is fetched (14 R643) -/
  waitEpoch : Option Nat
  /-- the hang timer, in ns (07 R403) -/
  hangNs   : Nat
  deriving DecidableEq, Repr

/-- A submission ring at reset: every field zero but TAG_BASE, which is 1 (05 Table 5-1). -/
def Sq.reset : Sq :=
  { cfg := { size := 0, base := 0, cq := 0, realTime := false, rtSlot := 0, reserve := 0, tagBase := 1, shadowPi := 0,
             pollUs := 0, weight := 0, burst := 0, hangMs := 0 },
    k := 0, fetch := 0, release := 0, e := 1, w := 0, doneTags := [], redeliv := 0, stale := 0, faults := 0, asked := 0,
    arrived := [], cache := [], slots := [], again := [], credit := 0, roundBurst := 0, guilty := none, halted := false, admitted := 0, unreleased := [],
    waitEpoch := none, hangNs := 0 }

/-- A completion record on its way to a completion ring: its bytes but SQ_CI, ELAPSED and PHASE, the time of admission,
whether it fires the ring's vector at once, whether a slot is reserved for it, whether it may use the kept slot (05 R282). -/
structure WaitRec where
  bytes    : List Byte
  began    : Option Nat
  irq      : Bool
  reserved : Bool
  kept     : Bool
  deriving DecidableEq, Repr

/-- One portal completion ring (05 R247, 23 Table 23-5). -/
structure Cq where
  size      : BitVec 5
  base      : BitVec 48
  vecsel    : BitVec 11
  coalCount : BitVec 8
  coalTime  : BitVec 16
  /-- write index and H, free-running modulo 2^32 -/
  wr        : BitVec 32
  h         : BitVec 32
  /-- slots reserved by admitted buffers (05 R282) -/
  reserved  : Nat
  /-- records written since the last interrupt (04 R224) -/
  fresh     : Nat
  /-- H in the last applied journal epoch (14 R643) -/
  hApp      : BitVec 32
  /-- records that wait to be written, oldest first: GUILTY and HALTED records beyond the kept slot, records held
  under 14 R643 or a lapsed lease -/
  waiting   : List WaitRec
  deriving DecidableEq, Repr

/-- A completion ring at reset. -/
def Cq.reset : Cq :=
  { size := 0, base := 0, vecsel := 0, coalCount := 0, coalTime := 0, wr := 0, h := 0, reserved := 0, fresh := 0,
    hApp := 0, waiting := [] }

/-- One device-resident ring (07 Table 7-3). -/
structure Dr where
  size     : BitVec 5
  recBase  : BitVec 48
  done     : Word32
  weight   : BitVec 8
  burst    : BitVec 6
  hangMs   : BitVec 16
  push     : BitVec 32
  release  : BitVec 32
  /-- the next tag a push writes, and the highest tag recorded with every lower one -/
  nextTag  : Nat
  w        : Nat
  doneTags : List Nat
  /-- pushed entries not yet admitted, oldest first, tags written -/
  entries  : List (List Byte)
  /-- records written: the index of the next record -/
  recIdx   : BitVec 32
  credit   : Nat
  /-- BURST in the present round (07 R396) -/
  roundBurst : Nat
  guilty   : Option Guilt
  faults   : BitVec 16
  admitted : Nat
  hangNs   : Nat
  deriving DecidableEq, Repr

/-- A device-resident ring at reset. -/
def Dr.reset : Dr :=
  { size := 0, recBase := 0, done := 0, weight := 0, burst := 0, hangMs := 0, push := 0, release := 0, nextTag := 1,
    w := 0, doneTags := [], entries := [], recIdx := 0, credit := 0, roundBurst := 0, guilty := none, faults := 0, admitted := 0,
    hangNs := 0 }

/-! ## Dispatch (07) -/

/-- The ring a buffer came from: a portal ring, or a device-resident ring of this chip. -/
inductive RingRef where
  | host (n : Nat)
  | dr (n : Nat)
  deriving DecidableEq, Repr

/-- How far an owner context has come with its buffer. -/
inductive BufPhase where
  | checking | dispatching | ended | aborting
  deriving DecidableEq, Repr

/-- The first fault of a buffer: operation index and status (13 R574). -/
structure FirstFault where
  idx    : Nat
  status : BitVec 16
  deriving DecidableEq, Repr

/-- A buffer on its admitting chip (07 "Stream contexts"). -/
structure Owner where
  inst       : BitVec 6
  ring       : RingRef
  tag        : Nat
  user       : Word32
  /-- RT_SLOT of a real-time ring -/
  rt         : Option (BitVec 4)
  /-- the 64-byte entry -/
  entry      : List Byte
  replaySafe : Bool
  /-- REDELIVERED is to be set (a re-execution after a takeover) -/
  redelivered : Bool
  expected   : Option Nat
  tally      : Word32
  fault      : Option FirstFault
  ovf        : Bool
  replayed   : Bool
  /-- time counter at admission -/
  admitTime  : Nat
  /-- admission order, for 07 R370 -/
  order      : Nat
  phase      : BufPhase
  /-- next operation to dispatch, and its byte offset -/
  nextOp     : Nat
  nextOff    : Nat
  /-- the journal epoch that carries its ADMIT, while that holds dispatch (14 R643) -/
  waitEpoch  : Option Nat
  /-- members of the domain at admission, and chips lost by then (06 R297, R307) -/
  members    : List ChipId
  lostAt     : List ChipId
  /-- CSCOUNT and the offset of the data area, as the check pass read them (06 R299) -/
  csCount    : Nat
  dataOff    : Nat
  /-- members on which an operation waits only for stands, slots or table entries (07 R403) -/
  waits      : List ChipId
  deriving DecidableEq, Repr

/-- A share of a buffer admitted elsewhere (07 R353). -/
structure Share where
  chip     : ChipId
  ctx      : BitVec 10
  gen      : BitVec 16
  inst     : BitVec 6
  rt       : Option (BitVec 4)
  /-- LAST has been received: no further operation of the share comes -/
  last     : Bool
  ovf      : Bool
  replayed : Bool
  /-- it has reported a fault and dispatches nothing further (07 R362) -/
  faulted  : Bool
  aborting : Bool
  /-- its completion increment is on its way -/
  sent     : Bool
  order    : Nat
  /-- the ABORT that waits for its acknowledgement until the operations on tiles have stopped (13 R577) -/
  abortPkt : Option Packet
  deriving DecidableEq, Repr

/-- What a stream context holds. -/
inductive CtxUse where
  | free
  | owner (o : Owner)
  | share (s : Share)
  deriving DecidableEq, Repr

/-- What a fault names beyond its status (13 Table 13-4). -/
structure Err where
  status  : Nat
  addr    : Nat := 0
  access  : Nat := 0
  level   : Nat := 0
  done    : Nat := 0
  objChip : Nat := 0
  objIdx  : Nat := 0
  objKind : Nat := 0
  peer    : Nat := 0
  part    : Nat := 0
  partNo  : Nat := 0
  incHeld : Nat := 0
  incFound : Nat := 0
  deriving DecidableEq, Repr

/-- The stages of an operation in the dependency table. -/
inductive OpStage where
  /-- waits for dependencies -/
  | waiting
  /-- ready, waits for stands or a CFE slot -/
  | ready
  /-- started -/
  | running
  /-- registered at an object and held -/
  | held
  /-- results issued; waits for commits, acknowledgements and its report -/
  | issued
  deriving DecidableEq, Repr

/-- A body, or a collective's chip list, that a member has still to read: where it lies in the buffer (07 R358, R1001). -/
structure BodyFetch where
  list  : Bool
  split : Bool
  dva   : Nat
  frag  : Nat
  off   : Nat
  len   : Nat
  deriving DecidableEq, Repr

/-- A piece of an operation's output, within a page: where it goes, the start of its range, whether the range is longer than 64 KiB and so is
written granule by granule (03 R193). -/
structure OutPiece where
  dva     : Nat
  base    : Nat
  granule : Bool
  data    : List Byte
  deriving DecidableEq, Repr

/-- An entry of the dependency table (07 R363). -/
structure OpEntry where
  ctx      : Nat
  idx      : Nat
  /-- the 32-byte operation header, PKIND and PLACE as this chip received them, and the body -/
  hdr      : List Byte
  body     : List Byte
  /-- the chips of the whole chip set (07 R1001) -/
  chips    : List ChipId
  stage    : OpStage
  /-- CFE slot held -/
  slot     : Option Nat
  /-- index of the CHAIN that holds it -/
  chain    : Option Nat
  /-- bytes read from host or remote memory, by DVA -/
  staged   : Tbl (Option Byte)
  /-- ranges asked for and not yet arrived -/
  asked    : List (Nat × Nat)
  /-- transfers and flush reads not yet acknowledged -/
  out      : Nat
  /-- the operation's own fault, found and not yet raised: it is raised once its committed granules are in place (03 R194) -/
  err      : Option Err
  /-- the fault has been raised -/
  dead     : Bool
  /-- arithmetic wrapped a 32-bit accumulator (11) -/
  ovf      : Bool
  /-- replayed on a spare, and the resume point of its committed prefix (12 R563) -/
  replay   : Bool
  resume   : Nat
  /-- time at which it became ready -/
  readyAt  : Nat
  /-- the attached signal has been issued -/
  sigDone  : Bool
  /-- the share's last output transfer, held for the signal or increment that may ride it (08 R318, 07 R381) -/
  tailTo   : Option (ChipId × Nat × List Packet)
  /-- time at which a wait first registered (14 R611) -/
  since    : Option Nat
  /-- what a member has still to read of it -/
  fetch    : Option BodyFetch
  /-- bytes a COPY has copied (06 R324) -/
  copied   : Nat
  /-- what stood when a COPY or FENCE_GLOBAL became ready: the number of transfers issued, and the operations of a COPY's buffer whose last output was
  held, of a fence's buffer that had been dispatched (06 R325, 09 R458) -/
  mark     : Option (Nat × List Nat)
  /-- output not yet written, in order, and whether its last transfer may carry a signal: granules behind one that has not committed (03 R194) -/
  rest     : List OutPiece
  ride     : Bool
  /-- the granule of a range longer than 64 KiB that is on its way, and the bytes of the range before it (03 R193, R194) -/
  gran     : Option (Nat × Nat)
  /-- it has written host memory through this chip's own portal -/
  toHost   : Bool
  deriving DecidableEq, Repr

/-- One stream context (07 R350): its generation, its use, and what both uses keep. -/
structure Ctx where
  gen     : BitVec 16
  use     : CtxUse
  /-- highest operation index entered on this chip (07 R366) -/
  entered : Nat
  /-- this chip's own share is complete and counted -/
  counted : Bool
  /-- transfers of the context not yet acknowledged, beyond those of its table entries: attached signals -/
  sigsOut : Nat
  /-- members that hold a share of it, and those whose answer to ABORT is awaited (13 R576) -/
  sentTo  : List ChipId
  acksDue : List ChipId
  /-- bytes of the buffer read from host or remote memory, by DVA -/
  staged  : Tbl (Option Byte)
  /-- DVAs asked for and not yet arrived -/
  asked   : List (Nat × Nat)
  /-- the status of a read that failed -/
  readErr   : Option Err
  /-- operations that wait for a free table entry, in index order (07 R364) -/
  queue   : List OpEntry
  /-- fragments of the buffer: DVA and length (05 R261); one for a DIRECT entry -/
  frags   : List (Nat × Nat)
  /-- chip sets of the operations dispatched, in order -/
  sets    : List (List ChipId)
  /-- headers of the operations, in order, and the members whose increments have been counted (14 R620) -/
  heads   : List (List Byte)
  doneBy  : List ChipId
  /-- the chain being dispatched: index and header of its CHAIN, operations left, bytes of bodies so far (06 R334, 07 R376) -/
  chain   : Option (Nat × List Byte × Nat × Nat)
  /-- the last host-aperture write through each portal: portal and DVA (09 Table 9-1) -/
  hostWrites : List (ChipId × Nat)
  /-- operations' transfers that failed: index, how many transfers had been issued before, the failure (09 R461) -/
  xferErrs : List (Nat × Nat × Err)
  deriving DecidableEq, Repr

/-- A stream context at reset (log 22 for the generation). -/
def Ctx.reset : Ctx :=
  { gen := 0, use := .free, entered := 0, counted := false, sigsOut := 0, sentTo := [], acksDue := [], staged := [],
    asked := [], readErr := none, queue := [], frags := [], sets := [], heads := [], doneBy := [], chain := none, hostWrites := [], xferErrs := [] }

/-! ## The Gallery (08) -/

/-- The kinds of Gallery object. -/
inductive ObjKind where
  | flag | tally | barrier
  deriving DecidableEq, Repr

/-- A barrier's state (08 Table 8-4). -/
structure Bar where
  count     : BitVec 16
  sense     : Bool
  phase     : BitVec 16
  forwarded : Bool
  deriving DecidableEq, Repr

/-- A barrier at reset. -/
def Bar.reset : Bar := { count := 0, sense := false, phase := 0, forwarded := false }

/-- The LAST fields of an object (08 Table 8-6). -/
structure Last where
  chip : ChipId
  inst : BitVec 6
  kind : BitVec 2
  time : Word64
  deriving DecidableEq, Repr

/-- The LAST fields at reset (08 R994). -/
def Last.reset : Last := { chip := 0, inst := 0, kind := 0, time := 0 }

/-- Where a change came from, which decides what a refusal does (08 R411, R432, R993). -/
inductive SigFrom where
  /-- an operation of this chip, by its table entry -/
  | op (entry : Nat)
  /-- an attached signal of a completed operation of this chip, by context, operation index and header -/
  | attached (ctx : Nat) (idx : Nat) (hdr : List Byte)
  /-- another chip, already acknowledged -/
  | remote
  /-- a host write of a function -/
  | host (fn : Nat)
  /-- a barrier of this chip that forwards -/
  | forward (bar : Nat)
  /-- the device itself: event notices, DONE tallies, probe signals -/
  | device
  deriving DecidableEq, Repr

/-- One change on its way to an object of this chip: an entry of the pending-signal FIFO (08 R413). -/
structure Sig where
  kind   : BitVec 2
  obj    : BitVec 14
  amount : BitVec 16
  inst   : BitVec 6
  chip   : ChipId
  /-- a landing notice: the root's new PHASE (08 R431) -/
  notice : Option (BitVec 16)
  origin : SigFrom
  deriving DecidableEq, Repr

/-- A pending-signal slot (08 Table 8-7). -/
structure Slot where
  src    : ChipId
  tid    : BitVec 24
  sig    : Sig
  /-- a completion increment's IOVF and IRPL -/
  iovf   : Bool
  irpl   : Bool
  pktcnt : BitVec 16
  time   : Word64
  /-- its transfer has committed and it waits for FIFO room (08 R416) -/
  ready  : Bool
  deriving DecidableEq, Repr

/-- What a waiter waits for (08 R420, R989, R430). -/
inductive Cond where
  | flagIs (f : Nat) (state : Bool)
  | tallyGe (t : Nat) (target : Word32)
  | space (producer consumer : Nat) (bufs : BitVec 16)
  | phasePast (b : Nat) (phase : BitVec 16)
  deriving DecidableEq, Repr

/-- A registered waiter: the table entry that waits, its holder (CFE slot, or 0x0800 + tile) and its time limit. -/
structure Waiter where
  entry    : Nat
  holder   : BitVec 16
  cond     : Cond
  deadline : Option Nat
  deriving DecidableEq, Repr

/-- A completion increment: its source, owner context and generation, IOVF and IRPL (07 R380, R991). -/
structure Inc where
  src : ChipId
  ctx : BitVec 10
  gen : BitVec 16
  ovf : Bool
  rpl : Bool
  deriving DecidableEq, Repr

/-- The Gallery of the chip. -/
structure Gallery where
  flags    : Tbl Bool
  tallies  : Tbl Word32
  bars     : Tbl Bar
  /-- LAST fields, flag i at i, tally i at 0x4000 + i, barrier i at 0x8000 + i -/
  last     : Tbl Last
  /-- poisoned objects, numbered as LAST (13 R598) -/
  poisoned : Tbl Bool
  /-- flipped bits of each object's storage word and check byte (13 Table 13-6 code 4) -/
  flips    : Tbl Nat
  fifo     : List Sig
  /-- pending-signal slots 0 to 511 -/
  slots    : Tbl (Option Slot)
  waiters  : List Waiter
  /-- the FIFO source that won last (20 R884) -/
  winner   : Nat
  /-- DONE and notice adds waiting for FIFO room, oldest first -/
  stalled  : List Sig
  /-- completion increments whose transfers have committed, oldest first (07 R991) -/
  incs     : List Inc
  /-- owner contexts whose END passes in the change being applied; none outside one (07 R387) -/
  ends     : Option (List Nat)
  deriving DecidableEq, Repr

/-- The Gallery at reset (08 R848, R994): every object at its reset value, nothing pending. -/
def Gallery.reset : Gallery :=
  { flags := [], tallies := [], bars := [], last := [], poisoned := [], flips := [], fifo := [], slots := [], waiters := [],
    winner := 0, stalled := [], incs := [], ends := none }

end Sys2Proof.Machine
end

