-- ==== Sys2Proof/Machine/BlocksB.lean ====
section
/-! DEFINITION. The parts of the state that belong to links, transfers, the domain, the front-end pair, memory and the endpoint (02, 03, 04, 14). -/

namespace Sys2Proof.Machine

/-! ## Ports and links (02) -/

/-- The link layer of one port (02 "Link layer"). -/
structure Link where
  /-- sequence number of the next new flit -/
  nextSeq  : BitVec 12
  /-- flits sent and not acknowledged, oldest first, with their numbers (at most 512) -/
  unacked  : List (BitVec 12 × Flit)
  /-- consecutive resends without ACKSEQ advancing (02 R84) -/
  stalls   : Nat
  /-- last flit accepted from the partner, and whether one was -/
  rxLast   : BitVec 12
  rxAny    : Bool
  /-- groups are discarded until the resent flits arrive (02 R80) -/
  nakking  : Bool
  /-- an acknowledgement is due (02 R85) -/
  ackDue   : Bool
  /-- flits of credit held for sending, and the amount granted at link-up, by virtual channel (02 R90, R92) -/
  credit   : Tbl Nat
  granted  : Tbl Nat
  /-- virtual channels on which a packet has started: their grant is complete -/
  used     : List Nat
  /-- credit this receiver owes the partner, by virtual channel -/
  owed     : Tbl Nat
  /-- packets routed to the port that wait for credit, oldest first, with their virtual channel -/
  waiting  : List (Nat × Packet)
  /-- flits accepted and not yet consumed as packets -/
  rx       : List Flit
  deriving DecidableEq, Repr

/-- A link that has not come up: numbers start from 0, so the last accepted counts as 0xFFF (02 R80; log 22). -/
def Link.reset : Link :=
  { nextSeq := 0, unacked := [], stalls := 0, rxLast := 0xFFF, rxAny := false, nakking := false, ackDue := false,
    credit := [], granted := [], used := [], owed := [], waiting := [], rx := [] }

/-- One port record (02, 22 FAB_PORT). -/
structure Port where
  st       : PortState
  train    : TrainState
  /-- READY has been sent in the present training state -/
  ready    : Bool
  /-- failed training attempts in a row, and whether the 100 ms wait runs (02 R75) -/
  attempts : Nat
  backoff  : Bool
  /-- 1 PROTO, 2 STANDS, 3 NLEVEL (02 R76) -/
  mismatch : BitVec 3
  preset   : BitVec 3
  /-- inverted receive lanes, lane assignment swapped (02 R61, R72) -/
  invert   : BitVec 2
  swap     : Bool
  partnerPort : BitVec 8
  partnerChip : ChipId
  partnerInc  : BitVec 8
  /-- the partner's serial, drawn when the link comes up (02 Table 2-7; log 46) -/
  partnerSerial : BitVec 48
  inc      : BitVec 8
  resends  : BitVec 16
  link     : Link
  deriving DecidableEq, Repr

/-- A port at reset. -/
def Port.reset : Port :=
  { st := .down, train := .lock, ready := false, attempts := 0, backoff := false, mismatch := 0, preset := 0, invert := 0,
    swap := false, partnerPort := 0, partnerChip := 0, partnerInc := 0, partnerSerial := 0, inc := 0, resends := 0, link := Link.reset }

/-! ## Transfers (02, 08) -/

/-- Why this chip issued a transfer, hence what its end or failure acts on. -/
inductive Purpose where
  /-- output writes of an operation, by table entry, and the DVA of their first byte -/
  | op (entry : Nat) (dva : Nat)
  /-- a CFE-executed signal of an operation -/
  | opSignal (entry : Nat)
  /-- a read of operand bytes of an operation, for DVAs from `dva` on -/
  | opRead (entry : Nat) (dva : Nat) (len : Nat)
  /-- an attached signal, after its operation completed: context, operation index and header, and the DVA of the write it rides -/
  | attached (ctx : Nat) (idx : Nat) (hdr : List Byte) (dva : Nat)
  /-- a read of a buffer, of a fragment table or of a body for a context -/
  | ctxRead (ctx : Nat) (dva : Nat) (len : Nat)
  /-- a completion increment of a share; where it rides the share's last transfer, the share, operation index and header, and the DVA written -/
  | increment (ride : Option (Share × Nat × List Byte × Nat))
  /-- an OPERATION launch, an ABORT and a FAULT_REPORT of a context -/
  | launch (ctx : Nat) (idx : Nat)
  | abort (ctx : Nat)
  | faultReport (ctx : Nat)
  /-- a barrier forward (08 R993) -/
  | forward (bar : Nat)
  /-- a host signal write of a function -/
  | hostSignal (fn : Nat)
  /-- a DATA window write or read of a function -/
  | hostData (fn : Nat)
  | hostRead (fn : Nat) (pos : Nat) (len : Nat)
  /-- a void (02 R985): for a write of an operation of a context, which thereby is dropped (13 R577), or another -/
  | dropped (ctx : Nat)
  | void
  /-- an event-ring write, an image write, a collective's payload -/
  | event
  | image
  | collective (entry : Nat)
  /-- a flush read of FENCE_GLOBAL through another portal -/
  | fence (entry : Nat)
  /-- a read of a ring's shadow producer index in another chip's memory (05 R252) -/
  | shadow (ring : Nat)
  /-- HEARTBEAT, JOURNAL, FENCE_NOTICE, INST_CTL -/
  | ctl
  deriving DecidableEq, Repr

/-- An outstanding transfer of this chip (02 R101, R132 to R135, 13 R594). -/
structure Xfer where
  dst      : ChipId
  tid      : BitVec 24
  pkts     : List Packet
  /-- packet indices of the READ_RSP committed (02 R100) -/
  got      : List Nat
  /-- sends since the last answer (02 R135) -/
  sends    : Nat
  /-- sends of single packets since the last answer -/
  pktSends : Tbl Nat
  /-- RETRY_LATER rounds, and packets that drew RETRY_LATER in the round -/
  rounds   : Nat
  refused  : List Nat
  purpose  : Purpose
  /-- ports its packets have left on since its last send (02 R132) -/
  ports    : List Nat := []
  /-- how many transfers this chip had issued before it -/
  stamp    : Nat := 0
  deriving DecidableEq, Repr

/-- A duplicate window (02 R136 to R138, R987). -/
structure Window256 where
  src      : ChipId
  sinc     : BitVec 8
  base     : BitVec 24
  /-- TIDs committed, from B on, and the outcome of every transfer committed from B - 4,096 on -/
  done     : List (BitVec 24)
  outcomes : List (BitVec 24 × BitVec 8)
  /-- the TID it was opened at, and later TIDs that no ordered transfer waits for: seen with ORD 0, or abandoned here (02 R111; log 33) -/
  first    : BitVec 24
  passed   : List (BitVec 24)
  deriving DecidableEq, Repr

/-- A transfer tracker (08 R434, R435). -/
structure Tracker where
  src    : ChipId
  tid    : BitVec 24
  inst   : BitVec 6
  pktcnt : BitVec 16
  /-- packet indices committed -/
  done   : List Nat
  /-- ORD of its packets; the first refusal among them, 0 for none (Table 8-8) -/
  ord    : Bool
  refusal : Nat
  deriving DecidableEq, Repr

/-- What a packet held for a part waits for (02 R140, R988). -/
structure HeldPacket where
  part   : Nat
  packet : Packet
  deriving DecidableEq, Repr

/-- The fabric unit beyond its ports (02, 08, 22 FAB_). -/
structure Fabric where
  enabled   : Bool
  ports     : Tbl Port
  /-- next TID, by destination (02 R101) -/
  nextTid   : Tbl (BitVec 24)
  /-- transfers asked for since reset, which orders them -/
  issued    : Nat
  xfers     : List Xfer
  /-- transfers that wait for room among the 4,096 of their destination -/
  queued    : List Xfer
  windows   : List Window256
  trackers  : List Tracker
  /-- ordered transfers complete but held behind an earlier TID, oldest first (02 R111) -/
  ordHeld   : List Packet
  /-- ordered transfers refused here and not yet committed: source, TID, instance (02 R111; log 33) -/
  ordDue    : List (ChipId × BitVec 24 × BitVec 6)
  held      : List HeldPacket
  mcHeld    : List HeldPacket
  /-- FAB_REPLAY_COUNT, FAB_PCRC_COUNT and thresholds; FAB_DROP_COUNT -/
  replayCnt : Word32
  replayThr : Word32
  pcrcCnt   : Word32
  pcrcThr   : Word32
  dropCnt   : Word32
  deriving DecidableEq, Repr

/-- The fabric unit at reset. -/
def Fabric.reset : Fabric :=
  { enabled := false, ports := [], nextTid := [], issued := 0, xfers := [], queued := [], windows := [], trackers := [], ordHeld := [], ordDue := [],
    held := [], mcHeld := [], replayCnt := 0, replayThr := 0, pcrcCnt := 0, pcrcThr := 0, dropCnt := 0 }

/-! ## The domain and its formation (02, 14, 19) -/

/-- The roles of FE_ROLE (22). -/
inductive Role where
  | member | frontEnd | standby | dataPortal
  deriving DecidableEq, Repr

/-- Identity and membership (01, 02, 14, 22). -/
structure Dom where
  chipId   : ChipId
  chipInc  : BitVec 8
  depoch   : Word32
  role     : Role
  root     : Bool
  formed   : Bool
  members  : List ChipId
  ever     : List ChipId
  lost     : List ChipId
  /-- incarnation held for each other chip (13 R591) -/
  incs     : Tbl (BitVec 8)
  standby  : Option ChipId
  frontEnd : ChipId
  rootId   : ChipId
  fencedSelf : Bool
  rejected : Bool
  /-- chips that leave the domain at the staged EPOCH commit (14 R618), and the epoch being prepared -/
  leaving  : List ChipId
  preparing : Option Word32
  /-- this chip's own answer to that prepare, while what it ends has not stopped (14 R619): 0, or the status that refuses a command -/
  owed : Option (BitVec 16)
  deriving DecidableEq, Repr

/-- A chip that belongs to no domain. -/
def Dom.reset : Dom :=
  { chipId := 0, chipInc := 0, depoch := 0, role := .member, root := false, formed := false, members := [], ever := [],
    lost := [], incs := [], standby := none, frontEnd := 0, rootId := 0, fencedSelf := false, rejected := false,
    leaving := [], preparing := none, owed := none }

/-- Discovery and election (02 R121 to R128). -/
structure Disc where
  /-- an election is open -/
  active    : Bool
  best      : Word64
  /-- port to the parent -/
  parent    : Option Nat
  /-- ports to the children -/
  children  : List Nat
  /-- the own key has stayed best long enough: candidate root -/
  isRoot    : Bool
  reports   : List Report
  closed    : Bool
  /-- serial and assigned ID, in assignment order -/
  granted   : List (BitVec 48 × ChipId)
  readies   : List (BitVec 48)
  deriving DecidableEq, Repr

/-- No election open. -/
def Disc.reset : Disc :=
  { active := false, best := 0, parent := none, children := [], isRoot := false, reports := [], closed := false,
    granted := [], readies := [] }

/-- The root's bookkeeping of one commit at a domain epoch: a routing swap, a command or an FE_EPOCH_CTL (02 R131, R982). -/
inductive EpochUse where
  | formation | routing
  | command (inst : BitVec 6) (tag : BitVec 8) (opcode : BitVec 8)
  | manager
  | takeover
  deriving DecidableEq, Repr

/-- What the root still waits for before it commits or ends a sequence (02 R131, 15 R682, R687). -/
structure RootWork where
  use      : Option EpochUse
  /-- chips whose prepare is not yet acknowledged -/
  acks     : List ChipId
  /-- chips whose lock is still asked for, and chips whose lock is held, for a command -/
  asking   : List ChipId
  locked   : List ChipId
  /-- chips whose lock the root holds on the manager's behalf (22 R924) -/
  mgrLocks : List ChipId
  /-- chips named lost by the next prepare -/
  losses   : List ChipId
  /-- a routing swap asked for while another commit runs (02 R982) -/
  again    : Bool
  /-- each chip's ports that have left ACTIVE since the last swap, as reported (02 R983) -/
  downs    : List (ChipId × Nat)
  /-- the links of the domain as REPORTed: chip, port, partner, partner's port -/
  links    : List (ChipId × Nat × ChipId × Nat)
  /-- instance stops in progress: instance, members still to answer STOPPED, members still to answer PURGED -/
  stops    : List (Nat × List ChipId × List ChipId)
  /-- commands that wait for the root to be free, oldest first -/
  waitCmds : List (BitVec 6)
  deriving DecidableEq, Repr

/-- No root work. -/
def RootWork.reset : RootWork :=
  { use := none, acks := [], asking := [], locked := [], mgrLocks := [], losses := [], again := false, downs := [],
    links := [], stops := [], waitCmds := [] }

/-! ## The front-end pair (14) -/

/-- One journal record: its bytes, header included (14 R637). -/
abbrev JRec := List Byte

/-- One journal epoch kept until the standby has applied it (14 R641). -/
structure JEpoch where
  num  : Word32
  recs : List JRec
  deriving DecidableEq, Repr

/-- What the standby mirrors of one entry (14 Table 14-5). -/
structure Mirror where
  ring     : Nat
  tag      : Nat
  entry    : List Byte
  admitted : Bool
  replaySafe : Bool
  /-- its applied RECORD: completion ring, index and bytes -/
  record   : Option (Nat × BitVec 32 × List Byte)
  deriving DecidableEq, Repr

/-- The pair (14). -/
structure Pair where
  /-- the active front end's lease is held (14 R631) -/
  lease     : Bool
  /-- the standby has detected heartbeat loss -/
  lossSeen  : Bool
  /-- a claim of this chip is running: GRANTs and DENYs received -/
  claiming  : Bool
  grants    : List ChipId
  denies    : List ChipId
  /-- a former active front end that lost its claim never resumes (14 R635) -/
  beaten    : Bool
  /-- the domain epoch for which this member has granted a claim, and to whom (14 R633) -/
  granted   : Option (Word32 × ChipId)
  /-- last epoch closed (active) and open epoch's records; epochs kept until applied -/
  jepoch    : Word32
  openRecs  : List JRec
  kept      : List JEpoch
  /-- last epoch the standby reported applied -/
  japplied  : Word32
  /-- standby: last epoch applied, packets held of later epochs, RESEND wanted -/
  applied   : Word32
  inbox     : List (Word32 × BitVec 16 × List Byte)
  resend    : Bool
  mirrors   : List Mirror
  /-- completion slots the takeover's scan found, by completion ring, kept until its EPOCH commit (14 R646) -/
  found     : List (Nat × List (List Byte))
  deriving DecidableEq, Repr

/-- No pair. -/
def Pair.reset : Pair :=
  { lease := false, lossSeen := false, claiming := false, grants := [], denies := [], beaten := false, granted := none,
    jepoch := 0, openRecs := [], kept := [], japplied := 0, applied := 0, inbox := [], resend := false, mirrors := [],
    found := [] }

/-! ## Memory and translation (03) -/

/-- A part within the chip that has an incarnation of its own (00 Table 0-3, 13 R587 PART). -/
inductive Part where
  | tile (t : Nat) | cfe | bank (b : Nat) | memc | port (p : Nat)
  deriving DecidableEq, Repr

/-- A request held at a resetting part, or one refused and waiting to be retried (13 R592, R594). -/
structure LocalReq where
  part     : Part
  inc      : BitVec 8
  entry    : Nat
  refusals : Nat
  /-- false: held at the part; true: refused, waiting 50 µs -/
  waiting  : Bool
  deriving DecidableEq, Repr

/-- Memory of the chip (03, 22 MEM_, HALL_, TILE_). -/
structure Mem where
  /-- bytes of DRAM data, the Hall and tile SRAM by LPA; an unlisted byte reads 0x00 (log 6) -/
  bytes    : List Host.Cell
  /-- the flipped bits of each word (8-byte index LPA / 8): [63:0] of its data, [71:64] of its check byte (03 R156, R979) -/
  flips    : Tbl (BitVec 72)
  /-- the bits of each group's tag that differ from the tag R157 gives it: [55:0] of the index, [63:56] of its check byte -/
  tagDiff  : Tbl (BitVec 64)
  /-- key (a generation number above 0) under which each 16-byte cipher block (LPA / 16) was last encrypted (16 R718, R721) -/
  enc      : Tbl Nat
  /-- counters 0 to 3 with thresholds: MEM, HALL, TILE, GAL -/
  ceCnt    : Tbl Word32
  ceThr    : Tbl Word32
  memUeCnt : Word32
  memUeLpa : BitVec 48
  hallUeCnt : Word32
  hallUeLpa : BitVec 48
  scrub    : BitVec 8
  scrubRun : BitVec 8
  scrubPos : BitVec 24
  trained  : BitVec 4
  trainTemp : BitVec 8
  retrains : BitVec 16
  selfRef  : Bool
  refresh  : BitVec 3
  deriving DecidableEq, Repr

/-- Memory at reset: nothing listed. -/
def Mem.reset : Mem :=
  { bytes := [], flips := [], tagDiff := [], enc := [], ceCnt := [], ceThr := [], memUeCnt := 0, memUeLpa := 0,
    hallUeCnt := 0, hallUeLpa := 0, scrub := 0, scrubRun := 0, scrubPos := 0, trained := 0, trainTemp := 0, retrains := 0,
    selfRef := false, refresh := 0 }

/-- Parts within the chip: incarnations, which of them are resetting, and requests that meet them (13 R590 to R595). -/
structure Parts where
  cfeInc   : BitVec 8
  memcInc  : BitVec 8
  bankInc  : Tbl (BitVec 8)
  resetting : List Part
  reqs     : List LocalReq
  deriving DecidableEq, Repr

/-- Parts at reset. -/
def Parts.reset : Parts := { cfeInc := 0, memcInc := 0, bankInc := [], resetting := [], reqs := [] }

/-- A leaf the translation unit caches (03 R175): instance, first DVA, block or page, and the entry. -/
structure Leaf where
  inst  : Nat
  base  : Nat
  block : Bool
  entry : Word64
  deriving DecidableEq, Repr

/-- The translation unit beyond the roots and slots (03, 22 XLT_). -/
structure Xlt where
  cache    : List Leaf
  misses   : Word32
  cset     : Word64
  base     : Word64
  len      : Word32
  inst     : BitVec 6
  all      : Bool
  busy     : Bool
  result   : BitVec 2
  gen      : BitVec 16
  /-- chips that have not reported the running invalidation -/
  waiting  : List ChipId
  /-- an invalidation this chip has still to report: its instance, and how many transfers the chip had issued when it dropped the leaves (03 R180) -/
  pend     : Option (BitVec 6 × Nat)
  deriving DecidableEq, Repr

/-- The translation unit at reset. -/
def Xlt.reset : Xlt :=
  { cache := [], misses := 0, cset := 0, base := 0, len := 0, inst := 0, all := false, busy := false, result := 0,
    gen := 0, waiting := [], pend := none }

/-! ## The endpoint (04) -/

/-- Configuration-space state of one function that the model's rules read (04). -/
structure FnCfg where
  bme     : Bool
  mse     : Bool
  d3hot   : Bool
  msixEn  : Bool
  fnMask  : Bool
  relaxed : Bool
  mps     : BitVec 3
  mrrs    : BitVec 3
  cplTo   : BitVec 4
  /-- an FLR runs (04 R211) -/
  flr     : Bool
  /-- error reporting enables of Device Control: correctable, non-fatal, fatal, Unsupported Request -/
  errEn   : BitVec 4
  /-- AER: uncorrectable status, mask and severity, correctable status and mask, the first error's number, ECRC generation and checking -/
  aerUnc  : Word32
  aerMask : Word32
  aerSev  : Word32
  aerCor  : Word32
  aerCorM : Word32
  aerFirst : BitVec 5
  ecrc    : BitVec 2
  /-- vectors allotted and first entry (22 PCI_VEC) -/
  vecs    : BitVec 11
  vecBase : BitVec 11
  deriving DecidableEq, Repr

/-- A function after a conventional reset, without vectors; MPS 128 bytes, MRRS 512 bytes and the AER masks as PCIe gives, severities as
04 Table 4-6 does (log 23). -/
def FnCfg.reset : FnCfg :=
  { bme := false, mse := false, d3hot := false, msixEn := false, fnMask := false, relaxed := true, mps := 0, mrrs := 2,
    cplTo := 0, flr := false, errEn := 0, aerUnc := 0, aerMask := 0x00400000, aerSev := 0x00462010, aerCor := 0, aerCorM := 0x6000,
    aerFirst := 0, ecrc := 0, vecs := 0, vecBase := 0 }

/-- One entry of the MSI-X table and its pending bit (04 R221, R227). -/
structure Vec where
  addr    : Word64
  data    : Word32
  mask    : Bool
  pending : Bool
  deriving DecidableEq, Repr

/-- A table entry at reset: masked, as PCIe gives (log 23). -/
def Vec.reset : Vec := { addr := 0, data := 0, mask := true, pending := false }

/-- What a host read the device issued is for (04 R216). -/
inductive HostFor where
  | ring (n : Nat) (index : BitVec 32) (count : Nat)
  | buffer (ctx : Nat) (dva : Nat) (len : Nat)
  | operand (entry : Nat) (dva : Nat) (len : Nat)
  | fence (entry : Nat)
  /-- a shadow producer index (05 R252) -/
  | shadow (ring : Nat)
  /-- an accepted entry whose cached copy was uncorrectable, by tag (13 Table 13-6, code 2) -/
  | again (ring : Nat) (tag : Nat)
  /-- a packet READ_REQ of another chip through host forward: the request to answer -/
  | remote (req : Packet)
  | remoteFence (req : Packet)
  /-- what was asked for has been answered otherwise: the bytes go nowhere -/
  | dropped
  deriving DecidableEq, Repr

/-- A host read in flight. -/
structure HostRd where
  tag : Nat
  fn  : Nat
  len : Nat
  use : HostFor
  deriving DecidableEq, Repr

/-- A request of a function that waits behind a write held on a full dirty log (15 R702, 04 R226, R231): a posted write at a bus address, with
whether it may carry Relaxed Ordering and whether it is logged, or the message of a vector. -/
inductive HeldPost where
  | write (addr : Nat) (bytes : List Byte) (relaxed log : Bool)
  | msg (vec : Nat)
  deriving DecidableEq, Repr

/-- The endpoint (04, 22 PCI_). -/
structure Pcie where
  up       : Bool
  rate     : BitVec 3
  width    : BitVec 3
  reversed : Bool
  tags10   : Bool
  l1       : Bool
  /-- configuration requests are answered with Retry Status (19 R818) -/
  crs      : Bool
  /-- link training has begun -/
  training : Bool
  vfEn     : Bool
  numVfs   : BitVec 16
  /-- Subsystem Vendor ID and Subsystem ID, loaded from boot flash on a cold start (19 R848) -/
  subIds   : Word32
  /-- base address registers (04 Table 4-4), by configuration-space offset of the physical function -/
  bars     : Tbl Word32
  fns      : Tbl FnCfg
  vecs     : Tbl Vec
  reads    : List HostRd
  /-- reads that wait for a tag, oldest first: bus address, Relaxed Ordering, the read (04 Table 4-1) -/
  readWait : List (Nat × Bool × HostRd)
  /-- host signal writes waiting for FIFO room or for earlier DATA writes, oldest first: function, home and signal
  (08 R416, 09 R463, R465) -/
  posted   : List (Nat × ChipId × Sig)
  /-- functions whose INST_FENCE read waits (09 R466) -/
  fences   : List Nat
  /-- reads of the INSTANCE window that wait behind the function's posted writes: function, offset, 8 bytes wide (09 R464) -/
  heldReads : List (Nat × Nat × Bool)
  /-- requests held on a full dirty log (15 R702), by function -/
  dlogHeld : List (Nat × HeldPost)
  deriving DecidableEq, Repr

/-- The endpoint at reset: PERST held, 64 vectors allotted to function 0 (04 R220). -/
def Pcie.reset : Pcie :=
  { up := false, rate := 0, width := 0, reversed := false, tags10 := false, l1 := false, crs := true,
    training := false, vfEn := false, numVfs := 0, subIds := 0, bars := [], fns := [(0, { FnCfg.reset with vecs := 64 })], vecs := [], reads := [],
    readWait := [], posted := [], fences := [], heldReads := [], dlogHeld := [] }

/-! ## Instances and the manager (15, 22, 23) -/

/-- The states of an instance (15 R661). -/
inductive InstState where
  | absent | ready | quiescing | quiesced | resetting | destroying
  deriving DecidableEq, Repr

/-- A command answered PENDING (15 R657): its opcode, TAG and message. -/
structure PendCmd where
  opcode : BitVec 8
  tag    : BitVec 8
  msg    : List Byte
  deriving DecidableEq, Repr

/-- One instance and the allotments of the active front end (15). -/
structure Inst where
  state    : InstState
  sqFirst  : Nat
  sqCount  : Nat
  cqFirst  : Nat
  cqCount  : Nat
  rtMax    : Nat
  capGen   : Word32
  /-- instance epoch this chip holds (15 R688) -/
  epoch    : BitVec 7
  pend     : Option PendCmd
  /-- step of Table 15-6 in progress, 0 none -/
  step     : Nat
  /-- no new work starts: STOP received -/
  stopped  : Bool
  dlog     : Bool
  /-- confidential, under construction, measurement (16) -/
  conf     : Bool
  held     : Bool
  final    : Bool
  meas     : List Byte
  deriving DecidableEq, Repr

/-- An instance that does not exist. -/
def Inst.reset : Inst :=
  { state := .absent, sqFirst := 0, sqCount := 0, cqFirst := 0, cqCount := 0, rtMax := 0, capGen := 0, epoch := 0,
    pend := none, step := 0, stopped := false, dlog := false, conf := false, held := false, final := false, meas := [] }

/-- Registers of one function's INSTANCE window beyond its rings (23). -/
structure Fn where
  err      : BitVec 14
  errCnt   : Tbl (BitVec 16)
  cause    : BitVec 7
  cqCause  : BitVec 256
  vecsel0  : Word64
  vecsel1  : Word64
  /-- INST_HALT -/
  halt     : Word64
  /-- INST_DATA_CTL -/
  dataCtl  : Word64
  objSel   : BitVec 16
  objLatch : List Byte
  capSel   : BitVec 16
  drSel    : Word32
  /-- accesses to device-resident rings of other chips under way, oldest first: offset, 8 bytes wide, a write -/
  drAccess : List (Nat × Bool × Bool)
  /-- guilty device-resident rings of the instance on other chips: chip and instance-local ring (23 R952) -/
  drGuilty : List (ChipId × Nat)
  /-- capture slots 0 to 7: the 128-byte record -/
  caps     : Tbl (Option (List Byte))
  /-- mailbox OUT and IN: slot bytes (slot k at 64k, IN from 256), indices -/
  mbx      : Tbl Byte
  outPi    : Word32
  outCi    : Word32
  inPi     : Word32
  inCons   : Word32
  deriving DecidableEq, Repr

/-- A function's registers at reset. -/
def Fn.reset : Fn :=
  { err := 0, errCnt := [], cause := 0, cqCause := 0, vecsel0 := 0, vecsel1 := 0, halt := 0, dataCtl := 0, objSel := 0,
    objLatch := [], capSel := 0, drSel := 0, drAccess := [], drGuilty := [], caps := [], mbx := [], outPi := 0, outCi := 0, inPi := 0,
    inCons := 0 }

/-- The sequence lock (15 R677). -/
structure SeqLock where
  held  : Bool
  agent : BitVec 3
  inc   : BitVec 8
  gen   : BitVec 16
  /-- taken by the root on the manager's behalf (22 R923) -/
  behalf : Bool
  deriving DecidableEq, Repr

/-- A free lock. -/
def SeqLock.reset : SeqLock := { held := false, agent := 0, inc := 0, gen := 0, behalf := false }

/-- The manager's side: queues, remote access, dirty log (15, 22). -/
structure Mgr where
  /-- command slots (byte 64k + j) and indices -/
  cmd     : Tbl Byte
  cmdPi   : Word32
  cmdCi   : Word32
  rsp     : Tbl Byte
  rspPi   : Word32
  rspCons : Word32
  /-- responses that wait for a slot -/
  rspWait : List (List Byte)
  rmtChip : ChipId
  rmtOff  : BitVec 24
  rmtData : Word64
  rmtWrite : Bool
  rmtWide : Bool
  rmtBusy : Bool
  rmtRes  : BitVec 3
  epBusy  : Bool
  epRes   : BitVec 3
  /-- what commands have allotted on the other chips, by chip (15 R664, R670) -/
  remote  : Tbl CfgSet
  deriving DecidableEq, Repr

/-- The manager's side at reset. -/
def Mgr.reset : Mgr :=
  { cmd := [], cmdPi := 0, cmdCi := 0, rsp := [], rspPi := 0, rspCons := 0, rspWait := [], rmtChip := 0, rmtOff := 0,
    rmtData := 0, rmtWrite := false, rmtWide := false, rmtBusy := false, rmtRes := 0, epBusy := false, epRes := 0,
    remote := [] }

/-- The dirty log of this portal (15 R697 to R702, 22). -/
structure Dlog where
  base   : Word64
  size   : BitVec 5
  cons   : Word32
  prod   : Word32
  /-- logged pages since the last ENABLE or CLEAR, oldest first: instance and bus page -/
  filter : List (Nat × Nat)
  deriving DecidableEq, Repr

/-- The dirty log at reset. -/
def Dlog.reset : Dlog := { base := 0, size := 0, cons := 0, prod := 0, filter := [] }

/-- The event ring and the boot log (13, 19 R850). -/
structure Evq where
  prod    : Word32
  drop    : Word32
  bootLog : List (List Byte)
  bootLost : Nat
  deriving DecidableEq, Repr

/-- The event ring at reset. -/
def Evq.reset : Evq := { prod := 0, drop := 0, bootLog := [], bootLost := 0 }

/-- The error-status register of one block (22 Table 22-3): bits and COUNT. -/
structure BlkErr where
  bits  : BitVec 7
  count : BitVec 16
  deriving DecidableEq, Repr

/-- A clear error-status register. -/
def BlkErr.reset : BlkErr := { bits := 0, count := 0 }

/-- One logical tile (14, 22 TILE_MAP). -/
structure Tile where
  phys  : BitVec 8
  inc   : BitVec 8
  lost  : Bool
  beats : Word32
  deriving DecidableEq, Repr

/-- An unmapped tile. -/
def Tile.reset : Tile := { phys := 0, inc := 0, lost := false, beats := 0 }

/-- The tiles and their spares (14, 22 TILE_). -/
structure Tiles where
  map     : Tbl Tile
  spare0  : BitVec 8
  spare1  : BitVec 8
  inServ  : BitVec 2
  failedS : BitVec 2
  failed  : BitVec 34
  lostStands : BitVec 8
  /-- stands reserved to real-time rings, by RT_SLOT: the instance and the mask (05 R274) -/
  reserved : Tbl (BitVec 6 × BitVec 8)
  deriving DecidableEq, Repr

/-- Tiles before the map is built (19 R835). -/
def Tiles.reset : Tiles :=
  { map := [], spare0 := 0, spare1 := 0, inServ := 0, failedS := 0, failed := 0, lostStands := 0, reserved := [] }

end Sys2Proof.Machine
end

