-- ==== Sys2Proof/Machine/BlocksC.lean ====
section
/-! DEFINITION. The parts of the state that belong to the secure world and to functional safety (16, 17, 22). -/

namespace Sys2Proof.Machine

/-- Debug levels (16 Table 16-4). -/
inductive DbgLevel where
  | locked | ns | s
  deriving DecidableEq, Repr

/-- An AK certificate: the AK public key bound to MR0 and MR1, and the signature with the DIK (16 R715; log 109). -/
structure AkCert where
  ak  : List Byte
  mr0 : List Byte
  mr1 : List Byte
  sig : List Byte
  deriving DecidableEq, Repr

/-- The Security Controller (16, 22 SEC_ and DBG_). -/
structure Sec where
  /-- MR0 to MR7, 48 bytes each (R712) -/
  mrs       : Tbl (List Byte)
  /-- key slots filled (R717): instance to generation, none listed for an empty (zeroed) slot; and the last generation drawn, 1 standing for the zeroed pair -/
  keys      : Tbl Nat
  lastGen   : Nat
  zeroized  : Bool
  /-- SEC_CARVE_SIZE in 16 MiB units, and whether the retained-image area is in force (R705, 17 R773) -/
  carve     : BitVec 6
  retained  : Bool
  /-- page ownership: byte [5:0] instance, [6] CONF, by 64 KiB page number of LPA (R722) -/
  owner     : Tbl (BitVec 8)
  /-- bytes of the carve-out: the tables CONF_MAP writes, by LPA, are ordinary memory; next free table page there -/
  nextTable : Nat
  debug     : DbgLevel
  nsSeen    : Bool
  sSeen     : Bool
  refusals  : BitVec 4
  /-- a nonce has been drawn and not used; the nonce bytes, 48 each -/
  dbgNonce  : Option (List Byte)
  coNonce   : Option (List Byte)
  /-- DBG_RESPONSE and SEC_CO_TOKEN as written, 200 bytes -/
  dbgResp   : Tbl Byte
  coToken   : Tbl Byte
  coRes     : BitVec 2
  dbgRes    : BitVec 2
  fuseRefused : Bool
  /-- the public keys of the DIK and the AK, 96 bytes each, and the AK certificate of this boot; empty before SCFW runs and after zeroization -/
  dik       : List Byte
  ak        : List Byte
  akCert    : Option AkCert
  deriving DecidableEq, Repr

/-- The Security Controller at chip reset. -/
def Sec.reset : Sec :=
  { mrs := [], keys := [], lastGen := 1, zeroized := false, carve := 0, retained := false, owner := [], nextTable := 0,
    debug := .locked, nsSeen := false, sSeen := false, refusals := 0, dbgNonce := none, coNonce := none, dbgResp := [],
    coToken := [], coRes := 0, dbgRes := 0, fuseRefused := false, dik := [], ak := [], akCert := none }

/-- SEC_HOLD and the pending requests of held units (16 R737 to R740). -/
structure Hold where
  units   : BitVec 26
  /-- pending request by unit -/
  pending : Tbl (Option (BitVec 4))
  /-- the Security Controller's log of deferred requests: unit and request, oldest first -/
  log     : List (Nat × BitVec 4)
  deriving DecidableEq, Repr

/-- No unit held. -/
def Hold.reset : Hold := { units := 0, pending := [], log := [] }

/-- How far the blanking probe has come (17 R758). -/
inductive ProbeStage where
  | idle
  /-- the pattern is in its frame; the stands granted so far -/
  | running (granted : BitVec 8)
  deriving DecidableEq, Repr

/-- The Safety Monitor (17, 22 SAFE_). -/
structure Safe where
  mode      : Bool
  autoRestart : Bool
  restartLimit : BitVec 3
  crit      : BitVec 16
  pStands   : BitVec 8
  pPeriod   : BitVec 24
  pInst     : BitVec 6
  holdMs    : BitVec 10
  trig      : Word32
  done      : Word32
  dva       : BitVec 48
  lpa       : BitVec 48
  /-- SAFE_STATUS [4:0] and the reason [7:5] -/
  status    : BitVec 5
  reason    : BitVec 3
  armed     : Bool
  /-- SAFE_N is driven high; it is driven at all; and a TEST pulse runs -/
  safeN     : Bool
  testing   : Bool
  /-- FAULT_N is asserted -/
  faultN    : Bool
  probe     : ProbeStage
  /-- the wait on TRIG has passed and the probe has not begun -/
  trigSeen  : Bool
  /-- probes passed since arming, and probes run since the start -/
  pCount    : Word32
  patterns  : Nat
  deriving DecidableEq, Repr

/-- The Safety Monitor at reset (22 Table 22-11). -/
def Safe.reset : Safe :=
  { mode := false, autoRestart := false, restartLimit := 0, crit := 0, pStands := 0, pPeriod := 1000000, pInst := 0,
    holdMs := 0, trig := 0, done := 0, dva := 0, lpa := 0, status := 0, reason := 0, armed := false, safeN := false,
    testing := false, faultN := false, probe := .idle, trigSeen := false, pCount := 0, patterns := 0 }

/-- The safe state and what the always-on domain keeps of it (17 R769 to R776). -/
structure SafeState where
  inSafe    : Bool
  /-- SAFE_LAST_FAULT, 16 bytes as one number, and whether it is latched since SAFE_N last went high -/
  last      : BitVec 128
  latched   : Bool
  /-- time counter at each warm restart begun -/
  restarts  : List Nat
  /-- no warm restart until cold power-up or PERST (R770, R776) -/
  stuck     : Bool
  /-- SAFE_INJECT -/
  inject    : Word32
  /-- SAFE_ENTERED, and ZEROIZED after a collapse, are to be written at the next start (R777, 16 Table 16-8) -/
  untold    : Bool
  collapsed : Bool
  deriving DecidableEq, Repr

/-- No fault recorded. -/
def SafeState.reset : SafeState :=
  { inSafe := false, last := 0, latched := false, restarts := [], stuck := false, inject := 0, untold := false, collapsed := false }

end Sys2Proof.Machine
end

