-- ==== Sys2Proof/Machine/BlocksD.lean ====
section
/-! DEFINITION. The parts of the state that belong to fuses, start, flash, pins, clocks and power (18, 19, 20, 22), and what the chip sends. -/

namespace Sys2Proof.Machine

/-- The fuse bank, but for the device unique secret, which nothing reads (16 R703, R713). -/
structure Fuses where
  grade     : Grade
  stepping  : Stepping
  serial    : BitVec 48
  fusedOff  : BitVec 34
  /-- minimum SVN of TYPE 1 to 4 (16 R709) -/
  svnMin    : Tbl (BitVec 8)
  /-- SHA-384 digests of the root keys 0 to 3 and revocations -/
  rootDig   : Tbl (List Byte)
  revoked   : BitVec 4
  /-- the two debug key digests (16 R733) -/
  dbgDig    : Tbl (List Byte)
  eval      : Bool
  /-- VPP_FUSE is within its operating range (18 R799) -/
  vppOk     : Bool
  deriving DecidableEq, Repr

/-- The fused values of the part modelled (log 5). -/
def Fuses.part : Fuses :=
  { grade := .F, stepping := .B0, serial := 1, fusedOff := 0, svnMin := [], rootDig := [], revoked := 0, dbgDig := [],
    eval := false, vppOk := true }

/-- The start states (19 Table 19-2). -/
inductive StartState where
  | reset | rom | memtrain | meminit | bist | images | inject | fabric | frontend | ready | recovery | failed | safe
  | hibernate
  deriving DecidableEq, Repr

/-- The running images: TYPE to VERSION [23:8] and SVN [7:0] (16 Table 16-6). -/
structure ImageInfo where
  version : BitVec 16
  svn     : BitVec 8
  slot    : BitVec 2
  /-- its manifest, 256 bytes -/
  manifest : List Byte
  deriving DecidableEq, Repr

/-- No image. -/
def ImageInfo.none_ : ImageInfo := { version := 0, svn := 0, slot := 0, manifest := [] }

/-- Start-up (19, 22 FE_BOOT_REPORT). -/
structure Boot where
  state    : StartState
  /-- 0 power-up, 1 SYS_RST_N, 2 PCIE_PERST_N, 3 warm restart -/
  kind     : BitVec 2
  result   : BitVec 8
  detail   : BitVec 16
  results  : BitVec 8
  /-- time counter at the start's beginning and at entry into the present state -/
  began    : Nat
  entered  : Nat
  nlevel   : BitVec 8
  mode     : BitVec 2
  i2cAddr  : BitVec 3
  testMode : BitVec 1
  /-- the 4 KiB configuration area as applied (Table 19-5); empty before -/
  cfg      : List Byte
  images   : Tbl ImageInfo
  /-- IMAGES has ended: MGMT reads are served -/
  served   : Bool
  /-- in FAILED or SAFE after IMAGES -/
  railsOk  : Bool
  sysRst   : Bool
  perstLow : Bool
  /-- retained images in place (17 R773) -/
  hasRetained : Bool
  /-- the first start after power-up of the always-on domain does not advance incarnations (13 R590) -/
  firstStart : Bool
  /-- ports DOWN until the next start, their injection having failed (19 R840) -/
  deadPorts : BitVec 24
  deriving DecidableEq, Repr

/-- Start-up at reset: the always-on domain powered, rails within range, SYS_RST_N and PCIE_PERST_N low (log 4). -/
def Boot.reset : Boot :=
  { state := .reset, kind := 0, result := 0, detail := 0, results := 0, began := 0, entered := 0, nlevel := 0, mode := 0,
    i2cAddr := 0, testMode := 0, cfg := [], images := [], served := false, railsOk := true, sysRst := true,
    perstLow := true, hasRetained := false, firstStart := true, deadPorts := 0 }

/-- Boot flash, outside the package (19 R824, R825); erased cells read 0xFF (log 20). -/
structure Flash where
  bytes   : Tbl Byte
  /-- SFDP is valid, and the read modes it reports: bit 0 1-1-1, bit 1 1-1-4, bit 2 1-4-4 -/
  sfdp    : Bool
  modes   : BitVec 3
  offset  : Word32
  busy    : Bool
  err     : Bool
  /-- length in bytes the device gives -/
  size    : Nat
  deriving DecidableEq, Repr

/-- An erased flash of 32 MiB with SFDP (log 20). -/
def Flash.reset : Flash :=
  { bytes := [], sfdp := true, modes := 7, offset := 0, busy := false, err := false, size := 0x2000000 }

/-- GPIO and WAKE (18, 22 FE_GPIO). -/
structure Pins where
  gpioDir  : BitVec 8
  gpioOut  : BitVec 8
  gpioIn   : BitVec 8
  gpioFunc : BitVec 8
  deriving DecidableEq, Repr

/-- Every GPIO an input (18 R803). -/
def Pins.reset : Pins := { gpioDir := 0, gpioOut := 0, gpioIn := 0, gpioFunc := 0 }

/-- Clocks and the time counter (20, 22 CLK_). -/
structure Clk where
  /-- the time counter, ns (R878) -/
  time     : Word64
  /-- ns added in each ACLK cycle -/
  inc      : Nat
  /-- TSYNC hold: the counter does not advance until time has caught up by this many ns (R881) -/
  hold     : Nat
  tsyncVal : Word64
  tsyncStep : Word64
  cclkMax  : BitVec 11
  cclk     : BitVec 11
  mon      : BitVec 7
  deriving DecidableEq, Repr

/-- Clocks at power-up of the always-on domain (log 3, log 21). -/
def Clk.reset : Clk :=
  { time := 0, inc := 10, hold := 0, tsyncVal := 0, tsyncStep := 0, cclkMax := 1100, cclk := 1100, mon := 0 }

/-- Nanoseconds a unit has spent at RUN, in lower states, throttled, and with a request pending (20 R872, 22 PWR_RES; log 61). -/
structure Residency where
  run  : Nat
  low  : Nat
  slow : Nat
  wait : Nat
  deriving DecidableEq, Repr

def Residency.reset : Residency := { run := 0, low := 0, slow := 0, wait := 0 }

/-- One power unit (20, 22 PWR_UNIT_STATE). Its states but RETENTION follow from what the unit does. -/
structure PUnit where
  status : BitVec 2
  /-- the latest request, and the one in force: 1 AUTO, 2 NO_SLEEP, 3 PARK -/
  req    : BitVec 4
  mode   : BitVec 4
  /-- a tile in RETENTION, a stand parked in it -/
  retention : Bool
  /-- duty in sixteenths below 16: 0 is full duty -/
  cut    : BitVec 5
  throttling : Bool
  /-- time counter of the last THROTTLE event plus one; 0 none -/
  lastEvt : Nat
  deriving DecidableEq, Repr

/-- A unit at reset: AUTO, RUN, full duty. -/
def PUnit.reset : PUnit :=
  { status := 0, req := 1, mode := 1, retention := false, cut := 0, throttling := false, lastEvt := 0 }

/-- The Power Manager (20, 22 PWR_). -/
structure Pwr where
  limit    : BitVec 8
  tlimit   : BitVec 8
  units    : Tbl PUnit
  hibStatus : BitVec 2
  /-- chip power in mW, the samples of the last 1 ms, latest first (20 R863, R872) -/
  samples  : List Nat
  wakeCnt  : Word32
  /-- junction hold (R861), power throttling (R864) -/
  junction : Bool
  powerThr : Bool
  /-- the power limit is being held: an episode has begun; time counter of its last event plus one (R885) -/
  limiting : Bool
  limitEvt : Nat
  /-- readings of sensors 0 to 43, 0.25 °C, signed -/
  sensors  : Tbl (BitVec 12)
  resid    : Tbl Residency
  deriving DecidableEq, Repr

/-- The Power Manager at reset on the part modelled (22 Table 22-13). -/
def Pwr.reset : Pwr :=
  { limit := 96, tlimit := 100, units := [], hibStatus := 0, samples := [], wakeCnt := 0, junction := false, powerThr := false,
    limiting := false, limitEvt := 0, sensors := [], resid := [] }

/-! ## What the chip sends -/

/-- One thing the chip has sent to the outside, in the order sent. -/
inductive Out where
  /-- a group of flits on a port and the link control word that closes it (02 R78, R86) -/
  | group (port : Nat) (flits : List Flit) (w : Lcw)
  /-- an empty link control word -/
  | lcw (port : Nat) (w : Lcw)
  /-- a training set (on L0 and on L1), FENCE or DOWN block pair begun on a port -/
  | ts (port : Nat) (t0 t1 : TrainSet)
  | fenceBlocks (port : Nat) (chip : ChipId) (inc : BitVec 8)
  | downBlocks (port : Nat)
  /-- a posted write or read request of a function to host memory, with its Relaxed Ordering attribute; No Snoop is never set (04 R214, R215) -/
  | hostWrite (fn : Nat) (addr : Nat) (bytes : List Byte) (relaxed : Bool)
  | hostRead (fn : Nat) (tag : Nat) (addr : Nat) (len : Nat) (relaxed : Bool)
  | msix (fn vec : Nat) (addr : Word64) (data : Word32)
  /-- the completion of a host read: data, Unsupported Request, Completer Abort, or Retry Status -/
  | completion (fn : Nat) (bytes : List Byte)
  | unsupported (fn : Nat)
  | completerAbort (fn : Nat)
  | retryStatus (fn : Nat)
  /-- an error message of a function (04 R233) -/
  | errorMessage (fn : Nat) (severity : Severity)
  /-- what a debugger's read returns (16 Table 16-4; log 98) -/
  | debugData (bytes : List Byte)
  /-- the chip reports itself fenced on its management interfaces (02 R144; log 100) -/
  | selfFenced
  /-- the AK certificate issued at a boot, with the DIK certificate that boot flash holds (16 R715; log 109) -/
  | akCertificate (dikCert : List Byte) (c : AkCert)
  /-- bytes read over I2C, and a command not acknowledged -/
  | i2c (bytes : List Byte)
  | i2cNack
  /-- a line on the UART console: state, result, detail, elapsed ms -/
  | uart (state : StartState) (result : BitVec 8) (detail : BitVec 16) (elapsed : Nat)
  deriving DecidableEq, Repr

/-- A collective this chip takes part in, or has heard of, by the key of 11 R550: its instance and its context's generation, announcements by
rank with their check status, contributions by rank as element index and bytes (rank P holds results committed elsewhere), whether it
has sent its own, and the operation once it has completed here (12 R564). -/
structure Coll where
  key       : List Byte
  inst      : Nat
  gen       : BitVec 16
  announced : Tbl (Option (BitVec 16))
  data      : Tbl (List (Nat × List Byte))
  asked     : Bool
  past      : Option OpEntry
  deriving DecidableEq, Repr

end Sys2Proof.Machine
end

