-- ==== Sys2Proof/Syntax.lean ====
section
/-! DEFINITION. The commands: one constructor per row of spec/opcode_table.json, with the row's operands.
Operands are what the outside supplies: written values, arriving packets and blocks, readings, verdicts of self-tests. -/

namespace Sys2Proof

open Machine

/-- How a remote register access ends (22 R920). -/
inductive RmtEnd where
  | answer (p : Packet)
  | lost
  | noReply
  deriving DecidableEq, Repr

/-- The commands of the block. A function is named by its number (0 the physical function), a portal ring and a
device-resident ring by its number on this chip, an operation by its dependency-table entry, a buffer by its context. -/
inductive Instr where
  -- host windows and configuration space (04, 05, 09, 13, 15, 22, 23)
  | sqDoorbell (fn ring : Nat) (value : Word32)
  | shadowPiPoll (ring : Nat)
  | cqDoorbell (fn ring : Nat) (value : Word32)
  | ringEnable (kind : RingKind) (fn ring : Nat) (size : BitVec 5)
  | registerWrite (win : Window) (fn off width : Nat) (value : Option Word64)
  | guiltyAck (fn : Nat) (value : Word64)
  | instSignal (fn : Nat) (value : Word64)
  | instFence (fn : Nat)
  | instFenceDone (fn : Nat)
  | dataWindowWrite (fn off : Nat) (bytes : List (Option Byte))
  | dataWindowRead (fn off len : Nat)
  | dataCtlWrite (fn : Nat) (value : Word64)
  | objSelWrite (fn : Nat) (value : Word32)
  | objRecordRead (fn : Nat)
  | drRegisterAccess (fn off : Nat) (wide : Bool) (write : Option Word64)
  | drAccessReply (fn : Nat) (reply : Option Packet)
  | mbxOutDoorbell (fn : Nat) (value : Word32)
  | mbxInConsume (fn : Nat) (value : Word32)
  | mbxVfInProduce (fn : Nat) (value : Word32)
  | mbxVfOutConsume (fn : Nat) (value : Word32)
  | mbxRspConsume (value : Word32)
  | instCauseClear (fn reg : Nat) (value firing : Word64)
  | errorStatusClear (fn : Nat) (value : Word32)
  | blockErrClear (block : Nat) (value : Word32)
  | msixUnmask (fn : Nat) (vec : Option Nat)
  | coalTimerExpiry (ring : Nat)
  | functionLevelReset (fn : Nat)
  | vfDisable
  | pfFlr
  | hotReset (linkLoss : Bool)
  | perstAssert
  | perstSafeReset
  | perstDeassert
  | configRequest (fn off : Nat) (write : Option Word32)
  | busMasterClear (fn : Nat) (d3hot : Bool)
  | busMasterSet (fn : Nat)
  | numvfsWrite (value : BitVec 16)
  | poisonedWrite (fn : Nat) (err : TlpError)
  | hostReadComplete (tag : Nat) (reply : HostReply)
  | completionTimeout (tag : Nat)
  -- rings and dispatch (05, 06, 07)
  | ringFetch (ring : Nat)
  | entryJudge (ring : Nat)
  | admission
  | checkPass (ctx : Nat)
  | dispatchRead (ctx : Nat)
  | remoteLaunchOperation (p : Packet)
  | bodyReadDone (entry : Nat)
  | abortReceived (p : Packet)
  | faultReportReceived (p : Packet)
  | abortAck (p : Packet)
  | tableEntry (ctx : Nat)
  | standGrant
  | opComplete (entry : Nat) (check : Check)
  | completionIncrement (ctx : BitVec 10) (gen : BitVec 16) (ovf replayed : Bool)
  | hangTimeout (ring : RingRef)
  -- operations (06, 10, 11)
  | nop (entry : Nat)
  | end_ (ctx : Nat)
  | copy (entry : Nat)
  | setFlag (entry : Nat)
  | clearFlag (entry : Nat)
  | test (entry : Nat)
  | wait (entry : Nat)
  | tallyAdd (entry : Nat)
  | tallyWait (entry : Nat)
  | tallyWaitSpace (entry : Nat)
  | barrierArrive (entry : Nat)
  | fenceGlobal (entry : Nat)
  | chain (entry : Nat)
  | condEnqueue (entry : Nat)
  | condEnqueuePush (entry : Nat)
  | signalPeer (entry : Nat)
  | timestamp (entry : Nat)
  | matmul (entry : Nat)
  | conv (entry : Nat)
  | quantize (entry : Nat)
  | dequantize (entry : Nat)
  | attention (entry : Nat)
  | norm (entry : Nat)
  | softmax (entry : Nat)
  | elementwise (entry : Nat)
  | reduce (entry : Nat)
  | gather (entry : Nat)
  | scatter (entry : Nat)
  | sample (entry : Nat)
  | copyTransform (entry : Nat)
  | allReduce (entry : Nat)
  | reduceScatter (entry : Nat)
  | allGather (entry : Nat)
  | collectiveAnnounce (p : Packet)
  | collectiveContribution (p : Packet)
  | replayContributionRequest (p : Packet)
  | replayFailureNotice (p : Packet)
  | waitTimeout (entry : Nat)
  | galleryApply
  | fifoRoom
  -- ports and links (02)
  | blockLockLoss (port : Nat)
  | laneLoss (port : Nat)
  | trainingAdvance (port : Nat) (b0 b1 : Block)
  | trainingTimeout (port : Nat)
  | trainingBackoff (port : Nat)
  | downReceived (port : Nat)
  | flitGroup (port : Nat) (pairs : List (Block × Block))
  | replayTimeout (port : Nat)
  | resendLimit (port : Nat) (retrained : Bool)
  | ackDeadline (port : Nat)
  -- packets and transfers (02, 08)
  | packetReceive (port : Nat) (p : Packet)
  | writePacket (p : Packet)
  | readReq (p : Packet)
  | readRsp (p : Packet)
  | xferAck (p : Packet)
  | e2eNakCrc (p : Packet)
  | e2eNakStale (p : Packet) (inc : BitVec 8)
  | e2eNakRetryLater (p : Packet)
  | retryLaterResend (dst : ChipId) (tid : BitVec 24)
  | e2eNakAbandoned (p : Packet)
  | xferAckTimeout (dst : ChipId) (tid : BitVec 24)
  | voidReceive (p : Packet)
  | multicastReceive (port : Nat) (p : Packet)
  | multicastHoldExpiry (index : Nat)
  | partResetHoldExpiry (index : Nat)
  | windowReclaim (src : ChipId)
  | transferAbandon (src : ChipId) (tid : BitVec 24)
  | fenceNotice (p : Packet)
  | fenceReceived (ports : List Nat)
  -- discovery, formation and routing swaps (02, 14, 19)
  | elect (port : Nat) (p : Packet)
  | rootTimer
  | parent (port : Nat) (p : Packet)
  | report (port : Nat) (p : Packet)
  | assign (port : Nat) (p : Packet)
  | reject (port : Nat) (p : Packet)
  | discReady (port : Nat) (p : Packet)
  | collectionClose (sinceFabric sinceReport : Nat)
  | formationWaitExpiry
  | assignTimeout
  | mgmtPacket (p : Packet)
  | epochPrepare (p : Packet)
  | epochCommit (p : Packet)
  | portLeftActive (p : Packet)
  | chipLossDeclare (chip : ChipId) (by_ : Option Packet)
  -- the front-end pair (14)
  | beatTimer
  | beat (via : Option Nat) (p : Packet)
  | echo (p : Packet)
  | leaseLapse
  | heartbeatLoss
  | claim (p : Packet)
  | grant (p : Packet) (found : List (Nat × List (List Byte)))
  | deny (p : Packet)
  | claimTimeout
  | journalEpochClose
  | journal (p : Packet)
  | journalForward (p : Packet)
  -- instance stop and purge (15)
  | instStop (p : Packet)
  | instStopped (p : Packet)
  | instPurge (p : Packet)
  | instPurged (p : Packet)
  -- memory, tiles, parts (03, 13, 14)
  | scrubPass
  | sramScrub (persist : List Nat)
  | wckRetrain (temp : BitVec 8)
  | beatMissed (tile : Nat)
  | tileFault (tile : Nat)
  | partHoldExpiry (index : Nat)
  | localRetry (index : Nat)
  | partTimeout (entry : Nat) (part : Part) (held : BitVec 8)
  | xltInvalGo (value : Word64)
  | invalReport (p : Packet)
  -- manager commands (15)
  | create
  | destroy
  | setStands
  | setVectors
  | setDrrings
  | objAssign
  | shareGroup
  | objReset
  | xltRoot
  | hostSlot
  | query
  | quiesce
  | quiesceComplete (inst : Nat)
  | resume
  | save
  | restore (host : List Byte)
  | dlogEnable
  | dlogClear
  | dlogFlush
  | dlogDisable
  | dlogRoom
  -- the secure world (16, 22)
  | confCreate
  | confAssign
  | confMap
  | confLoad (host : List Byte)
  | confFinalize
  | confRelease
  | attest
  | svnCommit
  | zeroize
  | coNonceRead
  | dbgChallengeRead
  | debugUnlock
  -- locks and remote access (15, 22)
  | seqlockAcquire (agent : BitVec 3)
  | seqlockCommit (agent : BitVec 3)
  | seqlockAbandon (agent : BitVec 3)
  | rmtRead (wide : Bool)
  | rmtWrite (wide : Bool)
  | rmtReply (e : RmtEnd)
  | epochCtlCommit
  | epochCtlAbandon
  -- power, heat, clocks (20)
  | pwrAuto (unit_ : Nat)
  | pwrNoSleep (unit_ : Nat)
  | pwrPark (unit_ : Nat)
  | hibernateEnter
  | hibernateExit (cause : BitVec 2)
  | wakeEdge
  | tileRetentionTimer (tile : Nat)
  | selfRefreshTimer
  | thermalThrottleStep (unit_ : Nat) (reading : BitVec 12)
  | junctionHold (median : BitVec 12)
  | powerSample (milliwatts : Nat)
  | timeRecalibrate (inc : Nat)
  | tsyncEdge
  -- functional safety (17)
  | safeArm
  | safeDisarm
  | safeTest
  | safeTestEnd (readbackLow : Bool)
  | safeStatusClear (value : Word32)
  | probeRun
  | probeStandGrant (stand : Nat)
  | probeCompare (v : Verdict)
  | probeLate
  | safeStateEnter (source detail : BitVec 8)
  | safeHoldExpiry
  | safetyWatchdog
  | clockLoss (clock : Nat)
  | supplyExcursion (rail : Nat)
  | supplyCollapse
  -- start (19)
  | powerUpAon
  | sysRstAssert
  | sysRstRelease (mode : BitVec 2) (i2cAddr : BitVec 3) (testMode : BitVec 1)
  | bootRom (selfTest : Option (BitVec 8)) (romDigest : List Byte) (keys : List (List Byte))
  | memtrain (failure : Option (BitVec 4 × BitVec 4))
  | meminit
  | bist (failedTiles : List Nat) (repaired : List Nat) (fatal : Option (Bool × Nat))
  | images (keys : List (List Byte)) (golden : Bool)
  | inject (failures : List (Nat × Nat))
  | fabric
  | frontend
  | eventRingRoom
  -- I2C management slave (18, 19): each command with the slave address it is sent to
  | i2cBootReport (addr : BitVec 7)
  | flashAddr (addr : BitVec 7) (value : Word32)
  | flashRead (addr : BitVec 7) (count : Nat)
  | flashProgram (addr : BitVec 7) (bytes : List Byte)
  | flashErase (addr : BitVec 7) (code : Byte)
  | flashStatus (addr : BitVec 7)
  | i2cRestart (addr : BitVec 7) (code : Byte)
  | i2cBusTimeout
  -- rows added at the end of the table
  | epochPrepareAck (p : Packet)
  | mgmtAnswer (p : Packet)
  | declarationToStandby (p : Packet)
  | progressBeat (tile : Nat)
  | commandDoorbell (value : Word32)
  | partLeavesReset (part : Part) (begins : Bool)
  | pcieLinkUp (rate width : BitVec 3)
  | supplyReturn
  deriving DecidableEq, Repr

end Sys2Proof
end

