-- ==== Sys2Proof/Decode.lean ====
section
/-! DEFINITION. The decoder: no row of spec/opcode_table.json gives bits, so no word spells a command. -/

namespace Sys2Proof

/-- The command that `w`, numbered as the table numbers bits, spells: none of the 262 rows gives an encoding
(every "fields" list is empty), so the answer is none (log 25). -/
def decodeTableWord (nbits w : Nat) : Option Instr :=
  match nbits, w with
  | _, _ => none

end Sys2Proof
end

