-- ==== Sys2Proof/Config.lean ====
section
/-! DEFINITION. What an implementation fixes and what the spec leaves open: the free values. -/

namespace Sys2Proof.Config

/-- The free value number `n`: a natural number nothing is known of (log entry 8).
The step reads the counter `State.fresh`, takes `free fresh` and advances the counter;
a value of width `w` is its low `w` bits. Entropy (16 R716), nonces (16 R733, 22 R941, R945), keys,
signatures (16 R730), ciphertext (16 R721) and every result the spec states as undefined are drawn from it. -/
opaque free : Nat → Nat

/-- Byte `off` of the probe pattern blocks for a numerics level (17 "Sequence and timing"): they come with the SMFW image, and the spec
does not give them (log 68). -/
opaque probePattern : Nat → Nat → BitVec 8

/-- The payload bytes of a DISC, EPOCH, FENCE_NOTICE or MGMT packet that says this: the spec lays none out (02 Table 2-6; logs 15 to 17). -/
opaque ctlPayload : Machine.CtlMsg → List (BitVec 8)

/-- Norsil's PCI-SIG vendor ID, which the spec does not give (04 Table 4-2; log 70). -/
opaque vendorId : BitVec 16

/-- Lost-stand mask of another chip, which nothing tells this one (23 INST_CAP_CHIP; log 74). -/
opaque lostStands : Nat → Nat

/-- The check byte of 8 bytes of data, or of the 7 bytes of a tag: the spec names an odd-weight-column (72,64) code and gives no matrix (03 R156, R157;
log 104). -/
opaque secded : BitVec 64 → BitVec 8

/-- What a 16-byte block (LPA / 16) encrypted under a key holds in raw DRAM, byte by byte: the keys are nowhere to be read (16 R718; log 104). -/
opaque cipher : Nat → Nat → List (BitVec 8) → Nat → BitVec 8

/-- The public key of the key pair the KDF derives from the DUS, which nothing outside reads, for a label (0 DIK, 1 AK) and a context (16 R713;
log 109). -/
opaque derivedKey : Nat → List (BitVec 8) → List (BitVec 8)

/-- Where the Hall keeps a fetched entry of a portal ring by tag, a pushed entry of a device-resident ring by tag, and a packet's worth of a journal
epoch: the number of its place in its part (03 Table 3-2; log 107). -/
opaque cachePlace : Nat → Nat → Nat
opaque pushPlace : Nat → Nat → Nat
opaque journalPlace : Nat → Nat → Nat

end Sys2Proof.Config
end

