-- ==== Sys2Proof/Machine/Bytes.lean ====
section
/-! DEFINITION. Bytes, little-endian fields and the three cyclic codes (00 R7, R8; 02 R79, R94). -/

namespace Sys2Proof.Machine

/-- The number that bytes in little-endian order spell (00 R8). -/
def ofLe : List Byte → Nat
  | [] => 0
  | b :: t => b.toNat + 256 * ofLe t

/-- The low `n` bytes of a number, little-endian (00 R8). -/
def toLe : Nat → Nat → List Byte
  | 0, _ => []
  | n + 1, v => BitVec.ofNat 8 v :: toLe n (v / 256)

/-- Field [lo + len - 1 : lo] of a number (00 R7). -/
def fld (v lo len : Nat) : Nat := (v >>> lo) % 2 ^ len

/-- Bit [n] of a number. -/
def bit (v n : Nat) : Bool := fld v n 1 == 1

/-- One or zero. -/
def b2n (b : Bool) : Nat := if b then 1 else 0

/-- The byte at offset `i`; zero past the end. -/
def byteAt (bs : List Byte) (i : Nat) : Byte := bs.getD i 0

/-- The little-endian number of `n` bytes at offset `i`. -/
def leAt (bs : List Byte) (i n : Nat) : Nat := ofLe ((bs.drop i).take n)

/-- `n` zero bytes. -/
def zeros (n : Nat) : List Byte := List.replicate n 0

/-- Bytes padded with zeros, or cut, to length `n`. -/
def padTo (n : Nat) (bs : List Byte) : List Byte := (bs ++ zeros n).take n

/-- `bs` with the bytes `new` put at offset `i` (inside its length). -/
def putAt (bs : List Byte) (i : Nat) (new : List Byte) : List Byte :=
  bs.take i ++ (new ++ bs.drop (i + new.length)).take (bs.length - i)

/-- Whether every byte is zero. -/
def allZero (bs : List Byte) : Bool := bs.all (fun b => b == 0)

/-- The signed value of the low `w` bits (00 R10). -/
def sext (w v : Nat) : Int := if v % 2 ^ w < 2 ^ (w - 1) then (v % 2 ^ w : Nat) else (v % 2 ^ w : Nat) - (2 ^ w : Nat)

/-- The value modulo 2^w of an integer. -/
def wrap (w : Nat) (v : Int) : Nat := (v % (2 ^ w : Nat)).toNat

/-- How many bits are set. -/
def ones {w : Nat} (v : BitVec w) : Nat := (List.range w).countP (fun i => v.getLsbD i)

/-- Saturating add of one to a `w`-bit count. -/
def satInc {w : Nat} (c : BitVec w) : BitVec w := if c = BitVec.allOnes w then c else c + 1

/-- Saturating add. -/
def satAdd {w : Nat} (c : BitVec w) (n : Nat) : BitVec w :=
  if 2 ^ w ≤ c.toNat + n then BitVec.allOnes w else BitVec.ofNat w (c.toNat + n)

/-! ## Reflected 32-bit codes -/

/-- One step of a reflected 32-bit code: the low bit out, the reversed polynomial in. -/
def crcBit (poly c : Nat) : Nat := if c % 2 = 1 then Nat.xor (c / 2) poly else c / 2

/-- One byte through a reflected 32-bit code. -/
def crcByte (poly c : Nat) (b : Byte) : Nat :=
  let x := Nat.xor c b.toNat
  crcBit poly (crcBit poly (crcBit poly (crcBit poly (crcBit poly (crcBit poly (crcBit poly (crcBit poly x)))))))

/-- A reflected 32-bit code with initial value and final XOR of all ones. -/
def crc32With (poly : Nat) (bs : List Byte) : BitVec 32 :=
  BitVec.ofNat 32 (Nat.xor (bs.foldl (crcByte poly) 0xFFFFFFFF) 0xFFFFFFFF)

/-- CRC-32 with polynomial 0x04C1_1DB7 (02 R94), reversed 0xEDB8_8320. -/
def crc32 (bs : List Byte) : BitVec 32 := crc32With 0xEDB88320 bs

/-- CRC-32C with polynomial 0x1EDC_6F41 (02 R79), reversed 0x82F6_3B78. -/
def crc32c (bs : List Byte) : BitVec 32 := crc32With 0x82F63B78 bs

/-- One bit, most significant first, of the 16-bit code with polynomial 0x1021 (02 R79). -/
def crc16Bit (c : Nat) (b : Bool) : Nat :=
  let top := bit c 15
  let sh := (c * 2) % 65536
  if top != b then Nat.xor sh 0x1021 else sh

/-- One byte through the 16-bit code. -/
def crc16Byte (c : Nat) (b : Byte) : Nat :=
  (List.range 8).foldl (fun c i => crc16Bit c (bit b.toNat (7 - i))) c

/-- CRC-16 with polynomial 0x1021, initial value 0xFFFF, no final XOR (02 R79). -/
def crc16 (bs : List Byte) : BitVec 16 := BitVec.ofNat 16 (bs.foldl crc16Byte 0xFFFF)

end Sys2Proof.Machine
end

