-- ==== Sys2Proof/Machine/State.lean ====
section
/-! DEFINITION. The state of one YF-30 chip, the ways a step can stop, and the state after reset. -/

namespace Sys2Proof.Machine

/-- The faults of the block. The chip itself never stops: every failure of the spec is a status, an event or a state. -/
inductive Fault where
  /-- no meaning raises it: kept so that the type has a value; nothing depends on it (safe) -/
  | unreachable
  deriving DecidableEq, Repr

/-- The refusals of the block. -/
inductive Refusal where
  /-- a command whose arm has no meaning yet, by its mnemonic (safe: the machine stops) -/
  | notModelled (mnemonic : String)
  /-- TEST_MODE was sampled high: Norsil production test, outside the spec (18 R798); raised by SYS_RST_RELEASE (safe) -/
  | productionTest
  deriving DecidableEq, Repr

/-- One YF-30 chip, with the commands that wait for it and what it has sent. -/
structure State where
  /-- commands waiting, first in first out (the model's own) -/
  pending  : List Instr
  /-- what the chip has sent to the outside, oldest first (the model's own) -/
  out      : List Out
  /-- next free value (the model's own, log 8) -/
  fresh    : Nat
  fuses    : Fuses
  boot     : Boot
  flash    : Flash
  pins     : Pins
  clk      : Clk
  pwr      : Pwr
  hold     : Hold
  /-- active and shadow configuration sets (15) -/
  act      : CfgSet
  shd      : CfgSet
  lock     : SeqLock
  dom      : Dom
  disc     : Disc
  rootw    : RootWork
  pair     : Pair
  fab      : Fabric
  mem      : Mem
  parts    : Parts
  tiles    : Tiles
  xlt      : Xlt
  pcie     : Pcie
  insts    : Tbl Inst
  fns      : Tbl Fn
  sqs      : Tbl Sq
  cqs      : Tbl Cq
  drs      : Tbl Dr
  /-- stream contexts, dependency table, CFE slots in use (slot to entry + 1) and stand holders (stand to entry + 1) -/
  ctxs     : Tbl Ctx
  ops      : Tbl (Option OpEntry)
  slots    : Tbl Nat
  stands   : Tbl Nat
  colls    : List Coll
  /-- admission order counter, and the scheduler's place in its pass (05 R277) -/
  orders   : Nat
  pass     : Nat
  gal      : Gallery
  evq      : Evq
  /-- error-status registers of the blocks 0 FE to 13 PCI (22 Table 22-1) -/
  blkErr   : Tbl BlkErr
  /-- completion increments dropped (07 R382) -/
  incDrops : Word32
  mgr      : Mgr
  dlog     : Dlog
  sec      : Sec
  safe     : Safe
  safest   : SafeState
  deriving DecidableEq, Repr

/-- The chip right after reset: the always-on domain powered, SYS_RST_N low, every register at its reset value (log 4). -/
def State.reset : State :=
  { pending := [], out := [], fresh := 0, fuses := Fuses.part, boot := Boot.reset, flash := Flash.reset, pins := Pins.reset,
    clk := Clk.reset, pwr := Pwr.reset, hold := Hold.reset, act := CfgSet.reset, shd := CfgSet.reset, lock := SeqLock.reset,
    dom := Dom.reset, disc := Disc.reset, rootw := RootWork.reset, pair := Pair.reset, fab := Fabric.reset, mem := Mem.reset,
    parts := Parts.reset, tiles := Tiles.reset, xlt := Xlt.reset, pcie := Pcie.reset,
    insts := [(0, { Inst.reset with state := .ready })], fns := [], sqs := [], cqs := [], drs := [], ctxs := [], ops := [],
    slots := [], stands := [], colls := [], orders := 0, pass := 0, gal := Gallery.reset, evq := Evq.reset, blkErr := [],
    incDrops := 0, mgr := Mgr.reset, dlog := Dlog.reset, sec := Sec.reset, safe := Safe.reset, safest := SafeState.reset }

end Sys2Proof.Machine
end

