-- ==== Sys2Proof/Machine/Flags.lean ====
section
/-! DEFINITION. Status and error bits, interrupt causes and their messages, events: everything a failure is reported by (04, 13, 22, 23). -/

namespace Sys2Proof.Machine

/-! ## Access to the parts of State -/

/-- Function `n`'s registers. -/
def State.fn (s : State) (n : Nat) : Fn := Tbl.get Fn.reset s.fns n
/-- Function `n`'s registers changed. -/
def State.updFn (s : State) (n : Nat) (f : Fn → Fn) : State := { s with fns := Tbl.upd Fn.reset s.fns n f }
/-- Instance `n`. -/
def State.inst (s : State) (n : Nat) : Inst := Tbl.get Inst.reset s.insts n
/-- Instance `n` changed. -/
def State.updInst (s : State) (n : Nat) (f : Inst → Inst) : State := { s with insts := Tbl.upd Inst.reset s.insts n f }
/-- Portal submission ring `n`. -/
def State.sq (s : State) (n : Nat) : Sq := Tbl.get Sq.reset s.sqs n
/-- Portal submission ring `n` changed. -/
def State.updSq (s : State) (n : Nat) (f : Sq → Sq) : State := { s with sqs := Tbl.upd Sq.reset s.sqs n f }
/-- Portal completion ring `n`. -/
def State.cq (s : State) (n : Nat) : Cq := Tbl.get Cq.reset s.cqs n
/-- Portal completion ring `n` changed. -/
def State.updCq (s : State) (n : Nat) (f : Cq → Cq) : State := { s with cqs := Tbl.upd Cq.reset s.cqs n f }
/-- Device-resident ring `n`. -/
def State.dr (s : State) (n : Nat) : Dr := Tbl.get Dr.reset s.drs n
/-- Device-resident ring `n` changed. -/
def State.updDr (s : State) (n : Nat) (f : Dr → Dr) : State := { s with drs := Tbl.upd Dr.reset s.drs n f }
/-- Stream context `n`. -/
def State.ctx (s : State) (n : Nat) : Ctx := Tbl.get Ctx.reset s.ctxs n
/-- Stream context `n` changed. -/
def State.updCtx (s : State) (n : Nat) (f : Ctx → Ctx) : State := { s with ctxs := Tbl.upd Ctx.reset s.ctxs n f }
/-- Dependency-table entry `n`. -/
def State.op (s : State) (n : Nat) : Option OpEntry := Tbl.get none s.ops n
/-- Dependency-table entry `n` changed, where it is taken. -/
def State.updOp (s : State) (n : Nat) (f : OpEntry → OpEntry) : State :=
  { s with ops := Tbl.upd none s.ops n (fun o => o.map f) }
/-- Port `n`. -/
def State.port (s : State) (n : Nat) : Port := Tbl.get Port.reset s.fab.ports n
/-- Port `n` changed. -/
def State.updPort (s : State) (n : Nat) (f : Port → Port) : State :=
  { s with fab := { s.fab with ports := Tbl.upd Port.reset s.fab.ports n f } }
/-- Configuration-space state of function `n`. -/
def State.fc (s : State) (n : Nat) : FnCfg := Tbl.get FnCfg.reset s.pcie.fns n
/-- Configuration-space state of function `n` changed. -/
def State.updFc (s : State) (n : Nat) (f : FnCfg → FnCfg) : State :=
  { s with pcie := { s.pcie with fns := Tbl.upd FnCfg.reset s.pcie.fns n f } }
/-- Power unit `u`. -/
def State.punit (s : State) (u : Nat) : PUnit := Tbl.get PUnit.reset s.pwr.units u
/-- Power unit `u` changed. -/
def State.updUnit (s : State) (u : Nat) (f : PUnit → PUnit) : State :=
  { s with pwr := { s.pwr with units := Tbl.upd PUnit.reset s.pwr.units u f } }
/-- Logical tile `t`. -/
def State.tile (s : State) (t : Nat) : Tile := Tbl.get Tile.reset s.tiles.map t
/-- Logical tile `t` changed. -/
def State.updTile (s : State) (t : Nat) (f : Tile → Tile) : State :=
  { s with tiles := { s.tiles with map := Tbl.upd Tile.reset s.tiles.map t f } }

/-- What is sent goes to the end of the output list. -/
def State.emit (s : State) (o : Out) : State := { s with out := s.out ++ [o] }

/-- Several things sent in order. -/
def State.emits (s : State) (os : List Out) : State := { s with out := s.out ++ os }

/-- The next free value, `w` bits wide (log 8). -/
def State.draw (s : State) (w : Nat) : BitVec w × State :=
  (BitVec.ofNat w (Config.free s.fresh), { s with fresh := s.fresh + 1 })

/-- The next `n` free bytes. -/
def State.drawBytes (s : State) (n : Nat) : List Byte × State :=
  ((List.range n).map (fun i => BitVec.ofNat 8 (Config.free (s.fresh + i))), { s with fresh := s.fresh + n })

/-- Logical tiles of the grade (01 Table 1-2). -/
def Grade.tiles : Grade → Nat
  | .F => 32 | .L => 24 | .S => 32
/-- Stands of the grade. -/
def Grade.stands : Grade → Nat
  | .F => 8 | .L => 6 | .S => 8
/-- The GRADE code (22 FE_ID). -/
def Grade.code : Grade → Nat
  | .F => 1 | .L => 2 | .S => 3
/-- The stepping code (04 Table 4-2, 22 FE_ID). -/
def Stepping.code : Stepping → Nat
  | .A1 => 0x11 | .B0 => 0x20

/-- The chip is the active front end of its domain. -/
def State.isFe (s : State) : Bool := s.dom.role == .frontEnd
/-- The time counter as a number. -/
def State.now (s : State) : Nat := s.clk.time.toNat

/-! ## Block error-status registers (22 Table 22-3) -/

/-- Blocks of the MGMT window, numbered by window offset / 0x10_0000. -/
def blkFe : Nat := 0
def blkMbx : Nat := 1
def blkHall : Nat := 2
def blkTile : Nat := 3
def blkGal : Nat := 4
def blkXlt : Nat := 5
def blkMem : Nat := 6
def blkFab : Nat := 7
def blkSafe : Nat := 8
def blkSec : Nat := 9
def blkPwr : Nat := 10
def blkClk : Nat := 11
def blkDbg : Nat := 12
def blkPci : Nat := 13

/-- Bits of a block error-status register. -/
def beSetup : Nat := 0
def beUnlocked : Nat := 1
def beReserved : Nat := 2
def beOffset : Nat := 3
def beBusy : Nat := 4
def beNotFe : Nat := 5
def beCommandOnly : Nat := 6

/-- Block `b` records occurrence `n` (22 R912): the bit is set and COUNT rises. -/
def State.blkError (s : State) (b n : Nat) : State :=
  let f := fun (e : BlkErr) => { e with bits := e.bits ||| BitVec.ofNat 7 (2 ^ n), count := satInc e.count }
  { s with blkErr := Tbl.upd BlkErr.reset s.blkErr b f }

/-! ## Host writes (04, 15) -/

/-- The endpoint may issue requests for function `n`: bus master, awake, not in FLR, chip not in its safe state
(04 R211, R212, 17 Table 17-4). -/
def State.mayIssue (s : State) (n : Nat) : Bool :=
  (s.fc n).bme && !(s.fc n).d3hot && !(s.fc n).flr && !s.safest.inSafe

/-- Key of vector `v` of function `n` in the vector table. -/
def vecKey (n v : Nat) : Nat := 2048 * n + v

/-- Vector `v` of function `n`. -/
def State.vec (s : State) (n v : Nat) : Vec := Tbl.get Vec.reset s.pcie.vecs (vecKey n v)

/-- Vector `v` of function `n` changed. -/
def State.updVec (s : State) (n v : Nat) (f : Vec → Vec) : State :=
  { s with pcie := { s.pcie with vecs := Tbl.upd Vec.reset s.pcie.vecs (vecKey n v) f } }

/-- Vector `v` of function `n` may send messages: MSI-X is on, and the function has the vector. -/
def State.vecOn (s : State) (n v : Nat) : Bool := (s.fc n).msixEn && decide (v < (s.fc n).vecs.toNat)

/-- Vector `v` of function `n` is masked. -/
def State.vecMasked (s : State) (n v : Nat) : Bool := (s.fc n).fnMask || (s.vec n v).mask

/-- The vector a cause selects (23 INST_VECSEL0, INST_VECSEL1). -/
def Fn.vecOf (f : Fn) (c : Nat) : Nat :=
  if c < 4 then fld f.vecsel0.toNat (16 * c) 11 else fld f.vecsel1.toNat (16 * (c - 4)) 11

/-- One discarded request counted in BME_DISCARD; the ERROR cause is set as the bit becomes set. -/
def State.bmeCount (s : State) (n : Nat) : State :=
  s.updFn n (fun f => { f with err := f.err ||| 0x40, errCnt := Tbl.upd 0 f.errCnt 6 satInc, cause := if f.err.getLsbD 6 then f.cause else f.cause ||| 0x10 })

/-- A request of function `n` is discarded because it may not master the bus: counted in BME_DISCARD (04 R212). The message of the ERROR cause
this raises is pending where its vector is masked, and otherwise discarded and counted in turn. -/
def State.bmeDiscard (s : State) (n : Nat) : State :=
  if (s.fc n).flr || s.safest.inSafe then s
  else
    let v := (s.fn n).vecOf 4
    let s1 := s.bmeCount n
    if (s.fn n).err.getLsbD 6 || !s.vecOn n v then s1
    else if s.vecMasked n v then s1.updVec n v (fun e => { e with pending := true })
    else s1.bmeCount n

/-- A host-aperture range lies in a slot that is valid, permits the access, and holds the whole range (03 R183). -/
def State.slotOk (s : State) (i dva len : Nat) (write : Bool) : Bool :=
  let k := 8 * i + fld dva 44 3
  let c := (Tbl.get 0 s.act.slotCtl k).toNat
  bit dva 47 && bit c 0 && (if write then bit c 2 else bit c 1) && decide (fld dva 0 44 + len ≤ (Tbl.get 0 s.act.slotLimit k).toNat * 0x10000)

/-- A range of a ring or log of instance `i`: permitted, and in slot 0 as 05 R241, 15 R697 and 22 Table 22-4 place it (log 95). -/
def State.ringOk (s : State) (i dva len : Nat) (write : Bool) : Bool := fld dva 44 3 == 0 && s.slotOk i dva len write

/-- Bus address of a DVA of the host aperture through slot registers of instance `i` (03 R186). -/
def State.busAddr (s : State) (i dva : Nat) : Nat :=
  let slot := fld dva 44 3
  (Tbl.get 0 s.act.slotBase (8 * i + slot)).toNat / 65536 * 65536 + fld dva 0 44

/-- 4 KiB host pages touched by a write. -/
def pagesOf (addr len : Nat) : List Nat :=
  if len = 0 then [] else (List.range ((addr + len - 1) / 4096 - addr / 4096 + 1)).map (· + addr / 4096)

/-- Entries of the dirty log ring: 2^SIZE. -/
def State.dlogN (s : State) : Nat := 2 ^ s.dlog.size.toNat

/-- The value of a tally named by an OREF register's index field [29:16]. -/
def State.tallyOfReg (s : State) (r : Word32) : Word32 := Tbl.get 0 s.gal.tallies (fld r.toNat 16 14)

/-- The dirty log has room for one entry (15 R697). -/
def State.dlogRoomNow (s : State) : Bool :=
  decide ((s.dlog.prod - s.tallyOfReg s.dlog.cons).toNat < s.dlogN)

/-- Pages of a write of instance `i` that the filter does not hold (15 R699, R700). -/
def State.dlogNew (s : State) (i addr len : Nat) : List Nat :=
  (pagesOf addr len).filter (fun p => !(s.dlog.filter.contains (i, p)))

/-- A length cut at a largest size and at 4 KiB boundaries of bus address (04 R213). Fuel: the length. -/
def cutBus (size : Nat) : Nat → Nat → Nat → List (Nat × Nat)
  | 0, _, _ => []
  | k + 1, off, left =>
    if left = 0 then []
    else
      let n := min left (min (size - off % size) (0x1000 - off % 0x1000))
      (off, n) :: cutBus size k (off + n) (left - n)

/-- Max Payload Size and Max Read Request Size in bytes. -/
def FnCfg.mpsBytes (f : FnCfg) : Nat := 128 * 2 ^ f.mps.toNat
def FnCfg.mrrsBytes (f : FnCfg) : Nat := 128 * 2 ^ f.mrrs.toNat

/-- Posted writes of function `n` leave the endpoint; bulk data carries Relaxed Ordering where the function enables it (04 R213, R214). -/
def State.sendWrite (s : State) (n addr : Nat) (bytes : List Byte) (relaxed : Bool) : State :=
  s.emits ((cutBus (s.fc n).mpsBytes bytes.length addr bytes.length).map (fun p =>
    .hostWrite n p.1 ((bytes.drop (p.1 - addr)).take p.2) (relaxed && (s.fc n).relaxed)))

/-- One dirty-log entry issued on function 0: written to the log ring in instance 0's slot 0, and the page kept in the filter, which evicts its
oldest page beyond 4,096 (15 R697 to R700). Function 0 may have to discard it, and the slot to refuse it (04 R212, 03 R183; log 95). -/
def State.dlogPut (s : State) (i page : Nat) : State :=
  let slot := s.dlog.prod.toNat % s.dlogN
  let dva := fld s.dlog.base.toNat 12 36 * 4096 + 8 * slot
  let s1 := if !s.mayIssue 0 then s.bmeDiscard 0
    else if s.ringOk 0 dva 8 true then s.sendWrite 0 (s.busAddr 0 dva) (toLe 8 (i + page * 4096)) false else s
  let f := s1.dlog.filter ++ [(i, page)]
  { s1 with dlog := { s1.dlog with prod := s1.dlog.prod + 1, filter := if 4096 < f.length then f.drop 1 else f } }

/-- Entries for the pages, as far as the log ring has room: the pages left over. -/
def State.dlogAll (s : State) (i : Nat) : List Nat → State × List Nat
  | [] => (s, [])
  | p :: ps => if s.dlogRoomNow then (s.dlogPut i p).dlogAll i ps else (s, p :: ps)

/-- Requests of function `n` wait on the dirty log. -/
def State.holds_ (s : State) (n : Nat) : Bool := s.pcie.dlogHeld.any (fun h => h.1 == n)

/-- A request of function `n` joins those that wait. -/
def State.hold_ (s : State) (n : Nat) (h : HeldPost) : State := { s with pcie := { s.pcie with dlogHeld := s.pcie.dlogHeld ++ [(n, h)] } }

/-- A posted write of function `n` to host memory: discarded and counted while the function may not issue (04 R212), behind the requests of its
function that wait (04 R231), preceded by its dirty-log entries where it is logged, held back while the log ring is full (15 R699, R702). -/
def State.postAs (s : State) (n addr : Nat) (bytes : List Byte) (relaxed log : Bool) : State :=
  if !s.mayIssue n then s.bmeDiscard n
  else if bytes.isEmpty then s
  else if s.holds_ n then s.hold_ n (.write addr bytes relaxed log)
  else if log then
    let r := s.dlogAll n (s.dlogNew n addr bytes.length)
    if r.2.isEmpty then r.1.sendWrite n addr bytes relaxed else r.1.hold_ n (.write addr bytes relaxed log)
  else s.sendWrite n addr bytes relaxed

/-- A posted write issued now: logged while its instance has logging enabled. -/
def State.post (s : State) (n addr : Nat) (bytes : List Byte) (relaxed : Bool) : State :=
  s.postAs n addr bytes relaxed ((s.inst n).dlog && s.dlog.size != 0)

/-- A record or entry for a ring of instance `i` in its slot 0; nothing is emitted where the slot refuses it (03 R183; log 95). -/
def State.postRing (s : State) (i dva : Nat) (bytes : List Byte) : State :=
  if s.ringOk i dva bytes.length true then s.post i (s.busAddr i dva) bytes false else s

/-! ## MSI-X (04 R224 to R229) -/

/-- A message for vector `v` of function `n`: kept in the PBA bit while masked, behind the requests of its function that wait and merged with one
that does, or sent with the entry's present address and data (04 R226 to R229); nothing while MSI-X is off or the function has no such vector. -/
def State.message (s : State) (n v : Nat) : State :=
  if !s.vecOn n v then s
  else if s.vecMasked n v then s.updVec n v (fun e => { e with pending := true })
  else if !s.mayIssue n then s.bmeDiscard n
  else if s.holds_ n then (if s.pcie.dlogHeld.contains (n, .msg v) then s else s.hold_ n (.msg v))
  else s.emit (.msix n v (s.vec n v).addr (s.vec n v).data)

/-- A request that has waited is made again. -/
def State.postHeld (s : State) (n : Nat) : HeldPost → State
  | .write addr bytes relaxed log => s.postAs n addr bytes relaxed log
  | .msg v => s.message n v

/-! ## Causes and the function's error status (13 Table 13-3, 23 Table 23-2) -/

/-- Cause bits of INST_CAUSE. -/
def causeGuilty : Nat := 0
def causeHalted : Nat := 1
def causeMbxIn : Nat := 2
def causeMbxSpace : Nat := 3
def causeError : Nat := 4
def causeEvent : Nat := 5
def causeSafety : Nat := 6

/-- Cause `c` of function `n` fires: its bit is set, then its message is sent (23 R950).
EVENT and SAFETY exist in the physical function only. -/
def State.cause (s : State) (n c : Nat) : State :=
  if 5 ≤ c && n ≠ 0 then s
  else (s.updFn n (fun f => { f with cause := f.cause ||| BitVec.ofNat 7 (2 ^ c) })).message n ((s.fn n).vecOf c)

/-- Bits of INST_ERR_STATUS (13 Table 13-3). -/
def esSetup : Nat := 0
def esDbOverrun : Nat := 1
def esDbDisabled : Nat := 2
def esBadAccess : Nat := 3
def esDataFault : Nat := 4
def esCrossTenant : Nat := 5
def esBme : Nat := 6
def esPoisoned : Nat := 7
def esCqDbBad : Nat := 8
def esHalted : Nat := 9
def esDrGuilty : Nat := 10
def esAckBad : Nat := 11
def esCaptureLost : Nat := 12
def esSignalRefused : Nat := 13

/-- Error bit `b` of function `n` occurs: counted, set, and the ERROR cause fires when it goes from 0 to 1
(13 R571, R572). -/
def State.fnError (s : State) (n b : Nat) : State :=
  let s1 := s.updFn n (fun f =>
    { f with err := f.err ||| BitVec.ofNat 14 (2 ^ b), errCnt := Tbl.upd 0 f.errCnt b satInc })
  if (s.fn n).err.getLsbD b then s1 else s1.cause n causeError

/-! ## Events (13 R600 to R605, 19 R850) -/

/-- The 30 bytes of an event before its phase (13 Table 13-7). -/
def eventBytes (code sev inst chip : Nat) (time arg0 arg1 : Nat) : List Byte :=
  toLe 2 code ++ toLe 2 chip ++ toLe 1 inst ++ toLe 1 sev ++ zeros 2 ++ toLe 8 time ++ toLe 8 arg0 ++ toLe 6 arg1 ++ zeros 2

/-- PHASE of index `i` in a ring of `n` entries: 1 on even laps (05 R281). -/
def phaseOf (i n : Nat) : Bool := (i / n) % 2 == 0

/-- Bytes of a 32-byte entry with its lap bit in byte 31 [7]. -/
def withPhase (i n : Nat) (bs : List Byte) : List Byte :=
  (padTo 32 bs).set 31 (byteAt bs 31 ||| (if phaseOf i n then 0x80 else 0))

/-- Entries of the event ring: 2^SIZE. -/
def State.evqN (s : State) : Nat := 2 ^ s.act.evqSize.toNat

/-- Unconsumed entries of the event ring (13 R601). -/
def State.evqDepth (s : State) : Nat := (s.evq.prod - s.tallyOfReg s.act.evqCons).toNat

/-- DVA of the event ring's next slot (13 R601). -/
def State.evqDva (s : State) : Nat :=
  fld s.act.evqBase.toNat 12 36 * 4096 + 32 * (s.evq.prod.toNat % s.evqN)

end Sys2Proof.Machine
end

