-- ==== Sys2Proof/Machine/Operands.lean ====
section
/-! DEFINITION. The forms software writes: submission entries, Polud buffers, operation headers and arguments, object references (05, 06, 08). -/

namespace Sys2Proof.Machine

/-! ## Submission entries (05 Table 5-2, Table 5-5) -/

def eType (e : List Byte) : Nat := leAt e 0 1
def eSerial (e : List Byte) : Bool := bit (leAt e 1 1) 0
def eIrq (e : List Byte) : Bool := bit (leAt e 1 1) 1
def eCrcV (e : List Byte) : Bool := bit (leAt e 1 1) 2
def eLen8 (e : List Byte) : Nat := fld (leAt e 4 4) 0 22
def eSeq (e : List Byte) : Nat := leAt e 8 6
def eAddr (e : List Byte) : Nat := leAt e 16 8
def eUser (e : List Byte) : Word32 := BitVec.ofNat 32 (leAt e 24 4)
def eFrags (e : List Byte) : Nat := leAt e 28 2
def eFtCrc (e : List Byte) : Nat := leAt e 32 4

/-- DIRECT: the entry names one contiguous buffer (05). -/
def eDirect (e : List Byte) : Bool := eType e == 1

/-- A reserved bit of Table 5-2 is set, for the entry's TYPE and flags, or ADDR [63:48] (05 Table 5-5 code 0x02). -/
def entryRsv (e : List Byte) : Bool :=
  decide (fld (leAt e 1 1) 3 5 ≠ 0) || decide (leAt e 2 2 ≠ 0) || decide (fld (leAt e 4 4) 22 10 ≠ 0) || decide (leAt e 14 2 ≠ 0)
    || decide (fld (eAddr e) 48 16 ≠ 0) || decide (leAt e 30 2 ≠ 0) || decide (leAt e 36 28 ≠ 0)
    || (if eDirect e then eCrcV e || decide (eFrags e ≠ 0) || decide (eFtCrc e ≠ 0)
        else decide (eLen8 e ≠ 0) || (!eCrcV e && decide (eFtCrc e ≠ 0)))

/-- Why an entry is malformed, its tag aside: the lowest code of Table 5-5 that applies (05 R285). DIRECT with LEN8 above
0x20_0000 is code 6. -/
def entryBad (e : List Byte) : Option Nat :=
  if eType e ≠ 1 && eType e ≠ 2 then some 1
  else if entryRsv e then some 2
  else if !eDirect e && eFrags e = 0 then some 4
  else if !eDirect e && decide (4096 < eFrags e) then some 5
  else if eDirect e && decide (0x200000 < eLen8 e) then some 6
  else if eDirect e && eLen8 e ≠ 0 && eAddr e % 8 ≠ 0 then some 7
  else if !eDirect e && eAddr e % 16 ≠ 0 then some 7
  else none

/-- Why an entry is malformed at expected tag `e0`; a tag gap is code 3 (05 Table 5-3, Table 5-5). -/
def entryMalformed (e0 : Nat) (e : List Byte) : Option Nat :=
  match entryBad e with
  | some 1 => some 1
  | some 2 => some 2
  | r => if e0 < eSeq e then some 3 else r

/-! ## Operation headers (06 Table 6-3) -/

def hOpcode (h : List Byte) : Nat := leAt h 0 1
def hPkind (h : List Byte) : Nat := fld (leAt h 1 1) 0 2
def hOrd (h : List Byte) : Bool := bit (leAt h 1 1) 2
def hPlace (h : List Byte) : Nat := leAt h 2 2
def hStands (h : List Byte) : Nat := leAt h 4 1
def hDepmode (h : List Byte) : Nat := fld (leAt h 5 1) 0 2
def hDepn (h : List Byte) : Nat := fld (leAt h 5 1) 2 2
def hBody8 (h : List Byte) : Nat := leAt h 6 2
/-- ARG bytes 16 + off. -/
def hArg (h : List Byte) (off n : Nat) : Nat := leAt h (16 + off) n

/-- Opcodes (06 Table 6-6). -/
def opNop : Nat := 0x01
def opEnd : Nat := 0x02
def opLaunch : Nat := 0x03
def opCopy : Nat := 0x04
def opSetFlag : Nat := 0x05
def opClearFlag : Nat := 0x06
def opTest : Nat := 0x07
def opWait : Nat := 0x08
def opTallyAdd : Nat := 0x09
def opTallyWait : Nat := 0x0A
def opTallyWaitSpace : Nat := 0x0B
def opBarrierArrive : Nat := 0x0C
def opFence : Nat := 0x0D
def opChain : Nat := 0x0E
def opCondEnqueue : Nat := 0x0F
def opSignalPeer : Nat := 0x10
def opTimestamp : Nat := 0x11

/-- Descriptor length of a catalogue operation in 8-byte units; none where the microcode has no such operation
(10 Table 10-1, 11 Table 11-1). -/
def catBody8 (cat : Nat) : Option Nat :=
  match cat with
  | 0x10 => some 20 | 0x11 => some 18 | 0x12 => some 10 | 0x13 => some 12
  | 0x20 => some 14 | 0x21 => some 12 | 0x22 => some 8 | 0x23 => some 10
  | 0x24 => some 8 | 0x25 => some 10 | 0x26 => some 10 | 0x27 => some 12
  | 0x28 => some 8 | 0x30 => some 8 | 0x31 => some 8 | 0x32 => some 8
  | _ => none

/-- The catalogue number of a LAUNCH. -/
def hCat (h : List Byte) : Nat := hArg h 0 2

/-- A collective, whose members need the whole chip set (07 R1001). -/
def hCollective (h : List Byte) : Bool := hOpcode h == opLaunch && decide (0x30 ≤ hCat h ∧ hCat h ≤ 0x32)

/-- Operations named by a LIST dependency of operation `i`. -/
def hDeps (h : List Byte) (i : Nat) : List Nat :=
  if hDepmode h = 1 then (List.range (hDepn h + 1)).map (fun k => i - leAt h (8 + 2 * k) 2) else []

/-- Executed by tiles: LAUNCH, COPY, CHAIN, and a wait with stands (06 Table 6-6, R332). -/
def hTiles (h : List Byte) : Bool :=
  hOpcode h == opLaunch || hOpcode h == opCopy || hOpcode h == opChain
    || ((hOpcode h == opWait || hOpcode h == opTallyWait) && hStands h != 0)

/-- Stands of the mask, ascending. -/
def standsOf (mask : Nat) : List Nat := (List.range 8).filter (fun n => bit mask n)

/-- Logical tiles of the mask's stands, ascending: stand n holds tiles 4n to 4n + 3 (00 R21). -/
def tilesOf (mask : Nat) : List Nat := (standsOf mask).flatMap (fun n => [4 * n, 4 * n + 1, 4 * n + 2, 4 * n + 3])

/-! ## Object references and attached signals (06 R315 to R317) -/

/-- Objects of a kind: 0 flag, 1 tally, 2 barrier (08 Table 8-1). -/
def objCount (kind : Nat) : Nat := if kind = 0 then 16384 else if kind = 1 then 4096 else 1024

def orefChip (o : Nat) : Nat := fld o 0 16
def orefIdx (o : Nat) : Nat := fld o 16 14

/-- An OREF of a kind is no reserved encoding. -/
def orefOk (kind o : Nat) : Bool := decide (fld o 30 2 = 0) && decide (orefChip o ≠ 0xFFFF) && decide (orefIdx o < objCount kind)

/-- The object kind a signal KIND acts on: flags 0 and 1, tallies 2, barriers 3. -/
def sigObjKind (kind : Nat) : Nat := if kind < 2 then 0 else kind - 1

/-- The attached signal field, ARG bytes 24 to 31. -/
def hAsig (h : List Byte) : Nat := hArg h 8 8
def asigV (a : Nat) : Bool := bit a 48
def asigChip (a : Nat) : Nat := fld a 0 16
def asigObj (a : Nat) : Nat := fld a 16 14
def asigKind (a : Nat) : Nat := fld a 30 2
def asigAmount (a : Nat) : Nat := fld a 32 16

/-- An ASIG is no reserved encoding (06 R317, Table 6-4). -/
def asigOk (a : Nat) : Bool :=
  if asigV a then
    decide (fld a 49 15 = 0) && decide (asigChip a ≠ 0xFFFF) && decide (asigObj a < objCount (sigObjKind (asigKind a)))
      && (if asigKind a = 2 then decide (asigAmount a ≠ 0) else decide (asigAmount a = 0))
  else decide (a = 0)

/-! ## The rules an operation's own bytes must keep (06 R305 to R342) -/

/-- Stand mask by opcode (06 Table 6-6). -/
def standsOk (h : List Byte) : Bool :=
  let op := hOpcode h
  if op = opLaunch || op = opCopy || op = opChain then hStands h != 0
  else if op = opWait || op = opTallyWait then true
  else hStands h == 0

/-- BODY8 by opcode (06 Table 6-6). -/
def bodyLenOk (h : List Byte) : Bool :=
  let op := hOpcode h
  let n := hBody8 h
  decide (n ≤ 4092) && (if op = opNop then true
  else if op = opLaunch then catBody8 (hCat h) == some n
  else if op = opCopy then n == 3
  else if op = opCondEnqueue then n == 8
  else n == 0)

/-- DVA in ARG bytes 24 to 29 (TEST) or 16 to 21 (SIGNAL_PEER, TIMESTAMP). -/
def hDva24 (h : List Byte) : Nat := hArg h 8 6
def hDva16 (h : List Byte) : Nat := hArg h 0 6

/-- COPY's body: source, destination, length (06 R322). -/
def copySrc (b : List Byte) : Nat := leAt b 0 8
def copyDst (b : List Byte) : Nat := leAt b 8 8
def copyLen (b : List Byte) : Nat := fld (leAt b 16 8) 0 40

/-- Two ranges share a byte. -/
def overlap (a la b lb : Nat) : Bool := decide (0 < la ∧ 0 < lb ∧ a < b + lb ∧ b < a + la)

/-- The argument rules of each opcode (06 Table 6-7 and the sections after it), but for homes and membership. -/
def argsOk (h body : List Byte) : Bool :=
  let a0 := hArg h 0 4
  let a1 := hArg h 4 4
  let a2 := hArg h 8 4
  let a3 := hArg h 12 4
  match hOpcode h with
  | 0x01 => decide (hArg h 0 16 = 0)
  | 0x02 => decide (a0 < 65536 ∧ hArg h 4 12 = 0) && decide (hPkind h = 2)
  | 0x03 => decide (a0 < 65536 ∧ a1 = 0) && asigOk (hAsig h)
  | 0x04 =>
    decide (a0 = 0 ∧ a1 = 0) && asigOk (hAsig h) && decide (copySrc body < 2 ^ 48 ∧ copyDst body < 2 ^ 48)
      && decide (fld (leAt body 16 8) 40 24 = 0) && !overlap (copySrc body) (copyLen body) (copyDst body) (copyLen body)
  | 0x05 => orefOk 0 a0 && decide (hArg h 4 12 = 0)
  | 0x06 => orefOk 0 a0 && decide (hArg h 4 12 = 0)
  | 0x07 => decide (a1 < 2) && orefOk a1 a0 && decide (a3 < 65536) && decide (hDva24 h % 4 = 0)
  | 0x08 => orefOk 0 a0 && decide (a1 < 4 ∧ a3 = 0)
  | 0x09 => orefOk 1 a0 && decide (a1 ≠ 0 ∧ a1 < 65536 ∧ hArg h 8 8 = 0)
  | 0x0A => orefOk 1 a0 && decide (a1 = 0 ∨ a1 = 2)
  | 0x0B => orefOk 1 a0 && orefOk 1 a1 && decide (fld a2 0 16 ≠ 0 ∧ fld a2 16 1 = 0 ∧ fld a2 18 14 = 0)
  | 0x0C => orefOk 2 a0 && decide (a1 < 4 ∧ a3 = 0)
  | 0x0D => decide (hArg h 0 16 = 0)
  | 0x0E => decide (2 ≤ a0 ∧ a0 ≤ 64 ∧ hArg h 4 12 = 0)
  | 0x0F =>
    decide (fld a1 0 3 ≤ 4 ∧ fld a1 3 5 = 0 ∧ fld a1 14 18 = 0 ∧ a3 = 0)
      && (match fld a1 0 3 with
          | 0 => decide (a0 = 0 ∧ a2 = 0)
          | 1 => orefOk 0 a0
          | 2 => orefOk 0 a0
          | _ => orefOk 1 a0)
      && decide (eSeq body = 0) && (entryBad body).isNone
  | 0x10 =>
    let size := bit a1 16
    decide (fld a1 17 15 = 0) && bit (hDva16 h) 47 && decide (hDva16 h % (if size then 8 else 4) = 0) && (size || decide (a3 = 0))
  | 0x11 => decide (fld a1 16 16 = 0) && decide (hDva16 h % 8 = 0) && decide (hArg h 8 8 = 0)
  | _ => false

/-- Dependency fields (06 R309, R310). -/
def depsOk (h : List Byte) (i : Nat) : Bool :=
  let n := if hDepmode h = 1 then hDepn h + 1 else 0
  decide (hDepmode h ≠ 3) && decide (fld (leAt h 5 1) 4 4 = 0) && (decide (hDepmode h = 1) || decide (hDepn h = 0))
    && (List.range 4).all (fun k =>
      let d := leAt h (8 + 2 * k) 2
      if k < n then decide (0 < d ∧ d ≤ 4095 ∧ d < i) else decide (d = 0))

/-- Everything about operation `i` that its own bytes decide (06 R305 to R342). -/
def opBytesOk (h body : List Byte) (i : Nat) : Bool :=
  decide (1 ≤ hOpcode h ∧ hOpcode h ≤ 0x11) && decide (hPkind h ≠ 3) && decide (fld (leAt h 1 1) 3 5 = 0)
    && (!hOrd h || hOpcode h == opLaunch || hOpcode h == opCopy) && (decide (hPkind h ≠ 2) || decide (hPlace h = 0))
    && standsOk h && bodyLenOk h && depsOk h i && argsOk h body

/-- Opcodes whose chip set is one chip (06 Table 6-6). -/
def oneChipOp (op : Nat) : Bool := [0x04, 0x07, 0x0B, 0x0F, 0x10, 0x11].contains op

/-- OREFs whose object must be homed on every chip of the chip set (06 R338, 08 R407). -/
def homedOrefs (h : List Byte) : List Nat :=
  match hOpcode h with
  | 0x07 => [hArg h 0 4]
  | 0x08 => [hArg h 0 4]
  | 0x0A => [hArg h 0 4]
  | 0x0B => [hArg h 0 4, hArg h 4 4]
  | 0x0C => if bit (hArg h 4 4) 0 then [hArg h 0 4] else []
  | 0x0F => if fld (hArg h 4 4) 0 3 = 0 then [] else [hArg h 0 4]
  | _ => []

/-- Homes of every OREF and attached signal of an operation, other than chip 0x0000 (06 R997). -/
def homesOf (h : List Byte) : List Nat :=
  let os := match hOpcode h with
    | 0x03 => if asigV (hAsig h) then [asigChip (hAsig h)] else []
    | 0x04 => if asigV (hAsig h) then [asigChip (hAsig h)] else []
    | 0x05 => [orefChip (hArg h 0 4)]
    | 0x06 => [orefChip (hArg h 0 4)]
    | 0x07 => [orefChip (hArg h 0 4)]
    | 0x08 => [orefChip (hArg h 0 4)]
    | 0x09 => [orefChip (hArg h 0 4)]
    | 0x0A => [orefChip (hArg h 0 4)]
    | 0x0B => [orefChip (hArg h 0 4), orefChip (hArg h 4 4)]
    | 0x0C => [orefChip (hArg h 0 4)]
    | 0x0F => [orefChip (hArg h 0 4)]
    | _ => []
  os.filter (· ≠ 0)

/-- Every homed OREF names chip 0x0000, or the one chip of the set (08 R407). -/
def homedOk (h : List Byte) (chips : List ChipId) : Bool :=
  (homedOrefs h).all (fun o => decide (orefChip o = 0) || decide (chips.map (·.toNat) = [orefChip o]))

/-! ## Chip sets (06 Table 6-2) -/

/-- FORM of a chip-set entry. -/
def csForm (v : Nat) : Nat := fld v 0 4

/-- The chips of a RECT entry, ascending (06 R302). -/
def rectChips (v : Nat) : List ChipId :=
  let g0 := fld v 24 8
  let m0 := fld v 16 8
  let g1 := fld v 40 8
  let m1 := fld v 32 8
  (List.range (g1 + 1 - g0)).flatMap (fun g => (List.range (m1 + 1 - m0)).map (fun m => BitVec.ofNat 16 ((g0 + g) * 256 + (m0 + m))))

/-- A chip-set table entry is well formed in a buffer whose data area starts at `dataOff` and which is `len` bytes long
(06 R301 to R303). -/
def csEntryOk (v dataOff len : Nat) : Bool :=
  decide (fld v 4 12 = 0) &&
  (match csForm v with
   | 1 => decide (fld v 48 16 = 0) && decide (fld v 24 8 ≤ fld v 40 8 ∧ fld v 16 8 ≤ fld v 32 8)
   | 2 =>
     let n := fld v 16 16
     let off := fld v 32 32
     decide (1 ≤ n ∧ n ≤ 4096) && decide (off % 8 = 0 ∧ dataOff ≤ off ∧ off + (2 * n + 7) / 8 * 8 ≤ len)
   | _ => false)

/-- Chip IDs of a list of `n` from its bytes. -/
def listChips (bs : List Byte) (n : Nat) : List ChipId := (List.range n).map (fun k => BitVec.ofNat 16 (leAt bs (2 * k) 2))

/-- A chip set names no reserved ID and no chip twice (06 R304). -/
def chipsOk (cs : List ChipId) : Bool := !cs.contains 0 && !cs.contains 0xFFFF && decide cs.Nodup

end Sys2Proof.Machine
end

