-- ==== Sys2Proof/Machine/Check.lean ====
section
/-! DEFINITION. The rules of a Polud buffer: the check pass in its order, and the judgement of one operation (06 R289 to R345, R995 to R997, 07 R376). -/

namespace Sys2Proof.Machine

/-- A broken rule: operation index (0 for none), status, and the lost chip where the status names one. -/
structure Broken where
  idx    : Nat
  status : Nat
  peer   : Nat
  deriving DecidableEq, Repr

def cfgBroken (i : Nat) : Broken := { idx := i, status := 0x0402, peer := 0 }

/-- What membership at admission says of a chip: a member, lost by then, or never a member (01 R54, R55). -/
structure Roll where
  self    : ChipId
  members : List ChipId
  lost    : List ChipId
  deriving DecidableEq, Repr

/-- A chip judged against the roll; none where it is a member. -/
def Roll.judge (r : Roll) (i : Nat) (c : ChipId) : Option Broken :=
  if c == r.self then none
  else if r.lost.contains c then some { idx := i, status := 0x0201, peer := c.toNat }
  else if r.members.contains c then none
  else some (cfgBroken i)

/-- The chips of a chip-set entry, its list read from the buffer bytes `get` gives. -/
def csChips (v : Nat) (list : List Byte) : List ChipId := if csForm v = 1 then rectChips v else listChips list (fld v 16 16)

/-- The chain being read: index and header of its CHAIN, operations left, bytes of bodies so far. -/
abbrev ChainSt := Option (Nat × List Byte × Nat × Nat)

/-- The place of an operation in a chain: broken, or the chain after it (06 R334, R335, 07 R376). -/
def chainStepOk (i : Nat) (h : List Byte) : ChainSt → Broken ⊕ ChainSt
  | some (ci, ch, left, bytes) =>
    let kind := hOpcode h == opLaunch || hOpcode h == opCopy || ((hOpcode h == opWait || hOpcode h == opTallyWait) && hStands h != 0)
    let same := hPkind h == hPkind ch && hPlace h == hPlace ch && hStands h == hStands ch && hDepmode h == 0
    let total := bytes + 8 * hBody8 h
    if !kind || !same then .inl (cfgBroken i)
    else if 16384 < total then .inl (cfgBroken ci)
    else .inr (if left = 1 then none else some (ci, ch, left - 1, total))
  | none => .inr (if hOpcode h = opChain then some (i, h, fld (hArg h 0 4) 0 8, 0) else none)

/-- One operation judged against step 6 of R296: its bytes, its chip set, dependencies' chip sets, homes, its chain. `prev` holds
the chip sets of the operations before it. -/
def judgeOp (roll : Roll) (i : Nat) (h body : List Byte) (chips : List ChipId) (prev : List (List ChipId)) (chain : ChainSt) : Broken ⊕ ChainSt :=
  if !opBytesOk h body i then .inl (cfgBroken i)
  else if hPkind h = 1 && chips.isEmpty then .inl (cfgBroken i)
  else if !chipsOk chips then .inl (cfgBroken i)
  else
    match chips.findSome? (roll.judge i) with
    | some b => .inl b
    | none =>
      if oneChipOp (hOpcode h) && (chips.length ≠ 1 || (hPkind h = 0 && hPlace h = 0xFFFF)) then .inl (cfgBroken i)
      else if !(hDeps h i).all (fun d => chips.all (fun c => (prev.getD (d - 1) []).contains c)) then .inl (cfgBroken i)
      else if !homedOk h chips then .inl (cfgBroken i)
      else
        match ((homesOf h).map (BitVec.ofNat 16)).findSome? (roll.judge i) with
        | some b => .inl b
        | none => chainStepOk i h chain

/-- The framing of operations from `off` on: headers and bodies with their offsets, or the operation that breaks it (06 R289, R290).
Fuel: the operations left. -/
def frames (b : List Byte) (opcount : Nat) : Nat → Nat → Nat → Broken ⊕ List (Nat × List Byte × List Byte)
  | 0, _, _ => .inr []
  | k + 1, i, off =>
    let h := (b.drop off).take 32
    let n := 8 * hBody8 h
    if b.length < off + 32 || 4092 < hBody8 h || b.length < off + 32 + n then .inl (cfgBroken i)
    else if hOpcode h = opEnd && i ≠ opcount then .inl (cfgBroken i)
    else if hOpcode h ≠ opEnd && i = opcount then .inl (cfgBroken i)
    else
      match frames b opcount k (i + 1) (off + 32 + n) with
      | .inl x => .inl x
      | .inr t => .inr ((off, h, (b.drop (off + 32)).take n) :: t)

/-- Fields of the buffer header (06 Table 6-1). -/
def bufCrcV (b : List Byte) : Bool := bit (leAt b 3 1) 1
def bufReplay (b : List Byte) : Bool := bit (leAt b 3 1) 0
def bufLen8 (b : List Byte) : Nat := fld (leAt b 4 4) 0 22
def bufOps (b : List Byte) : Nat := leAt b 12 2
def bufSets (b : List Byte) : Nat := leAt b 14 2
def bufLevel (b : List Byte) : Nat := leAt b 16 1

/-- Step 1 of R296, for a buffer of `n` bytes. -/
def headOk (b : List Byte) (n : Nat) : Bool :=
  leAt b 0 2 == 0xB0D1 && leAt b 2 1 == 1 && fld (leAt b 3 1) 2 6 == 0 && 8 * bufLen8 b == n

/-- Step 3 of R296, with the numerics level loaded. -/
def headRestOk (b : List Byte) (nlevel : Nat) : Bool :=
  fld (leAt b 4 4) 22 10 == 0 && decide (12 ≤ bufLen8 b ∧ bufLen8 b ≤ 0x200000) && (bufCrcV b || leAt b 8 4 == 0) && bufOps b != 0
    && decide (bufSets b ≤ 1024) && (bufLevel b == 0 || bufLevel b == nlevel) && allZero ((b.drop 17).take 47)

/-- Bytes from the end of a chip list of `n` bytes to the next 8-byte boundary (06 R303). -/
def listPad (n : Nat) : Nat := (8 - n % 8) % 8

/-- A chip-set table entry of a whole buffer and its chips. -/
def csEntry (b : List Byte) (k : Nat) : Nat := leAt b (64 + 8 * k) 8
def csList (b : List Byte) (v : Nat) : List Byte := (b.drop (fld v 32 32)).take (2 * fld v 16 16)

/-- Step 4 of R296: every entry well formed, its list in the data area and padded with zeros, its chips no reserved encoding. -/
def csTableOk (b : List Byte) (dataOff : Nat) : Bool :=
  decide (64 + 8 * bufSets b ≤ b.length)
    && (List.range (bufSets b)).all (fun k =>
      let v := csEntry b k
      csEntryOk v dataOff b.length && chipsOk (csChips v (csList b v))
        && (csForm v = 1 || allZero ((b.drop (fld v 32 32 + 2 * fld v 16 16)).take (listPad (2 * fld v 16 16)))))

/-- The chip lists that the entries of a buffer's table name, with their padding, as offsets and lengths: those before the first entry that is not well
formed (06 R291, R303). -/
def namedLists (b : List Byte) (dataOff n : Nat) : List (Nat × Nat) :=
  let vs := (List.range (bufSets b)).map (csEntry b)
  ((vs.takeWhile (fun v => csEntryOk v dataOff n)).filter (fun v => csForm v ≠ 1)).map (fun v =>
    (fld v 32 32, 2 * fld v 16 16 + listPad (2 * fld v 16 16)))

/-- The chip set of an operation of a whole buffer (06 R305 to R307). -/
def opChips (roll : Roll) (b : List Byte) (h : List Byte) : List ChipId :=
  match hPkind h with
  | 0 => if hPlace h = 0xFFFF then roll.members else [BitVec.ofNat 16 (hPlace h)]
  | 1 => if hPlace h < bufSets b then (let v := csEntry b (hPlace h); csChips v (csList b v)) else []
  | _ => [roll.self]

/-- Step 6 over the operations in order: the first broken rule, or their chip sets (fuel is the list). -/
def judgeAllOps (roll : Roll) (b : List Byte) : Nat → List (Nat × List Byte × List Byte) → List (List ChipId) → ChainSt → Broken ⊕ List (List ChipId)
  | _, [], prev, _ => .inr prev
  | i, f :: t, prev, chain =>
    let chips := opChips roll b f.2.1
    match judgeOp roll i f.2.1 f.2.2 chips prev chain with
    | .inl x => .inl x
    | .inr c => judgeAllOps roll b (i + 1) t (prev ++ [chips]) c

/-- What a buffer that passes is: chip sets and headers by operation, expected count, replay-safe, CSCOUNT, where its data area begins. -/
structure Checked where
  sets     : List (List ChipId)
  heads    : List (List Byte)
  expected : Nat
  safe     : Bool
  csCount  : Nat
  dataOff  : Nat
  deriving DecidableEq, Repr

/-- The automatic count (06 R343). -/
def autoCount (sets : List (List ChipId)) : Nat := (sets.dropLast.flatten.eraseDups).length

/-- The expected count that END's header gives, with the automatic count; none where COUNT is below it (06 R344). -/
def endCount (auto : Nat) (h : List Byte) : Option Nat :=
  let n := fld (hArg h 0 4) 0 16
  if n = 0 then some auto else if n < auto then none else some n

/-- The check pass over the whole buffer, in the order of R296; its length is that of R293. -/
def checkBuffer (roll : Roll) (nlevel : Nat) (b : List Byte) : Broken ⊕ Checked :=
  if !headOk b b.length then .inl (cfgBroken 0)
  else if bufCrcV b && (crc32c (putAt b 8 (zeros 4))).toNat ≠ leAt b 8 4 then .inl { idx := 0, status := 0x0403, peer := 0 }
  else if !headRestOk b nlevel then .inl (cfgBroken 0)
  else
    let first := 64 + 8 * bufSets b
    let fr := frames b (bufOps b) (bufOps b) 1 first
    let dataOff := match fr with
      | .inr fs => fs.foldl (fun m f => max m (f.1 + 32 + f.2.2.length)) first
      | .inl _ => first
    if !csTableOk b dataOff then .inl (cfgBroken 0)
    else
      match fr with
      | .inl x => .inl x
      | .inr fs =>
        match judgeAllOps roll b 1 fs [] none with
        | .inl x => .inl x
        | .inr sets =>
          match endCount (autoCount sets) ((fs.getLast?.map (·.2.1)).getD []) with
          | none => .inl (cfgBroken (bufOps b))
          | some n => .inr { sets := sets, heads := fs.map (·.2.1), expected := n, safe := bufReplay b, csCount := bufSets b, dataOff := dataOff }

/-! ## Fragments (05 R261 to R265) -/

/-- One entry of a fragment table as read: DVA and length, where it keeps its rules. -/
def fragOk (b : List Byte) : Bool :=
  leAt b 12 4 == 0 && leAt b 6 2 == 0 && leAt b 8 4 % 8 == 0 && (leAt b 8 4 == 0 || (leAt b 0 8 % 8 == 0))

def fragsOf (b : List Byte) (n : Nat) : List (Nat × Nat) := (List.range n).map (fun k => (leAt b (16 * k) 8, leAt b (16 * k + 8) 4))

/-- Bytes of all fragments. -/
def fragTotal (fs : List (Nat × Nat)) : Nat := fs.foldl (fun n f => n + f.2) 0

/-- The DVA pieces of buffer bytes [off, off + len). -/
def fragPieces : List (Nat × Nat) → Nat → Nat → List (Nat × Nat)
  | [], _, _ => []
  | f :: t, off, len =>
    if len = 0 then []
    else if f.2 ≤ off then fragPieces t (off - f.2) len
    else
      let n := min len (f.2 - off)
      (f.1 + off, n) :: fragPieces t 0 (len - n)

/-- Where buffer bytes [off, off + len) begin: fragment and offset in it, and whether one fragment holds them all (07 R358). -/
def fragAt : List (Nat × Nat) → Nat → Nat → Nat → Nat × Nat × Bool
  | [], k, off, _ => (k, off, true)
  | f :: t, k, off, len => if f.2 ≤ off then fragAt t (k + 1) (off - f.2) len else (k, off, decide (off + len ≤ f.2))

end Sys2Proof.Machine
end

