-- ==== Sys2Proof/Machine/Line.lean ====
section
/-! DEFINITION. The lane and the block layer: blocks, their bits on a lane, control blocks, flits and control words as blocks, what a port receives and
what it puts on its lanes (02 R59 to R73). -/

namespace Sys2Proof.Machine

/-! ## Blocks and bits (R64 to R66) -/

/-- Sync headers of data and control blocks: the bit transmitted first is bit 0 (R65). -/
def syncData : BitVec 2 := 2
def syncCtl : BitVec 2 := 1

/-- The 58 line bits that stand in a self-synchronous scrambler, the latest lowest, once another has passed (R66). -/
def shiftIn (st : BitVec 58) (b : Bool) : BitVec 58 := (st <<< 1) ||| (if b then 1 else 0)

/-- The two taps of 1 + x^39 + x^58. -/
def taps (st : BitVec 58) : Bool := st.getLsbD 38 ^^ st.getLsbD 57

/-- Bits scrambled behind the line bits `st`, and the line bits that stand then. -/
def scramble (st : BitVec 58) : List Bool → List Bool × BitVec 58
  | [] => ([], st)
  | b :: bs =>
    let o := b ^^ taps st
    let r := scramble (shiftIn st o) bs
    (o :: r.1, r.2)

/-- Line bits descrambled. -/
def descramble (st : BitVec 58) : List Bool → List Bool × BitVec 58
  | [] => ([], st)
  | o :: os =>
    let r := descramble (shiftIn st o) os
    ((o ^^ taps st) :: r.1, r.2)

/-- The bits of a word, lowest first. -/
def bitsOf {w : Nat} (v : BitVec w) : List Bool := (List.range w).map v.getLsbD

/-- The bits of blocks on a lane: sync header first and unscrambled, then payload bit 0 on (R64, R66). -/
def laneBits (st : BitVec 58) : List Block → List Bool
  | [] => []
  | b :: bs =>
    let r := scramble st (bitsOf b.payload)
    bitsOf b.sync ++ r.1 ++ laneBits r.2 bs

/-! ## Kinds of block (R65, R69, Table 2-1) -/

def bkIdle : Byte := 0x1E
def bkLcw0 : Byte := 0x2D
def bkLcw1 : Byte := 0x4B
def bkTs : Byte := 0x55
def bkAlign : Byte := 0x66
def bkFence : Byte := 0x87
def bkDown : Byte := 0x99

/-- What a block is: eight data bytes, a control block of a listed type with its content, or a block error. -/
inductive BlockIs where
  | data (bytes : List Byte)
  | ctl (type : Byte) (content : BitVec 56)
  | error
  deriving DecidableEq, Repr

def Block.is (b : Block) : BlockIs :=
  if b.sync = syncData then .data (toLe 8 b.payload.toNat)
  else if b.sync = syncCtl && [bkIdle, bkLcw0, bkLcw1, bkTs, bkAlign, bkFence, bkDown].contains (b.payload.extractLsb' 0 8)
  then .ctl (b.payload.extractLsb' 0 8) (b.payload.extractLsb' 8 56)
  else .error

/-- A block of eight data bytes, and a control block. -/
def dataBlock (bs : List Byte) : Block := { sync := syncData, payload := BitVec.ofNat 64 (ofLe bs) }
def ctlBlock (type : Byte) (content : Nat) : Block := { sync := syncCtl, payload := BitVec.ofNat 64 (type.toNat + 256 * content) }

/-- A block as it arrives on an inverted lane: every bit complemented. -/
def Block.flip (b : Block) : Block := { sync := ~~~b.sync, payload := ~~~b.payload }

/-- An inverted TS block: a data sync header and payload byte 0 of 0xAA (R72). -/
def Block.invertedTs (b : Block) : Bool := b.sync == syncData && b.payload.extractLsb' 0 8 == ~~~bkTs

/-! ## Flits and control words (R67, R68, R70, Table 2-4) -/

/-- The four blocks of a flit, in two block times of the pair (R68). -/
def flitPairs (f : Flit) : List (Block × Block) :=
  [(dataBlock (f.take 8), dataBlock ((f.drop 8).take 8)), (dataBlock ((f.drop 16).take 8), dataBlock ((f.drop 24).take 8))]

/-- Contents of LCW0 and LCW1. -/
def Lcw.half0 (w : Lcw) : Nat :=
  w.gseq.toNat + w.gcnt.toNat * 2 ^ 12 + b2n w.empty * 2 ^ 15 + w.ackseq.toNat * 2 ^ 16 + b2n w.ackv * 2 ^ 28 + b2n w.nak * 2 ^ 29
    + w.rsv0.toNat * 2 ^ 30 + fld w.gcrc.toNat 0 24 * 2 ^ 32
def Lcw.half1 (w : Lcw) : Nat :=
  fld w.gcrc.toNat 24 8 + w.cvcA.toNat * 2 ^ 8 + w.ccntA.toNat * 2 ^ 13 + w.cvcB.toNat * 2 ^ 19 + w.ccntB.toNat * 2 ^ 24 + w.rsv1.toNat * 2 ^ 30
    + w.lcrc.toNat * 2 ^ 40

/-- A control word read from its two halves. -/
def lcwOf (a b : BitVec 56) : Lcw :=
  { gseq := a.extractLsb' 0 12, gcnt := a.extractLsb' 12 3, empty := a.getLsbD 15, ackseq := a.extractLsb' 16 12, ackv := a.getLsbD 28, nak := a.getLsbD 29,
    gcrc := b.extractLsb' 0 8 ++ a.extractLsb' 32 24, cvcA := b.extractLsb' 8 5, ccntA := b.extractLsb' 13 6, cvcB := b.extractLsb' 19 5,
    ccntB := b.extractLsb' 24 6, lcrc := b.extractLsb' 40 16, rsv0 := a.extractLsb' 30 2, rsv1 := b.extractLsb' 30 10 }

/-- The block pair of a control word: LCW0 on L0, LCW1 on L1. -/
def lcwPair (w : Lcw) : Block × Block := (ctlBlock bkLcw0 w.half0, ctlBlock bkLcw1 w.half1)

/-- A group of flits and the word that closes it, or an empty word, as pairs. -/
def groupPairs (fs : List Flit) (w : Lcw) : List (Block × Block) := fs.flatMap flitPairs ++ [lcwPair w]

/-- An ALIGN pair (R70). -/
def alignPair : Block × Block := (ctlBlock bkAlign 0, ctlBlock bkAlign 0)

/-- An IDLE pair, which a transmitter with nothing to send sends. -/
def idlePair : Block × Block := (ctlBlock bkIdle 0, ctlBlock bkIdle 0)

/-- A pair of ALIGN blocks, which the receiver removes (R70). -/
def isAlign (q : Block × Block) : Bool :=
  match q.1.is, q.2.is with
  | .ctl a _, .ctl b _ => a == bkAlign && b == bkAlign
  | _, _ => false

/-- The data bytes of a pair; none where either block is no data block (R67). -/
def pairData (q : Block × Block) : Option (List Byte) :=
  match q.1.is, q.2.is with
  | .data a, .data b => some (a ++ b)
  | _, _ => none

/-- Flits from the bytes of pairs, two pairs each. -/
def flitsOf : List (List Byte) → List Flit
  | a :: b :: t => (a ++ b) :: flitsOf t
  | _ => []

/-- What a receiver reads from the pairs of a group: its flits, whether every block before the control word is a valid data block, and the word; none
where no control word closes it (R67, R68, R70, R80). -/
def readGroup (ps : List (Block × Block)) : Option (List Flit × Bool × Lcw) :=
  let qs := ps.filter (fun q => !isAlign q)
  match qs.getLast? with
  | none => none
  | some q =>
    match q.1.is, q.2.is with
    | .ctl ta a, .ctl tb b =>
      if ta = bkLcw0 ∧ tb = bkLcw1 then
        let d := qs.dropLast.map pairData
        some (flitsOf (d.filterMap id), d.all Option.isSome && decide (d.length % 2 = 0), lcwOf a b)
      else none
    | _, _ => none

/-! ## Training sets (R72, R73, Table 2-2) -/

/-- The content of a TS block. -/
def TrainSet.content (t : TrainSet) : Nat :=
  t.tstate.toNat + t.lane.toNat * 2 ^ 4 + t.port.toNat * 2 ^ 5 + t.preset.toNat * 2 ^ 10 + b2n t.ready * 2 ^ 15 + t.chip.toNat * 2 ^ 16
    + t.cinc.toNat * 2 ^ 32 + t.proto.toNat * 2 ^ 40 + t.stands.toNat * 2 ^ 44 + t.nlevel.toNat * 2 ^ 48

/-- A TS block read; none where the block is another. -/
def Block.trainSet (b : Block) : Option TrainSet :=
  match b.is with
  | .ctl t c =>
    if t = bkTs then
      some { tstate := c.extractLsb' 0 4, lane := c.extractLsb' 4 1, port := c.extractLsb' 5 5, preset := c.extractLsb' 10 3, ready := c.getLsbD 15,
             chip := c.extractLsb' 16 16, cinc := c.extractLsb' 32 8, proto := c.extractLsb' 40 4, stands := c.extractLsb' 44 4, nlevel := c.extractLsb' 48 8 }
    else none
  | _ => none

/-! ## What a port receives (R61, R72) -/

/-- A block of receive lane `k` with the polarity training has found. -/
def unflip (inv : BitVec 2) (k : Nat) (b : Block) : Block := if inv.getLsbD k then b.flip else b

/-- A block time as it arrives on the two receive lanes, with polarity and lane assignment corrected. -/
def Port.corrected (p : Port) (q : Block × Block) : Block × Block :=
  let a := unflip p.invert 0 q.1
  let b := unflip p.invert 1 q.2
  if p.swap then (b, a) else (a, b)

/-- Which receive lanes a port in training takes as inverted: in LOCK those that carry inverted TS blocks, later those it has found (R72). -/
def Port.inverted (p : Port) (a b : Block) : BitVec 2 :=
  if p.train = .lock then (if a.invertedTs then 1 else 0) ||| (if b.invertedTs then 2 else 0) else p.invert

/-- The training sets that stand on the two receive lanes of a port in training, and the inversion found (R72, R73). -/
def Port.readTrain (p : Port) (a b : Block) : Option (TrainSet × TrainSet × BitVec 2) :=
  let inv := p.inverted a b
  match (unflip inv 0 a).trainSet, (unflip inv 1 b).trainSet with
  | some t0, some t1 => some (t0, t1, inv)
  | _, _ => none

/-! ## What a port sends -/

/-- The pairs that one thing sent puts on the lanes of its port: TS, FENCE and DOWN repeat for as long as the port's state lasts, and stand here once. -/
def Out.pairs : Out → Option (Nat × List (Block × Block))
  | .group n fs w => some (n, groupPairs fs w)
  | .lcw n w => some (n, [lcwPair w])
  | .ts n t0 t1 => some (n, [(ctlBlock bkTs t0.content, ctlBlock bkTs t1.content)])
  | .fenceBlocks n chip inc =>
    let b := ctlBlock bkFence (chip.toNat + inc.toNat * 2 ^ 16)
    some (n, [(b, b)])
  | .downBlocks n => some (n, [(ctlBlock bkDown 0, ctlBlock bkDown 0)])
  | _ => none

/-- An ALIGN pair behind every 16,384 pairs (R70); `k` have gone since the last. -/
def aligned (k : Nat) : List (Block × Block) → List (Block × Block)
  | [] => []
  | q :: qs => if k = 16383 then q :: alignPair :: aligned 0 qs else q :: aligned (k + 1) qs

/-- The pairs a port has put on its lanes, by what the chip has sent; IDLE fills the time between, which no command takes (R64, R70). -/
def linePairs (port : Nat) (out : List Out) : List (Block × Block) :=
  aligned 0 (out.flatMap (fun o => match o.pairs with | some (n, ps) => if n = port then ps else [] | none => []))

/-- The bits of the two lanes of a port, behind the line bits each scrambler starts from, which the spec does not give (R66; log 114). -/
def lineBits (port : Nat) (st0 st1 : BitVec 58) (out : List Out) : List Bool × List Bool :=
  (laneBits st0 ((linePairs port out).map (·.1)), laneBits st1 ((linePairs port out).map (·.2)))

end Sys2Proof.Machine
end

