-- ==== Sys2Proof/Machine/Fabric.lean ====
section
/-! DEFINITION. Packets on the wire, routing, ports' transmit queues and the numbering of transfers (02). -/

namespace Sys2Proof.Machine

/-! ## Packet types and classes (02 Table 2-6, R87) -/

def tyWrite : BitVec 8 := 0x01
def tyReadReq : BitVec 8 := 0x02
def tyReadRsp : BitVec 8 := 0x03
def tyLaunch : BitVec 8 := 0x05
def tyAck : BitVec 8 := 0x06
def tyNak : BitVec 8 := 0x07
def tyDisc : BitVec 8 := 0x10
def tyHeartbeat : BitVec 8 := 0x11
def tyEpoch : BitVec 8 := 0x12
def tyFence : BitVec 8 := 0x13
def tyJournal : BitVec 8 := 0x14
def tyMgmt : BitVec 8 := 0x15
def tyInstCtl : BitVec 8 := 0x16

/-- A type Table 2-6 names. -/
def typeKnown (t : BitVec 8) : Bool :=
  [0x01, 0x02, 0x03, 0x05, 0x06, 0x07, 0x10, 0x11, 0x12, 0x13, 0x14, 0x15, 0x16].contains t.toNat

/-- CTL class: TYPE 0x10 to 0x16 (02 R87). -/
def Packet.isCtl (p : Packet) : Bool := decide (0x10 ≤ p.type.toNat ∧ p.type.toNat ≤ 0x16)

/-- An answer (02 R99). -/
def Packet.isAnswer (p : Packet) : Bool := p.type == tyReadRsp || p.type == tyAck || p.type == tyNak

/-- Class of a packet: REQ 0, RSP 1, SGT 2, CTL 3 (02 R87). -/
def Packet.cls (p : Packet) : Nat :=
  if p.isCtl then 3 else if p.isAnswer then 1 else if p.tail && p.sig then 2 else 0

/-- Virtual channel index: class x 8 + VL (02 R87). -/
def Packet.vc (p : Packet) : Nat := p.cls * 8 + p.vl.toNat

/-- Flits of a packet: its header and its payload, padded (02 "Packets"). -/
def Packet.flitCount (p : Packet) : Nat := 1 + (p.data.length + 31) / 32

/-- Header bytes 0 to 27 (02 Table 2-5), with a given VL. -/
def Packet.head28 (p : Packet) (vl : Nat) : List Byte :=
  toLe 2 p.dst.toNat ++ toLe 2 p.src.toNat ++ toLe 1 p.type.toNat
    ++ toLe 1 (b2n p.mc + 2 * b2n p.ord + 4 * b2n p.tail + 8 * b2n p.sig + 16 * vl + 128 * b2n p.rsv)
    ++ toLe 1 p.tinc.toNat ++ toLe 1 p.sinc.toNat ++ toLe 3 p.tid.toNat
    ++ toLe 1 (p.inst.toNat + 64 * b2n p.iovf + 128 * b2n p.irpl)
    ++ toLe 2 p.pktidx.toNat ++ toLe 2 p.pktcnt.toNat ++ toLe 6 p.addr.toNat
    ++ toLe 2 (p.len.toNat + 512 * p.iepoch.toNat) ++ toLe 2 (p.obj.toNat + 16384 * p.kind.toNat)
    ++ toLe 2 p.amount.toNat

/-- PCRC of a packet: VL taken as zero (02 R94). -/
def Packet.crc (p : Packet) : BitVec 32 := crc32 (p.head28 0 ++ p.data)

/-- Bytes of a packet as its flits carry them: header, payload padded with zeros to whole flits. -/
def Packet.bytes (p : Packet) : List Byte :=
  padTo (32 * p.flitCount) (p.head28 p.vl.toNat ++ toLe 4 p.pcrc.toNat ++ p.data)

/-- A list cut into pieces of `n` (fuel: the number of pieces). -/
def pieces {α : Type} (n : Nat) : Nat → List α → List (List α)
  | 0, _ => []
  | k + 1, bs => if bs.isEmpty then [] else bs.take n :: pieces n k (bs.drop n)

/-- The flits of a packet. -/
def Packet.flits (p : Packet) : List Flit := pieces 32 p.flitCount p.bytes

/-- A completion increment (07 R380): the tail of a WRITE whose signal adds to a buffer completion tally. -/
def Packet.isIncrement (p : Packet) : Bool :=
  p.type == tyWrite && p.tail && p.sig && p.kind == 2 && decide (0x2000 ≤ p.obj.toNat ∧ p.obj.toNat ≤ 0x23FF)

/-- What R96 refuses: reserved bit, reserved TYPE, VL 7, LEN above 256, PKTCNT 0, PKTIDX at or above PKTCNT.
IOVF, IRPL are reserved outside a completion increment (Table 2-5). -/
def Packet.malformed (p : Packet) : Bool :=
  p.rsv || !typeKnown p.type || p.vl == 7 || decide (256 < p.len.toNat) || p.pktcnt == 0
    || decide (p.pktcnt.toNat ≤ p.pktidx.toNat) || ((p.iovf || p.irpl) && !p.isIncrement)

/-- The packet with its check filled in. -/
def Packet.sealed (p : Packet) : Packet := { p with pcrc := p.crc }

/-! ## Routing (02 R112 to R116) -/

/-- Ports that are ACTIVE, as a mask. -/
def State.activeMask (s : State) : Nat :=
  (s.fab.ports.filter (fun e => e.2.st == .active)).foldl (fun m e => m ||| 2 ^ e.1) 0

/-- Ports of a mask, ascending. -/
def portsOf (mask : Nat) : List Nat := (List.range 24).filter (fun p => bit mask p)

/-- The routing-table entry that DST meets at this chip (02 R113, rules 2 to 4). -/
def State.routeEntry (s : State) (dst : ChipId) : Word64 :=
  let g := fld dst.toNat 8 8
  let m := fld dst.toNat 0 8
  let own := s.dom.chipId.toNat
  let ge : Word64 := Tbl.get 0 s.act.grp g
  let me : Word64 := Tbl.get 0 s.act.mbr m
  if g = fld own 8 8 then me
  else if ge.getLsbD 48 && m ≠ fld own 0 8 && me.getLsbD 49 then me
  else ge

/-- The live ports of the entry: PRIMARY, or ALTERNATE where no PRIMARY port is ACTIVE; none where it is not VALID
(02 R114, R115). -/
def State.routePorts (s : State) (dst : ChipId) : List Nat :=
  let e := s.routeEntry dst
  let pri := portsOf (Nat.land (fld e.toNat 0 24) s.activeMask)
  if !e.getLsbD 49 then [] else if pri.isEmpty then portsOf (Nat.land (fld e.toNat 24 24) s.activeMask) else pri

/-- Free credit of a port on a channel: credit held, less flits waiting there (02 R107). -/
def Link.freeCredit (l : Link) (vc : Nat) : Int :=
  (Tbl.get 0 l.credit vc : Nat) - ((l.waiting.filter (fun w => w.1 == vc)).foldl (fun n w => n + w.2.flitCount) 0 : Nat)

/-- The port with the most free credit on the channel; the lowest on a tie (02 R107). -/
def State.adaptivePort (s : State) (vc : Nat) : List Nat → Option Nat
  | [] => none
  | p :: ps =>
    match s.adaptivePort vc ps with
    | none => some p
    | some q => if (s.port q).link.freeCredit vc ≤ (s.port p).link.freeCredit vc then some p else some q

/-- The outgoing port among live ports: adaptive by credit, ordered by (SRC XOR DST) modulo their number
(02 R107, R108). -/
def State.choosePort (s : State) (p : Packet) (live : List Nat) : Option Nat :=
  if live.isEmpty then none
  else if p.ord then live[(Nat.xor p.src.toNat p.dst.toNat) % live.length]?
  else s.adaptivePort p.vc live

/-- A port goes into a state; its incarnation rises whenever it leaves ACTIVE (02 Table 2-5a). -/
def Port.into (p : Port) (st : PortState) : Port :=
  { p with st := st, inc := if p.st = .active && st ≠ .active then p.inc + 1 else p.inc }

/-! ## A port's transmit queue (02 R82, R90) -/

/-- Numbered flits. -/
def numberFlits : BitVec 12 → List Flit → List (BitVec 12 × Flit)
  | _, [] => []
  | n, f :: fs => (n, f) :: numberFlits (n + 1) fs

/-- The packets that may start, in order: credit for every flit on the channel, room among the 512 unacknowledged flits,
and no earlier packet of the channel left waiting (02 R82, R90). A packet the port may not carry waits. Answers the link and the packets started. -/
def Link.pump (l : Link) (may : Packet → Bool) : Link × List Packet :=
  let step := fun (a : Link × List Packet × List (Nat × Packet)) (w : Nat × Packet) =>
    let n := w.2.flitCount
    if !may w.2 || a.2.2.any (fun x => x.1 == w.1) || decide (Tbl.get 0 a.1.credit w.1 < n) || decide (512 < a.1.unacked.length + n)
    then (a.1, a.2.1, a.2.2 ++ [w])
    else
      ({ a.1 with credit := Tbl.upd 0 a.1.credit w.1 (· - n), used := if a.1.used.contains w.1 then a.1.used else a.1.used ++ [w.1], nextSeq := a.1.nextSeq + BitVec.ofNat 12 n,
                  unacked := a.1.unacked ++ numberFlits a.1.nextSeq w.2.flits }, a.2.1 ++ [w.2], a.2.2)
  let r := l.waiting.foldl step ({ l with waiting := [] }, [], [])
  ({ r.1 with waiting := r.2.2 }, r.2.1)

/-- LCRC of a link control word: over LCW0 [55:0] and LCW1 [39:0] (02 R79, Table 2-4). -/
def Lcw.crc (w : Lcw) : BitVec 16 := crc16 (toLe 7 w.half0 ++ toLe 5 w.half1)

/-- The lowest free pending-signal slot of 512. -/
def State.freeSlot (s : State) : Option Nat := Tbl.freeBelow none s.gal.slots 512

/-- Credit owed on a channel is returned now: that of the SGT class waits while no pending-signal slot is free (R104). -/
def State.returns (s : State) (vc : Nat) : Bool := s.freeSlot.isSome || decide (vc / 8 ≠ 2)

/-- The credit returns the next LCW carries, at most two of at most 63 flits each (02 Table 2-4). -/
def State.returnsNow (s : State) (l : Link) : List (Nat × Nat) :=
  ((l.owed.filter (fun e => s.returns e.1 && decide (e.2 ≠ 0))).take 2).map (fun e => (e.1, min e.2 63))

/-- The LCW that closes a group of flits numbered from `seq`, or an empty one (02 R78, R79, R85). -/
def State.lcwFor (s : State) (l : Link) (seq : BitVec 12) (flits : List Flit) (nak : Bool) : Lcw :=
  let c := s.returnsNow l
  let a := c.getD 0 (0, 0)
  let b := c.getD 1 (0, 0)
  let w : Lcw :=
    { gseq := seq, gcnt := BitVec.ofNat 3 (flits.length - 1), empty := flits.isEmpty, ackseq := l.rxLast, ackv := l.rxAny, nak := nak,
      gcrc := if flits.isEmpty then 0 else crc32c flits.flatten, cvcA := BitVec.ofNat 5 a.1, ccntA := BitVec.ofNat 6 a.2,
      cvcB := BitVec.ofNat 5 b.1, ccntB := BitVec.ofNat 6 b.2, lcrc := 0 }
  { w with lcrc := w.crc }

/-- The link once that LCW has gone: nothing is left to acknowledge, the credit it returned is owed no more. -/
def State.lcwGone (s : State) (l : Link) : Link :=
  { l with ackDue := false, owed := (s.returnsNow l).foldl (fun t e => Tbl.upd 0 t e.1 (· - e.2)) l.owed }

/-- A group of at most eight numbered flits and the LCW that closes it (02 R78, R86). -/
def State.sendGroup (s : State) (n : Nat) (fs : List (BitVec 12 × Flit)) : State :=
  let l := (s.port n).link
  let seq := match fs.head? with | some f => f.1 | none => l.nextSeq
  let w := s.lcwFor l seq (fs.map (·.2)) false
  (s.updPort n (fun p => { p with link := s.lcwGone l })).emit (.group n (fs.map (·.2)) w)

/-- Flits leave in groups: one closes after eight flits, or for want of a further flit (02 R86). -/
def State.sendFlits (s : State) (n : Nat) (fs : List (BitVec 12 × Flit)) : State :=
  (pieces 8 fs.length fs).foldl (fun s g => s.sendGroup n g) s

/-- What a port may carry: a HELD one DISC alone (02 Table 2-5a). -/
def Port.carries (p : Port) (q : Packet) : Bool := p.st == .active || (p.st == .held && q.type == tyDisc)

/-- Whatever may start on port `n` starts. -/
def State.pumpPort (s : State) (n : Nat) : State :=
  let l := (s.port n).link
  let r := (l.pump (s.port n).carries).1
  (s.updPort n (fun q => { q with link := r })).sendFlits n (r.unacked.drop l.unacked.length)

/-- The packet assigned to port `n`. -/
def State.sendOn (s : State) (n : Nat) (p : Packet) : State :=
  (s.updPort n (fun q => { q with link := { q.link with waiting := q.link.waiting ++ [(p.vc, p)] } })).pumpPort n

/-- FAB_DROP_COUNT rises (22 Table 22-10). -/
def State.countDrop (s : State) : State := { s with fab := { s.fab with dropCnt := satInc s.fab.dropCnt } }

/-- HEARTBEAT and JOURNAL packets of this chip for its pair partner, but the routed BEAT and its ECHO (14 R627). -/
def State.pairTraffic (s : State) (p : Packet) : Bool :=
  p.src == s.dom.chipId && (p.type == tyJournal || (p.type == tyHeartbeat && !bit (leAt p.data 1 1) 0))
    && (s.dom.standby == some p.dst || (s.dom.role == .standby && s.dom.frontEnd == p.dst))

/-- ACTIVE pair ports: PAIR_PORTS of the configuration area (14 R626, 19 Table 19-5). -/
def State.pairPorts (s : State) : List Nat := portsOf (Nat.land (fld (leAt s.boot.cfg 8 4) 0 24) s.activeMask)

/-- The live ports a packet may take: pair ports for the pair's traffic while one is ACTIVE, else the routing tables'. -/
def State.livePorts (s : State) (p : Packet) : List Nat :=
  if s.pairTraffic p && !s.pairPorts.isEmpty then s.pairPorts else s.routePorts p.dst

/-- Before the domain is formed no chip has tables: a packet follows the discovery tree, to the parent unless it came from there, else to
every child (02 R128; log 90). -/
def State.treeWays (s : State) (via : Option Nat) : List Nat :=
  match s.disc.parent with
  | some p => if via = some p then s.disc.children else [p]
  | none => s.disc.children.filter (fun c => via ≠ some c)

/-- The ports a packet leaves on: one of its route, or those of the discovery tree (02 R107 to R109, R113 to R115). -/
def State.outPorts (s : State) (p : Packet) (via : Option Nat) : List Nat :=
  if s.dom.formed then (s.choosePort p (s.livePorts p)).toList else s.treeWays via

/-- A unicast packet leaves by its route; answers whether it did (02 R113 to R115). -/
def State.routeOut (s : State) (p : Packet) (via : Option Nat := none) : State × Bool :=
  if (s.outPorts p via).isEmpty then (s.countDrop, false) else ((s.outPorts p via).foldl (fun s n => s.sendOn n p) s, true)

/-- An outstanding transfer notes the ports its packet has left on (02 R132). -/
def State.carried (s : State) (p : Packet) (ns : List Nat) : State :=
  if p.isAnswer then s
  else { s with fab := { s.fab with xfers := s.fab.xfers.map (fun x =>
    if x.dst = p.dst && x.tid = p.tid then { x with ports := (x.ports ++ ns).eraseDups } else x) } }

/-- A packet this chip originates, without a word where it finds no route: an event's own packet cannot be reported by an event
(02 R88, R144). -/
def State.injectQuiet (s : State) (p : Packet) : State :=
  let q := { p with vl := 0 }.sealed
  if s.dom.fencedSelf || !s.fab.enabled then s else (s.routeOut q).1.carried q (s.outPorts q none)

/-! ## Transfers (02 R99 to R106) -/

/-- Header fields every packet of this chip carries toward `dst` (02 Table 2-5, 15 R688). -/
def State.addressed (s : State) (dst : ChipId) (p : Packet) : Packet :=
  let p1 := { p with dst := dst, src := s.dom.chipId, sinc := s.dom.chipInc, tinc := Tbl.get 0 s.dom.incs dst.toNat }
  { p1 with iepoch := if p1.isCtl || p1.isAnswer then 0 else (s.inst p1.inst.toNat).epoch }

/-- Unacknowledged transfers to a chip. -/
def State.outTo (s : State) (dst : ChipId) : Nat := (s.fab.xfers.filter (fun x => x.dst == dst)).length

/-- A transfer starts: it takes the destination's next TID, its packets are addressed and sent (02 R101). -/
def State.startXferBy (inject : State → Packet → State) (s : State) (x : Xfer) : State :=
  let tid := Tbl.get 0 s.fab.nextTid x.dst.toNat
  let pkts := x.pkts.map (fun p => { s.addressed x.dst p with tid := tid })
  let s1 := { s with fab := { s.fab with nextTid := Tbl.set 0 s.fab.nextTid x.dst.toNat (tid + 1),
                                         xfers := s.fab.xfers ++ [{ x with tid := tid, pkts := pkts, sends := 1, pktSends := pkts.map (fun p => (p.pktidx.toNat, 1)) }] } }
  pkts.foldl inject s1

/-- A transfer as it is asked for. -/
def Xfer.fresh (dst : ChipId) (why : Purpose) (pkts : List Packet) : Xfer :=
  { dst := dst, tid := 0, pkts := pkts, got := [], sends := 0, pktSends := [], rounds := 0, refused := [], purpose := why }

/-- A new transfer of packets to `dst`; it waits while 4,096 are unacknowledged there (02 R101). -/
def State.newXferBy (inject : State → Packet → State) (s : State) (dst : ChipId) (why : Purpose) (pkts : List Packet) : State :=
  let x := { Xfer.fresh dst why pkts with stamp := s.fab.issued }
  let s1 := { s with fab := { s.fab with issued := s.fab.issued + 1 } }
  if 4096 ≤ s.outTo dst || s.fab.queued.any (fun q => q.dst == dst)
  then { s1 with fab := { s1.fab with queued := s1.fab.queued ++ [x] } }
  else s1.startXferBy inject x

/-- A signal as a tail carries it: object, kind, amount. -/
structure TailSig where
  obj    : BitVec 14
  kind   : BitVec 2
  amount : BitVec 16
  iovf   : Bool
  irpl   : Bool
  deriving DecidableEq, Repr

/-- Numbers with their positions. -/
def indexed {α : Type} : Nat → List α → List (Nat × α)
  | _, [] => []
  | n, a :: t => (n, a) :: indexed (n + 1) t

/-- The packets of a WRITE transfer: payload pieces of at most 256 bytes, the signal in the tail (02 R102).
Without bytes it is a pure signal, or a void where there is no signal (02 R985). -/
def writePkts (inst : BitVec 6) (addr : Nat) (bytes : List Byte) (ord : Bool) (sig : Option TailSig) : List Packet :=
  let ps := if bytes.isEmpty then [[]] else pieces 256 ((bytes.length + 255) / 256) bytes
  let n := ps.length
  (indexed 0 ps).map (fun e =>
    let base := { Packet.zero with type := tyWrite, ord := ord, inst := inst, pktidx := BitVec.ofNat 16 e.1,
                                   pktcnt := BitVec.ofNat 16 n, addr := BitVec.ofNat 48 (addr + 256 * e.1),
                                   len := BitVec.ofNat 9 e.2.length, data := e.2, tail := e.1 + 1 == n }
    match sig with
    | some g =>
      if e.1 + 1 = n then { base with sig := true, obj := g.obj, kind := g.kind, amount := g.amount, iovf := g.iovf, irpl := g.irpl }
      else base
    | none => base)

/-- A CTL packet with a payload the spec lays out: HEARTBEAT, JOURNAL, INST_CTL. It is a single-packet transfer. -/
def ctlPkt (type : BitVec 8) (inst : BitVec 6) (data : List Byte) : Packet :=
  { Packet.zero with type := type, ord := true, tail := true, inst := inst, len := BitVec.ofNat 9 data.length, data := data }

/-- The packet type of a message (02 Table 2-6). The spec names none for a declaration of unresponsiveness, nor for a report of progress:
MGMT (log 17). -/
def CtlMsg.type : CtlMsg → BitVec 8
  | .elect _ => tyDisc | .parent => tyDisc | .report _ => tyDisc | .assign _ _ _ => tyDisc | .reject _ _ => tyDisc | .ready _ => tyDisc
  | .prepare _ _ _ => tyEpoch | .prepareAck _ _ => tyEpoch | .commit _ _ _ _ => tyEpoch | .portLeft _ => tyEpoch
  | .fence _ => tyFence
  | .mgmt _ _ _ _ _ => tyMgmt | .mgmtAnswer _ _ _ => tyMgmt | .ring _ _ _ _ _ => tyMgmt | .ringAnswer _ _ => tyMgmt | .refused _ _ => tyMgmt
  | .guilt _ _ _ => tyMgmt | .inval _ _ _ _ => tyMgmt | .invalDone => tyMgmt | .incRequest _ => tyMgmt | .incAnswer _ _ => tyMgmt
  | .declare _ => tyMgmt | .lockBroken _ _ => tyMgmt | .progress _ _ _ _ => tyMgmt | .flr _ => tyMgmt | .reserve _ _ _ => tyMgmt
  | .announce _ _ _ => tyWrite | .contribute _ _ _ _ => tyWrite | .replayAsk _ => tyWrite | .replayFail _ _ => tyWrite

/-- The instance on whose behalf a message travels. -/
def CtlMsg.inst : CtlMsg → BitVec 6
  | .ring i _ _ _ _ => i | .ringAnswer i _ => i | .refused i _ => i | .guilt i _ _ => i | .inval i _ _ _ => i | _ => 0

/-- A packet that carries a message whose payload the spec leaves open: its bytes are opaque (logs 15 to 17). -/
def msgPkt (m : CtlMsg) : Packet :=
  { ctlPkt m.type m.inst ((Config.ctlPayload m).take 256) with msg := some m }

/-- A packet of a collective: data in the class its operation requests, on behalf of its instance, its payload opaque (11 R550; log 15). -/
def collPkt (inst : BitVec 6) (ord : Bool) (m : CtlMsg) : Packet := { msgPkt m with inst := inst, ord := ord }

/-- A DISC packet on port `n`: link-local, DST 0x0000, never resent end to end since the chips have no IDs yet (02 R98; log 15). -/
def State.sendDisc (s : State) (n : Nat) (m : CtlMsg) : State :=
  if s.dom.fencedSelf || !s.fab.enabled then s
  else
    let tid := Tbl.get 0 s.fab.nextTid 0
    ({ s with fab := { s.fab with nextTid := Tbl.set 0 s.fab.nextTid 0 (tid + 1) } }).sendOn n { s.addressed 0 (msgPkt m) with tid := tid }.sealed

/-- The same DISC message on several ports. -/
def State.sendDiscs (s : State) (ns : List Nat) (m : CtlMsg) : State := ns.foldl (fun s n => s.sendDisc n m) s

end Sys2Proof.Machine
end

