-- ==== Sys2Proof/Machine/Ops.lean ====
section
/-! DEFINITION. The shared operations over memory, translation, the pending-signal FIFO, events and time (03, 08, 13, 16, 20). -/

namespace Sys2Proof.Machine

/-! ## The pending-signal FIFO (08 R413, 20 R884) -/

/-- The FIFO has room for one more of its 64 entries. -/
def State.fifoHasRoom (s : State) : Bool := decide (s.gal.fifo.length < 64)

/-- FIFO sources in the order of 20 R884: 0 CFE, 1 fabric unit, 2 endpoint, 3 Safety Monitor. -/
def State.fifoPush (s : State) (source : Nat) (g : Sig) : State :=
  { s with gal := { s.gal with fifo := s.gal.fifo ++ [g], winner := source } }

/-- A signal of the device itself: into the FIFO, or held until it has room. -/
def State.deviceSignal (s : State) (g : Sig) : State :=
  if s.fifoHasRoom && s.gal.stalled.isEmpty then s.fifoPush 0 g
  else { s with gal := { s.gal with stalled := s.gal.stalled ++ [g] } }

/-! ## Events (13 R600 to R605, 17 R778) -/

/-- The tally add of 1 a push carries to FE_EVQ_NOTIFY: object index of the register's field (13 R602). -/
def State.evqNotifyTail (s : State) : TailSig :=
  { obj := BitVec.ofNat 14 (fld s.act.evqNotify.toNat 16 14), kind := 2, amount := 1, iovf := false, irpl := false }

/-- An event entry leaves for the event ring: a posted write of instance 0 on the active front end, a WRITE to its portal
elsewhere; with the notice when the ring held fewer than THRESH unconsumed entries (13 R600 to R602, 22 R914). -/
def State.evqWrite (s : State) (body : List Byte) : State :=
  let entry := withPhase s.evq.prod.toNat s.evqN body
  let dva := s.evqDva
  let notify := decide (s.evqDepth < s.act.evqThresh.toNat)
  let s1 := { s with evq := { s.evq with prod := s.evq.prod + 1 } }
  if s.isFe then
    let s2 := s1.postRing 0 dva entry
    if notify then
      s2.deviceSignal { kind := 2, obj := s.evqNotifyTail.obj, amount := 1, inst := 0, chip := s.dom.chipId, notice := none,
                        origin := .device }
    else s2
  else s1.newXferBy State.injectQuiet s.dom.frontEnd .event (writePkts 0 dva entry true (if notify then some s.evqNotifyTail else none))

/-- An event of 30 bytes is raised: into the boot log while the ring is off, dropped and counted while the ring is full,
else written (13 R601, R603, 19 R850, 22 R916). -/
def State.pushEvent (s : State) (body : List Byte) : State :=
  if s.act.evqSize = 0 then
    if s.evq.bootLog.length < 64 then { s with evq := { s.evq with bootLog := s.evq.bootLog ++ [body] } }
    else { s with evq := { s.evq with bootLost := s.evq.bootLost + 1 } }
  else if s.evqDepth < s.evqN && s.evq.drop = 0 then s.evqWrite body
  else { s with evq := { s.evq with drop := satInc s.evq.drop } }

/-- Event CODE with severity, instance and arguments (13 Table 13-8, 16 Table 16-8, 17 Table 17-6, 20 Table 20-7).
Safety events also raise the SAFETY cause (17 R778). -/
def State.event (s : State) (code sev inst arg0 arg1 : Nat) : State :=
  let s1 := s.pushEvent (eventBytes code sev inst s.dom.chipId.toNat s.now arg0 arg1)
  if 0x200 ≤ code && code < 0x300 then s1.cause 0 causeSafety else s1

def evOverflow : Nat := 0x0001
def evGuilty : Nat := 0x0010
def evHalted : Nat := 0x0011
def evCrossTenant : Nat := 0x0012
def evXferAbandoned : Nat := 0x0013
def evStaleLaunch : Nat := 0x0014
def evBadTarget : Nat := 0x0015
def evPartTimeout : Nat := 0x0016
def evForwardFailed : Nat := 0x0017
def evCeThreshold : Nat := 0x0020
def evUe : Nat := 0x0021
def evObjPoisoned : Nat := 0x0022
def evTileRemapped : Nat := 0x0030
def evDegraded : Nat := 0x0031
def evPortIncompatible : Nat := 0x0040
def evPortHeld : Nat := 0x0041
def evPktDropped : Nat := 0x0042
def evChipLost : Nat := 0x0043
def evDataPortalDoorbell : Nat := 0x0050
def evMgmtRefused : Nat := 0x0051
def evBusMasterOff : Nat := 0x0052
def evImageRejected : Nat := 0x0100
def evHoldDeferred : Nat := 0x0101
def evHoldReleased : Nat := 0x0102
def evDebugUnlocked : Nat := 0x0103
def evZeroized : Nat := 0x0104
def evSelftestFail : Nat := 0x0105
def evConfRefused : Nat := 0x0106
def evSvnCommitted : Nat := 0x0107
def evSafeEntered : Nat := 0x0200
def evInjectionFail : Nat := 0x0201
def evArmed : Nat := 0x0202
def evDisarmed : Nat := 0x0203
def evFaultReported : Nat := 0x0204
def evSafeNTest : Nat := 0x0205
def evThrottle : Nat := 0x0300
def evPowerLimited : Nat := 0x0301
def evJunctionLimit : Nat := 0x0302
def evHibernateEntered : Nat := 0x0303
def evHibernateExited : Nat := 0x0304
def evTsyncApplied : Nat := 0x0305

/-- A packet is dropped and reported (02 R89, R96, R115, R118, R988; 13 PKT_DROPPED). -/
def State.dropPacket (s : State) (p : Packet) (reason : Nat) : State :=
  let s1 := if reason ≤ 4 then s.countDrop else s
  s1.event evPktDropped 2 p.inst.toNat (reason + p.src.toNat * 2 ^ 16 + p.dst.toNat * 2 ^ 32) p.tid.toNat

/-- A packet is forwarded or injected by the routing tables; a packet without a route is dropped and reported
(02 R115). -/
def State.forward (s : State) (p : Packet) (via : Option Nat := none) : State :=
  let r := s.routeOut p via
  if r.2 then r.1 else s.dropPacket p 3

/-! ## Transfers of this chip (02 R88, R99 to R106, R144) -/

/-- A packet this chip originates: at VL 0 and sealed; nothing is injected while fenced (02 R88, R144) or before
the fabric unit runs; one without a route is dropped and reported (R115). -/
def State.inject (s : State) (p : Packet) : State :=
  let q := { p with vl := 0 }.sealed
  if s.dom.fencedSelf || !s.fab.enabled then s else (s.forward q).carried q (s.outPorts q none)

/-- An answer to a packet: to its source, with its TID and instance, in the ordered class (02 R99, R110). -/
def State.answer (s : State) (req : Packet) (p : Packet) : State :=
  s.inject { s.addressed req.src p with tid := req.tid, inst := req.inst, tinc := req.sinc, ord := true }

/-- XFER_ACK with an outcome (08 Table 8-8). -/
def State.sendAck (s : State) (req : Packet) (outcome : Nat) : State :=
  s.answer req { Packet.zero with type := tyAck, tail := true, addr := BitVec.ofNat 48 outcome }

/-- E2E_NAK with a reason: 1 CRC naming PKTIDX, 2 STALE, 3 RETRY_LATER, 4 ABANDONED (02 Table 2-6). It carries the PKTIDX and PKTCNT of the
packet it answers whatever the reason, and TAIL as R102 gives for them (log 91). -/
def State.sendNak (s : State) (req : Packet) (reason : Nat) : State :=
  s.answer req { Packet.zero with type := tyNak, addr := BitVec.ofNat 48 reason, pktidx := req.pktidx, pktcnt := req.pktcnt,
                                  tail := req.pktidx.toNat + 1 == req.pktcnt.toNat }

/-- A transfer starts (02 R101). -/
def State.startXfer (s : State) (x : Xfer) : State := s.startXferBy State.inject x

/-- A new transfer of packets to `dst` (02 R101). -/
def State.newXfer (s : State) (dst : ChipId) (why : Purpose) (pkts : List Packet) : State := s.newXferBy State.inject dst why pkts

/-- The oldest queued transfer to `dst` starts, if there is room. -/
def State.unqueue (s : State) (dst : ChipId) : State :=
  match s.fab.queued.find? (fun q => q.dst == dst) with
  | none => s
  | some q =>
    if 4096 ≤ s.outTo dst then s
    else { s with fab := { s.fab with queued := s.fab.queued.erase q } }.startXfer q

/-- A pure signal to an object of `dst` (02 Table 2-6). -/
def State.pureSignal (s : State) (dst : ChipId) (why : Purpose) (inst : BitVec 6) (ord : Bool) (g : TailSig) : State :=
  s.newXfer dst why (writePkts inst 0 [] ord (some g))

/-- A message of EPOCH, FENCE_NOTICE or MGMT to a chip: a single-packet transfer (02 R98). -/
def State.ctl (s : State) (dst : ChipId) (m : CtlMsg) : State := s.newXfer dst .ctl [msgPkt m]

/-- The same to several chips. -/
def State.ctls (s : State) (ds : List ChipId) (m : CtlMsg) : State := ds.foldl (fun s d => s.ctl d m) s

/-! ## FAULT_N and correctable counters (13 R599, 17 R767) -/

/-- Report bit `b` of SAFE_STATUS is set and FAULT_N follows (17 R767). -/
def State.safeReport (s : State) (b : Nat) : State :=
  { s with safe := { s.safe with status := s.safe.status ||| BitVec.ofNat 5 (2 ^ b), faultN := true } }

/-- Counter `n` of 0 to 3 rises; at a nonzero threshold it reports CE_THRESHOLD once and disarms it (13 R599). -/
def State.bumpCe (s : State) (n : Nat) : State :=
  let c : Word32 := satInc (Tbl.get 0 s.mem.ceCnt n)
  let t : Word32 := Tbl.get 0 s.mem.ceThr n
  let s1 := { s with mem := { s.mem with ceCnt := Tbl.set 0 s.mem.ceCnt n c } }
  if t ≠ 0 && t ≤ c then
    (({ s1 with mem := { s1.mem with ceThr := Tbl.set 0 s1.mem.ceThr n 0 } }).event evCeThreshold 1 0 n c.toNat).safeReport 3
  else s1

/-- FAB_REPLAY_COUNT rises (13 Table 13-6 code 5). -/
def State.bumpReplay (s : State) : State :=
  let c := satInc s.fab.replayCnt
  let s1 := { s with fab := { s.fab with replayCnt := c } }
  if s.fab.replayThr ≠ 0 && s.fab.replayThr ≤ c then
    (({ s1 with fab := { s1.fab with replayThr := 0 } }).event evCeThreshold 1 0 4 c.toNat).safeReport 3
  else s1

/-- FAB_PCRC_COUNT rises (13 Table 13-6 code 6). -/
def State.bumpPcrc (s : State) : State :=
  let c := satInc s.fab.pcrcCnt
  let s1 := { s with fab := { s.fab with pcrcCnt := c } }
  if s.fab.pcrcThr ≠ 0 && s.fab.pcrcThr ≤ c then
    (({ s1 with fab := { s1.fab with pcrcThr := 0 } }).event evCeThreshold 1 0 5 c.toNat).safeReport 3
  else s1

/-! ## Memory (03 Table 3-1, R157 to R162, 16 R718 to R721) -/

/-- First LPA beyond DRAM data. -/
def dramEnd : Nat := 0x1C0000000
/-- First and end LPA of the Hall, and of its staging part (03 Table 3-2). -/
def hallBase : Nat := 0x200000000
def hallEnd : Nat := 0x201000000
def stagingBase : Nat := 0x200800000
/-- Tile SRAM of logical tile 0, and the bytes of one (03 Table 3-1). -/
def tileBase : Nat := 0x210000000
def tileBytes : Nat := 0x200000
def galleryBase : Nat := 0x220000000
def regBase : Nat := 0x240000000

/-- The end of the DRAM data that is outside the carve-out and the retained-image area (16 R705, 17 R773). -/
def State.openDram (s : State) : Nat :=
  dramEnd - s.sec.carve.toNat * 0x1000000 - (if s.sec.retained then 0x1000000 else 0)

/-- The whole range lies in open DRAM data. -/
def State.inDram (s : State) (lpa len : Nat) : Bool := decide (lpa + len ≤ s.openDram)

/-- The whole range lies in Hall staging. -/
def inStaging (lpa len : Nat) : Bool := decide (stagingBase ≤ lpa ∧ lpa + len ≤ hallEnd)

/-- Where tile SRAM ends on this grade: the LPAs of logical tiles it does not have are reserved (03 R146). -/
def State.sramEnd (s : State) : Nat := tileBase + 4 * s.fuses.grade.stands * tileBytes

/-- Error code of the store that holds an LPA (13 Table 13-6): 0 DRAM, 1 staging, 2 ring-entry cache, 3 tile SRAM,
9 device-resident rings, 10 journal, 11 probe patterns. -/
def storeOf (lpa : Nat) : Nat :=
  if lpa < dramEnd then 0
  else if lpa < tileBase then
    let o := lpa - hallBase
    if o < 0x400000 then 2 else if o < 0x600000 then 9 else if o < 0x700000 then 10 else if o < 0x800000 then 11 else 1
  else 3

/-- The correctable counter of a store: 0 MEM, 1 HALL, 2 TILE (22 R913). -/
def counterOf (lpa : Nat) : Nat := if lpa < dramEnd then 0 else if lpa < tileBase then 1 else 2

/-! ### Raw DRAM (03 R155 to R157): groups of 512 bytes on four channels, seven data lines and a check line each -/

/-- The group of a DRAM address, and the position of its line in it (03 R155). -/
def groupOf (lpa : Nat) : Nat := lpa / 64 / 7
def linePos (lpa : Nat) : Nat := lpa / 64 % 7

/-- Where a DRAM address lies: its channel, 0 for A, and its address within the channel (03 R155). -/
def rawPlace (lpa : Nat) : Nat × Nat := (groupOf lpa % 4, groupOf lpa / 4 * 512 + linePos lpa * 64 + lpa % 64)

/-- Where the check byte of word `w` (LPA / 8) lies: bytes 8p to 8p + 7 of its group's check line, in word order (03 R156). -/
def checkPlace (w : Nat) : Nat × Nat := (groupOf (8 * w) % 4, groupOf (8 * w) / 4 * 512 + 448 + 8 * linePos (8 * w) + w % 8)

/-- Where the 8-byte tag of a group lies (03 R157). -/
def tagPlace (g : Nat) : Nat × Nat := (g % 4, g / 4 * 512 + 504)

/-- The tag R157 gives a group: its raw index within its channel and the check byte of that. -/
def rightTag (g : Nat) : BitVec 64 :=
  let index := BitVec.ofNat 64 (g / 4 % 2 ^ 22)
  index ||| ((Config.secded index).setWidth 64 <<< 56)

/-- The tag a group holds. -/
def State.tagOf (s : State) (g : Nat) : BitVec 64 := rightTag g ^^^ Tbl.get 0 s.mem.tagDiff g

/-- A byte of DRAM data as stored, before flips: plain, or the cipher of its block. -/
def State.dataByte (s : State) (lpa : Nat) : Byte :=
  match Tbl.get 0 s.mem.enc (lpa / 16) with
  | 0 => Tbl.get 0 s.mem.bytes lpa
  | k => Config.cipher k (lpa / 16) ((List.range 16).map (fun i => Tbl.get 0 s.mem.bytes (lpa / 16 * 16 + i))) (lpa % 16)

/-- A byte of DRAM data and the check byte of a word, as raw DRAM holds them (03 R155, R156). -/
def State.rawByte (s : State) (lpa : Nat) : Byte :=
  s.dataByte lpa ^^^ ((Tbl.get 0 s.mem.flips (lpa / 8)).extractLsb' (8 * (lpa % 8)) 8)
def State.checkByte (s : State) (w : Nat) : Byte :=
  Config.secded (BitVec.ofNat 64 (ofLe ((List.range 8).map (fun i => s.dataByte (8 * w + i))))) ^^^ ((Tbl.get 0 s.mem.flips w).extractLsb' 64 8)

/-- Flipped bits of a word and its check byte (03 R979). -/
def State.flipsOf (s : State) (w : Nat) : Nat := ones (Tbl.get 0 s.mem.flips w)

/-- The tag of a group does not decode to the group's index: more than one bit of it is wrong (03 R157; log 104). -/
def State.tagBad (s : State) (g : Nat) : Bool := decide (2 ≤ ones (Tbl.get 0 s.mem.tagDiff g))

/-- Whether word `w` (LPA / 8) is uncorrectable: two or more flips, or a group whose tag names a wrong index (03 R157, R979). -/
def State.wordBad (s : State) (w : Nat) : Bool :=
  decide (2 ≤ s.flipsOf w) || (decide (8 * w < dramEnd) && s.tagBad (groupOf (8 * w)))

/-- The flips of a word are gone: it has been written whole, or corrected (03 R158, R161). -/
def State.unflip (s : State) (w : Nat) : State := { s with mem := { s.mem with flips := Tbl.set 0 s.mem.flips w 0 } }

/-- A single wrong bit in the tag of a group is corrected, written back and counted (03 R158). -/
def State.correctTag (s : State) (g : Nat) : State :=
  if ones (Tbl.get 0 s.mem.tagDiff g) = 1 then
    ({ s with mem := { s.mem with tagDiff := Tbl.set 0 s.mem.tagDiff g 0 } }).bumpCe 0
  else s

/-- The words a range touches. -/
def wordsOf (lpa len : Nat) : List Nat :=
  if len = 0 then [] else (List.range ((lpa + len - 1) / 8 - lpa / 8 + 1)).map (· + lpa / 8)

/-- An uncorrectable error of a store is counted and reported with its LPA (13 Table 13-6, 03 R160, R166). -/
def State.reportUe (s : State) (lpa : Nat) : State :=
  let s1 :=
    if lpa < dramEnd then { s with mem := { s.mem with memUeCnt := satInc s.mem.memUeCnt, memUeLpa := BitVec.ofNat 48 lpa } }
    else if lpa < tileBase then
      { s with mem := { s.mem with hallUeCnt := satInc s.mem.hallUeCnt, hallUeLpa := BitVec.ofNat 48 lpa } }
    else s
  s1.event evUe 2 0 (storeOf lpa) lpa

/-- Single flips among the words, in their check bytes and in the tags of their groups are corrected, written back and counted (03 R158). -/
def State.correct (s : State) (ws : List Nat) : State :=
  ws.foldl (fun s w =>
    let s1 := if 8 * w < dramEnd then s.correctTag (groupOf (8 * w)) else s
    if s1.flipsOf w = 1 then (s1.unflip w).bumpCe (counterOf (8 * w)) else s1) s

/-- Words read before their content is used: corrected; or the LPA of the first that is uncorrectable, which is reported (03 R158, R160). -/
def State.readCheck (s : State) (ws : List Nat) : Option Nat × State :=
  match ws.find? s.wordBad with
  | some w => (some (8 * w), s.reportUe (8 * w))
  | none => (none, s.correct ws)

/-- Words of the Hall written whole by the CFE (03 R161). -/
def State.hallWritten (s : State) (ws : List Nat) : State := ws.foldl State.unflip s

/-! ### Places in the Hall (03 R148, Table 3-2; log 107) -/

/-- The words that hold a fetched entry of a portal ring, a pushed entry of a device-resident ring, and the packets of a journal epoch. -/
def cacheWords (ring tag : Nat) : List Nat := wordsOf (hallBase + 64 * (Config.cachePlace ring tag % 65536)) 64
def pushWords (ring tag : Nat) : List Nat := wordsOf (hallBase + 0x400000 + 64 * (Config.pushPlace ring tag % 32768)) 64
def journalWords (num packets : Nat) : List Nat :=
  (List.range packets).flatMap (fun k => wordsOf (hallBase + 0x600000 + 256 * (Config.journalPlace num k % 4096)) 256)

/-- One byte as a reader with key `key` sees it: plain where the block was written under that key, else a free value
(ciphertext or a wrong decryption, 16 R721). -/
def State.peek (s : State) (key lpa : Nat) : Byte × State :=
  let k := if lpa < dramEnd then Tbl.get 0 s.mem.enc (lpa / 16) else 0
  let want := if lpa < dramEnd then key else 0
  if k = want then (Tbl.get 0 s.mem.bytes lpa, s) else s.draw 8

/-- Bytes as a reader with key `key` sees them, in ascending order. -/
def State.peeks (s : State) (key : Nat) : List Nat → List Byte × State
  | [] => ([], s)
  | a :: as =>
    let r := s.peek key a
    let q := r.2.peeks key as
    (r.1 :: q.1, q.2)

/-- The addresses of a range, ascending. -/
def addrs (lpa len : Nat) : List Nat := (List.range len).map (· + lpa)

/-- An access to DRAM brings the memory controller back to RUN (20 R856). -/
def State.wakeMem (s : State) (lpa : Nat) : State :=
  if s.mem.selfRef && decide (lpa < dramEnd) then { s with mem := { s.mem with selfRef := false } } else s

/-- A read of device memory: nothing where a word is uncorrectable, which is reported (03 R158, R160).
Answers the bytes, or the LPA of the first uncorrectable word. -/
def State.readMem (s : State) (key lpa len : Nat) : (List Byte ⊕ Nat) × State :=
  match (s.wakeMem lpa).readCheck (wordsOf lpa len) with
  | (some a, s1) => (.inr a, s1)
  | (none, s1) =>
    let r := s1.peeks key (addrs lpa len)
    (.inl r.1, r.2)

/-- One byte stored. -/
def State.poke (s : State) (lpa : Nat) (b : Byte) : State :=
  { s with mem := { s.mem with bytes := Tbl.set 0 s.mem.bytes lpa b } }

/-- Bytes stored from `lpa` on. -/
def State.pokes (s : State) (lpa : Nat) : List Byte → State
  | [] => s
  | b :: bs => (s.poke lpa b).pokes (lpa + 1) bs

/-- Whether a write of `len` bytes at `lpa` covers word `w` whole. -/
def coversWord (lpa len w : Nat) : Bool := decide (lpa ≤ 8 * w ∧ 8 * w + 8 ≤ lpa + len)

/-- The cipher blocks of 16 bytes whose stored key a DRAM write changes: the whole 64-byte lines touched when it encrypts
(16 R720), else the blocks touched. -/
def blocksOf (key lpa len : Nat) : List Nat :=
  if len = 0 then []
  else if key ≠ 0 then
    let a := lpa / 64 * 4
    let b := (lpa + len - 1) / 64 * 4 + 4
    (List.range (b - a)).map (· + a)
  else (List.range ((lpa + len - 1) / 16 - lpa / 16 + 1)).map (· + lpa / 16)

/-- Blocks change key: the bytes of a block held under another key become free values (its wrong decryption or its
ciphertext, 16 R720, R721). -/
def State.rekey (s : State) (key : Nat) (bs : List Nat) : State :=
  bs.foldl (fun s b =>
    if Tbl.get 0 s.mem.enc b = key then s
    else
      let r := s.drawBytes 16
      { r.2.pokes (16 * b) r.1 with mem := { (r.2.pokes (16 * b) r.1).mem with enc := Tbl.set 0 s.mem.enc b key } }) s

/-- A write of device memory with key `key` (0: not encrypted). A whole word is replaced and its flips cleared; a part of
an uncorrectable word is not written (03 R159, R161, R162). A tag that names a wrong index stays: no word's write touches it
(DESIGN CHOICE, log 104). Answers the LPA of the first word so refused. -/
def State.writeMem (s : State) (key lpa : Nat) (bs : List Byte) : Option Nat × State :=
  let ws := wordsOf lpa bs.length
  let bad := ws.filter (fun w => s.wordBad w && !coversWord lpa bs.length w)
  let s1 := (s.wakeMem lpa).correct (ws.filter (fun w => !coversWord lpa bs.length w && !s.wordBad w))
  let s2 := (ws.filter (coversWord lpa bs.length)).foldl State.unflip s1
  let s3 := if lpa < dramEnd then s2.rekey key (blocksOf key lpa bs.length) else s2
  let s4 := (indexed lpa bs).foldl (fun s e => if bad.contains (e.1 / 8) then s else s.poke e.1 e.2) s3
  (bad.head?.map (8 * ·), match bad.head? with | some w => s4.reportUe (8 * w) | none => s4)

/-- The memory key of instance `i` on this chip: 1, the zeroed pair, where its slot is empty (16 R717, R735). -/
def State.keyOf (s : State) (i : Nat) : Nat := max 1 (Tbl.get 0 s.sec.keys i)

/-- The ownership byte of the page that holds an LPA (16 R722). -/
def State.pageOwner (s : State) (lpa : Nat) : BitVec 8 := Tbl.get 0 s.sec.owner (lpa / 0x10000)

/-- Page ownership refuses the access: CONF is set and the instance differs, or for DRAM the leaf lacks ENC (16 R723). -/
def State.confDenied (s : State) (i : Nat) (enc : Bool) (lpa len : Nat) : Bool :=
  (List.range ((lpa + len - 1) / 0x10000 - lpa / 0x10000 + 1)).any (fun k =>
    let o := s.pageOwner (lpa / 0x10000 * 0x10000 + 0x10000 * k)
    o.getLsbD 6 && !(decide (fld o.toNat 0 6 = i) && (enc || decide (dramEnd ≤ lpa))))

/-- CONF_REFUSED is written for a refused access (16 Table 16-8). -/
def State.confRefused (s : State) (i : Nat) (src : ChipId) (lpa : Nat) : State :=
  s.event evConfRefused 3 i (i + src.toNat * 64) lpa

/-! ## Translation (03 R167 to R186) -/

/-! ## Parts within the chip (13 R590 to R593) -/

/-- PART code and number of a part (13 Table 13-4). -/
def Part.code : Part → Nat
  | .tile _ => 1 | .cfe => 2 | .bank _ => 3 | .memc => 4 | .port _ => 5
def Part.no : Part → Nat
  | .tile t => t | .cfe => 0 | .bank b => b | .memc => 0 | .port p => p
/-- One number for a part. -/
def Part.key (p : Part) : Nat := p.code * 256 + p.no

/-- The incarnation a part holds. -/
def State.partInc (s : State) : Part → BitVec 8
  | .tile t => (s.tile t).inc | .cfe => s.parts.cfeInc | .bank b => Tbl.get 0 s.parts.bankInc b | .memc => s.parts.memcInc
  | .port p => (s.port p).inc

/-- The parts that hold a range of device memory a packet or a leaf may reach: the memory controller, the Hall banks of its lines (03 R149, R151). -/
def partsAt (a n : Nat) : List Part :=
  if n = 0 then []
  else if a < dramEnd then [.memc]
  else if inStaging a n then (List.range ((a + n - 1) / 64 - a / 64 + 1)).map (fun k => Part.bank ((a / 64 + k) % 16))
  else []

/-- The first part of a range that is resetting. -/
def State.partDown (s : State) (a n : Nat) : Option Part := (partsAt a n).find? (fun x => s.parts.resetting.contains x)

/-- What a DVA reaches. -/
inductive Target where
  /-- device memory: chip, LPA, and whether its leaf has ENC -/
  | mem (chip : ChipId) (lpa : Nat) (enc : Bool)
  /-- the host through a portal -/
  | host (portal : ChipId)
  /-- XLT_FAULT of permission, or of the host aperture, with the leaf's level (03 R174, R183) -/
  | fault (level : Nat)
  /-- XLT_FAULT met by the walk itself, with the level of the entry whose check failed (03 R172) -/
  | walk (level : Nat)
  | lost (chip : ChipId)
  deriving DecidableEq, Repr

/-- Whether a chip has ever been a member of the current domain (03 R172). -/
def State.everMember (s : State) (c : ChipId) : Bool := s.dom.ever.contains c || c == s.dom.chipId

/-- Whether a chip has been lost (03 R173). -/
def State.isLost (s : State) (c : ChipId) : Bool := s.dom.lost.contains c

/-- A table of `size` bytes at `lpa` may be walked for instance `i`: aligned, in this chip's DRAM data, outside the
carve-out unless the instance is confidential (03 R170, R172, 16 R706, R724). -/
def State.tableOk (s : State) (i lpa size : Nat) : Bool :=
  decide (lpa % size = 0) && (s.inDram lpa size || ((s.inst i).conf && decide (lpa + size ≤ dramEnd)))

/-- Reserved bits of a table entry and of a leaf (03 Table 3-4). -/
def tableRsv (e : Nat) : Bool := fld e 2 10 ≠ 0 || fld e 48 16 ≠ 0
def leafRsv (e : Nat) : Bool := fld e 4 2 ≠ 0 || fld e 7 9 ≠ 0

/-- A leaf is judged: membership, target region, permission (03 R172 to R174). -/
def State.leafTarget (s : State) (level e dva : Nat) (write : Bool) : Target :=
  let chip : ChipId := BitVec.ofNat 16 (fld e 48 16)
  let lpa := fld e 16 32 * 0x10000
  let size := if level = 2 then 0x20000000 else 0x10000
  let top := if chip = s.dom.chipId then s.openDram else dramEnd
  let okTarget := if level = 2 then decide (lpa % size = 0 ∧ lpa + size ≤ top)
    else decide (lpa + size ≤ top) || inStaging lpa size
  if leafRsv e || chip = 0 || chip = 0xFFFF || !s.everMember chip || !okTarget then .walk level
  else if s.isLost chip then .lost chip
  else if !(if write then bit e 3 else bit e 2) then .fault level
  else .mem chip (lpa + dva % size) (bit e 6 && decide (lpa < dramEnd))

/-- One 64-bit entry of a table; none where the read meets an uncorrectable error (03 R172, R178). -/
def State.walkRead (s : State) (lpa : Nat) : Option Nat × State :=
  match s.readMem 0 lpa 8 with
  | (.inl bs, s1) => (some (ofLe bs), s1)
  | (.inr _, s1) => (none, s1)

/-- A leaf found: it is cached; of 8,192 the oldest makes room, an order the spec leaves open (03 R175; DESIGN CHOICE, log 105). -/
def State.cacheLeaf (s : State) (l : Leaf) : State :=
  let c := s.xlt.cache ++ [l]
  { s with xlt := { s.xlt with cache := if 8192 < c.length then c.drop 1 else c } }

/-- The walk of the device region for instance `i` (03 R169 to R174). The leaf is cached when it is judged sound. A level-1 base outside this
chip's DRAM data, which R172 does not name, faults at level 1 (DESIGN CHOICE, log 105). -/
def State.walk (s : State) (i dva : Nat) (write : Bool) : Target × State :=
  let root := Tbl.get 0 s.act.xltRoot i
  if !root.getLsbD 0 then (.walk 0, s) else
  let s := { s with xlt := { s.xlt with misses := s.xlt.misses + 1 } }
  let t1 := fld root.toNat 12 36 * 4096
  if !s.tableOk i t1 4096 then (.walk 1, s) else
  match s.walkRead (t1 + 8 * fld dva 38 9) with
  | (none, s1) => (.walk 1, s1)
  | (some e1, s1) =>
    if !bit e1 0 || bit e1 1 || tableRsv e1 then (.walk 1, s1) else
    let t2 := fld e1 12 36 * 4096
    if !s1.tableOk i t2 4096 then (.walk 1, s1) else
    match s1.walkRead (t2 + 8 * fld dva 29 9) with
    | (none, s2) => (.walk 2, s2)
    | (some e2, s2) =>
      if !bit e2 0 then (.walk 2, s2)
      else if bit e2 1 then
        let g := s2.leafTarget 2 e2 dva write
        (g, match g with | .mem .. => s2.cacheLeaf { inst := i, base := dva / 0x20000000 * 0x20000000, block := true, entry := BitVec.ofNat 64 e2 } | _ => s2)
      else if tableRsv e2 then (.walk 2, s2) else
      let t3 := fld e2 12 36 * 4096
      if !s2.tableOk i t3 65536 then (.walk 2, s2) else
      match s2.walkRead (t3 + 8 * fld dva 16 13) with
      | (none, s3) => (.walk 3, s3)
      | (some e3, s3) =>
        if !bit e3 0 || !bit e3 1 then (.walk 3, s3) else
        let g := s3.leafTarget 3 e3 dva write
        (g, match g with | .mem .. => s3.cacheLeaf { inst := i, base := dva / 0x10000 * 0x10000, block := false, entry := BitVec.ofNat 64 e3 } | _ => s3)

/-- The cached leaf that covers a DVA (03 R175, R179). -/
def State.cached (s : State) (i dva : Nat) : Option Leaf :=
  s.xlt.cache.find? (fun l => l.inst == i && (if l.block then dva / 0x20000000 == l.base / 0x20000000 else dva / 0x10000 == l.base / 0x10000))

/-- A host-aperture access of `len` bytes: the slot's VALID, permission and LIMIT (03 R183, R184). -/
def State.slotTarget (s : State) (i dva len : Nat) (write : Bool) : Target :=
  let c := (Tbl.get 0 s.act.slotCtl (8 * i + fld dva 44 3)).toNat
  let portal := if fld dva 44 3 = 0 then s.dom.frontEnd else BitVec.ofNat 16 (fld c 16 16)
  if !s.slotOk i dva len write then .fault 0 else if s.isLost portal then .lost portal else .host portal

/-- What `len` bytes from `dva` on reach, all within one page or in the host aperture (03 R167, R168, R196). -/
def State.xlate (s : State) (i dva len : Nat) (write : Bool) : Target × State :=
  if 2 ^ 48 ≤ dva then (.fault 0, s)
  else if bit dva 47 then (s.slotTarget i dva len write, s)
  else
    match s.cached i dva with
    | some l => (s.leafTarget (if l.block then 2 else 3) l.entry.toNat dva write, s)
    | none => s.walk i dva write

/-! ## Time -/

/-- One ACLK cycle passes: the counter adds its increment, unless TSYNC holds it (20 R878, R881). -/
def State.tick (s : State) : State :=
  if s.clk.hold = 0 then { s with clk := { s.clk with time := s.clk.time + BitVec.ofNat 64 s.clk.inc } }
  else { s with clk := { s.clk with hold := s.clk.hold - s.clk.inc } }

end Sys2Proof.Machine
end

