-- ==== Sys2Proof/Machine/Units.lean ====
section
/-! DEFINITION. Power units: their numbers, the manager's requests, and the units the secure world holds (16 R737 to R741, 20 R856, R867 to R869, 22 R943). -/

namespace Sys2Proof.Machine

/-! ## Numbers (16 Table 16-8, 20 "What the manager may request", 22 R943) -/

def unitMemc : Nat := 0
def unitBank (b : Nat) : Nat := 1 + b
def unitStand (n : Nat) : Nat := 17 + n
def unitFabric : Nat := 25
def unitPort (p : Nat) : Nat := 26 + p
def unitEndpoint : Nat := 50
def unitCfe : Nat := 51
def unitGallery : Nat := 52
def unitTile (phys : Nat) : Nat := 64 + phys

def isBank (u : Nat) : Bool := decide (1 ≤ u ∧ u ≤ 16)
def isStand (u : Nat) : Bool := decide (17 ≤ u ∧ u ≤ 24)
def isPort (u : Nat) : Bool := decide (26 ≤ u ∧ u ≤ 49)

def reqAuto : Nat := 1
def reqNoSleep : Nat := 2
def reqPark : Nat := 3

/-- The unit exists on the part and Table 20-4 permits the request for it. Units 64 to 97 take none. -/
def State.reqOk (s : State) (u req : Nat) : Bool :=
  decide (u ≤ 52) && (!isStand u || decide (u - 17 < s.fuses.grade.stands)) && (!isPort u || s.fuses.grade != .S)
    && (if req = reqAuto then true
        else if req = reqNoSleep then isStand u || isBank u || u == unitMemc
        else if req = reqPark then isStand u || isPort u
        else false)

/-! ## Carrying out a request of a unit that is no port (20 Table 20-4, R869) -/

/-- Retention of a stand and its tiles. -/
def State.retain (s : State) (n : Nat) (on : Bool) : State :=
  let s1 := s.updUnit (unitStand n) (fun u => { u with retention := on })
  [4 * n, 4 * n + 1, 4 * n + 2, 4 * n + 3].foldl (fun s t => s.updUnit (unitTile (s.tile t).phys.toNat) (fun u => { u with retention := on })) s1

/-- Any instance holds stand `n` of this chip. -/
def State.standAllotted (s : State) (n : Nat) : Bool := s.act.stands.any (fun e => e.2.getLsbD n)

/-- A stand is parked. -/
def State.standParked (s : State) (n : Nat) : Bool := (s.punit (unitStand n)).mode == 3

/-- The request of a unit is in force: status DONE. -/
def State.inForce (s : State) (u req : Nat) : State :=
  s.updUnit u (fun x => { x with status := 0, req := BitVec.ofNat 4 req, mode := BitVec.ofNat 4 req })

/-- A request is carried out: PARK of an allotted stand is refused. -/
def State.carryOut (s : State) (u req : Nat) : State :=
  if isStand u then
    let n := u - 17
    if req = reqPark then
      if s.standAllotted n then s.updUnit u (fun x => { x with status := 3, req := 3 })
      else (s.inForce u req).retain n true
    else (s.inForce u req).retain n false
  else if u = unitMemc && req = reqNoSleep then
    { s.inForce u req with mem := { s.mem with selfRef := false } }
  else s.inForce u req

/-! ## Units the secure world holds (R737 to R741) -/

/-- A page with CONF set lies in DRAM data, or in staging. -/
def confPage (staging : Bool) (e : Nat × BitVec 8) : Bool := e.2.getLsbD 6 && (decide (dramEnd ≤ e.1 * 0x10000) == staging)

/-- The units held for the confidential instances: the memory controller and the Hall banks that hold their pages (a staging page lies on
every bank, 03 R149), and their stands. -/
def State.heldUnits (s : State) : BitVec 26 :=
  let dram := s.sec.owner.any (confPage false)
  let hall := s.sec.owner.any (confPage true)
  let stands := (s.insts.filter (fun e => e.2.conf)).foldl (fun (m : BitVec 8) e => m ||| Tbl.get 0 s.act.stands e.1) 0
  BitVec.ofNat 26 (b2n dram + (if hall then 0xFFFF * 2 else 0) + stands.toNat * 2 ^ 17)

/-- A released unit's pending request is carried out (R740). -/
def State.releaseUnit (s : State) (u : Nat) : State :=
  match Tbl.get none s.hold.pending u with
  | none => s
  | some r =>
    let s1 := { s with hold := { s.hold with pending := Tbl.set none s.hold.pending u none } }
    (s1.carryOut u r.toNat).event evHoldReleased 0 0 (u + r.toNat * 256) 0

/-- The held units follow the confidential instances; released units act. -/
def State.rehold (s : State) : State :=
  let new := s.heldUnits
  let out := (List.range 26).filter (fun u => s.hold.units.getLsbD u && !new.getLsbD u)
  out.foldl State.releaseUnit { s with hold := { s.hold with units := new } }

/-- A request to a unit: it pends while the unit is held, is logged on both sides, and replaces the earlier one (R738, R739). A port pends
with the fabric unit (20 R868). Carried out by `go` otherwise. -/
def State.request (s : State) (u req : Nat) (go : State → State) : State :=
  let by_ := if isPort u then unitFabric else u
  if !s.reqOk u req then s.blkError blkPwr beReserved
  else if s.hold.units.getLsbD by_ then
    let s1 := s.updUnit u (fun x => { x with status := 2, req := BitVec.ofNat 4 req })
    let s2 := { s1 with hold := { s1.hold with pending := Tbl.set none s1.hold.pending u (some (BitVec.ofNat 4 req)), log := s1.hold.log ++ [(u, BitVec.ofNat 4 req)] } }
    s2.event evHoldDeferred 0 0 (u + req * 256) 0
  else go s

end Sys2Proof.Machine
end

