-- ==== Sys2Proof/Machine/Host.lean ====
section
/-! DEFINITION. Host requests as the endpoint meets them before any register does, with what a start state and hibernation make of them (04 R201, R207 to R211, R233, 17 Table 17-4, 19 R822, R849, 20 R874, R875). -/

namespace Sys2Proof.Machine

/-! ## Start states (19 R819, R822) -/

/-- Code of a start state. -/
def StartState.code : StartState → Nat
  | .reset => 1 | .rom => 2 | .memtrain => 3 | .meminit => 4 | .bist => 5 | .images => 6 | .inject => 7 | .fabric => 8
  | .frontend => 9 | .ready => 10 | .recovery => 11 | .failed => 12 | .safe => 13 | .hibernate => 14

/-- Milliseconds since the start began. -/
def State.elapsedMs (s : State) : Nat := (s.now - s.boot.began) / 1000000

/-- DETAIL as reported: in FABRIC the count of ACTIVE ports, else that of the latest result (R821, R846). -/
def State.detailNow (s : State) : BitVec 16 :=
  if s.boot.state = .fabric then BitVec.ofNat 16 (ones (BitVec.ofNat 24 s.activeMask)) else s.boot.detail

/-- The line the UART console prints at each change of state or result (R822). -/
def State.uartLine (s : State) : State := s.emit (.uart s.boot.state s.boot.result s.detailNow s.elapsedMs)

/-- The chip enters a start state (R819). -/
def State.enter (s : State) (st : StartState) : State :=
  ({ s with boot := { s.boot with state := st, entered := s.now } }).uartLine

/-! ## Hibernation (20 R874, R875) -/

/-- Back to READY, the cause named: 1 WAKE, 2 host write, 3 EXIT. Stands stay parked where PARK is in force. -/
def State.wake (s : State) (cause : Nat) : State :=
  if s.boot.state ≠ .hibernate then s
  else
    let s1 := (List.range s.fuses.grade.stands).foldl (fun s n => s.retain n (s.standParked n)) (s.enter .ready)
    ({ s1 with mem := { s1.mem with selfRef := false } }).event evHibernateExited 0 0 cause 0

/-! ## Host requests -/

/-- Virtual functions that exist (04 R201). -/
def State.vfs (s : State) : List Nat := if s.pcie.vfEn then (List.range s.pcie.numVfs.toNat).map (· + 1) else []

/-- The endpoint answers for function `fn`: it exists and the link is up (04 R201). -/
def State.fnHere (s : State) (fn : Nat) : Bool := s.pcie.up && (decide (fn = 0) || s.vfs.contains fn)

/-! ## Advanced error reporting (R233, R234; bit places as PCIe 5.0, log 70) -/

/-- Bits of the uncorrectable and correctable error registers. -/
def aerPoisoned : Nat := 12
def aerTimeout : Nat := 14
def aerAbort : Nat := 15
def aerUnexpected : Nat := 16
def aerUnsupported : Nat := 20
def aerAdvisory : Nat := 13

/-- The message of an error, where Device Control enables its kind. -/
def State.errorMessage (s : State) (fn : Nat) (on : Bool) (sev : Severity) : State := if on then s.emit (.errorMessage fn sev) else s

/-- The first uncorrectable error logged is the one the first error pointer names. -/
def FnCfg.logUnc (f : FnCfg) (b : Nat) : FnCfg :=
  { f with aerUnc := f.aerUnc ||| BitVec.ofNat 32 (2 ^ b), aerFirst := if f.aerUnc = 0 then BitVec.ofNat 5 b else f.aerFirst }

/-- An uncorrectable error of Table 4-6 logged in function `fn`, and reported as the severity register has it unless it is masked. -/
def State.aer (s : State) (fn b : Nat) : State :=
  let f := s.fc fn
  let s1 := s.updFc fn (fun f => f.logUnc b)
  if f.aerMask.getLsbD b then s1
  else if f.aerSev.getLsbD b then s1.errorMessage fn (f.errEn.getLsbD 2) .fatal
  else s1.errorMessage fn (f.errEn.getLsbD 1 && (b != aerUnsupported || f.errEn.getLsbD 3)) .nonfatal

/-- A correctable error. -/
def State.aerCor (s : State) (fn b : Nat) : State :=
  let f := s.fc fn
  let s1 := s.updFc fn (fun f => { f with aerCor := f.aerCor ||| BitVec.ofNat 32 (2 ^ b) })
  if f.aerCorM.getLsbD b then s1 else s1.errorMessage fn (f.errEn.getLsbD 0) .correctable

/-- A non-fatal error of a request that is answered with it: logged, and reported as an Advisory Non-Fatal Error (PCIe 5.0, log 70). -/
def State.aerAnswered (s : State) (fn b : Nat) : State :=
  if (s.fc fn).aerSev.getLsbD b then s.aer fn b else (s.updFc fn (fun f => f.logUnc b)).aerCor fn aerAdvisory

/-- Where an error is logged and its bit: correctable, uncorrectable in the physical function, or in the function the TLP is addressed to
(Table 4-6). -/
inductive AerPlace where
  | correctable (b : Nat)
  | physical (b : Nat)
  | addressed (b : Nat)
  deriving DecidableEq, Repr

/-- Table 4-6. -/
def TlpError.place : TlpError → AerPlace
  | .poisoned => .addressed 12
  | .ecrc => .addressed 19
  | .unexpected => .addressed 16
  | .malformed => .physical 18
  | .overflow => .physical 17
  | .flowControl => .physical 13
  | .dataLink => .physical 4
  | .internal => .physical 22
  | .receiver => .correctable 0
  | .badTlp => .correctable 6
  | .badDllp => .correctable 7
  | .replayNum => .correctable 8
  | .replayTimer => .correctable 12
  | .corrected => .correctable 14

/-- An error of the endpoint's own link, TLPs or buffers is logged and reported. -/
def State.tlpError (s : State) (fn : Nat) (e : TlpError) : State :=
  match e.place with
  | .correctable b => s.aerCor 0 b
  | .physical b => s.aer 0 b
  | .addressed b => s.aer (if s.fnHere fn then fn else 0) b

/-- How the endpoint meets a memory request of the host to a window of function `fn`. -/
inductive Gate where
  /-- the link is down: nobody asks -/
  | gone
  /-- Unsupported Request: no such function, Memory Space Enable clear, or D3hot (R201, R210) -/
  | unsupported
  /-- reads return all ones, writes are discarded: FLR, safe state (R211, 17 Table 17-4) -/
  | closed
  | open_
  deriving DecidableEq, Repr

def State.gate (s : State) (fn : Nat) : Gate :=
  if !s.pcie.up then .gone
  else if !s.fnHere fn then .unsupported
  else if (s.fc fn).flr || s.safest.inSafe then .closed
  else if !(s.fc fn).mse || (s.fc fn).d3hot then .unsupported
  else .open_

/-- Unsupported Request, logged in the function, or in the physical function where there is no such function. -/
def State.refuseUr (s : State) (fn : Nat) (read : Bool) : State :=
  let at_ := if s.fnHere fn then fn else 0
  if read then (s.aerAnswered at_ aerUnsupported).emit (.unsupported fn) else s.aer at_ aerUnsupported

/-- A host write to the INSTANCE or DATA window of a function. A write of an INSTANCE register ends hibernation first; before READY a
write is discarded with BAD_ACCESS (19 R849); in hibernation the DATA window is served. -/
def State.hostWrite (s : State) (fn : Nat) (wakes : Bool) (f : State → State) : State :=
  match s.gate fn with
  | .gone => s
  | .unsupported => s.refuseUr fn false
  | .closed => s
  | .open_ =>
    let s1 := if wakes then s.wake 2 else s
    if s1.boot.state = .ready || s1.boot.state = .hibernate then f s1 else s1.fnError fn esBadAccess

/-- A host read of `len` bytes through a window of a function. -/
def State.hostLoad (s : State) (fn len : Nat) (f : State → State) : State :=
  match s.gate fn with
  | .gone => s
  | .unsupported => s.refuseUr fn true
  | .closed => s.emit (.completion fn (List.replicate len 0xFF))
  | .open_ => f s

/-- 4 or 8 bytes, naturally aligned (R207). -/
def naturally (off width : Nat) : Bool := (width == 4 || width == 8) && off % width == 0

/-! ## Reads of host memory (R213, R214, R216) -/

/-- Non-posted requests the endpoint keeps outstanding: 768 with 10-bit tags, else 256 (04 Table 4-1). -/
def State.readLimit (s : State) : Nat := if s.pcie.tags10 then 768 else 256

/-- The lowest tag not in use. -/
def State.freeTag (s : State) : Option Nat := (List.range s.readLimit).find? (fun t => !s.pcie.reads.any (fun r => r.tag == t))

/-- A read request leaves the endpoint under a tag, which is kept with what the read is for (04 R213, R214, R216). -/
def State.sendRead (s : State) (t addr : Nat) (relaxed : Bool) (r : HostRd) : State :=
  ({ s with pcie := { s.pcie with reads := s.pcie.reads ++ [{ r with tag := t }] } }).emit (.hostRead r.fn t addr r.len (relaxed && (s.fc r.fn).relaxed))

/-- A host read of function `fn`: at once where a tag is free and none waits, else in its turn. -/
def State.hostRead (s : State) (fn addr len : Nat) (relaxed : Bool) (use : HostFor) : State :=
  let r : HostRd := { tag := 0, fn := fn, len := len, use := use }
  match if s.pcie.readWait.isEmpty then s.freeTag else none with
  | some t => s.sendRead t addr relaxed r
  | none => { s with pcie := { s.pcie with readWait := s.pcie.readWait ++ [(addr, relaxed, r)] } }

/-- Reads that wait take the tags that are free, in order. Fuel: the reads. -/
def State.sendWaiting (s : State) : Nat → State
  | 0 => s
  | k + 1 =>
    match s.pcie.readWait, s.freeTag with
    | w :: ws, some t => State.sendWaiting (({ s with pcie := { s.pcie with readWait := ws } }).sendRead t w.1 w.2.1 w.2.2) k
    | _, _ => s

/-- What was asked for is not wanted any more: bytes on their way go nowhere, reads that wait are not made. -/
def State.forgetReads (s : State) (gone : HostFor → Bool) : State :=
  { s with pcie := { s.pcie with reads := s.pcie.reads.map (fun r => if gone r.use then { r with use := .dropped } else r),
                                 readWait := s.pcie.readWait.filter (fun w => !gone w.2.2.use) } }

end Sys2Proof.Machine
end

