-- ==== Sys2Proof/Machine/Cfe.lean ====
section
/-! DEFINITION. What the CFE shares among its commands: the safe state, records, the journal, captures, the guilty sequence, shares and completion (05, 07, 13, 14, 17). -/

namespace Sys2Proof.Machine

/-- The CFE, the tiles and the fabric unit run: the chip has formed or is forming, and is not in its safe state
(19 Table 19-2, 17 R769). -/
def State.live (s : State) : Bool :=
  !s.safest.inSafe && (s.boot.state == .fabric || s.boot.state == .frontend || s.boot.state == .ready)

/-! ## The safe state (17 R769 to R772) -/

/-- Warm restarts begun within the preceding 60 s (17 R776). -/
def State.recentRestarts (s : State) : Nat := (s.safest.restarts.filter (fun t => decide (s.now ≤ t + 60000000000))).length

/-- SAFE_LAST_FAULT with its FURTHER count risen (17 R772). -/
def furtherFault (v : BitVec 128) : BitVec 128 :=
  let f := fld v.toNat 24 8
  if f = 255 then v else v + BitVec.ofNat 128 (2 ^ 24)

/-- RESTART_LIMIT, 0 standing for 3 (17 Table 17-3). -/
def State.restartLimit (s : State) : Nat := if s.safe.restartLimit = 0 then 3 else s.safe.restartLimit.toNat

/-- SAFE_LAST_FAULT after one more dangerous fault: the first since SAFE_N last went high is latched, later ones only count (17 R771, R772). -/
def State.faultWord (s : State) (source detail : Nat) : BitVec 128 :=
  if s.safest.latched then furtherFault s.safest.last
  else BitVec.ofNat 128 (source + detail * 2 ^ 8 + s.recentRestarts % 256 * 2 ^ 16 + s.now * 2 ^ 64)

/-- The fault recorded, FAULT_N asserted, SAFE_N low; no warm restart follows a Safety Monitor fault or the last one allowed
(17 Table 17-4 steps 1 and 4, R767, R770, R776). -/
def State.latchFault (s : State) (source detail : Nat) : State :=
  { s with
    safest := { s.safest with last := s.faultWord source detail, latched := true, untold := true,
                              stuck := s.safest.stuck || source == 0x19 || decide (s.restartLimit ≤ s.recentRestarts) },
    safe := { s.safe with safeN := false, faultN := true, status := s.safe.status ||| 1, probe := .idle, testing := false } }

/-- A dangerous fault: recorded, the endpoint silent, tiles and CFE stopped, DOWN on every port (17 Table 17-4). A further one in the safe
state is only counted (R772). -/
def State.enterSafe (s : State) (source detail : Nat) : State :=
  if s.safest.inSafe then { s with safest := { s.safest with last := furtherFault s.safest.last, stuck := s.safest.stuck || source == 0x19 } }
  else
    let up := (s.fab.ports.filter (fun e => e.2.st != .down && e.2.st != .parked)).map (·.1)
    let s1 := s.latchFault source detail
    { s1 with
      safest := { s1.safest with inSafe := true },
      boot := { s1.boot with state := .safe, entered := s.now },
      fab := { s1.fab with enabled := false, ports := Tbl.mapAll Port.reset s1.fab.ports (fun _ p =>
        if p.st = .parked then p else { p.into .down with link := Link.reset }) },
      out := s.out ++ up.map Out.downBlocks }

/-- A dangerous fault only while the chip is armed in safety mode (17 R746, Table 17-1). -/
def State.armedFault (s : State) (source detail : Nat) : State :=
  if s.safe.mode && s.safe.armed then s.enterSafe source detail else s

/-! ## Instances and their rings -/

/-- The instance that holds portal submission ring `n` (15 Table 15-4). -/
def State.sqInst (s : State) (n : Nat) : Option Nat :=
  (s.insts.find? (fun e => decide (e.2.sqFirst ≤ n ∧ n < e.2.sqFirst + e.2.sqCount))).map (·.1)

/-- The instance that holds portal completion ring `n`. -/
def State.cqInst (s : State) (n : Nat) : Option Nat :=
  (s.insts.find? (fun e => decide (e.2.cqFirst ≤ n ∧ n < e.2.cqFirst + e.2.cqCount))).map (·.1)

/-- FIRST and COUNT of the device-resident rings an instance holds on this chip (15 SET_DRRINGS). -/
def State.drFirst (s : State) (i : Nat) : Nat := fld (Tbl.get 0 s.act.drRings i).toNat 0 8
def State.drCount (s : State) (i : Nat) : Nat := fld (Tbl.get 0 s.act.drRings i).toNat 8 8

/-- The instance that holds device-resident ring `n` of this chip. -/
def State.drInst (s : State) (n : Nat) : Option Nat :=
  (s.act.drRings.find? (fun e => decide (fld e.2.toNat 0 8 ≤ n ∧ n < fld e.2.toNat 0 8 + fld e.2.toNat 8 8))).map (·.1)

/-- The instance of a ring; 0 for a ring nobody holds. -/
def State.ringInst (s : State) : RingRef → Nat
  | .host n => (s.sqInst n).getD 0
  | .dr n => (s.drInst n).getD 0

/-- Instance-local index of a ring. -/
def State.ringLocal (s : State) : RingRef → Nat
  | .host n => n - (s.inst (s.ringInst (.host n))).sqFirst
  | .dr n => n - s.drFirst (s.ringInst (.dr n))

/-- The portal completion ring that receives a submission ring's records (05 R243). -/
def State.ringCq (s : State) (n : Nat) : Nat := (s.inst (s.ringInst (.host n))).cqFirst + (s.sq n).cfg.cq.toNat

def isDr : RingRef → Bool
  | .host _ => false
  | .dr _ => true

/-- The ring's guilt. -/
def State.guilt (s : State) : RingRef → Option Guilt
  | .host n => (s.sq n).guilty
  | .dr n => (s.dr n).guilty

def State.setGuilt (s : State) (r : RingRef) (g : Option Guilt) : State :=
  match r with
  | .host n => s.updSq n (fun q => { q with guilty := g })
  | .dr n => s.updDr n (fun q => { q with guilty := g })

/-- A progress event of a ring restarts its hang timer (07 R400, R403). -/
def State.progress (s : State) (r : RingRef) : State :=
  match r with
  | .host n => s.updSq n (fun q => { q with hangNs := 0 })
  | .dr n => s.updDr n (fun q => { q with hangNs := 0 })

/-- A critical ring: a real-time ring of the active front end whose RT_SLOT SAFE_CRIT names (17 R747). -/
def State.critical (s : State) (r : RingRef) : Bool :=
  match r with
  | .host n => s.isFe && (s.sq n).cfg.size != 0 && (s.sq n).cfg.realTime && s.safe.crit.getLsbD (s.sq n).cfg.rtSlot.toNat
  | .dr _ => false

/-! ## The journal (14 R636 to R643) -/

/-- The active front end has a standby to mirror to. -/
def State.paired (s : State) : Bool := s.isFe && s.dom.standby.isSome

/-- A journal record: header and body (14 R637). -/
def jrec (type inst ring : Nat) (body : List Byte) : JRec :=
  let len8 := (8 + body.length + 7) / 8
  padTo (8 * len8) (toLe 1 type ++ toLe 1 len8 ++ toLe 1 inst ++ toLe 1 ring ++ zeros 4 ++ body)

/-- Records packed into packet payloads of at most 248 bytes, none split (14 R636). -/
def packRecs (rs : List JRec) : List (List Byte) :=
  let r := rs.foldl (fun (a : List (List Byte) × List Byte) r =>
    if 248 < a.2.length + r.length then (a.1 ++ [a.2], r) else (a.1, a.2 ++ r)) ([], [])
  r.1 ++ [r.2]

/-- END of an epoch: CRC-32C of its records' bytes and their count (14 R639, Table 14-3). -/
def endRec (rs : List JRec) : JRec := jrec 0x0F 0 0 (toLe 4 (crc32c rs.flatten).toNat ++ toLe 2 rs.length ++ zeros 2)

/-- The packets of an epoch are sent to the standby (14 R636, R641). -/
def State.sendEpoch (s : State) (num : Word32) (rs : List JRec) : State :=
  match s.dom.standby with
  | none => s
  | some d =>
    (indexed 0 (packRecs (rs ++ [endRec rs]))).foldl (fun s p =>
      s.newXfer d .ctl [ctlPkt tyJournal 0 (toLe 4 num.toNat ++ toLe 2 p.1 ++ zeros 2 ++ p.2)]) s

/-- The words of the Hall that hold an epoch on this chip (03 Table 3-2). -/
def epochWords (num : Word32) (rs : List JRec) : List Nat := journalWords num.toNat (packRecs (rs ++ [endRec rs])).length

/-- The open epoch closes: it is numbered, kept until applied, and sent; an empty one is not (14 R639, R641). -/
def State.closeEpoch (s : State) : State :=
  if s.pair.openRecs.isEmpty then s
  else
    let num := s.pair.jepoch + 1
    let rs := s.pair.openRecs
    let s1 := { s with pair := { s.pair with jepoch := num, openRecs := [], kept := s.pair.kept ++ [({ num := num, recs := rs } : JEpoch)] } }
    (s1.hallWritten (epochWords num rs)).sendEpoch num rs

/-- A journal record of the active front end of a pair; the epoch closes after 64 (14 R638, R639). -/
def State.journal (s : State) (r : JRec) : State :=
  if s.paired then
    let s1 := { s with pair := { s.pair with openRecs := s.pair.openRecs ++ [r] } }
    if 64 ≤ s1.pair.openRecs.length then s1.closeEpoch else s1
  else s

/-- The epoch that will carry a record written now (14 R643); none without a standby. -/
def State.openEpoch (s : State) : Option Nat := if s.paired then some (s.pair.jepoch.toNat + 1) else none

/-- The standby has applied an epoch; without a standby nothing is held back. -/
def State.epochApplied (s : State) (e : Option Nat) : Bool :=
  match e with
  | none => true
  | some n => !s.paired || decide (n ≤ s.pair.japplied.toNat)

/-- Fetching and admission pause while eight epochs are unapplied, and under a lapsed lease (14 R631, R642). -/
def State.pairPaused (s : State) : Bool := s.paired && (decide (8 ≤ s.pair.kept.length) || !s.pair.lease)

/-! ## Completion records (05 R279 to R284, 04 R224) -/

/-- The bytes of a record but SQ_CI, ELAPSED and PHASE (05 Table 5-4). -/
def recBytes (seq sq kind status : Nat) (replayed ovf redel : Bool) (user : Word32) (detail : Nat) : List Byte :=
  toLe 6 seq ++ toLe 1 sq ++ toLe 1 kind ++ toLe 2 status ++ toLe 1 (b2n replayed + 2 * b2n ovf + 4 * b2n redel) ++ zeros 1
    ++ zeros 4 ++ toLe 4 user.toNat ++ toLe 4 detail ++ zeros 8

/-- W advances past tags whose record is written, as far as every lower one is (05 R267). Fuel: the tags held. -/
def advanceW : Nat → Nat → List Nat → Nat × List Nat
  | 0, w, ts => (w, ts)
  | n + 1, w, ts => if ts.contains (w + 1) then advanceW n (w + 1) (ts.erase (w + 1)) else (w, ts)

/-- The record of tag `t` of a submission ring is written. -/
def State.tagWritten (s : State) (n t : Nat) : State :=
  s.updSq n (fun q =>
    let r := advanceW (q.doneTags.length + 1) q.w (q.doneTags ++ [t])
    { q with w := r.1, doneTags := r.2, hangNs := 0 })

/-- The vector of completion ring `c` fires: its cause bit, then its message (23 R950, 04 R224). -/
def State.cqFire (s : State) (c : Nat) : State :=
  match s.cqInst c with
  | none => s
  | some i =>
    let b := c - (s.inst i).cqFirst
    ((s.updCq c (fun q => { q with fresh := 0 })).updFn i (fun f => { f with cqCause := f.cqCause ||| BitVec.ofNat 256 (2 ^ b) })).message i
      (s.cq c).vecsel.toNat

/-- A record is coalesced or announced: at once with IRQ_NOW, or when COAL_COUNT are unannounced (04 R224). -/
def State.coalesce (s : State) (c : Nat) (now : Bool) : State :=
  let q := s.cq c
  if now || max 1 q.coalCount.toNat ≤ q.fresh then s.cqFire c else s

/-- Entries of a completion ring. -/
def Cq.n (q : Cq) : Nat := 2 ^ q.size.toNat

/-- The consumer index that limits writing: H, or with a standby H of the last applied epoch (05 R282, 14 R643). -/
def State.cqH (s : State) (c : Nat) : BitVec 32 := if s.paired then (s.cq c).hApp else (s.cq c).h

/-- Records written and not consumed. -/
def State.cqUsed (s : State) (c : Nat) : Nat := ((s.cq c).wr - s.cqH c).toNat

/-- A record may be written now (05 R282, 14 R631, R643). -/
def State.mayPut (s : State) (c : Nat) (r : WaitRec) : Bool :=
  (s.cq c).size != 0 && (!s.paired || s.pair.lease)
    && (if r.reserved then decide (s.cqUsed c < (s.cq c).n)
        else decide (s.cqUsed c + (s.cq c).reserved + (if r.kept then 0 else 1) < (s.cq c).n))

/-- The record goes out as one posted write, with SQ_CI, ELAPSED and PHASE as they now are; W, the journal, the causes and the
critical-ring rule follow (05 R267, R281, 04 R223, R226, 14 R638, 17 Table 17-1). -/
def State.putRecord (s : State) (c : Nat) (r : WaitRec) : State :=
  let i := (s.cqInst c).getD 0
  let kind := leAt r.bytes 7 1
  let ring := (s.inst i).sqFirst + leAt r.bytes 6 1
  let wr := (s.cq c).wr
  let elapsed := match r.began with | some t => min 0xFFFFFFFF ((s.now - t) / 1000) | none => 0
  let body := putAt (putAt r.bytes 12 (toLe 4 (s.sq ring).release.toNat)) 24 (toLe 4 elapsed)
  let rec_ := withPhase wr.toNat (s.cq c).n body
  let dva := (s.cq c).base.toNat + 32 * (wr.toNat % (s.cq c).n)
  let s1 := s.postRing i dva rec_
  let s2 := s1.updCq c (fun q => { q with wr := q.wr + 1, fresh := q.fresh + 1, reserved := if r.reserved then q.reserved - 1 else q.reserved })
  let s3 := if kind = 1 then
      (s2.tagWritten ring (leAt r.bytes 0 6)).updSq ring (fun q => { q with admitted := if r.reserved then q.admitted - 1 else q.admitted })
    else s2
  let s4 := s3.journal (jrec 0x03 i (leAt r.bytes 6 1) (toLe 4 wr.toNat ++ toLe 1 (c - (s.inst i).cqFirst) ++ zeros 3 ++ rec_))
  let s5 := s4.coalesce c r.irq
  if kind = 2 then
    let s6 := (s5.setGuilt (.host ring) ((s5.guilt (.host ring)).map (fun g => { g with written := true }))).cause i causeGuilty
    if s6.critical (.host ring) then s6.armedFault 0x20 ring else s6
  else if kind = 3 then
    let s6 := s5.cause i causeHalted
    if s6.critical (.host ring) then s6.armedFault 0x20 ring else s6
  else s5

/-- Waiting records that may be written are, in order (05 R284). -/
def State.flushCq (s : State) (c : Nat) : State :=
  let ws := (s.cq c).waiting
  ws.foldl (fun s r => if s.mayPut c r then s.putRecord c r else s.updCq c (fun q => { q with waiting := q.waiting ++ [r] }))
    (s.updCq c (fun q => { q with waiting := [] }))

/-- Every completion ring's waiting records. -/
def State.flushCqs (s : State) : State := (s.cqs.map (·.1)).foldl State.flushCq s

/-- A record for a completion ring. -/
def State.addRecord (s : State) (c : Nat) (r : WaitRec) : State :=
  (s.updCq c (fun q => { q with waiting := q.waiting ++ [r] })).flushCq c

/-- The bytes of a range as pieces within 64 KiB pages (03). Fuel: the number of pages. -/
def pagePieces : Nat → Nat → Nat → List (Nat × Nat)
  | 0, _, _ => []
  | k + 1, dva, len =>
    if len = 0 then []
    else
      let n := min len (0x10000 - dva % 0x10000)
      (dva, n) :: pagePieces k (dva + n) (len - n)

/-- The 64 KiB pieces of a range. -/
def piecesOf (dva len : Nat) : List (Nat × Nat) := pagePieces (len / 0x10000 + 2) dva len

/-- A write of the CFE on an instance's behalf that nothing waits for, to a DVA within one page: local memory, another chip,
or the host; dropped where it may not go. -/
def State.cfeStore (s : State) (i dva : Nat) (bs : List Byte) (why : Purpose) : State :=
  let inst : BitVec 6 := BitVec.ofNat 6 i
  match s.xlate i dva bs.length true with
  | (.mem chip lpa enc, s1) =>
    if chip = s1.dom.chipId then
      if s1.confDenied i enc lpa bs.length then s1.confRefused i s1.dom.chipId lpa
      else (s1.writeMem (if enc then s1.keyOf i else 0) lpa bs).2
    else s1.newXfer chip why ((writePkts inst lpa bs true none).map (fun p => { p with enc := enc }))
  | (.host portal, s1) =>
    if portal = s1.dom.chipId then s1.post i (s1.busAddr i dva) bs false else s1.newXfer portal why (writePkts inst dva bs true none)
  | (_, s1) => s1

/-- A record of a device-resident ring into its record area, and the DONE tally after a success (07 R397, R398). -/
def State.drRecord (s : State) (n : Nat) (bytes : List Byte) (began : Option Nat) : State :=
  let d := s.dr n
  let i := (s.drInst n).getD 0
  let size := 2 ^ d.size.toNat
  let elapsed := match began with | some t => min 0xFFFFFFFF ((s.now - t) / 1000) | none => 0
  let body := withPhase d.recIdx.toNat size (putAt (putAt bytes 12 (toLe 4 d.release.toNat)) 24 (toLe 4 elapsed))
  let s1 := s.cfeStore i (d.recBase.toNat + 32 * (d.recIdx.toNat % size)) body .void
  let s2 := s1.updDr n (fun q => { q with recIdx := q.recIdx + 1, hangNs := 0 })
  let ok := leAt bytes 7 1 = 1 && leAt bytes 8 2 < 0x100
  let s3 := if leAt bytes 7 1 = 1 then s2.updDr n (fun q =>
      let r := advanceW (q.doneTags.length + 1) q.w (q.doneTags ++ [leAt bytes 0 6])
      { q with w := r.1, doneTags := r.2 })
    else s2.setGuilt (.dr n) ((s2.guilt (.dr n)).map (fun g => { g with written := true }))
  if ok && d.done != 0 then
    s3.deviceSignal { kind := 2, obj := BitVec.ofNat 14 (fld d.done.toNat 16 14), amount := 1, inst := BitVec.ofNat 6 i,
                      chip := s.dom.chipId, notice := none, origin := .device }
  else s3

/-- A BUFFER record of a ring. -/
def State.bufferRecord (s : State) (r : RingRef) (tag status : Nat) (replayed ovf redel : Bool) (user : Word32) (detail : Nat)
    (began : Option Nat) (irq reserved : Bool) : State :=
  let bytes := recBytes tag (s.ringLocal r) 1 status replayed ovf redel user detail
  match r with
  | .host n => s.addRecord (s.ringCq n) { bytes := bytes, began := began, irq := irq, reserved := reserved, kept := false }
  | .dr n =>
    let s1 := s.drRecord n bytes began
    if reserved then s1.updDr n (fun q => { q with admitted := q.admitted - 1 }) else s1

/-! ## Captures (13 Table 13-4, Table 13-5) -/

def stAbortedGuilty : Nat := 0x0100
def stSkipped : Nat := 0x0101
def stAbortedFailover : Nat := 0x0102
def stTileLost : Nat := 0x0200
def stChipLost : Nat := 0x0201
def stWaitTimeout : Nat := 0x0300
def stHung : Nat := 0x0301
def stCrossTenant : Nat := 0x0400
def stXltFault : Nat := 0x0401
def stOpConfig : Nat := 0x0402
def stCrcMismatch : Nat := 0x0403
def stCheckerFail : Nat := 0x0500
def stStale : Nat := 0x0600
def stRetryLater : Nat := 0x0601

/-- Eight tile states of an operation's stands; unused ones all ones (13 R588). -/
def State.tileStates (s : State) (mask stage : Nat) : List Byte :=
  (List.range 8).flatMap (fun k =>
    match (tilesOf mask)[k]? with
    | none => List.replicate 8 0xFF
    | some t =>
      let tl := s.tile t
      toLe 1 t ++ toLe 1 tl.phys.toNat ++ toLe 2 (if tl.lost then 3 else stage) ++ toLe 4 tl.beats.toNat)

/-- The 128 bytes of a capture, but RING, SEQ, DR and SOURCE, which the admitting chip fills (13 Table 13-4). `op` is the
failing operation's header, when an index is named; `stage` the state of its tiles. -/
def State.capture (s : State) (i idx : Nat) (op : Option (List Byte)) (stage : Nat) (x : Err) : List Byte :=
  let h := op.getD []
  let cat := if x.status = stXltFault || x.status = stCheckerFail then (if hOpcode h = opLaunch then hCat h else 0) else 0
  toLe 2 x.status ++ zeros 8 ++ toLe 2 (if op.isSome then idx else 0) ++ toLe 2 s.dom.chipId.toNat
    ++ toLe 1 (if op.isSome then hOpcode h else 0) ++ toLe 1 i ++ toLe 2 cat ++ zeros 2 ++ toLe 6 x.addr ++ zeros 2
    ++ toLe 1 (x.access + 8 * x.level) ++ zeros 3 ++ toLe 5 x.done ++ zeros 3 ++ toLe 2 x.objChip
    ++ toLe 2 (x.objIdx + 16384 * x.objKind) ++ toLe 2 x.peer ++ toLe 1 x.part ++ toLe 1 x.partNo ++ toLe 1 x.incHeld
    ++ toLe 1 x.incFound ++ zeros 6 ++ toLe 8 s.now ++ s.tileStates (hStands h) stage

/-- SOURCE, DR, RING and SEQ filled in. -/
def fillCapture (cap : List Byte) (source : Nat) (dr : Bool) (ring tag : Nat) : List Byte :=
  putAt cap 2 (toLe 1 (source + 4 * b2n dr) ++ toLe 1 ring ++ toLe 6 tag)

/-! ## Contexts, operations and what they hold -/

/-- The owner of a context. -/
def State.owner (s : State) (c : Nat) : Option Owner :=
  match (s.ctx c).use with
  | .owner o => some o
  | _ => none

/-- The share of a context. -/
def State.share (s : State) (c : Nat) : Option Share :=
  match (s.ctx c).use with
  | .share h => some h
  | _ => none

def State.updOwner (s : State) (c : Nat) (f : Owner → Owner) : State :=
  s.updCtx c (fun x => match x.use with | .owner o => { x with use := .owner (f o) } | _ => x)

def State.updShare (s : State) (c : Nat) (f : Share → Share) : State :=
  s.updCtx c (fun x => match x.use with | .share o => { x with use := .share (f o) } | _ => x)

/-- Instance, real-time slot and admission order of a context's buffer. -/
def State.ctxInst (s : State) (c : Nat) : Nat :=
  match (s.ctx c).use with
  | .owner o => o.inst.toNat
  | .share h => h.inst.toNat
  | .free => 0

/-- The context's buffer sets OVF or REPLAYED (07 R380, R383). -/
def State.ctxFlags (s : State) (c : Nat) (ovf rpl : Bool) : State :=
  (s.updOwner c (fun o => { o with ovf := o.ovf || ovf, replayed := o.replayed || rpl })).updShare c
    (fun h => { h with ovf := h.ovf || ovf, replayed := h.replayed || rpl })

/-- Table entries of a context: entry number and operation. -/
def State.opsOf (s : State) (c : Nat) : List (Nat × OpEntry) :=
  s.ops.filterMap (fun e => match e.2 with | some o => if o.ctx = c then some (e.1, o) else none | none => none)

/-- An operation of the context waits here only for stands, a CFE slot or a table entry, or for the dirty log to let its writes go
(07 R403, 15 R702). -/
def State.ctxWaits (s : State) (c : Nat) : Bool :=
  !(s.ctx c).queue.isEmpty || (s.opsOf c).any (fun e => !e.2.dead
    && (e.2.stage == .ready || (e.2.stage == .issued && e.2.out == 0 && e.2.toHost && s.holds_ (s.ctxInst c))))

/-- A member tells the admitting chip how its share goes (07 R400, R403; log 41). -/
def State.tellShare (s : State) (c : Nat) (moved : Bool) : State :=
  match s.share c with
  | some h => if h.aborting then s else s.ctl h.chip (.progress h.ctx h.gen moved (s.ctxWaits c))
  | none => s

/-- A progress event of a context's ring: at once where the ring is this chip's, else by a message to the admitting chip (07 R400). -/
def State.ctxProgress (s : State) (c : Nat) : State :=
  match s.owner c with
  | some o => s.progress o.ring
  | none => s.tellShare c true

/-- Owner contexts of a ring. -/
def State.ownersOf (s : State) (r : RingRef) : List (Nat × Owner) :=
  s.ctxs.filterMap (fun e => match e.2.use with | .owner o => if o.ring = r then some (e.1, o) else none | _ => none)

/-- A context is given back, its generation kept (07 R352, R386). -/
def State.freeCtx (s : State) (c : Nat) : State := s.updCtx c (fun x => { Ctx.reset with gen := x.gen })

/-- Dependencies met on this chip: no entry stands for a named operation, or for any lower index with ALL (07 R366). -/
def State.depsMet (s : State) (o : OpEntry) : Bool :=
  let mine := (s.opsOf o.ctx).map (·.2.idx)
  match hDepmode o.hdr with
  | 1 => (hDeps o.hdr o.idx).all (fun d => !mine.contains d)
  | 2 => mine.all (fun j => decide (o.idx ≤ j))
  | _ => true

/-- An operation's entry has a request held or refused at a part. -/
def State.hasReq (s : State) (e : Nat) : Bool := s.parts.reqs.any (fun q => q.entry == e)

/-- The operations of a context whose last output is held: for its tail, or at a resetting part. -/
def State.heldOutputs (s : State) (c : Nat) : List Nat :=
  ((s.opsOf c).filter (fun x => x.2.tailTo.isSome || s.hasReq x.1)).map (·.2.idx)

/-- The other operations of a context that have been dispatched here: they hold stands or a CFE slot, or have issued. -/
def State.dispatched (s : State) (c e : Nat) : List Nat :=
  ((s.opsOf c).filter (fun x => x.1 ≠ e && (x.2.stage == .running || x.2.stage == .issued || x.2.stage == .held))).map (·.2.idx)

/-- An operation becomes ready, or starts at once as the next of a chain: the time, and for a COPY or FENCE_GLOBAL what had been issued, are kept
(06 R325, R342, 09 R458). -/
def State.becomeReady (s : State) (e : Nat) (st : OpStage) : State :=
  match s.op e with
  | none => s
  | some o =>
    let mark := if hOpcode o.hdr = opCopy then some (s.fab.issued, s.heldOutputs o.ctx)
      else if hOpcode o.hdr = opFence then some (s.fab.issued, s.dispatched o.ctx e) else none
    (s.updOp e (fun o => { o with stage := st, readyAt := s.now, mark := mark })).ctxProgress o.ctx

/-- The operation that runs on tile `t`: of a chain, the chained one that has started. -/
def State.opOnTile (s : State) (t : Nat) : Option Nat :=
  match Tbl.get 0 s.stands (t / 4) with
  | 0 => none
  | k + 1 =>
    match s.op k with
    | none => none
    | some o =>
      if hOpcode o.hdr = opChain then
        ((s.opsOf o.ctx).find? (fun x => x.2.chain == some o.idx && (x.2.stage == .running || x.2.stage == .issued || x.2.stage == .held))).map (·.1)
      else if o.stage = .ready || o.stage = .waiting then none else some k

/-- State of a tile: 0 idle, 1 running, 2 waiting, 3 faulted, 4 replaying, 5 stopped by ABORT (13 R588). -/
def State.tileState (s : State) (t : Nat) : Nat :=
  if (s.tile t).lost then 3
  else match (s.opOnTile t).bind s.op with
    | none => 0
    | some o => if o.dead then 5 else if o.stage = .held then 2 else if o.replay then 4 else 1

/-- The beats of a new operation on the tiles of a stand mask start from zero (13 R588). -/
def State.freshBeats (s : State) (mask : Nat) : State := (tilesOf mask).foldl (fun s t => s.updTile t (fun x => { x with beats := 0 })) s

/-- Operations of a context whose dependencies are met become ready; a chained operation waits for its chain, one whose
body is still to be read for its body (07 R358, R367, R374). -/
def State.refreshReady (s : State) (c : Nat) : State :=
  (s.opsOf c).foldl (fun t e =>
    if e.2.stage = .waiting && e.2.chain.isNone && e.2.fetch.isNone && s.depsMet e.2 then t.becomeReady e.1 .ready else t) s

/-- Stands and CFE slots held by an entry come free, its waits end. -/
def State.releaseUnits (s : State) (e : Nat) : State :=
  { s with slots := s.slots.filter (fun x => x.2 ≠ e + 1), stands := s.stands.filter (fun x => x.2 ≠ e + 1),
           gal := { s.gal with waiters := s.gal.waiters.filter (fun w => w.entry ≠ e) } }

/-- What matches the shares of one buffer: admitting chip, owner context, generation. -/
def State.bufKey (s : State) (c : Nat) : List Byte :=
  let x := match (s.ctx c).use with
    | .share h => (h.chip.toNat, h.ctx.toNat, h.gen.toNat)
    | _ => (s.dom.chipId.toNat, c, (s.ctx c).gen.toNat)
  toLe 2 x.1 ++ toLe 2 x.2.1 ++ toLe 2 x.2.2

/-- What matches the participants of a collective: the buffer's, and the operation index (11 R550). -/
def State.collKey (s : State) (o : OpEntry) : List Byte := s.bufKey o.ctx ++ toLe 2 o.idx

/-- The entry is freed with everything it holds (07 R363). -/
def State.freeOp (s : State) (e : Nat) : State :=
  let key := match s.op e with | some o => s.collKey o | none => []
  let s1 := s.releaseUnits e
  { s1 with ops := Tbl.set none s1.ops e none, colls := s1.colls.filter (fun k => k.key ≠ key),
            parts := { s1.parts with reqs := s1.parts.reqs.filter (fun q => q.entry ≠ e) } }

/-- Collectives of the same owner context at other generations are over (07 R352). -/
def State.pruneColls (s : State) (c : Nat) : State :=
  let k := s.bufKey c
  { s with colls := s.colls.filter (fun x => x.key.take 4 ≠ k.take 4 || x.key.take 6 == k) }

/-- The operation a transfer writes or signals for: its context and index. -/
def State.xferOp (s : State) (x : Xfer) : Option (Nat × Nat) :=
  let at_ := fun e => (s.op e).map (fun o => (o.ctx, o.idx))
  match x.purpose with
  | .op e _ => at_ e
  | .opSignal e => at_ e
  | .collective e => at_ e
  | .attached c i _ _ => some (c, i)
  | _ => none

/-- What the void of a transfer is for: until it is acknowledged, a write of the context's operations may still commit (13 R577). -/
def State.voidFor (s : State) (x : Xfer) : Purpose :=
  match x.purpose, s.xferOp x with
  | .dropped c, _ => .dropped c
  | _, some p => .dropped p.1
  | _, none => .void

/-- A write of an operation of the context is given up and not yet known to be dropped. -/
def State.dropping (s : State) (c : Nat) : Bool := s.fab.xfers.any (fun x => x.purpose == .dropped c)

/-- Every operation of the context has stopped, and every write of them that was not committed has been dropped (07 R361, 13 R577). -/
def State.still (s : State) (c : Nat) : Bool := (s.opsOf c).isEmpty && !s.dropping c

/-- Transfers the source gives up: each is ended, and a void takes its TID, unless its destination is lost (02 R985, R986). -/
def State.voidXfers (s : State) (p : Xfer → Bool) : State :=
  let gone := (s.fab.xfers.filter (fun x => p x)).map (fun x => { x with purpose := s.voidFor x })
  let s1 := { s with fab := { s.fab with xfers := s.fab.xfers.filter (fun x => !p x),
                                         queued := s.fab.queued.filter (fun x => !p x) } }
  gone.foldl (fun s x =>
    if s.isLost x.dst then s
    else
      let ord := (x.pkts.head?.map (·.ord)).getD true
      let inst := (x.pkts.head?.map (·.inst)).getD 0
      let pk := (writePkts inst 0 [] ord none).map (fun q => { s.addressed x.dst q with tid := x.tid })
      let v : Xfer := { dst := x.dst, tid := x.tid, pkts := pk, got := [], sends := 1, pktSends := [], rounds := 0, refused := [], purpose := x.purpose }
      pk.foldl State.inject { s with fab := { s.fab with xfers := s.fab.xfers ++ [v] } }) s1

/-- The transfer is on behalf of table entry `e`. -/
def Purpose.ofEntry (e : Nat) : Purpose → Bool
  | .op n _ => n == e
  | .opSignal n => n == e
  | .opRead n _ _ => n == e
  | .collective n => n == e
  | .fence n => n == e
  | _ => false

/-- The transfer belongs to a context's share: its operations' signals and reads. -/
def Purpose.ofCtx (c : Nat) : Purpose → Bool
  | .attached n _ _ _ => n == c
  | .ctxRead n _ _ => n == c
  | _ => false

/-- The entry, or the CHAIN that it runs in, holds stands. -/
def State.holdsStands (s : State) (e : Nat) (o : OpEntry) : Bool :=
  let has := fun k => s.stands.any (fun x => x.2 == k + 1)
  has e || (match o.chain with
    | some ci => (s.opsOf o.ctx).any (fun x => x.2.idx == ci && has x.1)
    | none => false)

/-- The operation executes on tiles: it runs to its next operation boundary even where its share ends (07 R361, R372). -/
def State.onTiles (s : State) (e : Nat) (o : OpEntry) : Bool :=
  (hOpcode o.hdr = opLaunch || hOpcode o.hdr = opCopy) && (o.dead || o.stage == .running || o.stage == .issued) && s.holdsStands e o

/-- An operation whose results are discarded: nothing of it is sent or awaited any more; it keeps its stands until it stops. -/
def State.discard (s : State) (e : Nat) : State :=
  let s1 := s.updOp e (fun o => { o with dead := true, stage := .issued, out := 0, err := none, tailTo := none, asked := [], rest := [], gran := none })
  { s1 with parts := { s1.parts with reqs := s1.parts.reqs.filter (fun q => q.entry ≠ e) } }

/-- Everything this chip does for a context ends: the operations `kept` names are discarded, the others leave the table; their transfers are
given up, nothing more is dispatched (07 R361, 13 R577). -/
def State.endWith (s : State) (c : Nat) (kept : Nat × OpEntry → Bool) : State :=
  let all := s.opsOf c
  let es := all.map (·.1)
  let chains := (all.filter kept).filterMap (·.2.chain)
  let stay := fun (x : Nat × OpEntry) => kept x || chains.contains x.2.idx
  let s1 := s.voidXfers (fun x => x.purpose.ofCtx c || es.any (fun e => x.purpose.ofEntry e))
  let s2 := all.foldl (fun s x => if stay x then s.discard x.1 else s.freeOp x.1) s1
  let s3 := s2.forgetReads (fun u => match u with
    | .buffer n _ _ => n == c
    | .operand e _ _ => es.contains e
    | .fence e => es.contains e
    | _ => false)
  s3.updCtx c (fun x => { x with queue := [], sigsOut := 0, staged := [], asked := [] })

/-- A share ends as ABORT has it: operations on tiles go on to their boundary. -/
def State.endShare (s : State) (c : Nat) : State := s.endWith c (fun x => s.onTiles x.1 x.2)

/-- A share ends at once. -/
def State.endNow (s : State) (c : Nat) : State := s.endWith c (fun _ => false)

/-! ## REMOTE_LAUNCH payloads (07 Table 7-1) -/

/-- The RT bit and RT_SLOT of a buffer. -/
def rtBits (rt : Option (BitVec 4)) : Nat × Nat := match rt with | some s => (1, s.toNat) | none => (0, 0)

/-- ABORT for a context (07 Table 7-1). -/
def abortPayload (c gen : Nat) (rt : Option (BitVec 4)) : List Byte :=
  toLe 1 (2 + 32 * (rtBits rt).1) ++ toLe 1 (rtBits rt).2 ++ toLe 2 c ++ toLe 2 gen ++ zeros 26 ++ zeros 32

/-- FAULT_REPORT with the 128 bytes of the capture (07 Table 7-1, 13 R573). -/
def reportPayload (c gen idx status : Nat) (rt : Option (BitVec 4)) (cap : List Byte) : List Byte :=
  toLe 1 (3 + 32 * (rtBits rt).1) ++ toLe 1 (rtBits rt).2 ++ toLe 2 c ++ toLe 2 gen ++ toLe 2 idx ++ zeros 2 ++ toLe 2 status
    ++ zeros 20 ++ padTo 128 cap

/-- A REMOTE_LAUNCH packet: one packet, ordered (02 R98, R110). -/
def launchPkt (inst : BitVec 6) (data : List Byte) : Packet :=
  { Packet.zero with type := tyLaunch, ord := true, tail := true, inst := inst, len := BitVec.ofNat 9 data.length, data := data }

/-! ## The guilty sequence (13 R574 to R581) -/

/-- Accepted entries of a guilty ring complete SKIPPED_GUILTY, in tag order (13 R576 step 6). -/
def State.skipEntries (s : State) (r : RingRef) : State :=
  match r with
  | .host n =>
    let es := (s.sq n).cache
    es.foldl (fun s e => s.bufferRecord r (eSeq e) stSkipped false false false (eUser e) 0 none (eIrq e) false)
      (s.updSq n (fun q => { q with cache := [], slots := [], again := [] }))
  | .dr n =>
    let es := (s.dr n).entries
    es.foldl (fun s e => s.bufferRecord r (eSeq e) stSkipped false false false (eUser e) 0 none (eIrq e) false)
      (s.updDr n (fun q => { q with entries := [], release := q.release + BitVec.ofNat 32 es.length }))

/-- A device-resident ring of the function is newly guilty: its ERROR cause is raised each time (07 R399, 13 R571). -/
def State.drGuiltyError (s : State) (fn : Nat) : State :=
  let s1 := s.fnError fn esDrGuilty
  if (s.fn fn).err.getLsbD esDrGuilty then s1.cause fn causeError else s1

/-- The GUILTY record, event and error bit of a ring (13 R580, R581, Table 13-8, 07 R399). -/
def State.guiltyRecord (s : State) (r : RingRef) (g : Guilt) (began : Option Nat) : State :=
  let i := s.ringInst r
  let slot := g.slot.getD 0xFFFFFFFF
  let bytes := recBytes g.tag (s.ringLocal r) 2 g.status.toNat false false false 0 slot
  let s1 := match r with
    | .host n => s.addRecord (s.ringCq n) { bytes := bytes, began := began, irq := false, reserved := false, kept := true }
    | .dr n => let t := s.drRecord n bytes began
               if t.isFe then t.drGuiltyError i
               else t.ctl t.dom.frontEnd (.guilt (BitVec.ofNat 6 i) (BitVec.ofNat 6 (t.ringLocal r)) true)
  s1.event evGuilty 3 i (s.ringLocal r + 256 * b2n (isDr r) + g.status.toNat * 2 ^ 16 + slot * 2 ^ 32) g.tag

/-- The sequence comes to its end once every ABORT is acknowledged and this chip's own shares have stopped: BUFFER records in ascending tag, then the GUILTY record,
then SKIPPED_GUILTY records (13 R576 steps 3 to 6, R579). -/
def State.guiltyFinish (s : State) (r : RingRef) : State :=
  match s.guilt r with
  | none => s
  | some g =>
    let os := s.ownersOf r
    if g.done || os.any (fun x => !(s.ctx x.1).acksDue.isEmpty || !s.still x.1) then s
    else
      let sorted := os.mergeSort (fun a b => decide (a.2.tag ≤ b.2.tag))
      let s1 := sorted.foldl (fun s x =>
        let o := x.2
        let bad := o.fault.isSome
        let st := match o.fault with | some f => f.status.toNat | none => stAbortedGuilty
        let dt := match o.fault with | some f => f.idx | none => 0
        (s.bufferRecord r o.tag st o.replayed o.ovf (o.redelivered && bad) o.user dt (some o.admitTime) (eIrq o.entry) true).freeCtx x.1) s
      let began := (sorted.find? (fun x => x.2.fault.isSome)).map (·.2.admitTime)
      let s2 := s1.setGuilt r (some { g with done := true })
      (s2.guiltyRecord r { g with done := true } began).skipEntries r

/-- Every admitted buffer of the ring is aborted: its share here ends and each member that holds a share is sent ABORT
(13 R576 step 2). -/
def State.abortRing (s : State) (r : RingRef) : State :=
  (s.ownersOf r).foldl (fun s x =>
    let c := x.1
    let dsts := (s.ctx c).sentTo.filter (fun d => !s.isLost d)
    let s1 := (s.endShare c).updOwner c (fun o => { o with phase := .aborting })
    let s2 := s1.updCtx c (fun k => { k with acksDue := dsts })
    dsts.foldl (fun s d => s.newXfer d (.abort c) [launchPkt x.2.inst (abortPayload c (s.ctx c).gen.toNat x.2.rt)]) s2) s

/-- The ring becomes guilty: a capture slot is taken, or CAPTURE_LOST is set; the transition is journaled; its buffers are
aborted (13 R576, R586, 14 R638). -/
def State.makeGuilty (s : State) (r : RingRef) (tag status source : Nat) (cap : List Byte) : State :=
  let i := s.ringInst r
  let cap' := fillCapture cap source (isDr r) (s.ringLocal r) tag
  let slot := Tbl.freeBelow none (s.fn i).caps 8
  let s1 := match slot with
    | some k => s.updFn i (fun f => { f with caps := Tbl.set none f.caps k (some cap') })
    | none => s.fnError i esCaptureLost
  let g : Guilt := { slot := slot, written := false, done := false, tag := tag, status := BitVec.ofNat 16 status }
  let s2 := (s1.setGuilt r (some g)).journal (jrec 0x06 i (s.ringLocal r)
    (toLe 4 (slot.getD 0xFFFFFFFF) ++ toLe 1 (b2n (isDr r)) ++ zeros 3 ++ cap'))
  (s2.abortRing r).guiltyFinish r

/-- A later fault is only counted (13 R575). -/
def State.countFault (s : State) (r : RingRef) : State :=
  match r with
  | .host n => s.updSq n (fun q => { q with faults := satInc q.faults })
  | .dr n => s.updDr n (fun q => { q with faults := satInc q.faults })

/-- A fault of an owner context's buffer is applied (13 R574 to R576): the first makes the ring guilty. -/
def State.applyFault (s : State) (c idx status source : Nat) (cap : List Byte) : State :=
  match s.owner c with
  | none => s
  | some o =>
    if (s.guilt o.ring).isSome || o.fault.isSome then s.countFault o.ring
    else
      (s.updOwner c (fun w => { w with fault := some { idx := idx, status := BitVec.ofNat 16 status } })).makeGuilty o.ring o.tag
        status source cap

/-- A fault of a share found on this chip: the first sends FAULT_REPORT (07 R362, 13 R573). -/
def State.shareFault (s : State) (c idx status : Nat) (cap : List Byte) : State :=
  match s.share c with
  | none => s
  | some h =>
    if h.faulted || h.aborting then s
    else (s.updShare c (fun w => { w with faulted := true })).newXfer h.chip (.faultReport c)
        [launchPkt h.inst (reportPayload h.ctx.toNat h.gen.toNat idx status h.rt cap)]

/-- An execution fault of operation `idx` of a context, whose header is `op` where an operation is named. -/
def State.ctxFault (s : State) (c idx : Nat) (op : Option (List Byte)) (stage : Nat) (x : Err) : State :=
  let cap := s.capture (s.ctxInst c) idx op stage x
  match (s.ctx c).use with
  | .owner _ => s.applyFault c (if op.isSome then idx else 0) x.status 0 cap
  | .share _ => s.shareFault c idx x.status cap
  | .free => s

/-- Table entry `e` stops: its transfers are given up, its stands and slots come free, and with a chained operation its chain ends early
(07 R374, R377). -/
def State.stopEntry (s : State) (e : Nat) (o : OpEntry) : State :=
  let s1 := ((s.voidXfers (fun x => x.purpose.ofEntry e)).releaseUnits e).discard e
  match o.chain with
  | some ci => ((s1.opsOf o.ctx).filter (fun x => x.2.idx == ci)).foldl (fun s x => (s.releaseUnits x.1).discard x.1) s1
  | none => s1

/-- An execution fault of the operation in table entry `e`, which stops. On an owner its entry leaves the table with the abort of its ring; on a member
the rest of the share stays until ABORT, and dispatches nothing further. -/
def State.failOp (s : State) (e : Nat) (x : Err) : State :=
  match s.op e with
  | none => s
  | some o =>
    let stage := if o.stage = .held then 2 else if o.stage = .running || o.stage = .issued then (if o.replay then 4 else 1) else 0
    if o.dead then s else (s.stopEntry e o).ctxFault o.ctx o.idx (some o.hdr) stage x

/-! ## Completion (07 R379 to R388, R991) -/

/-- END passes: the BUFFER record is written with OK and the context is freed (07 R386, 06 R345); while a change is being applied it waits for
the others that pass with it (R387). -/
def State.endCheck (s : State) (c : Nat) : State :=
  match s.owner c with
  | none => s
  | some o =>
    if o.phase = .ended && o.fault.isNone && o.expected.any (fun n => decide (n ≤ o.tally.toNat)) then
      if s.gal.ends.isSome then { s with gal := { s.gal with ends := s.gal.ends.map (· ++ [c]) } }
      else
      (s.bufferRecord o.ring o.tag 0 o.replayed o.ovf o.redelivered o.user 0 (some o.admitTime) (eIrq o.entry) true).freeCtx c
    else s

/-- Contexts whose END passes in one step write their records in ascending submission-ring index, then ascending tag (07 R387). -/
def State.writeEnds (s : State) : State :=
  let rank := fun c => match s.owner c with
    | some o => (match o.ring with | .host n => n | .dr n => 256 + n, o.tag)
    | none => (0, 0)
  let cs := ((s.gal.ends.getD []).eraseDups).mergeSort (fun a b =>
    decide ((rank a).1 < (rank b).1 ∨ ((rank a).1 = (rank b).1 ∧ (rank a).2 ≤ (rank b).2)))
  cs.foldl State.endCheck { s with gal := { s.gal with ends := none } }

/-- What one step does, with the records of the ENDs that pass in it in order. -/
def State.atOnce (s : State) (f : State → State) : State :=
  if s.gal.ends.isSome then f s else (f { s with gal := { s.gal with ends := some [] } }).writeEnds

/-- One share counts in an owner context (07 R382 to R384). -/
def State.countShare (s : State) (c : Nat) (ovf rpl : Bool) : State :=
  ((s.updOwner c (fun o => { o with tally := o.tally + 1, ovf := o.ovf || ovf, replayed := o.replayed || rpl })).ctxProgress c).endCheck c

/-- The increment a share sends (07 R380). -/
def incTail (h : Share) : TailSig :=
  { obj := BitVec.ofNat 14 (0x2000 + h.ctx.toNat), kind := 2, amount := h.gen, iovf := h.ovf, irpl := h.replayed }

/-- No operation of the context remains on this chip and every transfer of it is acknowledged (07 R379). -/
def State.shareEmpty (s : State) (c : Nat) : Bool :=
  (s.opsOf c).isEmpty && (s.ctx c).queue.isEmpty && (s.ctx c).sigsOut == 0

/-- This chip's share of a context completes, if it has: the owner counts it, a member sends its increment and frees the
context (07 R353, R379 to R384). -/
def State.shareCheck (s : State) (c : Nat) : State :=
  if !s.shareEmpty c then s
  else
    match (s.ctx c).use with
    | .owner o =>
      if o.phase = .ended && !(s.ctx c).counted && (s.ctx c).entered ≠ 0 then
        (s.updCtx c (fun x => { x with counted := true })).countShare c false false
      else s
    | .share h =>
      if h.last && !h.faulted && !h.aborting && !h.sent then
        (s.pureSignal h.chip (.increment none) h.inst true (incTail h)).freeCtx c
      else s
    | .free => s

end Sys2Proof.Machine
end

