-- ==== Sys2Proof/Machine/Probe.lean ====
section
/-! DEFINITION. The blanking probe's frame and stands, and the end of the armed state (17 R758 to R766; log 68). -/

namespace Sys2Proof.Machine

/-- Stands kept for a running probe. -/
def State.probeMask (s : State) : Nat :=
  match s.safe.probe with
  | .idle => 0
  | .running _ => s.safe.pStands.toNat

/-- LPA of the Hall's probe-pattern part (03 Table 3-2). -/
def patternBase : Nat := hallBase + 0x700000

/-- Offsets in the pattern part of the eight blocks of pattern `k` (17 R758 step 3). -/
def patternBlocks (k : Nat) : List Nat := (List.range 8).map (fun j => 0x8000 * ((k + j) % 16))

/-- The pattern of the present run: probes since the start modulo 16. -/
def State.patternNo (s : State) : Nat := s.safe.patterns % 16

/-- The 256 KiB of pattern `k`. -/
def State.patternBytes (s : State) (k : Nat) : List Byte :=
  (patternBlocks k).flatMap (fun o => (List.range 0x8000).map (fun j => Config.probePattern s.boot.nlevel.toNat (o + j)))

/-- A run of the probe begins, no stand granted yet. -/
def State.beginProbe (s : State) : State := { s with safe := { s.safe with probe := .running 0 } }

/-- The endpoint's writes of the pattern to the frame. -/
def State.injectPattern (s : State) : State := (s.writeMem 0 s.safe.lpa.toNat (s.patternBytes s.patternNo)).2.beginProbe

/-- A tile fault on a stand the probe has been granted: the probe starts over with the same pattern (R762). -/
def State.restartProbe (s : State) (stand : Nat) : State :=
  match s.safe.probe with
  | .idle => s
  | .running g => if g.getLsbD stand then s.injectPattern else s

/-- The armed state ends, SAFE_N goes low, DISARMED names the cause: 0 DISARM, 1 FLR, 2 debug (R766). -/
def State.disarm (s : State) (cause : Nat) : State :=
  if !s.safe.armed then s
  else ({ s with safe := { s.safe with armed := false, safeN := false, probe := .idle } }).event evDisarmed 0 0 cause 0

end Sys2Proof.Machine
end

