-- ==== Sys2Proof/Machine/Gallery.lean ====
section
/-! DEFINITION. The Gallery: permission, the single order of changes, waits, barriers and refusals; with the completion of an operation (08, 07, 09). -/

namespace Sys2Proof.Machine

/-! ## Completion of an operation -/

/-- The table entry of operation `idx` of a context. -/
def State.entryOf (s : State) (c idx : Nat) : Option Nat := ((s.opsOf c).find? (fun e => e.2.idx == idx)).map (·.1)

/-- The next chained operation of a chain starts, if it is in the table (07 R374, R375). -/
def State.chainNext (s : State) (c ci idx : Nat) : State :=
  match (s.opsOf c).find? (fun e => e.2.idx == idx && e.2.chain == some ci && e.2.fetch.isNone) with
  | some e => (s.becomeReady e.1 .running).freshBeats (hStands e.2.hdr)
  | none => s

/-- The chained operation after `idx` starts, or the chain completes after its last one (06 R336, 07 R374). -/
def State.chainStep (s : State) (c ci idx : Nat) : State :=
  match s.entryOf c ci with
  | none => s
  | some e =>
    match s.op e with
    | none => s
    | some o => if idx = ci + fld (hArg o.hdr 0 4) 0 8 then s.freeOp e else s.chainNext c ci (idx + 1)

/-- An operation completes on this chip: OVF and REPLAYED join the share, its entry is freed, a chain goes on, dependents
become ready, and the share completes if this was its last (07 R363, R366, R367, R375, R379). A collective stays known, for a peer
that replays (12 R564). -/
def State.completeOp (s : State) (e : Nat) : State :=
  match s.op e with
  | none => s
  | some o =>
    let s0 := ((s.ctxFlags o.ctx o.ovf o.replay).ctxProgress o.ctx).freeOp e
    let k : Coll := { key := s.collKey o, inst := s.ctxInst o.ctx, gen := (s.ctx o.ctx).gen, announced := [], data := [], asked := false, past := some o }
    let s1 := if hCollective o.hdr then { s0 with colls := s0.colls ++ [k] } else s0
    let s2 := match o.chain with | some ci => s1.chainStep o.ctx ci o.idx | none => s1
    (s2.refreshReady o.ctx).shareCheck o.ctx

/-- A write of the operation to the host is held back while the dirty log is full, and so not committed (09 R448, 15 R702). -/
def State.hostHeld (s : State) (o : OpEntry) : Bool := o.toHost && s.holds_ (s.ctxInst o.ctx)

/-- A CFE-executed operation whose transfers are all acknowledged completes (09 R456, 07 R379). -/
def State.cfeDone (s : State) (e : Nat) : State :=
  match s.op e with
  | none => s
  | some o => if o.stage = .issued && o.out = 0 && o.rest.isEmpty && o.err.isNone && !o.dead && !hTiles o.hdr && !s.hostHeld o then s.completeOp e else s

/-- The operation has issued everything; it completes now if nothing is outstanding. -/
def State.cfeIssued (s : State) (e : Nat) : State := (s.updOp e (fun o => { o with stage := .issued })).cfeDone e

/-- One transfer or push of the operation has come to its end. -/
def State.opAck (s : State) (e : Nat) : State := (s.updOp e (fun o => { o with out := o.out - 1 })).cfeDone e

/-! ## Objects (08 R405 to R410) -/

/-- Number of an object among all: flags, tallies, barriers (the numbering of LAST fields). -/
def objKey (kind idx : Nat) : Nat := 0x4000 * kind + idx

/-- OWNER, SHARED and SGRP of an object. -/
def State.objOwn (s : State) (kind idx : Nat) : BitVec 12 :=
  if kind = 0 then Tbl.get 0 s.act.flagOwn idx else if kind = 1 then Tbl.get 0 s.act.tallyOwn idx else Tbl.get 0 s.act.barOwn idx

/-- An access on behalf of instance `i` is permitted (08 R409). -/
def State.permitted (s : State) (kind idx i : Nat) : Bool :=
  let w := s.objOwn kind idx
  decide (fld w.toNat 0 6 = i) || (w.getLsbD 6 && (Tbl.get 0 s.act.sgrp (fld w.toNat 7 5)).getLsbD i)

def State.bar (s : State) (b : Nat) : Bar := Tbl.get Bar.reset s.gal.bars b
def State.setBar (s : State) (b : Nat) (x : Bar) : State := { s with gal := { s.gal with bars := Tbl.set Bar.reset s.gal.bars b x } }
def State.flag (s : State) (f : Nat) : Bool := Tbl.get false s.gal.flags f
def State.tally (s : State) (t : Nat) : Word32 := Tbl.get 0 s.gal.tallies t

/-- Configuration of a barrier (08 Table 8-4). -/
def State.barPcount (s : State) (b : Nat) : Nat := fld (Tbl.get 0 s.act.barLo b).toNat 0 16
def State.barParent (s : State) (b : Nat) : Nat := fld (Tbl.get 0 s.act.barLo b).toNat 16 32
def State.barRoot (s : State) (b : Nat) : Nat := fld (Tbl.get 0 s.act.barLo b).toNat 48 16 + 65536 * fld (Tbl.get 0 s.act.barHi b).toNat 0 16
def State.barMcid (s : State) (b : Nat) : Nat := fld (Tbl.get 0 s.act.barHi b).toNat 16 12
def State.barMcv (s : State) (b : Nat) : Bool := bit (Tbl.get 0 s.act.barHi b).toNat 28

/-- ARG0 [31:0] of an event that names an object of this chip (13 Table 13-8). -/
def State.objArg (s : State) (kind idx : Nat) : Nat := s.dom.chipId.toNat + idx * 2 ^ 16 + kind * 2 ^ 30

/-- An object index outside its kind, or a barrier without PCOUNT (08 R419, 22 R929). -/
def State.badObject (s : State) (kind idx : Nat) : Bool := decide (objCount kind ≤ idx) || (decide (kind = 2) && decide (s.barPcount idx = 0))

/-- What the home answers to an access: nothing wrong, refused, bad object, poisoned (08 Table 8-8). -/
def State.objVerdict (s : State) (kind idx i : Nat) : Nat :=
  if s.badObject kind idx then 0x11
  else if !s.permitted kind idx i then 0x10
  else if Tbl.get false s.gal.poisoned (objKey kind idx) then 0x15
  else 0

/-- The status an outcome gives the issuing operation (08 Table 8-8). -/
def outcomeStatus (o : Nat) : Nat :=
  if o = 0x10 then stCrossTenant else if o = 0x11 then stOpConfig else if o = 0x15 then stCheckerFail else stXltFault

/-- CROSS_TENANT is written by the home (08 R411). -/
def State.crossTenant (s : State) (kind idx i : Nat) (src : ChipId) : State :=
  s.event evCrossTenant 3 i (s.objArg kind idx + src.toNat * 2 ^ 32) 0

/-- The error an access to an object of this chip meets, for the capture (13 Table 13-5). -/
def State.objErr (s : State) (kind idx outcome : Nat) : Err :=
  let st := outcomeStatus outcome
  if st = stOpConfig then { status := st }
  else { status := st, objChip := s.dom.chipId.toNat, objIdx := idx, objKind := kind,
         peer := if st = stCrossTenant then s.dom.chipId.toNat else 0 }

/-! ## Storage of the Gallery (13 Table 13-6 code 4, R598, R990) -/

/-- Operations that wait at an object. -/
def Cond.touches (c : Cond) (kind idx : Nat) : Bool :=
  match c with
  | .flagIs f _ => kind == 0 && f == idx
  | .tallyGe t _ => kind == 1 && t == idx
  | .space p q _ => kind == 1 && (p == idx || q == idx)
  | .phasePast b _ => kind == 2 && b == idx

/-- Every waiter at a poisoned object fails with CHECKER_FAIL (13 R990). -/
def State.failWaiters (s : State) (kind idx : Nat) : State :=
  ((s.gal.waiters.filter (fun w => w.cond.touches kind idx)).map (·.entry)).eraseDups.foldl
    (fun s e => s.failOp e (s.objErr kind idx 0x15)) s

/-- An access reads the object's word: one flip is corrected and counted, more poison the object (13 Table 13-6). -/
def State.touchObj (s : State) (kind idx : Nat) : State :=
  let k := objKey kind idx
  let n := Tbl.get 0 s.gal.flips k
  if n = 0 then s
  else
    let s1 := { s with gal := { s.gal with flips := Tbl.set 0 s.gal.flips k 0 } }
    if n = 1 then s1.bumpCe 3
    else
      let s2 := { s1 with gal := { s1.gal with poisoned := Tbl.set false s1.gal.poisoned k true } }
      (s2.event evObjPoisoned 2 0 (s2.objArg kind idx) 0).failWaiters kind idx

/-! ## Waits (08 R420, R421, R989) -/

/-- The judgement of a condition: passed, failed, still waiting. -/
inductive Judged where
  | pass | fail | wait
  deriving DecidableEq, Repr

/-- A condition judged against the objects as they stand (06 R329 to R331, 08 R430). -/
def State.judge (s : State) : Cond → Judged
  | .flagIs f st => if s.flag f = st then .pass else .wait
  | .tallyGe t target => if (s.tally t - target).toNat < 2 ^ 31 then .pass else .wait
  | .space p q n =>
    let d := (s.tally p - s.tally q).toNat
    if d < n.toNat then .pass else if d = n.toNat then .wait else .fail
  | .phasePast b ph => if (s.bar b).phase = ph then .wait else .pass

/-- The wait of an entry ends with its judgement; tiles that held it gated are woken (06 R332, 20 R856). -/
def State.endWait (s : State) (e : Nat) (j : Judged) : State :=
  match j with
  | .pass =>
    let m := match s.op e with | some o => hStands o.hdr | none => 0
    (((standsOf m).foldl (fun s n => s.retain n false) s).updOp e (fun o => { o with stage := .issued, out := 0 })).completeOp e
  | .fail => s.failOp e { status := stOpConfig }
  | .wait => s

/-- Waiters at an object are judged after a change (08 R421). -/
def State.judgeWaiters (s : State) (kind idx : Nat) : State :=
  let ws := s.gal.waiters.filter (fun w => w.cond.touches kind idx)
  let ends := (ws.map (fun w => (w.entry, s.judge w.cond))).eraseDups.filter (fun x => x.2 ≠ .wait)
  ends.foldl (fun s x => s.endWait x.1 x.2) s

/-! ## Changes (08 R413, R417, R418, R429 to R431) -/

/-- LAST fields of a changed object (08 Table 8-6). -/
def State.setLast (s : State) (kind idx : Nat) (g : Sig) : State :=
  let l : Last := { chip := g.chip, inst := g.inst, kind := g.kind, time := s.clk.time }
  { s with gal := { s.gal with last := Tbl.set Last.reset s.gal.last (objKey kind idx) l } }

/-- A forward of a barrier to its parent: into this chip's own FIFO, or as a pure signal (08 R429 step 3, R992, R993). -/
def State.barForward (s : State) (b : Nat) : State :=
  let p := s.barParent b
  let i : BitVec 6 := BitVec.ofNat 6 (fld (s.objOwn 2 b).toNat 0 6)
  let chip : ChipId := BitVec.ofNat 16 (orefChip p)
  let obj : BitVec 14 := BitVec.ofNat 14 (orefIdx p)
  if chip = s.dom.chipId then
    s.deviceSignal { kind := 3, obj := obj, amount := 1, inst := i, chip := s.dom.chipId, notice := none, origin := .forward b }
  else s.pureSignal chip (.forward b) i true { obj := obj, kind := 3, amount := 1, iovf := false, irpl := false }

/-- A landing notice to MCID leaves by this chip's own multicast entry; the copy for this chip is applied here
(02 R118, 08 R431). Answers the chip's state and whether a local copy is due. -/
def State.sendNotice (s : State) (b : Nat) : State × Bool :=
  if !s.barMcv b then (s, false)
  else
    let e : Word32 := Tbl.get 0 s.act.mc (s.barMcid b)
    let p : Packet := { Packet.zero with
      dst := BitVec.ofNat 16 (s.barMcid b), src := s.dom.chipId, sinc := s.dom.chipInc, type := tyWrite, mc := true, ord := true,
      tail := true, sig := true, kind := 3, obj := BitVec.ofNat 14 b, amount := BitVec.ofNat 16 (s.barPcount b),
      inst := BitVec.ofNat 6 (fld (s.objOwn 2 b).toNat 0 6), iepoch := (s.inst (fld (s.objOwn 2 b).toNat 0 6)).epoch, addr := BitVec.ofNat 48 (1 + (s.bar b).phase.toNat * 2 ^ 16) }
    if !e.getLsbD 25 then (s.dropPacket p 4, false)
    else if s.dom.fencedSelf || !s.fab.enabled then (s, e.getLsbD 24)
    else
      ((portsOf (Nat.land (fld e.toNat 0 24) s.activeMask)).foldl (fun s n => s.sendOn n p.sealed) s, e.getLsbD 24)

/-- A landing: COUNT less PCOUNT, SENSE reversed, PHASE advanced, FORWARDED clear, waiters released (08 R429 step 5). -/
def State.landBar (s : State) (b : Nat) : State :=
  let x := s.bar b
  (s.setBar b { count := x.count - BitVec.ofNat 16 (s.barPcount b), sense := !x.sense, phase := x.phase + 1, forwarded := false }).judgeWaiters 2 b

/-- Barriers of this chip that a root's landing notice lands: ROOT names it, FORWARDED is set, the instance may access them
(08 R431, R409). -/
def State.noticed (s : State) (root : Nat) : List Nat :=
  (s.gal.bars.filter (fun e => e.2.forwarded && decide (s.barParent e.1 ≠ 0) && decide (s.barRoot e.1 = root))).map (·.1)

/-- A barrier's further changes after a change: a root lands while COUNT reaches PCOUNT, a non-root forwards once; a landing
root's own copy of the notice lands barriers beside it (08 R429, R430, R431). Fuel bounds landings in a row: COUNT falls by
PCOUNT at each. -/
def State.settleBar (root : Nat → State → Nat → State) : Nat → State → Nat → State
  | 0, s, _ => s
  | n + 1, s, b =>
    let x := s.bar b
    if s.barPcount b = 0 || x.count.toNat < s.barPcount b then s
    else if s.barParent b = 0 then
      let s1 := s.landBar b
      let r := s1.sendNotice b
      let s2 := if r.2 then root b r.1 b else r.1
      State.settleBar root n s2 b
    else if x.forwarded then s
    else (s.setBar b { x with forwarded := true }).barForward b

/-- A notice of a root lands the barriers it names, each of which then forwards again if its COUNT still reaches PCOUNT. -/
def State.applyNotice (s : State) (g : Sig) : State :=
  let root := g.chip.toNat + g.obj.toNat * 2 ^ 16
  (s.noticed root).foldl (fun s b =>
    let s := s.touchObj 2 b
    if !s.permitted 2 b g.inst.toNat then s.crossTenant 2 b g.inst.toNat g.chip
    else if Tbl.get false s.gal.poisoned (objKey 2 b) then s
    else State.settleBar (fun _ s _ => s) 1 ((s.landBar b).setLast 2 b g) b) s

/-- The local copy of a root's own notice. -/
def State.ownNotice (s : State) (b : Nat) : State :=
  s.applyNotice { kind := 3, obj := BitVec.ofNat 14 b, amount := 0, inst := BitVec.ofNat 6 (fld (s.objOwn 2 b).toNat 0 6),
                  chip := s.dom.chipId, notice := some (s.bar b).phase, origin := .device }

/-- A refused change: what the refusal does depends on where it came from (08 R411, R432, R993, 23 R954). -/
def State.refuseSig (s : State) (g : Sig) (kind idx outcome : Nat) : State :=
  let s1 := if outcome = 0x10 then s.crossTenant kind idx g.inst.toNat g.chip else s
  match g.origin with
  | .op e => s1.failOp e (s1.objErr kind idx outcome)
  | .attached c i h => ((s1.ctxFault c i (some h) 0 (s1.objErr kind idx outcome)).updCtx c (fun x => { x with sigsOut := x.sigsOut - 1 })).shareCheck c
  | .remote => s1
  | .host fn => s1.fnError fn (if outcome = 0x10 then esCrossTenant else esSignalRefused)
  | .forward b => s1.event evForwardFailed 3 g.inst.toNat (s1.objArg 2 b) (s1.barParent b + outcomeStatus outcome * 2 ^ 32)
  | .device => s1

/-- The change is in place: its issuing operation, or the share of its attached signal, goes on. -/
def State.sigApplied (s : State) (g : Sig) : State :=
  match g.origin with
  | .op e => s.opAck e
  | .attached c _ _ => (s.updCtx c (fun x => { x with sigsOut := x.sigsOut - 1 })).shareCheck c
  | _ => s

/-- A HOLD arrival's waiter records the gathering its arrival joined and waits for PHASE to pass it (08 R430). -/
def State.holdArrival (s : State) (e b : Nat) (before : Bar) : State :=
  match s.op e with
  | none => s
  | some o =>
    if hOpcode o.hdr = opBarrierArrive && bit (hArg o.hdr 4 4) 0 then
      let ph := if before.forwarded then before.phase + 1 else before.phase
      let cond := Cond.phasePast b ph
      let slot : BitVec 16 := BitVec.ofNat 16 (o.slot.getD 0)
      let t := hArg o.hdr 8 4
      let w : Waiter := { entry := e, holder := slot, cond := cond, deadline := if t = 0 then none else some (s.now + 1000 * t) }
      let s1 := { s with gal := { s.gal with waiters := s.gal.waiters ++ [w] } }
      s1.updOp e (fun o => { o with stage := .held })
    else s.opAck e

/-- One change applied at its object, in the Gallery's order (08 R413 to R431, 13 R602). -/
def State.applySig (s0 : State) (g : Sig) : State :=
  if g.notice.isSome then s0.applyNotice g
  else
    let kind := sigObjKind g.kind.toNat
    let idx := g.obj.toNat
    let s := s0.touchObj kind idx
    let v := s.objVerdict kind idx g.inst.toNat
    if v ≠ 0 then s.refuseSig g kind idx v
    else if kind = 0 then
      let st := g.kind == 0
      let s1 := ({ s with gal := { s.gal with flags := Tbl.set false s.gal.flags idx st } }.setLast 0 idx g).judgeWaiters 0 idx
      let s2 := if st && s.safe.armed && s.safe.probe == .idle && decide (fld s.safe.trig.toNat 16 14 = idx) then
          { s1 with safe := { s1.safe with trigSeen := true } } else s1
      s2.sigApplied g
    else if kind = 1 then
      let s1 := ({ s with gal := { s.gal with tallies := Tbl.set 0 s.gal.tallies idx (s.tally idx + BitVec.ofNat 32 g.amount.toNat) } }.setLast
        1 idx g).judgeWaiters 1 idx
      let s2 := if s.isFe && s.act.evqNotify != 0 && decide (fld s.act.evqNotify.toNat 16 14 = idx) then s1.cause 0 causeEvent else s1
      s2.sigApplied g
    else
      let x := s.bar idx
      let s1 := (s.setBar idx { x with count := satAdd x.count g.amount.toNat }).setLast 2 idx g
      let s2 := match g.origin with | .op e => s1.holdArrival e idx x | _ => s1.sigApplied g
      State.settleBar (fun _ t b => t.ownNotice b) 65536 s2 idx

/-! ## The FIFO's sources (20 R884) -/

/-- A slot whose signal waits for FIFO room (08 R416). -/
def Slot.forFifo (x : Slot) : Bool := x.ready

/-- A DATA window write of the function has not committed at its destination (09 R465). -/
def State.dataOut (s : State) (fn : Nat) : Bool :=
  s.fab.xfers.any (fun x => x.purpose == .hostData fn) || s.fab.queued.any (fun x => x.purpose == .hostData fn)

/-- A waiting signal write of a function to this chip: the function's first, its DATA writes committed. -/
def State.postedFirst (s : State) (e : Nat × ChipId × Sig) : Bool :=
  e.2.1 == s.dom.chipId && (s.pcie.posted.find? (fun x => x.1 == e.1)) == some e && !s.dataOut e.1

/-- Waiting signal writes to other chips that are their function's first leave once its DATA writes have committed (fuel: the writes). -/
def State.sendPosted : Nat → State → State
  | 0, s => s
  | n + 1, s =>
    match s.pcie.posted.find? (fun e => e.2.1 != s.dom.chipId && (s.pcie.posted.find? (fun x => x.1 == e.1)) == some e && !s.dataOut e.1) with
    | none => s
    | some e =>
      let g := e.2.2
      let s1 := { s with pcie := { s.pcie with posted := s.pcie.posted.erase e } }
      State.sendPosted n (s1.pureSignal e.2.1 (.hostSignal e.1) g.inst true { obj := g.obj, kind := g.kind, amount := g.amount, iovf := false, irpl := false })

/-- The next push a source has ready, and the state without it: 0 CFE, 1 fabric unit, 2 endpoint, 3 Safety Monitor
(its signals are queued with the CFE's). -/
def State.sourceNext (s : State) (src : Nat) : Option (Sig × State) :=
  match src with
  | 0 => match s.gal.stalled with
    | g :: t => some (g, { s with gal := { s.gal with stalled := t } })
    | [] => none
  | 1 => match s.gal.slots.find? (fun e => match e.2 with | some x => x.forFifo | none => false) with
    | some (k, some x) => some (x.sig, { s with gal := { s.gal with slots := Tbl.set none s.gal.slots k none } })
    | _ => none
  | 2 => (s.pcie.posted.find? s.postedFirst).map (fun e => (e.2.2, { s with pcie := { s.pcie with posted := s.pcie.posted.erase e } }))
  | _ => none

/-- One waiting push enters the FIFO, the source after the last winner first (20 R884). Answers whether one did. -/
def State.refillOne (s : State) : State × Bool :=
  if !s.fifoHasRoom then (s, false)
  else
    match ((List.range 4).map (fun k => (s.gal.winner + 1 + k) % 4)).findSome? (fun k => (s.sourceNext k).map (fun r => (k, r))) with
    | some (k, g, t) => (t.fifoPush k g, true)
    | none => (s, false)

/-- Waiting pushes enter while there is room (fuel). -/
def State.refill : Nat → State → State
  | 0, s => s
  | n + 1, s => if (s.refillOne).2 then State.refill n (s.refillOne).1 else s

/-- One entry popped and applied; waiting pushes follow into the room (08 R413, R416). -/
def State.galleryPop (s : State) : State :=
  match s.gal.fifo with
  | [] => s
  | g :: t => ({ s with gal := { s.gal with fifo := t } }.applySig g)

/-- Every change ahead of an observer is applied: the FIFO and the acknowledged signals that wait for its room
(08 R414, R446, 09 R457). Fuel bounds the changes. -/
def State.drainGallery : Nat → State → State
  | 0, s => s
  | n + 1, s =>
    let s1 := if s.gal.fifo.isEmpty then (s.refillOne).1 else s
    if s1.gal.fifo.isEmpty then s1 else State.drainGallery n s1.galleryPop

/-- What an observer sees before it takes its place in the order. -/
def State.observe (s : State) : State :=
  s.atOnce (State.drainGallery (64 + 512 + s.gal.stalled.length + s.pcie.posted.length + 1024))

/-- The Gallery pops one entry and applies it; records of buffers whose END passes with it are ordered (07 R387). -/
def execGalleryApply (s : State) : Host.Outcome State Fault Refusal :=
  .next (if s.live then s.atOnce State.galleryPop else s)

/-- A signal waiting for FIFO room enters. -/
def execFifoRoom (s : State) : Host.Outcome State Fault Refusal :=
  .next (if s.live then State.sendPosted s.pcie.posted.length (s.refillOne).1 else s)

/-- A wait's TIMEOUT expires: it ends with WAIT_TIMEOUT and names its object (08 R424, R426). -/
def State.waitTimeout (s : State) (e : Nat) : State :=
  match s.gal.waiters.find? (fun w => w.entry == e && w.deadline.isSome) with
  | none => s
  | some w =>
    let o := match w.cond with
      | .flagIs f _ => (0, f)
      | .tallyGe t _ => (1, t)
      | .space p _ _ => (1, p)
      | .phasePast b _ => (2, b)
    s.failOp e { status := stWaitTimeout, objChip := s.dom.chipId.toNat, objKind := o.1, objIdx := o.2 }

/-- WAIT_TIMEOUT; a wait that a change has passed has no waiter left, so the change takes precedence (08 R425). -/
def execWaitTimeout (entry : Nat) (s : State) : Host.Outcome State Fault Refusal :=
  .next (if s.live then s.waitTimeout entry else s)

end Sys2Proof.Machine
end

