-- ==== Sys2Proof/Machine/Access.lean ====
section
/-! DEFINITION. How an operation, a buffer fetch and the DATA window read and write device virtual memory: ranges, granules, staging of remote bytes, output transfers (03, 04, 08, 10). -/

namespace Sys2Proof.Machine

/-! ## Reads -/

/-- Where bytes that this chip cannot read at once are asked for. -/
inductive AskTo where
  | chip (c : ChipId) (addr : Nat) (enc : Bool)
  | host
  deriving DecidableEq, Repr

/-- What a read of a range comes to. -/
inductive Got where
  | bytes (bs : List Byte)
  | need (asks : List (Nat × Nat × AskTo))
  /-- a part of this chip it reaches is resetting (13 R592) -/
  | held (x : Part)
  | bad (x : Err)
  deriving DecidableEq, Repr

/-- Two parts of one read: the first failure stands, then what is still to come. -/
def Got.join : Got → Got → Got
  | .bad x, _ => .bad x
  | _, .bad x => .bad x
  | .held x, _ => .held x
  | _, .held x => .held x
  | .need a, .need b => .need (a ++ b)
  | .need a, .bytes _ => .need a
  | .bytes _, .need b => .need b
  | .bytes a, .bytes b => .bytes (a ++ b)

/-- Bytes already staged, if all are. -/
def stagedBytes (st : Tbl (Option Byte)) (dva len : Nat) : Option (List Byte) :=
  (addrs dva len).mapM (fun a => Tbl.get none st a)

/-- A range that leaves its side of the aperture boundary (03 R196). -/
def wrongSide (base dva : Nat) : Bool := bit base 47 != bit dva 47 || decide (2 ^ 48 ≤ dva)

/-- ACCESS where the walk itself faults: a table walk, but for a fetch of a ring or buffer (13 Table 13-4; DEDUCED, log 79). -/
def walkAccess (access : Nat) : Nat := if access = 4 then 4 else 3

/-- One piece of a read within a page, on behalf of instance `i`; `access` is the capture's ACCESS (03 R172 to R174, R191, R195). -/
def State.gatherPiece (s : State) (i : Nat) (st : Tbl (Option Byte)) (access base dva len : Nat) : Got × State :=
  let flt := fun (level : Nat) => Got.bad { status := stXltFault, addr := dva, access := access, level := level }
  let wlk := fun (level : Nat) => Got.bad { status := stXltFault, addr := dva, access := walkAccess access, level := level }
  if wrongSide base dva then (flt 0, s)
  else
    match s.xlate i dva len false with
    | (.fault lv, s1) => (flt lv, s1)
    | (.walk lv, s1) => (wlk lv, s1)
    | (.lost c, s1) => (.bad { status := stChipLost, peer := c.toNat }, s1)
    | (.mem c lpa enc, s1) =>
      if c = s1.dom.chipId then
        if s1.confDenied i enc lpa len then (flt 0, s1.confRefused i s1.dom.chipId lpa)
        else
          match s1.partDown lpa len with
          | some x => (.held x, s1)
          | none =>
          match s1.readMem (if enc then s1.keyOf i else 0) lpa len with
          | (.inl bs, s2) => (.bytes bs, s2)
          | (.inr l, s2) => (.bad { status := stCheckerFail, addr := l, access := access }, s2)
      else
        match stagedBytes st dva len with
        | some bs => (.bytes bs, s1)
        | none => (.need [(dva, len, .chip c lpa enc)], s1)
    | (.host p, s1) =>
      match stagedBytes st dva len with
      | some bs => (.bytes bs, s1)
      | none =>
        if p = s1.dom.chipId then (if s1.mayIssue i then (.need [(dva, len, .host)], s1) else (flt 0, s1))
        else (.need [(dva, len, .chip p dva false)], s1)

/-- A range read piece by piece. -/
def State.gatherPieces (s : State) (i : Nat) (st : Tbl (Option Byte)) (access base : Nat) : List (Nat × Nat) → Got × State
  | [] => (.bytes [], s)
  | p :: ps =>
    let r := s.gatherPiece i st access base p.1 p.2
    let q := r.2.gatherPieces i st access base ps
    (r.1.join q.1, q.2)

/-- A contiguous read of `len` bytes. -/
def State.gather (s : State) (i : Nat) (st : Tbl (Option Byte)) (access dva len : Nat) : Got × State :=
  s.gatherPieces i st access dva (piecesOf dva len)

/-- Translation and permission of every page a range touches, without reading it: the first failure (03 R191). -/
def State.checkPieces (s : State) (i : Nat) (access base : Nat) (write : Bool) : List (Nat × Nat) → Option (Nat × Err) × State
  | [] => (none, s)
  | p :: ps =>
    let flt := fun (level : Nat) => some (p.1, ({ status := stXltFault, addr := p.1, access := access, level := level } : Err))
    let wlk := fun (level : Nat) => some (p.1, ({ status := stXltFault, addr := p.1, access := walkAccess access, level := level } : Err))
    if wrongSide base p.1 then (flt 0, s)
    else
      match s.xlate i p.1 p.2 write with
      | (.fault lv, s1) => (flt lv, s1)
      | (.walk lv, s1) => (wlk lv, s1)
      | (.lost c, s1) => (some (p.1, ({ status := stChipLost, peer := c.toNat } : Err)), s1)
      | (.mem c lpa enc, s1) =>
        if c = s1.dom.chipId && s1.confDenied i enc lpa p.2 then (flt 0, s1.confRefused i s1.dom.chipId lpa)
        else s1.checkPieces i access base write ps
      | (.host _, s1) => s1.checkPieces i access base write ps

/-- READ_REQs of at most 256 bytes for a remote range (02 R98, Table 2-5). Fuel: the length. -/
def cut256 : Nat → Nat → Nat → List (Nat × Nat)
  | 0, _, _ => []
  | k + 1, off, left => if left = 0 then [] else (off, min left 256) :: cut256 k (off + 256) (left - 256)

/-- A READ_REQ packet. -/
def readPkt (inst : BitVec 6) (addr len : Nat) (ord : Bool) : Packet :=
  { Packet.zero with type := tyReadReq, ord := ord, tail := true, inst := inst, addr := BitVec.ofNat 48 addr, len := BitVec.ofNat 9 len }

/-- What is asked for goes out, in pieces, with the ORD its operation requests (02 R110) and with Relaxed Ordering where it permits it (04 R214);
`purpose` and `use` say what each piece is for. -/
def State.ask (s : State) (i : Nat) (ord relaxed : Bool) (a : Nat × Nat × AskTo) (purpose : Nat → Nat → Purpose) (use : Nat → Nat → HostFor) : State :=
  match a.2.2 with
  | .chip c addr enc =>
    (cut256 a.2.1 0 a.2.1).foldl (fun s p =>
      s.newXfer c (purpose (a.1 + p.1) p.2) [{ readPkt (BitVec.ofNat 6 i) (addr + p.1) p.2 ord with enc := enc }]) s
  | .host =>
    let bus := s.busAddr i a.1
    (cutBus (s.fc i).mrrsBytes a.2.1 bus a.2.1).foldl (fun s p =>
      s.hostRead i p.1 p.2 relaxed (use (a.1 + (p.1 - bus)) p.2)) s

/-- Bytes put into a staging table. -/
def stageAt (st : Tbl (Option Byte)) (dva : Nat) (bs : List Byte) : Tbl (Option Byte) :=
  (indexed dva bs).foldl (fun t e => Tbl.set none t e.1 (some e.2)) st

/-- A request of an operation has met a resetting part: it is held there (13 R591, R592). -/
def State.holdReq (s : State) (e : Nat) (x : Part) : State :=
  let q : LocalReq := { part := x, inc := s.partInc x, entry := e, refusals := 0, waiting := false }
  { s with parts := { s.parts with reqs := s.parts.reqs ++ [q] } }

/-- A read on an operation's behalf: remote bytes not yet here are asked for once (09 R449). -/
def State.opGather (s : State) (e : Nat) (g : Got × State) : Option (List Byte) × State :=
  if s.hasReq e then (none, s) else
  match g.1 with
  | .held x => (none, s.holdReq e x)
  | .bytes bs => (some bs, g.2)
  | .bad x => (none, g.2.failOp e x)
  | .need asks =>
    let i := match s.op e with | some o => s.ctxInst o.ctx | none => 0
    let done := match s.op e with | some o => o.asked | none => []
    let new := asks.filter (fun a => !done.contains (a.1, a.2.1))
    let ord := match s.op e with | some o => hOrd o.hdr | none => false
    let s1 := new.foldl (fun s a => s.ask i ord (!ord) a (fun d n => .opRead e d n) (fun d n => .operand e d n)) g.2
    (none, s1.updOp e (fun o => { o with asked := o.asked ++ new.map (fun a => (a.1, a.2.1)) }))

/-- Bytes of an operand arrive: staged for the operation (02 R100, 04 R216). -/
def State.opStage (s : State) (e dva : Nat) (bs : List Byte) : State := s.updOp e (fun o => { o with staged := stageAt o.staged dva bs })

/-- Bytes of a buffer arrive: staged for its context. -/
def State.ctxStage (s : State) (c dva : Nat) (bs : List Byte) : State := s.updCtx c (fun x => { x with staged := stageAt x.staged dva bs })

/-! ## Operands of rows (10 R474, R504) -/

/-- An operand: its effective DVA, rows, bytes of a row and row stride. -/
structure Oper where
  base : Nat
  rows : Nat
  len  : Nat
  ld   : Nat
  deriving DecidableEq, Repr

/-- Bytes of the operand's range (10 R504); 0 where it is empty. -/
def Oper.span (o : Oper) : Nat := if o.rows = 0 || o.len = 0 then 0 else (o.rows - 1) * o.ld + o.len

/-- Start of row `r`. -/
def Oper.row (o : Oper) (r : Nat) : Nat := o.base + r * o.ld

/-- Rows of an operand read as instance `i`: every page of the range is checked, then each row's bytes are read (10 R504). -/
def State.gatherOper (s : State) (i : Nat) (st : Tbl (Option Byte)) (o : Oper) : Got × State :=
  if o.span = 0 then (.bytes [], s)
  else
    match s.checkPieces i 1 o.base false (piecesOf o.base o.span) with
    | (some (_, x), s1) => (.bad x, s1)
    | (none, s1) =>
      if o.ld = o.len || o.rows = 1 then s1.gather i st 1 o.base (o.rows * o.len)
      else
        (List.range o.rows).foldl (fun (a : Got × State) r =>
          let q := a.2.gather i st 1 (o.row r) o.len
          (a.1.join q.1, q.2)) (.bytes [], s1)

/-- Several operands read in descriptor order; the first failure of any stands before what is still to come (03 R191). -/
def State.gatherOpers (s : State) (i : Nat) (st : Tbl (Option Byte)) : List Oper → (Got × List (List Byte)) × State
  | [] => ((.bytes [], []), s)
  | o :: os =>
    let r := s.gatherOper i st o
    let q := r.2.gatherOpers i st os
    ((r.1.join q.1.1, (match r.1 with | .bytes bs => bs | _ => []) :: q.1.2), q.2)

/-! ## Output ranges (03 R192 to R194, 10 R504, R505, R1000) -/

/-- An output range and the runs of bytes computed for it, ascending. -/
structure OutRange where
  base : Nat
  len  : Nat
  runs : List (Nat × List Byte)
  /-- rows are written whole or not at all below a faulting granule (11 R538) -/
  whole : Bool
  deriving DecidableEq, Repr

/-- Adjacent runs joined. -/
def joinRuns : List (Nat × List Byte) → List (Nat × List Byte)
  | [] => []
  | (a, bs) :: t =>
    match joinRuns t with
    | (b, cs) :: u => if a + bs.length = b then (a, bs ++ cs) :: u else (a, bs) :: (b, cs) :: u
    | [] => [(a, bs)]

/-- How far a range may be written, and its fault: all or nothing up to 64 KiB, else the granules before the first faulting
one (03 R192 to R194). -/
def State.rangeEnd (s : State) (i : Nat) (r : OutRange) : Nat × Option Err × State :=
  match s.checkPieces i 2 r.base true (piecesOf r.base r.len) with
  | (none, s1) => (r.base + r.len, none, s1)
  | (some (d, x), s1) =>
    let stop := if r.len ≤ 0x10000 then r.base else d
    (stop, some { x with done := stop - r.base }, s1)

/-- The part of a run below `stop`. -/
def cutRun (whole : Bool) (stop : Nat) (r : Nat × List Byte) : Option (Nat × List Byte) :=
  if stop ≤ r.1 then none
  else if r.1 + r.2.length ≤ stop then some r
  else if whole then none else some (r.1, r.2.take (stop - r.1))

/-- A write to the host is bulk data that may carry Relaxed Ordering: its operation asks for no order, and it is longer than a peer signal
(04 R214, R230; log 101). -/
def bulk (ord : Bool) (n : Nat) : Bool := !ord && decide (8 < n)

/-- One piece of output, within a page: stored here, posted to the host, or returned as a transfer to send. -/
def State.storePiece (s : State) (i dva : Nat) (bs : List Byte) (ord : Bool) : Option (ChipId × Nat × List Packet) × Option Err × State :=
  let inst : BitVec 6 := BitVec.ofNat 6 i
  match s.xlate i dva bs.length true with
  | (.mem c lpa enc, s1) =>
    if c = s1.dom.chipId then
      match s1.writeMem (if enc then s1.keyOf i else 0) lpa bs with
      | (none, s2) => (none, none, s2)
      | (some l, s2) => (none, some { status := stCheckerFail, addr := l, access := 2 }, s2)
    else (some (c, dva, (writePkts inst lpa bs ord none).map (fun p => { p with enc := enc })), none, s1)
  | (.host p, s1) =>
    if p = s1.dom.chipId then (none, none, s1.post i (s1.busAddr i dva) bs (bulk ord bs.length))
    else (some (p, dva, writePkts inst dva bs ord none), none, s1)
  | (.fault lv, s1) => (none, some { status := stXltFault, addr := dva, access := 2, level := lv }, s1)
  | (.walk lv, s1) => (none, some { status := stXltFault, addr := dva, access := walkAccess 2, level := lv }, s1)
  | (.lost c, s1) => (none, some { status := stChipLost, peer := c.toNat }, s1)

/-- The last host-aperture write through a portal is remembered for FENCE_GLOBAL (09 Table 9-1). -/
def State.noteHost (s : State) (c : Nat) (dva : Nat) : State :=
  let slot := s.slotTarget (s.ctxInst c) dva 1 true
  match slot with
  | .host p => s.updCtx c (fun x => { x with hostWrites := x.hostWrites.filter (fun h => h.1 ≠ p) ++ [(p, dva)] })
  | _ => s

/-- Output as it leaves, in order: a transfer to send (destination, DVA, packets), or none for a piece stored here or posted to the host. -/
abbrev Sent := List (Option (ChipId × Nat × List Packet))

/-- What writing output pieces came to: what leaves, the granule on its way, the pieces that wait for it, the first failure. -/
structure Wrote where
  sent : Sent
  gran : Option (Nat × Nat)
  rest : List OutPiece
  bad  : Option Err
  /-- some of it was posted to the host here -/
  posted : Bool

/-- Output pieces in order. A granule waits while anything sent before it has not committed (`busy`), and one that faults ends the output
(03 R193, R194). -/
def State.storeAll (s : State) (c i : Nat) (ord : Bool) : Bool → List OutPiece → Wrote × State
  | _, [] => ({ sent := [], gran := none, rest := [], bad := none, posted := false }, s)
  | busy, p :: ps =>
    if p.granule && busy then ({ sent := [], gran := none, rest := p :: ps, bad := none, posted := false }, s)
    else
      let r := s.storePiece i p.dva p.data ord
      let s1 := if bit p.dva 47 then r.2.2.noteHost c p.dva else r.2.2
      let cut := p.granule && (match r.2.1 with | some x => x.status != stCheckerFail | none => false)
      if cut then ({ sent := [], gran := none, rest := [], bad := r.2.1.map (fun x => { x with done := p.dva - p.base }), posted := false }, s1)
      else
        let q := s1.storeAll c i ord (busy || r.1.isSome) ps
        ({ sent := r.1 :: q.1.sent, gran := (if p.granule && r.1.isSome then some (p.dva, p.dva - p.base) else q.1.gran), rest := q.1.rest,
           bad := (match r.2.1 with | some x => some x | none => q.1.bad),
           posted := q.1.posted || (bit p.dva 47 && r.1.isNone) }, q.2)

/-- Runs cut at page boundaries. -/
def pageRuns (rs : List (Nat × List Byte)) : List (Nat × List Byte) :=
  rs.flatMap (fun r => (piecesOf r.1 r.2.length).map (fun p => (p.1, (r.2.drop (p.1 - r.1)).take p.2)))

/-- The pieces of a range as far as it may be written. -/
def OutRange.piecesTo (r : OutRange) (stop : Nat) : List OutPiece :=
  (pageRuns (joinRuns (r.runs.filterMap (cutRun r.whole stop)))).map
    (fun p => { dva := p.1, base := r.base, granule := decide (0x10000 < r.len), data := p.2 })

/-- All output ranges of an operation are checked: the pieces that may be written, in order, and the fault of the first faulting range in descriptor
order (10 R505, R1000). -/
def State.outputs (s : State) (i : Nat) (rs : List OutRange) : List OutPiece × Option Err × State :=
  rs.foldl (fun (a : List OutPiece × Option Err × State) r =>
      let k := a.2.2.rangeEnd i r
      (a.1 ++ r.piecesTo k.1, (match a.2.1 with | some x => some x | none => k.2.1), k.2.2)) ([], none, s)

/-- The home chip of an operation's attached signal on this chip; none without one. -/
def State.asigHome (s : State) (h : List Byte) : Option ChipId :=
  if (hOpcode h = opLaunch || hOpcode h = opCopy) && asigV (hAsig h) then
    some (if asigChip (hAsig h) = 0 then s.dom.chipId else BitVec.ofNat 16 (asigChip (hAsig h)))
  else none

/-- Whether the share's last transfer may carry something in its tail: the attached signal to its own home, or without one the
completion increment to the admitting chip (08 R318, 07 R381). -/
def State.mayRide (s : State) (o : OpEntry) (dst : ChipId) : Bool :=
  match s.asigHome o.hdr with
  | some h => h == dst
  | none => match s.share o.ctx with | some k => k.chip == dst | none => false

/-- What an operation's output came to is taken up: transfers to send, its fault. Where the last of it leaves by a transfer that may carry a signal,
that is held for OP_COMPLETE (06 R318); a fault waits until the granules before it have committed (03 R194). `ride` is false where the spec has a pure
signal always. -/
def State.opSent (s : State) (e : Nat) (ride : Bool) (w : Wrote) : State :=
  match s.op e with
  | none => s
  | some o =>
    let bad := match o.err with | some x => some x | none => w.bad
    let last := w.sent.getLast?.join
    let hold := ride && bad.isNone && w.rest.isEmpty && (match last with | some x => s.mayRide o x.1 | none => false)
    let now := (if hold then w.sent.dropLast else w.sent).filterMap id
    let s1 := now.foldl (fun s x => s.newXfer x.1 (.op e x.2.1) x.2.2) s
    let s2 := s1.updOp e (fun o => { o with stage := .issued, out := o.out + now.length, err := bad, tailTo := (if hold then last else none),
                                            rest := w.rest, ride := ride, gran := w.gran, toHost := o.toHost || w.posted })
    match bad with
    | some x => if now.isEmpty && o.out = 0 && w.rest.isEmpty then s2.failOp e x else s2
    | none => s2

/-- Nothing was written. -/
def Wrote.none : Wrote := { sent := [], gran := Option.none, rest := [], bad := Option.none, posted := false }

/-- What was sent has committed: the output that waited for it goes on (03 R193). -/
def State.opMore (s : State) (e : Nat) : State :=
  match s.op e with
  | none => s
  | some o =>
    if o.rest.isEmpty || o.out ≠ 0 || o.dead then s
    else
      let w := s.storeAll o.ctx (s.ctxInst o.ctx) (hOrd o.hdr) false o.rest
      w.2.opSent e o.ride w.1

/-- The first resetting part of this chip that output ranges reach. -/
def State.outHeld (s : State) (i : Nat) (rs : List OutRange) : Option Part :=
  ((rs.flatMap (fun r => pageRuns r.runs)).filterMap (fun p =>
    match (s.xlate i p.1 p.2.length true).1 with
    | .mem c lpa _ => if c = s.dom.chipId then s.partDown lpa p.2.length else none
    | _ => none)).head?

/-- An operation's results are issued: stored here, or sent; held whole while a part they reach is resetting (13 R592). -/
def State.opWrite (s : State) (e : Nat) (rs : List OutRange) (ride : Bool) : State :=
  match s.op e with
  | none => s
  | some o =>
    if s.hasReq e then s else
    match s.outHeld (s.ctxInst o.ctx) rs with
    | some x => s.holdReq e x
    | none =>
    let r := s.outputs (s.ctxInst o.ctx) rs
    let w := (r.2.2.updOp e (fun q => { q with err := (match q.err with | some x => some x | none => r.2.1) })).storeAll o.ctx (s.ctxInst o.ctx)
      (hOrd o.hdr) (o.out != 0) r.1
    w.2.opSent e ride w.1

end Sys2Proof.Machine
end

