-- ==== Sys2Proof/Machine/Packets.lean ====
section
/-! DEFINITION. Packets at their destination and at their source: duplicate windows, trackers, parked signals, READ_REQ service, acknowledgements, refusals and resends (02, 08, 13, 15). -/

namespace Sys2Proof.Machine

/-! ## Duplicate windows (02 R136 to R138, R987) -/

/-- A TID lies below B. -/
def Window256.below (w : Window256) (tid : BitVec 24) : Bool :=
  let d := (w.base - tid).toNat
  decide (1 ≤ d ∧ d ≤ 2 ^ 23)

/-- A transfer counts as committed: below B, or marked. -/
def Window256.has (w : Window256) (tid : BitVec 24) : Bool := w.below tid || w.done.contains tid

/-- Marks below B leave the map, outcomes below B - 4,096 are forgotten. -/
def Window256.prune (w : Window256) : Window256 :=
  { w with done := w.done.filter (fun t => !w.below t), passed := w.passed.filter (fun t => !w.below t),
           outcomes := w.outcomes.filter (fun o => decide ((o.1 - (w.base - 4096)).toNat < 2 ^ 23)) }

/-- A packet arrives: B follows a TID more than 4,095 above it. -/
def Window256.see (w : Window256) (tid : BitVec 24) : Window256 :=
  if !w.below tid && decide (4095 < (tid - w.base).toNat) then ({ w with base := tid - 4095 }).prune else w

/-- B passes committed transfers (fuel: the marks). -/
def Window256.advance : Nat → Window256 → Window256
  | 0, w => w
  | n + 1, w => if w.done.contains w.base then Window256.advance n { w with base := w.base + 1 } else w

/-- A transfer commits with an outcome. -/
def Window256.commit (w : Window256) (tid : BitVec 24) (outcome : Nat) : Window256 :=
  let w1 := { w with done := w.done ++ [tid], outcomes := w.outcomes ++ [(tid, BitVec.ofNat 8 outcome)] }
  (Window256.advance (w1.done.length + 1) w1).prune

/-- Between the TID the window was opened at and this one stands a TID not committed, of which it is not known that no ordered transfer waits for
it (02 R111; log 33). -/
def Window256.openBefore (w : Window256) (tid : BitVec 24) : Bool :=
  let lo := if w.below w.first then w.base else w.first
  let n := (tid - lo).toNat
  decide (n < 2 ^ 23) && (List.range (min n 4096)).any (fun k =>
    let t := lo + BitVec.ofNat 24 k
    !w.done.contains t && !w.passed.contains t)

/-- The outcome a duplicate is answered with. -/
def Window256.outcome (w : Window256) (tid : BitVec 24) : Nat :=
  match w.outcomes.find? (fun o => o.1 == tid) with
  | some o => o.2.toNat
  | none => 0

/-- The window of a source. -/
def State.window (s : State) (src : ChipId) : Option Window256 := s.fab.windows.find? (fun w => w.src == src)

/-- The window of its source put in place. -/
def State.setWindow (s : State) (w : Window256) : State :=
  { s with fab := { s.fab with windows := (s.fab.windows.filter (fun x => x.src ≠ w.src)) ++ [w] } }

/-- What the window rules say of a packet. -/
inductive Win where
  /-- from an earlier incarnation of its source: dropped without answer -/
  | old
  /-- 256 windows are kept already: RETRY_LATER -/
  | full
  | here (w : Window256)
  deriving DecidableEq, Repr

/-- Refused ordered transfers that match are owed no more (02 R111; log 33). -/
def State.dropDue (s : State) (hit : ChipId × BitVec 24 × BitVec 6 → Bool) : State :=
  { s with fab := { s.fab with ordDue := s.fab.ordDue.filter (fun e => !hit e) } }

/-- The window a packet meets, opened or replaced as 02 R138 gives. -/
def State.windowFor (s : State) (p : Packet) : Win × State :=
  let new : Window256 := { src := p.src, sinc := p.sinc, base := p.tid - 4095, done := [], outcomes := [],
                            first := p.tid, passed := [] }
  match s.window p.src with
  | some w =>
    if w.sinc = p.sinc then (.here (w.see p.tid), s.setWindow (w.see p.tid))
    else if 1 ≤ (p.sinc - w.sinc).toNat ∧ (p.sinc - w.sinc).toNat ≤ 127 then
      (.here new, (s.setWindow new).dropDue (fun e => e.1 == p.src))
    else (.old, s)
  | none => if 256 ≤ s.fab.windows.length then (.full, s) else (.here new, s.setWindow new)

/-- Later ordered transfers of a source do not wait for this TID (02 R111). -/
def State.passTid (s : State) (src : ChipId) (tid : BitVec 24) : State :=
  match s.window src with
  | some w => if w.passed.contains tid then s else s.setWindow { w with passed := w.passed ++ [tid] }
  | none => s

/-- A transfer of a source is entered as committed. -/
def State.commitTid (s : State) (src : ChipId) (tid : BitVec 24) (outcome : Nat) : State :=
  let s1 := s.dropDue (fun e => e.1 == src && e.2.1 == tid)
  match s1.window src with
  | some w => s1.setWindow (w.commit tid outcome)
  | none => s1

/-! ## Trackers and slots (08 R434 to R442) -/

/-- The tracker of a transfer. -/
def State.tracker (s : State) (src : ChipId) (tid : BitVec 24) : Option Tracker :=
  s.fab.trackers.find? (fun t => t.src == src && t.tid == tid)

/-- Every tracker but that of a transfer. -/
def State.dropTracker (s : State) (src : ChipId) (tid : BitVec 24) : State :=
  { s with fab := { s.fab with trackers := s.fab.trackers.filter (fun t => !(t.src == src && t.tid == tid)) } }

/-- The tracker of its transfer put in place. -/
def State.setTracker (s : State) (t : Tracker) : State :=
  let s1 := s.dropTracker t.src t.tid
  { s1 with fab := { s1.fab with trackers := s1.fab.trackers ++ [t] } }

/-- The lowest packet index not committed (fuel: the indices held). -/
def lowestOpen : Nat → Nat → List Nat → Nat
  | 0, n, _ => n
  | k + 1, n, done => if done.contains n then lowestOpen k (n + 1) done else n

/-- The pending-signal slot of a transfer that has not committed. -/
def State.slotOf (s : State) (src : ChipId) (tid : BitVec 24) : Option Nat :=
  ((s.gal.slots.find? (fun e => match e.2 with | some x => x.src == src && x.tid == tid && !x.ready | none => false))).map (·.1)

def State.setSlot (s : State) (k : Nat) (x : Option Slot) : State :=
  { s with gal := { s.gal with slots := Tbl.set none s.gal.slots k x } }

/-- The change a tail carries. -/
def Packet.toSig (p : Packet) : Sig :=
  { kind := p.kind, obj := p.obj, amount := p.amount, inst := p.inst, chip := p.src, notice := none, origin := .remote }

/-- The slot record of a tail. -/
def State.slotFor (s : State) (p : Packet) (ready : Bool) : Slot :=
  { src := p.src, tid := p.tid, sig := p.toSig, iovf := p.iovf, irpl := p.irpl, pktcnt := p.pktcnt, time := s.clk.time, ready := ready }

/-! ## What becomes of a packet -/

/-- The end of one packet's handling at its destination. -/
inductive Fate where
  /-- its transfer is committed and acknowledged with an outcome (02 R106) -/
  | done (outcome : Nat)
  /-- its transfer is committed and answered already (a READ_REQ served, 02 R100) -/
  | served
  /-- it is committed and its transfer goes on -/
  | more
  /-- E2E_NAK RETRY_LATER -/
  | later
  /-- E2E_NAK CRC: beyond the tracker's window (08 R436) -/
  | resend
  /-- nothing is answered now: a host read is under way, or an error leaves the read unanswered -/
  | quiet
  /-- it stays in the receive buffer: no pending-signal slot is free (02 R104), or the dirty log holds host accesses back (15 R702) -/
  | wait
  deriving DecidableEq, Repr

/-- BAD_TARGET for a packet (13 Table 13-8). -/
def State.badTarget (s : State) (p : Packet) : State :=
  s.event evBadTarget 3 p.inst.toNat (p.src.toNat + p.tid.toNat * 2 ^ 16 + p.inst.toNat * 2 ^ 40) p.addr.toNat

/-- Whether the portal's own copy of the slot permits a host-aperture access (03 R183, R981). -/
def State.slotPermits (s : State) (p : Packet) (len : Nat) (write : Bool) : Bool :=
  match s.slotTarget p.inst.toNat p.addr.toNat len write with
  | .fault _ => false
  | .walk _ => false
  | _ => true

/-- The payload of a WRITE committed to memory or issued to the host; the outcome it is refused with, 0 for none
(02 R106, 03 R151, R162, R981, 16 R723; log 32 for 0x15). -/
def State.commitBytes (s : State) (p : Packet) : Nat × State :=
  let a := p.addr.toNat
  let n := p.data.length
  let i := p.inst.toNat
  if n = 0 then (0, s)
  else if bit a 47 then
    if !s.pcie.up then (0x16, s)
    else if !s.slotPermits p n true then (0x14, s)
    else (0, s.post i (s.busAddr i a) p.data (bulk p.ord n))
  else if !(s.inDram a n || inStaging a n) then (0x16, s)
  else if s.confDenied i p.enc a n then (0x12, s)
  else
    match s.writeMem (if p.enc then s.keyOf i else 0) a p.data with
    | (none, s1) => (0, s1)
    | (some _, s1) => (0x15, s1)

/-- What a refused access reports here: BAD_TARGET, or a confidential page's refusal (03 R151, R981, 16 R723). -/
def State.reportRefusal (s : State) (p : Packet) (o : Nat) : State :=
  if o = 0x14 || o = 0x16 then s.badTarget p
  else if o = 0x12 then s.confRefused p.inst.toNat p.src p.addr.toNat
  else s

/-- The payload of a WRITE with what its refusal reports. -/
def State.commitData (s : State) (p : Packet) : Nat × State :=
  let r := s.commitBytes p
  (r.1, r.2.reportRefusal p r.1)

/-- A void: one packet, no payload, no signal (02 R985). -/
def Packet.isVoid (p : Packet) : Bool := p.type == tyWrite && p.pktcnt == 1 && p.data.isEmpty && !p.sig && p.msg.isNone

/-- Slot `k`, if any, is freed. -/
def State.freedSlot (s : State) (k : Option Nat) : State := match k with | some n => s.setSlot n none | none => s

/-- A slot holds a signal that may enter the FIFO. -/
def State.slotWaits (s : State) : Bool := s.gal.slots.any (fun e => match e.2 with | some x => x.forFifo | none => false)

/-- A completion increment whose transfer has committed goes to its owner context, never to the FIFO (07 R991). -/
def State.putInc (s : State) (p : Packet) : State :=
  let k : Inc := { src := p.src, ctx := BitVec.ofNat 10 p.obj.toNat, gen := p.amount, ovf := p.iovf, rpl := p.irpl }
  { s with gal := { s.gal with incs := s.gal.incs ++ [k] } }

/-- A complete transfer's signal leaves for the FIFO, waits in a free slot for its room, or is refused; a completion increment goes to its owner
context (08 R416, R432, R438, R440, 07 R991). None where it needs a slot and none is free. -/
def State.putSig (s : State) (p : Packet) : Option (Nat × State) :=
  let kind := sigObjKind p.kind.toNat
  let v := s.objVerdict kind p.obj.toNat p.inst.toNat
  if p.isIncrement then some (0, s.putInc p)
  else if v = 0x10 then some (v, s.crossTenant kind p.obj.toNat p.inst.toNat p.src)
  else if v ≠ 0 then some (v, s)
  else if s.fifoHasRoom && !s.slotWaits then some (0, s.fifoPush 1 p.toSig)
  else match s.freeSlot with
    | some n => some (0, s.setSlot n (some (s.slotFor p true)))
    | none => none

/-- The signal of a complete transfer that slot `k`, if any, has held. -/
def State.releaseSig (s : State) (p : Packet) (k : Option Nat) : Option (Nat × State) := (s.freedSlot k).putSig p

/-- The packet a parked slot stands for, so far as a release reads it. -/
def Slot.asPacket (x : Slot) : Packet :=
  { Packet.zero with src := x.src, tid := x.tid, kind := x.sig.kind, obj := x.sig.obj, amount := x.sig.amount, inst := x.sig.inst,
                     iovf := x.iovf, irpl := x.irpl, pktcnt := x.pktcnt, type := tyWrite, tail := true, sig := true }

/-- A tail with a signal takes a slot, unless its transfer has one. -/
def State.parkTail (s : State) (p : Packet) : State :=
  if p.tail && p.sig && (s.slotOf p.src p.tid).isNone then
    (match s.freeSlot with
     | some k => s.setSlot k (some (s.slotFor p false))
     | none => s)
  else s

/-- The last packet of a transfer has committed: the parked signal is released, or goes with a refusal. -/
def State.endPart (s : State) (p : Packet) (refusal : Nat) : Fate × State :=
  match s.slotOf p.src p.tid with
  | none => (.done refusal, s)
  | some k =>
    if refusal ≠ 0 then (.done refusal, s.setSlot k none)
    else match Tbl.get none s.gal.slots k with
      | none => (.done 0, s)
      | some x => match s.releaseSig x.asPacket (some k) with
        | some r => (.done r.1, r.2)
        | none => (.done 0, s)

/-- A tracker after one more packet. -/
def Tracker.took (t : Tracker) (idx refusal : Nat) : Tracker :=
  { t with done := if t.done.contains idx then t.done else t.done ++ [idx], refusal := if t.refusal = 0 then refusal else t.refusal }

/-- One packet of a WRITE of several: through its tracker (08 R434 to R440). The first refusal of the transfer is the one reported. -/
def State.takePart (s : State) (p : Packet) : Fate × State :=
  let known := s.tracker p.src p.tid
  let t : Tracker := known.getD { src := p.src, tid := p.tid, inst := p.inst, pktcnt := p.pktcnt, done := [], ord := p.ord, refusal := 0 }
  if known.isNone && decide (2048 ≤ s.fab.trackers.length) then (.later, s)
  else if lowestOpen (t.done.length + 1) 0 t.done + 256 ≤ p.pktidx.toNat then (.resend, s.setTracker t)
  else if p.tail && p.sig && (s.slotOf p.src p.tid).isNone && s.freeSlot.isNone then (.wait, s)
  else
    let r := s.commitBytes p
    let t1 := t.took p.pktidx.toNat r.1
    let s0 := if t.refusal = 0 then r.2.reportRefusal p r.1 else r.2
    let s1 := (s0.setTracker t1).parkTail p
    if t1.done.length < t1.pktcnt.toNat then (.more, s1) else (s1.dropTracker p.src p.tid).endPart p t1.refusal

/-- No packet of a transfer is held any longer (02 R985). -/
def State.dropXferCopies (s : State) (src : ChipId) (tid : BitVec 24) : State :=
  { s with fab := { s.fab with ordHeld := s.fab.ordHeld.filter (fun q => !(q.src == src && q.tid == tid)),
                               held := s.fab.held.filter (fun h => !(h.packet.src == src && h.packet.tid == tid)) } }

/-- A WRITE of host forward that the dirty log would hold back stays where it is: it is committed once it is issued (09 R448, 15 R702). -/
def State.logHolds (s : State) (p : Packet) : Bool :=
  bit p.addr.toNat 47 && !p.data.isEmpty && s.pcie.up && s.slotPermits p p.data.length true
    && (s.post p.inst.toNat (s.busAddr p.inst.toNat p.addr.toNat) p.data (bulk p.ord p.data.length)).holds_ p.inst.toNat

/-- A WRITE at its destination (02 R985, R102 to R106, 03 R150). -/
def State.takeWrite (s : State) (p : Packet) : Fate × State :=
  if p.isVoid then
    let s1 := (s.dropTracker p.src p.tid).dropXferCopies p.src p.tid
    (.done 0, match s1.slotOf p.src p.tid with | some k => s1.setSlot k none | none => s1)
  else if s.logHolds p then (.wait, s)
  else if p.pktcnt.toNat = 1 then
    if p.sig && !p.isIncrement && !s.fifoHasRoom && s.freeSlot.isNone then (.wait, s)
    else
      let r := s.commitData p
      if !p.sig || r.1 ≠ 0 then (.done r.1, r.2)
      else
        match r.2.releaseSig p none with
        | some x => (.done x.1, x.2)
        | none => (.wait, s)
  else s.takePart p

/-- A READ_RSP packet of a READ_REQ: its data under the request's TID, index `k` of `n` (02 R99, R100, R110). -/
def State.sendRsp (s : State) (req : Packet) (k n : Nat) (addr : Nat) (bs : List Byte) : State :=
  let p := { Packet.zero with type := tyReadRsp, addr := BitVec.ofNat 48 addr, len := BitVec.ofNat 9 bs.length, data := bs,
                              pktidx := BitVec.ofNat 16 k, pktcnt := BitVec.ofNat 16 n, tail := k + 1 == n }
  s.inject { s.addressed req.src p with tid := req.tid, inst := req.inst, tinc := req.sinc, ord := req.ord }

/-- A READ_REQ that brings no data and that no rule answers with XFER_ACK is answered E2E_NAK ABANDONED; later ordered transfers do not wait for it
(02 R100; logs 32, 77, DEDUCED). -/
def State.abandonRead (s : State) (p : Packet) : State := (s.passTid p.src p.tid).sendNak p 4

/-- A READ_REQ at its destination: served from memory, carried to the host, or refused (02 R100, 03 R151, R160, R186, R981,
04 R212, 16 R723). A read that meets an uncorrectable word is abandoned (log 32, DEDUCED). A zero-length read of host forward is the flush read of FENCE_GLOBAL (09 Table 9-1). -/
def State.takeRead (s : State) (p : Packet) : Fate × State :=
  let a := p.addr.toNat
  let n := p.len.toNat
  let i := p.inst.toNat
  if bit a 47 then
    if !s.pcie.up then (.done 0x16, s.badTarget p)
    else if !s.slotPermits p n false && (n ≠ 0 || !s.slotPermits p 0 true) then (.done 0x14, s.badTarget p)
    else if !s.mayIssue i then (.quiet, s.abandonRead p)
    else if n = 0 && s.holds_ i then (.wait, s)
    else if n = 0 then (.quiet, s.hostRead i (s.busAddr i a) 0 false (.remoteFence p))
    else
      let bus := s.busAddr i a
      let cuts := cutBus (s.fc i).mrrsBytes n bus n
      (.quiet, (indexed 0 cuts).foldl (fun s c =>
        s.hostRead i c.2.1 c.2.2 (!p.ord) (.remote { p with pktidx := BitVec.ofNat 16 c.1, pktcnt := BitVec.ofNat 16 cuts.length,
                                                            addr := BitVec.ofNat 48 (a + (c.2.1 - bus)), len := BitVec.ofNat 9 c.2.2 })) s)
  else if !(s.inDram a n || inStaging a n) then (.done 0x16, s.badTarget p)
  else if n ≠ 0 && s.confDenied i p.enc a n then (.done 0x12, s.confRefused i p.src a)
  else
    match s.readMem (if p.enc then s.keyOf i else 0) a n with
    | (.inl bs, s1) => (.served, s1.sendRsp p 0 1 a bs)
    | (.inr _, s1) => (.quiet, s1.abandonRead p)

/-! ## Parts within the chip that are resetting (02 R140, 13 R592) -/

/-- The parts a packet reaches: the memory controller, the Hall banks of its bytes, the CFE (02 R140, 03 R149). -/
def Packet.parts (p : Packet) : List Part :=
  if p.type == tyLaunch then [.cfe]
  else if p.type == tyWrite || p.type == tyReadReq then
    partsAt p.addr.toNat (if p.type == tyWrite then p.data.length else p.len.toNat)
  else []

/-- The first part a packet reaches that is resetting. -/
def State.resettingPart (s : State) (p : Packet) : Option Part := p.parts.find? (fun x => s.parts.resetting.contains x)

/-! ## Delivery (02 R95, R96, R111, R136 to R140, 15 R688) -/

/-- TID `a` was numbered before TID `b`. -/
def tidBefore (a b : BitVec 24) : Bool := let d := (b - a).toNat; decide (1 ≤ d ∧ d < 2 ^ 23)

/-- An ordered transfer of the same source with an earlier TID is not committed: one of which something is held or owed here, or one not yet
seen, which may be ordered (02 R111; log 33). -/
def State.ordBlocked (s : State) (p : Packet) : Bool :=
  s.fab.trackers.any (fun t => t.ord && t.src == p.src && tidBefore t.tid p.tid)
    || s.fab.ordHeld.any (fun q => q.src == p.src && tidBefore q.tid p.tid)
    || s.fab.held.any (fun h => h.packet.ord && h.packet.src == p.src && tidBefore h.packet.tid p.tid)
    || s.fab.ordDue.any (fun e => e.1 == p.src && tidBefore e.2.1 p.tid)
    || (match s.window p.src with | some w => w.openBefore p.tid | none => false)

/-- An ordered packet refused with RETRY_LATER is still owed: later ordered transfers wait for it (02 R111). -/
def State.oweOrd (s : State) (p : Packet) : State :=
  if p.ord && !s.fab.ordDue.any (fun e => e.1 == p.src && e.2.1 == p.tid)
  then { s with fab := { s.fab with ordDue := s.fab.ordDue ++ [(p.src, p.tid, p.inst)] } } else s

/-- Copies of a packet that is here again: it takes their place. -/
def State.dropCopies (s : State) (p : Packet) : State :=
  let same := fun (q : Packet) => q.src == p.src && q.tid == p.tid && q.pktidx == p.pktidx
  { s with fab := { s.fab with ordHeld := s.fab.ordHeld.filter (fun q => !same q), held := s.fab.held.filter (fun h => !same h.packet) } }

/-- What a type's content does at its destination. -/
abbrev Taker := State → Packet → Fate × State

/-- The end of a packet's handling is answered and entered (02 R106, R136). -/
def State.settle (s : State) (p : Packet) : Fate → State
  | .done o => (s.commitTid p.src p.tid o).sendAck p o
  | .served => s.commitTid p.src p.tid 0
  | .more => s
  | .later => (s.oweOrd p).sendNak p 3
  | .resend => s.sendNak p 1
  | .quiet => s
  | .wait => s

/-- Ordered packets held behind transfers now committed go on, lowest TID first (02 R111). Fuel: the packets held. -/
def State.releaseOrd (take : Taker) : Nat → State → State
  | 0, s => s
  | n + 1, s =>
    match s.fab.ordHeld.find? (fun q =>
      let t := { s with fab := { s.fab with ordHeld := s.fab.ordHeld.erase q } }
      !t.ordBlocked q && (take t q).1 ≠ .wait) with
    | none => s
    | some q =>
      let t := { s with fab := { s.fab with ordHeld := s.fab.ordHeld.erase q } }
      let r := take t q
      State.releaseOrd take n (r.2.settle q r.1)

/-- A packet waits for a part that is resetting (02 R140). -/
def State.holdFor (s : State) (x : Part) (p : Packet) : State :=
  let h : HeldPacket := { part := x.key, packet := p }
  { s with fab := { s.fab with held := s.fab.held ++ [h] } }

/-- A packet past the checks of its header: held for a resetting part, held behind an earlier ordered transfer, or taken. -/
def State.passOn (take : Taker) (s0 : State) (p : Packet) : State :=
  let s := s0.dropCopies p
  match s.resettingPart p with
  | some x => s.holdFor x p
  | none =>
    if p.ord && s.ordBlocked p then { s with fab := { s.fab with ordHeld := s.fab.ordHeld ++ [p] } }
    else
      let r := take s p
      if r.1 = .wait then s else State.releaseOrd take (r.2.fab.ordHeld.length + 1) (r.2.settle p r.1)

/-- A packet of a former instance epoch ends its transfer, which commits nothing (15 R688). -/
def State.refuseEpoch (s : State) (p : Packet) : State :=
  match s.windowFor p with
  | (.here w, s1) => if w.has p.tid then s1 else s1.commitTid p.src p.tid 0x13
  | (_, s1) => s1

/-- A READ_REQ that arrives again is served afresh (02 R100), unless a part it reaches is resetting (R140). -/
def State.readAgain (take : Taker) (s : State) (p : Packet) : State :=
  match s.resettingPart p with
  | some x => (s.dropCopies p).holdFor x p
  | none =>
    let r := take s p
    match r.1 with
    | .done o => r.2.sendAck p o
    | _ => r.2

/-- The checks of a packet whose destination is this chip, in order, and its handling. -/
def State.deliver (take : Taker) (s : State) (p : Packet) : State :=
  if s.isLost p.src then s
  else if p.malformed then s.dropPacket p 2
  else if p.crc ≠ p.pcrc then s.bumpPcrc.sendNak p 1
  else if p.tinc ≠ s.dom.chipInc then s.sendNak p 2
  else if !p.isCtl && p.iepoch ≠ (s.inst p.inst.toNat).epoch then
    State.releaseOrd take (s.fab.ordHeld.length + 1) ((s.refuseEpoch p).sendAck p 0x13)
  else
    match s.windowFor p with
    | (.old, s1) => s1
    | (.full, s1) => s1.sendNak p 3
    | (.here w, s1) =>
      if w.has p.tid then (if p.type == tyReadReq then s1.readAgain take p else s1.sendAck p (w.outcome p.tid))
      else State.passOn take (if p.ord then s1 else s1.passTid p.src p.tid) p

/-- The packet is for this chip, over the fabric, and the fabric unit runs. -/
def State.mine (s : State) (p : Packet) : Bool := s.live && s.fab.enabled && !p.mc && p.dst == s.dom.chipId

/-! ## The source's side (02 R99 to R106, R132 to R135, R986; 13 R594) -/

/-- The transfer an answer belongs to. -/
def State.xferOf (s : State) (dst : ChipId) (tid : BitVec 24) : Option Xfer :=
  s.fab.xfers.find? (fun x => x.dst == dst && x.tid == tid)

/-- A transfer changed. -/
def State.updXfer (s : State) (x : Xfer) (f : Xfer → Xfer) : State :=
  { s with fab := { s.fab with xfers := s.fab.xfers.map (fun y => if y.dst == x.dst && y.tid == x.tid then f y else y) } }

/-- A transfer ended; a queued one takes its place (02 R101). -/
def State.endXfer (s : State) (x : Xfer) : State :=
  State.unqueue { s with fab := { s.fab with xfers := s.fab.xfers.filter (fun y => !(y.dst == x.dst && y.tid == x.tid)) } } x.dst

/-- The transfer an answer that passes its checks belongs to: right code, TINC and SINC as held (02 R95, R96, R139). -/
def State.answered (s : State) (p : Packet) : Option Xfer :=
  if s.mine p && !p.malformed && p.crc = p.pcrc && p.tinc = s.dom.chipInc && p.sinc = Tbl.get 0 s.dom.incs p.src.toNat
  then s.xferOf p.src p.tid else none

/-- An answer whose code is wrong is counted (02 R95, 22 FAB_PCRC_COUNT). -/
def State.countAnswer (s : State) (p : Packet) : State :=
  if s.mine p && !p.malformed && p.crc ≠ p.pcrc then s.bumpPcrc else s

/-- An answer restarts the counts of 02 R135. -/
def State.heard (s : State) (x : Xfer) : State :=
  s.updXfer x (fun y => { y with sends := 0, pktSends := y.pktSends.map (fun e => (e.1, 0)) })

/-- The failure of an operation's transfer is kept for a FENCE_GLOBAL that waits for it (09 R461). -/
def State.noteXferErr (s : State) (x : Xfer) (err : Err) : State :=
  match s.xferOp x with
  | some p => s.updCtx p.1 (fun k => { k with xferErrs := k.xferErrs ++ [(p.2, x.stamp, err)] })
  | none => s

/-- What a transfer that fails does: to its operation, its share's context, its barrier, its host write (02 R986, 08 R432, R993,
03 R190, 23 R954). -/
def State.xferFail (s0 : State) (x : Xfer) (err : Err) : State :=
  let s := s0.noteXferErr x err
  match x.purpose with
  | .op e d => s.failOp e (match (s.op e).bind (·.gran) with | some g => if g.1 = d then { err with done := g.2 } else err | none => err)
  | .opSignal e => s.failOp e err
  | .opRead e _ _ => s.failOp e err
  | .fence e => s.failOp e err
  | .collective e => s.failOp e err
  | .attached c i h _ => ((s.ctxFault c i (some h) 0 err).updCtx c (fun k => { k with sigsOut := k.sigsOut - 1 })).shareCheck c
  | .ctxRead c _ _ => s.updCtx c (fun k => { k with readErr := some (k.readErr.getD err) })
  | .launch c i =>
    let h := match x.pkts.head? with | some q => (q.data.drop 32).take 32 | none => []
    s.ctxFault c i (some h) 0 err
  | .forward b =>
    s.event evForwardFailed 3 (fld (s.objOwn 2 b).toNat 0 6) (s.objArg 2 b) (s.barParent b + err.status * 2 ^ 32)
  | .hostSignal fn =>
    if err.status = stCrossTenant then s.fnError fn esCrossTenant
    else if err.status = stOpConfig || err.status = stCheckerFail then s.fnError fn esSignalRefused else s
  | .hostData fn => State.sendPosted s.pcie.posted.length (s.fnError fn esDataFault)
  | .hostRead fn _ n => (s.fnError fn esDataFault).emit (.completion fn (List.replicate n 0xFF))
  | .increment (some (h, i, hdr, _)) =>
    let cap := s.capture h.inst.toNat i (some hdr) 1 err
    s.newXfer h.chip .ctl [launchPkt h.inst (reportPayload h.ctx.toNat h.gen.toNat i err.status h.rt cap)]
  | .increment none => s
  | .abort _ => s
  | .faultReport _ => s
  | .dropped _ => s
  | .void => s
  | .event => s
  | .image => s
  | .shadow _ => s
  | .ctl => s

/-- What a transfer that has ended well does. -/
def State.xferDone (s : State) (x : Xfer) : State :=
  match x.purpose with
  | .op e _ => (s.opAck e).opMore e
  | .opSignal e => s.opAck e
  | .collective e => s.opAck e
  | .fence e => s.opAck e
  | .attached c _ _ _ => (s.updCtx c (fun k => { k with sigsOut := k.sigsOut - 1 })).shareCheck c
  | .abort c =>
    match s.owner c with
    | some o => (s.updCtx c (fun k => { k with acksDue := k.acksDue.filter (· ≠ x.dst) })).guiltyFinish o.ring
    | none => s
  | .hostData _ => State.sendPosted s.pcie.posted.length s
  | _ => s

/-- The DVA a transfer's access starts at. -/
def Xfer.dva (x : Xfer) : Nat :=
  match x.purpose with
  | .op _ d => d
  | .opRead _ d _ => d
  | .ctxRead _ d _ => d
  | .attached _ _ _ d => d
  | .increment (some (_, _, _, d)) => d
  | _ => match x.pkts.head? with | some q => q.addr.toNat | none => 0

/-- The error an outcome of Table 8-8 gives the source: the object of the tail's signal, or the address of the refused data. -/
def Xfer.outcomeErr (x : Xfer) (o : Nat) : Err :=
  let tail := x.pkts.getLast?.getD Packet.zero
  let read := tail.type == tyReadReq
  let fetch := match x.purpose with | .ctxRead _ _ _ => true | _ => false
  if o = 0x11 then { status := stOpConfig }
  else if o = 0x12 || o = 0x14 || o = 0x16 then { status := stXltFault, addr := x.dva, access := if fetch then 4 else if read then 1 else 2 }
  else
    { status := outcomeStatus o, objChip := if tail.sig then x.dst.toNat else 0, objIdx := if tail.sig then tail.obj.toNat else 0,
      objKind := if tail.sig then sigObjKind tail.kind.toNat else 0, peer := if o = 0x10 then x.dst.toNat else 0 }

/-- XFER_ACK: the source ends the transfer and acts on its outcome (08 Table 8-8, 15 R688). -/
def State.applyAck (s : State) (x : Xfer) (o : Nat) : State :=
  let s1 := s.endXfer x
  if o = 0 || o = 0x13 then s1.xferDone x
  else if o = 0x10 || o = 0x11 || o = 0x12 || o = 0x14 || o = 0x15 || o = 0x16 then s1.xferFail x (x.outcomeErr o)
  else s1.xferDone x

/-- Outcome of an XFER_ACK, ADDR [7:0]. -/
def Packet.reason (p : Packet) : Nat := fld p.addr.toNat 0 8

/-- Packets of a transfer sent again, addressed by the incarnation now held (02 R132 to R134). -/
def State.resendPkts (s : State) (x : Xfer) (ps : List Packet) : State :=
  ps.foldl (fun s q => s.inject { q with tinc := Tbl.get 0 s.dom.incs x.dst.toNat }) s

/-- The whole transfer is sent again, which counts for it and for each of its packets (02 R132, R135). -/
def State.resendAll (s : State) (x : Xfer) : State :=
  (s.updXfer x (fun y => { y with sends := y.sends + 1, pktSends := y.pktSends.map (fun e => (e.1, e.2 + 1)), ports := [] })).resendPkts x x.pkts

/-- With this send the destination is declared unresponsive: the fourth of the transfer, or the eighth of a packet, since the last answer
(02 R135). -/
def Xfer.mute (x : Xfer) : Bool := x.sends == 4 || x.pktSends.any (fun e => e.2 == 8)

/-- A transfer given up with RETRY_LATER: its operation fails and a void takes its TID (13 R594, 02 R986). -/
def State.giveUp (s : State) (x : Xfer) : State :=
  let inc := (Tbl.get 0 s.dom.incs x.dst.toNat).toNat
  let err : Err := { status := stRetryLater, peer := x.dst.toNat, part := 6, incHeld := inc, incFound := inc }
  (s.voidXfers (fun y => y.dst == x.dst && y.tid == x.tid)).xferFail x err

/-! ## Producer indices (05 R250 to R252) -/

/-- The INDEX record of an accepted K (kind 0) or H (kind 1) (14 Table 14-3). -/
def indexRec (fn ring kind : Nat) (v : Word32) : JRec := jrec 0x04 fn ring (toLe 4 v.toNat ++ toLe 1 kind ++ zeros 3)

/-- Entries of a submission ring. -/
def Sq.n (q : Sq) : Nat := 2 ^ q.cfg.size.toNat

/-- A producer index for portal ring `n` (05 R250, R251). -/
def State.producer (s : State) (n : Nat) (v : Word32) : State :=
  let q := s.sq n
  let i := s.ringInst (.host n)
  let d := (v - q.k).toNat
  if q.cfg.size = 0 then s.fnError i esDbDisabled
  else if d = 0 then s
  else if 2 ^ 31 ≤ d then s.updSq n (fun q => { q with stale := satInc q.stale })
  else if q.n < (v - q.release).toNat then s.fnError i esDbOverrun
  else (s.updSq n (fun q => { q with k := v })).journal (indexRec i (s.ringLocal (.host n)) 0 v)

/-- Bytes of a READ_RSP packet reach what asked for them (02 R100). -/
def State.readData (s : State) (x : Xfer) (p : Packet) : State :=
  let base := match x.pkts.head? with | some q => q.addr.toNat | none => 0
  let off := p.addr.toNat - base
  match x.purpose with
  | .opRead e dva _ => s.opStage e (dva + off) p.data
  | .ctxRead c dva _ => s.ctxStage c (dva + off) p.data
  | .hostRead fn pos n => s.emit (.completion fn ((p.data.drop pos).take n))
  | .shadow n => s.producer n (BitVec.ofNat 32 (leAt p.data 0 4))
  | _ => s

/-- A READ_RSP packet arrives: each index once, the read ended with the last (02 R100, 08 R435). -/
def State.takeRsp (s : State) (x : Xfer) (p : Packet) : State :=
  let s0 := s.heard x
  if x.got.contains p.pktidx.toNat then s0
  else
    let got := x.got ++ [p.pktidx.toNat]
    let s1 := s0.readData x p
    if p.pktcnt.toNat ≤ got.length then (s1.endXfer x).xferDone x
    else s1.updXfer x (fun y => { y with got := got })

end Sys2Proof.Machine
end

