-- ==== Sys2Proof/Machine/Rings.lean ====
section
/-! DEFINITION. Doorbells, enabling, fetching and judging entries, admission, acknowledgement of guilt and hangs (05, 07 R400 to R404, 13 R582 to R587). -/

namespace Sys2Proof.Machine

/-! ## Rings of a function -/

/-- Portal ring of a function's submission ring; none at or above SQ_COUNT (05, 23 Table 23-4). -/
def State.sqRing (s : State) (fn ring : Nat) : Option Nat :=
  if ring < (s.inst fn).sqCount then some ((s.inst fn).sqFirst + ring) else none

/-- Portal ring of a function's completion ring. -/
def State.cqRing (s : State) (fn ring : Nat) : Option Nat :=
  if ring < (s.inst fn).cqCount then some ((s.inst fn).cqFirst + ring) else none

/-- Chip ring of a function's device-resident ring on this chip (23 R960). -/
def State.drRing (s : State) (fn ring : Nat) : Option Nat :=
  if ring < s.drCount fn then some (s.drFirst fn + ring) else none

/-- A window write for the rings on another portal role than the active front end: forwarded by the standby in a JOURNAL packet
with JEPOCH 0, discarded and reported by a data portal (01 R58, 14 R644, 23 Table 23-7). -/
def State.ringElsewhere (s : State) (fn off : Nat) (r : JRec) : State :=
  match s.dom.role with
  | .standby => s.newXfer s.dom.frontEnd .ctl [ctlPkt tyJournal (BitVec.ofNat 6 fn) (zeros 8 ++ r)]
  | .dataPortal => s.event evDataPortalDoorbell 0 fn fn off
  | _ => s

/-! ## Doorbells (05 R250, R251, R282, R283) -/

/-- A consumer index for portal completion ring `c` (05 R282, R283). -/
def State.consumer (s : State) (c : Nat) (v : Word32) : State :=
  let q := s.cq c
  let i := (s.cqInst c).getD 0
  if (v - q.h).toNat ≤ (q.wr - q.h).toNat then
    ((s.updCq c (fun q => { q with h := v })).journal (indexRec i (c - (s.inst i).cqFirst) 1 v)).flushCq c
  else s.fnError i esCqDbBad

/-- INST_SQ_DB. -/
def State.sqDb (s : State) (fn ring : Nat) (v : Word32) : State :=
  if !s.isFe then s.ringElsewhere fn (0x1000 + 4 * ring) (indexRec fn ring 0 v)
  else match s.sqRing fn ring with
    | none => s.fnError fn esBadAccess
    | some n => s.producer n v

/-- INST_CQ_DB. -/
def State.cqDb (s : State) (fn ring : Nat) (v : Word32) : State :=
  if !s.isFe then s.ringElsewhere fn (0x1400 + 4 * ring) (indexRec fn ring 1 v)
  else match s.cqRing fn ring with
    | none => s.fnError fn esBadAccess
    | some c => s.consumer c v

def execSqDoorbell (fn ring : Nat) (value : Word32) (s : State) : Host.Outcome State Fault Refusal :=
  .next (s.hostWrite fn true (fun s => s.sqDb fn ring value))

def execCqDoorbell (fn ring : Nat) (value : Word32) (s : State) : Host.Outcome State Fault Refusal :=
  .next (s.hostWrite fn true (fun s => s.cqDb fn ring value))

/-! ## Enabling (05 R244 to R249, R272, 07 R389, R390, 14 R638) -/

/-- The configuration fields of a ring as Table 23-4, Table 23-5 lay them out, for RING_CFG. Header byte 4 is set for a completion
ring (log 35). -/
def sqCfgBytes (c : SqCfg) : List Byte :=
  toLe 8 c.base.toNat ++ toLe 4 (c.cq.toNat + 256 * b2n c.realTime + 4096 * c.rtSlot.toNat + 65536 * c.reserve.toNat)
    ++ toLe 4 c.size.toNat ++ toLe 8 c.tagBase.toNat ++ toLe 8 c.shadowPi.toNat
    ++ toLe 8 (c.pollUs.toNat + 65536 * c.weight.toNat + 2 ^ 24 * c.burst.toNat + 2 ^ 32 * c.hangMs.toNat)

def cqCfgBytes (q : Cq) : List Byte :=
  toLe 8 q.base.toNat ++ toLe 4 q.size.toNat ++ toLe 4 (q.vecsel.toNat + 65536 * q.coalCount.toNat) ++ toLe 4 q.coalTime.toNat ++ zeros 20

/-- RING_CFG of a submission ring, of a completion ring. -/
def State.sqCfgRec (s : State) (n : Nat) : JRec := jrec 0x05 (s.ringInst (.host n)) (s.ringLocal (.host n)) (sqCfgBytes (s.sq n).cfg)
def State.cqCfgRec (s : State) (c : Nat) : JRec :=
  putAt (jrec 0x05 ((s.cqInst c).getD 0) (c - (s.inst ((s.cqInst c).getD 0)).cqFirst) (cqCfgBytes (s.cq c))) 4 [1]

/-- Enabled real-time rings of an instance. -/
def State.rtRings (s : State) (i : Nat) : Nat :=
  (s.sqs.filter (fun e => e.2.cfg.realTime && e.2.cfg.size != 0 && s.sqInst e.1 == some i)).length

/-- Ring enables are ignored while a confidential instance is under construction (16 R726). -/
def State.enableHeld (s : State) (i : Nat) : Bool := (s.inst i).conf && (s.inst i).held

/-- The members of the domain, this chip among them. -/
def State.memberList (s : State) : List ChipId :=
  if s.dom.members.contains s.dom.chipId then s.dom.members else s.dom.chipId :: s.dom.members

/-- The configuration set of a chip as the active front end knows it. -/
def State.cfgAt (s : State) (c : ChipId) : CfgSet := if c = s.dom.chipId then s.act else Tbl.get CfgSet.reset s.mgr.remote c.toNat

/-- Stands an instance holds on some chip of the domain. -/
def State.instStands (s : State) (i : Nat) : BitVec 8 := s.memberList.foldl (fun a c => a ||| Tbl.get 0 (s.cfgAt c).stands i) 0

/-- An enabled ring of the portal, other than `n`, with CLASS 1 and RT_SLOT `k` (R272). -/
def State.rtHeld (s : State) (n : Nat) (k : BitVec 4) : Bool :=
  s.sqs.any (fun e => e.1 != n && e.2.cfg.size != 0 && e.2.cfg.realTime && e.2.cfg.rtSlot == k)

/-- RESERVE of ring `n` may be `m`: zero, or on a real-time ring stands the instance holds on some chip, none of them reserved by another
enabled ring (R274, R275). -/
def State.reserveOk (s : State) (fn n : Nat) (rt : Bool) (m : BitVec 8) : Bool :=
  let taken := s.sqs.foldl (fun (a : BitVec 8) e => if e.1 != n && e.2.cfg.size != 0 && e.2.cfg.realTime then a ||| e.2.cfg.reserve else a) 0
  m == 0 || (rt && m &&& ~~~(s.instStands fn) == 0 && m &&& taken == 0)

/-- A reservation as this chip holds it (R274). -/
def State.setReserve (s : State) (i : BitVec 6) (slot : BitVec 4) (m : BitVec 8) : State :=
  { s with tiles := { s.tiles with reserved := Tbl.set (0, 0) s.tiles.reserved slot.toNat (if m = 0 then (0, 0) else (i, m)) } }

/-- What an enabled ring reserves holds on every chip: each member is told (R274; log 99). -/
def State.tellReserve (s : State) (i n : Nat) : State :=
  let c := (s.sq n).cfg
  if c.realTime && c.size != 0 then
    (s.setReserve (BitVec.ofNat 6 i) c.rtSlot c.reserve).ctls (s.memberList.filter (· ≠ s.dom.chipId)) (.reserve (BitVec.ofNat 6 i) c.rtSlot c.reserve)
  else s

/-- A SIZE written to a submission ring. A ring whose RT_SLOT an enabled ring has come to hold becomes a WRR ring, and stands that one has
come to reserve are not reserved twice (R272, R275; log 99). A function that is halted stays so on it (R287). -/
def State.enableSq (s : State) (fn n : Nat) (size : BitVec 5) : State :=
  let q := s.sq n
  if q.cfg.size ≠ 0 || s.enableHeld fn then s.fnError fn esSetup
  else if size = 0 then s
  else if size < 4 || 16 < size then s
  else
    let down := q.cfg.realTime && (decide ((s.inst fn).rtMax ≤ s.rtRings fn) || s.rtHeld n q.cfg.rtSlot)
    let cfg := if down then { q.cfg with realTime := false, rtSlot := 0, reserve := 0, size := size }
               else { q.cfg with size := size, reserve := if s.reserveOk fn n q.cfg.realTime q.cfg.reserve then q.cfg.reserve else 0 }
    let s1 := s.updSq n (fun q => { Sq.reset with cfg := cfg, e := cfg.tagBase.toNat, w := cfg.tagBase.toNat - 1, stale := q.stale,
                                                  redeliv := q.redeliv, faults := q.faults, halted := (s.fn fn).halt != 0, waitEpoch := s.openEpoch })
    let s2 := (s1.journal (s1.sqCfgRec n)).tellReserve fn n
    if down then s2.fnError fn esBadAccess else s2

/-- A SIZE written to a completion ring. -/
def State.enableCq (s : State) (fn c : Nat) (size : BitVec 5) : State :=
  let q := s.cq c
  if q.size ≠ 0 || s.enableHeld fn then s.fnError fn esSetup
  else if size = 0 then s
  else if size < 4 || 16 < size then s
  else
    let s1 := s.updCq c (fun q => { q with size := size, wr := 0, h := 0, hApp := 0, reserved := 0, fresh := 0 })
    s1.journal (s1.cqCfgRec c)

/-- Entries of every enabled device-resident ring of this chip (07 R390). -/
def State.drEntries (s : State) : Nat := (s.drs.filter (fun e => e.2.size != 0)).foldl (fun n e => n + 2 ^ e.2.size.toNat) 0

/-- An error of an instance's access, recorded in its function's error status on the active front end, which carried the access here
(23 R949, R971). -/
def State.instError (s : State) (fn b : Nat) : State :=
  if s.isFe then s.fnError fn b else s.ctl s.dom.frontEnd (.refused (BitVec.ofNat 6 fn) (BitVec.ofNat 4 b))

/-- A SIZE written to a device-resident ring of this chip. -/
def State.enableDr (s : State) (fn n : Nat) (size : BitVec 5) : State :=
  let d := s.dr n
  if d.size ≠ 0 || s.enableHeld fn then s.instError fn esSetup
  else if size = 0 then s
  else if size < 4 || 14 < size || 32768 < s.drEntries + 2 ^ size.toNat then s
  else s.updDr n (fun d => { Dr.reset with size := size, recBase := d.recBase, done := d.done, weight := d.weight, burst := d.burst, hangMs := d.hangMs })

/-- A write of SQ_SIZE, CQ_SIZE or of a device-resident ring's SIZE on this chip; ring registers of another role discard it
(23 Table 23-7). -/
def State.ringSize (s : State) (kind : RingKind) (fn ring : Nat) (size : BitVec 5) : State :=
  match kind with
  | .sq => if !s.isFe then s else match s.sqRing fn ring with | some n => s.enableSq fn n size | none => s.fnError fn esBadAccess
  | .cq => if !s.isFe then s else match s.cqRing fn ring with | some c => s.enableCq fn c size | none => s.fnError fn esBadAccess
  | .dr => if !s.isFe then s else match s.drRing fn ring with | some n => s.enableDr fn n size | none => s.fnError fn esBadAccess

def execRingEnable (kind : RingKind) (fn ring : Nat) (size : BitVec 5) (s : State) : Host.Outcome State Fault Refusal :=
  .next (s.hostWrite fn true (fun s => s.ringSize kind fn ring size))

/-! ## Polling and fetching (05 R252 to R257, 04 R212, R216, 14 R631, R642, R643) -/

/-- The instance's rings may fetch and admit here (15 R661, R690). -/
def State.instRuns (s : State) (i : Nat) : Bool := (s.inst i).state == .ready && !(s.inst i).stopped

/-- The ring may read from the host. -/
def State.ringReads (s : State) (n : Nat) : Bool :=
  match s.sqInst n with
  | none => false
  | some i => s.live && s.isFe && s.instRuns i && s.mayIssue i && (s.sq n).cfg.size != 0 && !s.pairPaused

/-- The CFE reads the 4 bytes at SHADOW_PI; what it reads is a doorbell, now or when the bytes arrive. A read that fails brings none (05 R252;
log 36). -/
def State.pollRing (s : State) (n : Nat) : State :=
  let i := s.ringInst (.host n)
  let dva := (s.sq n).cfg.shadowPi.toNat
  match s.gatherPiece i [] 4 dva dva 4 with
  | (.bytes bs, s1) => s1.producer n (BitVec.ofNat 32 (leAt bs 0 4))
  | (.need asks, s1) => asks.foldl (fun s a => s.ask i true false a (fun _ _ => .shadow n) (fun _ _ => .shadow n)) s1
  | (_, s1) => s1

/-- SHADOW_PI_POLL: POLL_US passes. -/
def execShadowPiPoll (ring : Nat) (s : State) : Host.Outcome State Fault Refusal :=
  .next (if s.ringReads ring && (s.sq ring).cfg.pollUs ≠ 0 then s.pollRing ring else s)

/-- A fetch of a ring fails: the ring becomes guilty with XLT_FAULT and the DVA of the fetch, its tag the one expected
(04 R216; log 37). -/
def State.fetchFail (s : State) (n dva : Nat) : State :=
  let r := RingRef.host n
  if (s.sq n).guilty.isSome then s.countFault r
  else s.makeGuilty r (s.sq n).e stXltFault 0 (s.capture (s.ringInst r) 0 none 0 { status := stXltFault, addr := dva, access := 4 })

/-- One read of accepted entries, in index order, through slot 0 (05 R241, R254, R255; log 95). -/
def State.fetchRing (s : State) (n : Nat) : State :=
  let q := s.sq n
  let i := s.ringInst (.host n)
  let ahead := q.asked + q.arrived.length
  let idx := q.fetch + BitVec.ofNat 32 ahead
  let slot := idx.toNat % q.n
  let cnt := min (min (min 8 (max 1 ((s.fc i).mrrsBytes / 64))) (min (q.k - idx).toNat (256 - (q.cache.length + ahead))))
    (min (q.n - slot) ((4096 - 64 * slot % 4096) / 64))
  let dva := q.cfg.base.toNat + 64 * slot
  if !s.ringReads n || q.halted || (s.cq (s.ringCq n)).size = 0 || !s.epochApplied q.waitEpoch || cnt = 0 then s
  else
    if s.ringOk i dva (64 * cnt) false then
      (s.updSq n (fun q => { q with asked := q.asked + cnt })).hostRead i (s.busAddr i dva) (64 * cnt) false (.ring n idx cnt)
    else s.fetchFail n dva

def execRingFetch (ring : Nat) (s : State) : Host.Outcome State Fault Refusal := .next (s.fetchRing ring)

/-- Entries of a fetch arrive; those of a read behind one that failed are dropped, to be fetched again. -/
def State.ringArrive (s : State) (n : Nat) (idx : BitVec 32) (cnt : Nat) (bs : List Byte) : State :=
  let q := s.sq n
  let next := q.fetch + BitVec.ofNat 32 q.arrived.length
  let new := if idx = next then (List.range cnt).map (fun k => (idx + BitVec.ofNat 32 k, (bs.drop (64 * k)).take 64)) else []
  s.updSq n (fun q => { q with asked := q.asked - cnt, arrived := q.arrived ++ new })

/-- Slots judged are released as their journal epochs are applied, in order (05 R256). Fuel: the slots held. -/
def State.releaseSlots (s : State) (n : Nat) : Nat → State
  | 0 => s
  | k + 1 =>
    match (s.sq n).unreleased with
    | e :: t =>
      if s.epochApplied (if e = 0 then none else some e) then
        State.releaseSlots (s.updSq n (fun q => { q with unreleased := t, release := q.release + 1 })) n k
      else s
    | [] => s

/-- A judged slot: its fetch index passes, and it waits for release. -/
def State.slotDone (s : State) (n : Nat) (e : Option Nat) : State :=
  let s1 := s.updSq n (fun q => { q with fetch := q.fetch + 1, unreleased := q.unreleased ++ [e.getD 0] })
  State.releaseSlots s1 n ((s1.sq n).unreleased.length)

/-- A malformed entry halts every submission ring of its function (05 R286, 13 Table 13-8, 23 R951). The slot is not consumed
(log 38). -/
def State.haltFn (s : State) (n : Nat) (idx : BitVec 32) (e : List Byte) (reason : Nat) : State :=
  let i := s.ringInst (.host n)
  let slot := idx.toNat % (s.sq n).n
  let loc := s.ringLocal (.host n)
  let reg : Word64 := BitVec.ofNat 64 (loc + 256 * reason + 65536 * slot + 2 ^ 63)
  let s1 := { s with sqs := Tbl.mapAll Sq.reset s.sqs (fun k q =>
    if s.sqInst k == some i then { q with halted := true, arrived := [] } else q) }
  let s2 := s1.updFn i (fun f => { f with halt := if f.halt = 0 then reg else f.halt })
  let s3 := (s2.journal (jrec 0x08 i loc (toLe 6 (eSeq e) ++ toLe 1 reason ++ zeros 1))).fnError i esHalted
  let s4 := s3.event evHalted 3 i (loc + 256 * reason + 65536 * slot) (eSeq e)
  s4.addRecord (s4.ringCq n) { bytes := recBytes (eSeq e) loc 3 0 false false false 0 reason, began := none, irq := false, reserved := false, kept := true }

/-- One arrived entry judged (05 Table 5-3, R285, R286, 13 R576 step 6). -/
def State.judgeEntry (s : State) (n : Nat) (idx : BitVec 32) (e : List Byte) : State :=
  let q := s.sq n
  match entryMalformed q.e e with
  | some r => s.haltFn n idx e r
  | none =>
    if eSeq e < q.e then (s.updSq n (fun q => { q with redeliv := satInc q.redeliv })).slotDone n (if q.unreleased.isEmpty then none else s.openEpoch)
    else
      let ep := s.openEpoch
      let s1 := ((s.updSq n (fun q => { q with cache := q.cache ++ [e], slots := q.slots ++ [(eSeq e, idx)], e := q.e + 1 })).hallWritten
        (cacheWords n (eSeq e))).journal (jrec 0x01 (s.ringInst (.host n)) (s.ringLocal (.host n)) e)
      let s2 := s1.slotDone n ep
      match (s2.sq n).guilty with
      | some g => if g.done then s2.skipEntries (.host n) else s2
      | none => s2

/-- The ring index an accepted entry was fetched from; of one a takeover or RESTORE placed, as many before the fetch index as tags before E. -/
def State.entrySlot (s : State) (n tag : Nat) : BitVec 32 :=
  let q := s.sq n
  match q.slots.find? (fun x => x.1 == tag) with
  | some x => x.2
  | none => q.fetch - BitVec.ofNat 32 (q.e - tag)

/-- An accepted entry that is no longer cached. -/
def State.dropCached (s : State) (n tag : Nat) : State :=
  s.updSq n (fun q => { q with cache := q.cache.filter (fun e => eSeq e ≠ tag), slots := q.slots.filter (fun x => x.1 ≠ tag), again := q.again.filter (· ≠ tag) })

/-- The cached copy of an accepted entry is uncorrectable: it is fetched again from host memory (13 Table 13-6, code 2). -/
def State.refetch (s : State) (n tag : Nat) : State :=
  let q := s.sq n
  let i := s.ringInst (.host n)
  let dva := q.cfg.base.toNat + 64 * ((s.entrySlot n tag).toNat % q.n)
  if !s.ringReads n || q.again.contains tag then s
  else if s.ringOk i dva 64 false then
    (s.updSq n (fun q => { q with again := q.again ++ [tag] })).hostRead i (s.busAddr i dva) 64 false (.again n tag)
  else (s.dropCached n tag).fetchFail n dva

/-- The entry fetched again is judged by its tag: it takes its place; one below it is re-delivered, one above malformed (05 R266; log 107). -/
def State.refetched (s : State) (n tag : Nat) (bs : List Byte) : State :=
  if !(s.sq n).again.contains tag then s
  else
    match entryMalformed tag bs with
    | some r => (s.dropCached n tag).haltFn n (s.entrySlot n tag) bs r
    | none =>
      if eSeq bs < tag then (s.dropCached n tag).updSq n (fun q => { q with redeliv := satInc q.redeliv })
      else (s.updSq n (fun q => { q with cache := q.cache.map (fun e => if eSeq e = tag then bs else e), again := q.again.filter (· ≠ tag) })).hallWritten
        (cacheWords n tag)

/-- Every arrived entry of the ring, oldest first; a halt leaves the rest (fuel: the entries). -/
def State.judgeAll (n : Nat) : Nat → State → State
  | 0, s => s
  | k + 1, s =>
    match (s.sq n).arrived with
    | (idx, e) :: t => State.judgeAll n k ((s.updSq n (fun q => { q with arrived := t })).judgeEntry n idx e)
    | [] => s

def execEntryJudge (ring : Nat) (s : State) : Host.Outcome State Fault Refusal :=
  .next (if s.live && s.isFe && !(s.sq ring).halted then State.judgeAll ring ((s.sq ring).arrived.length) s else s)

/-! ## Admission (05 R259, R270 to R278, R282, 07 R350 to R355, R396) -/

/-- Owner contexts in use. -/
def State.ownerCount (s : State) : Nat := (s.ctxs.filter (fun e => match e.2.use with | .owner _ => true | _ => false)).length

/-- The lowest free stream context. -/
def State.freeContext (s : State) : Option Nat :=
  (List.range 1024).find? (fun c => match (s.ctx c).use with | .free => true | _ => false)

/-- Unconsumed records and reservations of a completion ring leave a slot to reserve (05 R282). -/
def State.cqRoom (s : State) (c : Nat) : Bool := decide (((s.cq c).wr - (s.cq c).h).toNat + (s.cq c).reserved + 1 < (s.cq c).n)

/-- A submission ring is eligible but for a completion slot to reserve (05 R270). -/
def State.sqReady (s : State) (n : Nat) : Bool :=
  let q := s.sq n
  match s.sqInst n, q.cache.head? with
  | some i, some e =>
    s.instRuns i && q.cfg.size != 0 && (!eSerial e || q.w + 1 == eSeq e) && decide (s.ownerCount < 512) && s.freeContext.isSome
      && q.guilty.isNone && !q.halted && !q.again.contains (eSeq e)
  | _, _ => false

/-- A submission ring is eligible (05 R270). -/
def State.sqEligible (s : State) (n : Nat) : Bool := s.sqReady n && s.cqRoom (s.ringCq n)

/-- A device-resident ring is eligible (07 R396). -/
def State.drEligible (s : State) (n : Nat) : Bool :=
  let d := s.dr n
  match s.drInst n, d.entries.head? with
  | some i, some e =>
    (if s.isFe then s.instRuns i else (s.inst i).state == .absent || (s.inst i).state == .ready) && !(s.inst i).stopped && d.size != 0 && (!eSerial e || d.w + 1 == eSeq e) && decide (s.ownerCount < 512)
      && s.freeContext.isSome && d.guilty.isNone
  | _, _ => false

def State.eligible (s : State) : RingRef → Bool
  | .host n => s.isFe && s.sqEligible n
  | .dr n => s.drEligible n

def stOkEmpty : Nat := 0x0001

/-- The first entry of a ring and the ring without it. -/
def State.takeEntry (s : State) : RingRef → Option (List Byte × State)
  | .host n => match (s.sq n).cache with
    | e :: t => some (e, s.updSq n (fun q => { q with cache := t, slots := q.slots.filter (fun x => x.1 ≠ eSeq e) }))
    | [] => none
  | .dr n => match (s.dr n).entries with
    | e :: t => some (e, s.updDr n (fun d => { d with entries := t, release := d.release + 1 }))
    | [] => none

/-- A slot for the entry's record is reserved, and the ring has a buffer not yet recorded (R282). -/
def State.reserveSlot (s : State) (r : RingRef) : State :=
  match r with
  | .host n => (s.updSq n (fun q => { q with admitted := q.admitted + 1 })).updCq (s.ringCq n) (fun q => { q with reserved := q.reserved + 1 })
  | .dr n => s.updDr n (fun d => { d with admitted := d.admitted + 1 })

/-- An entry starts: a completion slot is reserved and a context taken; an empty DIRECT entry gets its record at once. -/
def State.admitEntry (s : State) (r : RingRef) (e : List Byte) : State :=
  if eDirect e && eLen8 e = 0 then
    (s.reserveSlot r).bufferRecord r (eSeq e) stOkEmpty false false false (eUser e) 0 (some s.now) (eIrq e) true
  else
    match s.freeContext with
    | none => s
    | some c =>
      let rt : Option (BitVec 4) := match r with
        | .host n => if (s.sq n).cfg.realTime then some (s.sq n).cfg.rtSlot else none
        | .dr _ => none
      let o : Owner :=
        { inst := BitVec.ofNat 6 (s.ringInst r), ring := r, tag := eSeq e, user := eUser e, rt := rt, entry := e, replaySafe := false,
          redelivered := false, expected := none, tally := 0, fault := none, ovf := false, replayed := false, admitTime := s.now,
          order := s.orders, phase := .checking, nextOp := 0, nextOff := 0, waitEpoch := none, members := s.memberList,
          lostAt := s.dom.lost, csCount := 0, dataOff := 0, waits := [] }
      ((({ s with orders := s.orders + 1 }).updCtx c (fun x => { Ctx.reset with gen := x.gen + 1, use := .owner o })).pruneColls c |>.reserveSlot r).progress r

/-- The CFE reads the ring's first entry in the Hall: the LPA of a word that is uncorrectable (13 Table 13-6, codes 2 and 9). -/
def State.readHead (s : State) (r : RingRef) : Option Nat × State :=
  match r with
  | .host n => match (s.sq n).cache.head? with | some e => s.readCheck (cacheWords n (eSeq e)) | none => (none, s)
  | .dr n => match (s.dr n).entries.head? with | some e => s.readCheck (pushWords n (eSeq e)) | none => (none, s)

/-- The ring's first entry cannot be read: a fetched one is fetched again; a pushed one is consumed and fails with CHECKER_FAIL (13 R1004). -/
def State.headBad (s : State) (r : RingRef) (lpa : Nat) : State :=
  match r with
  | .host n => match (s.sq n).cache.head? with | some e => s.refetch n (eSeq e) | none => s
  | .dr _ =>
    match s.takeEntry r with
    | some (e, s1) => s1.makeGuilty r (eSeq e) stCheckerFail 0 (s1.capture (s1.ringInst r) 0 none 0 { status := stCheckerFail, addr := lpa, access := 4 })
    | none => s

/-- One entry of a ring admitted; a device-resident ring's entry is judged here (07 R392). -/
def State.admitOne (s0 : State) (r : RingRef) : State :=
  match s0.readHead r with
  | (some lpa, s) => s.headBad r lpa
  | (none, s) =>
  match s.takeEntry r with
  | none => s
  | some (e, s1) =>
    if isDr r && (entryBad e).isSome then
      s1.makeGuilty r (eSeq e) stOpConfig 0 (s1.capture (s1.ringInst r) 0 none 0 { status := stOpConfig })
    else s1.admitEntry r e

/-- Up to `k` entries of a ring while it stays eligible: the state and how many were admitted. -/
def State.admitBurst (s : State) (r : RingRef) : Nat → State × Nat
  | 0 => (s, 0)
  | k + 1 =>
    if s.eligible r then
      let q := State.admitBurst (s.admitOne r) r k
      (q.1, q.2 + 1)
    else (s, 0)

/-- BURST and WEIGHT as counts: 0 stands for 64 and 256. -/
def burstOf (b : BitVec 6) : Nat := if b = 0 then 64 else b.toNat
def weightOf (w : BitVec 8) : Nat := if w = 0 then 256 else w.toNat

/-- The WRR rings in the order of a pass, with their place: host rings, then device-resident rings (07 R396). -/
def State.wrrRings (s : State) : List (Nat × RingRef) :=
  (s.sqs.filter (fun e => !e.2.cfg.realTime && e.2.cfg.size != 0)).map (fun e => (e.1, RingRef.host e.1))
    ++ (s.drs.filter (fun e => e.2.size != 0)).map (fun e => (256 + e.1, RingRef.dr e.1))

def State.credit (s : State) : RingRef → Nat
  | .host n => (s.sq n).credit
  | .dr n => (s.dr n).credit
def State.roundBurst (s : State) : RingRef → Nat
  | .host n => (s.sq n).roundBurst
  | .dr n => (s.dr n).roundBurst
def State.spend (s : State) (r : RingRef) (k : Nat) : State :=
  match r with
  | .host n => s.updSq n (fun q => { q with credit := q.credit - k })
  | .dr n => s.updDr n (fun d => { d with credit := d.credit - k })

/-- A new round: credits and bursts are set, and the pass starts over (05 R277, R278). -/
def State.newRound (s : State) : State :=
  { s with pass := 0,
           sqs := Tbl.mapAll Sq.reset s.sqs (fun _ q => if q.cfg.size = 0 then q else { q with credit := weightOf q.cfg.weight, roundBurst := burstOf q.cfg.burst }),
           drs := Tbl.mapAll Dr.reset s.drs (fun _ d => if d.size = 0 then d else { d with credit := weightOf d.weight, roundBurst := burstOf d.burst }) }

/-- The ring the pass visits next: eligible and with credit, from the pass's place on, then from the start. -/
def State.nextVisit (s : State) : Option (Nat × RingRef) :=
  let ok := s.wrrRings.filter (fun x => s.eligible x.2 && s.credit x.2 != 0)
  match ok.find? (fun x => decide (s.pass ≤ x.1)) with
  | some x => some x
  | none => ok.head?

/-- The real-time ring chosen first (05 R273). -/
def State.rtChoice (s : State) : Option Nat :=
  let ok := s.sqs.filter (fun e => e.2.cfg.realTime && s.eligible (.host e.1))
  (ok.foldl (fun (a : Option (Nat × Nat)) e =>
    match a with
    | none => some (e.1, e.2.cfg.rtSlot.toNat)
    | some b => if e.2.cfg.rtSlot.toNat < b.2 then some (e.1, e.2.cfg.rtSlot.toNat) else a) none).map (·.1)

/-- One admission decision. -/
def State.admitStep (s : State) : State :=
  if !s.live || s.pairPaused then s
  else
    match s.rtChoice with
    | some n => (s.admitBurst (.host n) (burstOf (s.sq n).cfg.burst)).1
    | none =>
      if !s.wrrRings.any (fun x => s.eligible x.2) then s
      else
        let s1 := if s.nextVisit.isSome then s else s.newRound
        match s1.nextVisit with
        | none => s1
        | some (p, r) =>
          let q := s1.admitBurst r (min (s1.roundBurst r) (s1.credit r))
          { q.1.spend r q.2 with pass := p + 1 }

def execAdmission (s : State) : Host.Outcome State Fault Refusal := .next s.admitStep

/-! ## The end of guilt (13 R582 to R584), hangs, coalescing -/

/-- A guilty ring is acknowledged: its capture slot is freed and it runs again (13 R583, R584). -/
def State.ackRing (s : State) (fn : Nat) (r : RingRef) (slot : Nat) : State :=
  match s.guilt r with
  | some g =>
    if g.written && g.slot.getD 0xFFFFFFFF = slot then
      let s1 := match g.slot with | some k => s.updFn fn (fun f => { f with caps := Tbl.set none f.caps k none }) | none => s
      let s2 := if isDr r && !s.isFe then s1.ctl s.dom.frontEnd (.guilt (BitVec.ofNat 6 fn) (BitVec.ofNat 6 (s.ringLocal r)) false) else s1
      (s2.setGuilt r none).journal (jrec 0x07 fn (s.ringLocal r) (toLe 4 slot ++ zeros 4))
    else s.instError fn esAckBad
  | none => s.instError fn esAckBad

/-- An 8-byte INST_GUILTY_ACK on the active front end; a device-resident ring of another chip is acknowledged there (13 R582). -/
def State.guiltyWrite (s : State) (fn : Nat) (v : Word64) : State :=
  let ring := fld v.toNat 0 8
  let slot := fld v.toNat 32 32
  let chip : ChipId := BitVec.ofNat 16 (fld v.toNat 16 16)
  if v.getLsbD 8 then
    if chip = s.dom.chipId then
      match s.drRing fn ring with
      | some n => s.ackRing fn (.dr n) slot
      | none => s.instError fn esAckBad
    else if s.dom.members.contains chip then s.ctl chip (.ring (BitVec.ofNat 6 fn) (BitVec.ofNat 32 (chip.toNat + 2 ^ 16 * ring)) 0x0060 true (some v))
    else s.fnError fn esAckBad
  else
    match s.sqRing fn ring with
    | some n => s.ackRing fn (.host n) slot
    | none => s.fnError fn esAckBad

/-- INST_GUILTY_ACK by role. -/
def State.guiltyAck (s : State) (fn : Nat) (value : Word64) : State :=
  if s.isFe then s.guiltyWrite fn value
  else s.ringElsewhere fn 0x0060 (jrec 0x07 fn (fld value.toNat 0 8) (toLe 4 (fld value.toNat 32 32) ++ toLe 4 (fld value.toNat 8 24)))

def execGuiltyAck (fn : Nat) (value : Word64) (s : State) : Host.Outcome State Fault Refusal :=
  .next (s.hostWrite fn true (fun s => s.guiltyAck fn value))

/-- A write forwarded by the standby takes effect (14 R644): an index, or an acknowledgement of guilt (log 39). -/
def State.forwarded (s : State) (data : List Byte) : State :=
  let r := data.drop 8
  let fn := fld (leAt r 2 1) 0 6
  let ring := leAt r 3 1
  let v : Word32 := BitVec.ofNat 32 (leAt r 8 4)
  if leAt r 0 1 = 4 then
    (if bit (leAt r 12 1) 0 then s.cqDb fn ring v else s.sqDb fn ring v)
  else if leAt r 0 1 = 7 then s.guiltyWrite fn (BitVec.ofNat 64 (ring + 256 * leAt r 12 3 + 2 ^ 32 * v.toNat))
  else s

/-- Only completion space keeps the ring from being eligible (05 R288). -/
def State.cqBlocked (s : State) : RingRef → Bool
  | .host n => s.sqReady n && !s.cqRoom (s.ringCq n)
  | .dr _ => false

/-- The hang timer of a ring runs: it has an admitted buffer not completed, and no operation waits, here or on a member, only for stands, slots or table
entries, nor its next entry for completion space alone (07 R403, 05 R288). -/
def State.hangRuns (s : State) (r : RingRef) : Bool :=
  let cs := (s.ownersOf r).map (·.1)
  !cs.isEmpty && !s.cqBlocked r && cs.all (fun c => !s.ctxWaits c) && (s.ownersOf r).all (fun x => x.2.waits.isEmpty)

/-- The hang timer reaches its interval: the ring is guilty with HUNG; its faulting buffer is the oldest (07 R404, 13 R580). -/
def State.hang (s : State) (r : RingRef) : State :=
  if !s.live || !s.hangRuns r || (s.guilt r).isSome then s
  else
    match (s.ownersOf r).foldl (fun (a : Option (Nat × Owner)) x =>
        match a with | none => some x | some b => if x.2.order < b.2.order then some x else a) none with
    | none => s
    | some (c, o) =>
      let op := (s.opsOf c).foldl (fun (a : Option (Nat × OpEntry)) x =>
        match a with | none => some x | some b => if x.2.idx < b.2.idx then some x else a) none
      let idx := match op with | some x => x.2.idx | none => 0
      let st := match op with | some x => if x.2.stage = .held then 2 else 1 | none => 0
      let cap := s.capture o.inst.toNat idx (op.map (·.2.hdr)) st { status := stHung }
      s.applyFault c idx stHung 2 cap

def execHangTimeout (ring : RingRef) (s : State) : Host.Outcome State Fault Refusal := .next (s.hang ring)

/-- COAL_TIME passes since the first unannounced record (04 R224). -/
def execCoalTimerExpiry (ring : Nat) (s : State) : Host.Outcome State Fault Refusal :=
  .next (if (s.cq ring).size ≠ 0 && (s.cq ring).coalTime ≠ 0 && (s.cq ring).fresh ≠ 0 && !(s.paired && !s.pair.lease) then s.cqFire ring else s)

end Sys2Proof.Machine
end

