-- ==== Sys2Proof/Machine/Buffers.lean ====
section
/-! DEFINITION. A buffer from its check pass to its record: reading, dispatch, launches, the dependency table, grants, completion, tile faults (06, 07, 12 R509, R510, 14 R606 to R616). -/

namespace Sys2Proof.Machine

/-! ## Reading a buffer (05 R263 to R265, 06 R296, R299) -/

/-- A read of the CFE for context `c`: remote bytes not yet here are asked for once; a failure is answered as such. -/
def State.ctxGather (s : State) (c : Nat) (pieces : List (Nat × Nat)) : Option (List Byte ⊕ Err) × State :=
  let i := s.ctxInst c
  match (s.ctx c).readErr with
  | some x => (some (.inr x), s)
  | none =>
    let r := pieces.foldl (fun (a : Got × State) p =>
      let q := a.2.gather i (s.ctx c).staged 4 p.1 p.2
      (a.1.join q.1, q.2)) (.bytes [], s)
    match r.1 with
    | .bytes bs => (some (.inl bs), r.2)
    | .bad x => (some (.inr x), r.2)
    | .held _ => (none, r.2)
    | .need asks =>
      let new := asks.filter (fun a => !(s.ctx c).asked.contains (a.1, a.2.1))
      let s1 := new.foldl (fun s a => s.ask i false false a (fun d n => .ctxRead c d n) (fun d n => .buffer c d n)) r.2
      (none, s1.updCtx c (fun x => { x with asked := x.asked ++ new.map (fun a => (a.1, a.2.1)) }))

/-- What was staged for a context is dropped, so that a later read reads afresh. -/
def State.ctxFresh (s : State) (c : Nat) : State := s.updCtx c (fun x => { x with staged := [], asked := [] })

/-- The roll a buffer is judged by: members and lost chips as they were at its admission (06 R296, R297, R997). -/
def State.roll (s : State) (o : Owner) : Roll := { self := s.dom.chipId, members := o.members, lost := o.lostAt }

/-- A buffer that breaks a rule of the check pass or of the dispatch read fails (06 R297, R995). -/
def State.bufferBroken (s : State) (c : Nat) (h : Option (List Byte)) (b : Broken) : State :=
  let x : Err := { status := b.status, peer := b.peer }
  s.applyFault c b.idx b.status 0 (s.capture (s.ctxInst c) b.idx (if b.idx = 0 then none else some (h.getD [])) 0 x)

/-- The buffer has passed: its chip sets and count are kept, ADMIT is journaled, dispatch may begin (14 R638, R643; log 40). -/
def State.bufferPassed (s : State) (c : Nat) (o : Owner) (b : List Byte) (k : Checked) : State :=
  let first := 64 + 8 * bufSets b
  let hold := if k.safe then none else s.openEpoch
  let s1 := (s.ctxFresh c).updCtx c (fun x => { x with sets := k.sets, heads := k.heads })
  let s2 := s1.updOwner c (fun w => { w with expected := some k.expected, replaySafe := k.safe, phase := .dispatching, nextOp := 1,
                                             nextOff := first, waitEpoch := hold, csCount := k.csCount, dataOff := k.dataOff })
  match o.ring with
  | .host n => s2.journal (jrec 0x02 o.inst.toNat (s.ringLocal (.host n)) (toLe 6 o.tag ++ toLe 1 (b2n k.safe) ++ zeros 1))
  | .dr _ => s2

/-- The fragments of a context's buffer, read and judged; none while bytes are awaited or after a failure (05 R261 to R265). -/
def State.bufferFrags (s : State) (c : Nat) (o : Owner) : Option (List (Nat × Nat)) × State :=
  if eDirect o.entry then (some [(eAddr o.entry, 8 * eLen8 o.entry)], s)
  else if !(s.ctx c).frags.isEmpty then (some (s.ctx c).frags, s)
  else
    match s.ctxGather c [(eAddr o.entry, 16 * eFrags o.entry)] with
    | (none, s1) => (none, s1)
    | (some (.inr x), s1) => (none, s1.ctxFault c 0 none 0 x)
    | (some (.inl b), s1) =>
      let fs := fragsOf b (eFrags o.entry)
      if eCrcV o.entry && (crc32c b).toNat ≠ eFtCrc o.entry then (none, s1.bufferBroken c none { idx := 0, status := stCrcMismatch, peer := 0 })
      else if !((List.range (eFrags o.entry)).all (fun k => fragOk ((b.drop (16 * k)).take 16))) || decide (0x1000000 < fragTotal fs)
      then (none, s1.bufferBroken c none (cfgBroken 0))
      else (some fs, s1.updCtx c (fun x => { x with frags := fs }))

/-- `n` bytes of the buffer from `a`; a failure is the buffer's fault. -/
def State.fragRead (s : State) (c : Nat) (fs : List (Nat × Nat)) (a n : Nat) : Option (List Byte) × State :=
  match s.ctxGather c (fragPieces fs a n) with
  | (none, s1) => (none, s1)
  | (some (.inr x), s1) => (none, s1.ctxFault c 0 none 0 x)
  | (some (.inl b), s1) => (some b, s1)

/-- Where the operations from `off` on end, so far as their headers frame them: the end of END, or of the header that breaks the framing, within the
buffer; none while bytes are awaited or after a failure. Fuel: the operations left. -/
def State.opsEnd (s : State) (c : Nat) (fs : List (Nat × Nat)) : Nat → Nat → Option Nat × State
  | 0, off => (some off, s)
  | k + 1, off =>
    let total := fragTotal fs
    if total < off + 32 then (some (min off total), s)
    else
      match s.fragRead c fs off 32 with
      | (none, s1) => (none, s1)
      | (some h, s1) =>
        let stop := off + 32 + 8 * hBody8 h
        if 4092 < hBody8 h || total < stop || hOpcode h = opEnd then (some (min stop total), s1) else s1.opsEnd c fs k stop

/-- Chip lists read into a buffer's bytes. -/
def State.readLists (s : State) (c : Nat) (fs : List (Nat × Nat)) (b : List Byte) : List (Nat × Nat) → Option (List Byte) × State
  | [] => (some b, s)
  | r :: rs =>
    match s.fragRead c fs r.1 r.2 with
    | (none, s1) => (none, s1)
    | (some bs, s1) => s1.readLists c fs (putAt b r.1 bs) rs

/-- The bytes of the buffer that the check pass reads: all of it for its CRC, else the header, and where that passes the table, the operations and the
chip lists that entries name, with zeros in place of every other byte of the data area (06 R291, R296). -/
def State.bufferBytes (s : State) (c : Nat) (fs : List (Nat × Nat)) : Option (List Byte) × State :=
  let total := fragTotal fs
  match s.fragRead c fs 0 64 with
  | (none, s1) => (none, s1)
  | (some h, s1) =>
    let whole := fun (b : List Byte) => padTo total b
    if !headOk h total then (some (whole h), s1)
    else if bufCrcV h then s1.fragRead c fs 0 total
    else if !headRestOk h s1.boot.nlevel.toNat then (some (whole h), s1)
    else
      match s1.opsEnd c fs (bufOps h) (64 + 8 * bufSets h) with
      | (none, s2) => (none, s2)
      | (some stop, s2) =>
        match s2.fragRead c fs 0 stop with
        | (none, s3) => (none, s3)
        | (some b, s3) => s3.readLists c fs (whole b) (namedLists b stop total)

/-- The check pass of a context (06 R296, R297, R996, 05 R260). -/
def State.checkPass (s : State) (c : Nat) : State :=
  match s.owner c with
  | none => s
  | some o =>
    if !s.live || o.phase ≠ .checking then s
    else
      match s.bufferFrags c o with
      | (none, s1) => s1
      | (some fs, s1) =>
        if fragTotal fs = 0 then
          (s1.bufferRecord o.ring o.tag stOkEmpty false false o.redelivered o.user 0 (some o.admitTime) (eIrq o.entry) true).freeCtx c
        else if fragTotal fs < 96 then s1.bufferBroken c none (cfgBroken 0)
        else
          match s1.bufferBytes c fs with
          | (none, s2) => s2
          | (some b, s2) =>
            match checkBuffer (s2.roll o) s2.boot.nlevel.toNat b with
            | .inl x =>
              let h := match frames b (bufOps b) (bufOps b) 1 (64 + 8 * bufSets b) with
                | .inr f => (f[x.idx - 1]?).map (·.2.1)
                | .inl _ => none
              s2.bufferBroken c h x
            | .inr k => (s2.updCtx c (fun y => { y with frags := fs })).bufferPassed c o b k

def execCheckPass (ctx : Nat) (s : State) : Host.Outcome State Fault Refusal := .next (s.checkPass ctx)

/-! ## The dependency table (07 R363 to R366, 06 R298, 14 R614) -/

/-- The lowest free table entry. -/
def State.freeEntry (s : State) : Option Nat := Tbl.freeBelow none s.ops 4096

/-- An operation of context `c` may be entered now (07 R364, R365). -/
def State.mayEnter (s : State) (c : Nat) : Bool :=
  s.freeEntry.isSome && (!(s.ctxs.any (fun x => !x.2.queue.isEmpty)) || decide ((s.opsOf c).length < 2048))

/-- RT_SLOT of the real-time ring a context's buffer came from. -/
def State.ctxRt (s : State) (c : Nat) : Option (BitVec 4) :=
  match (s.ctx c).use with
  | .owner o => o.rt
  | .share h => h.rt
  | .free => none

/-- Stands reserved on this chip to another ring than the buffer's, among those the reserving ring's instance holds (05 R274, R276). -/
def State.reservedAway (s : State) (c : Nat) : Nat :=
  s.tiles.reserved.foldl (fun m e =>
    if s.ctxRt c == some (BitVec.ofNat 4 e.1) then m
    else Nat.lor m (Nat.land e.2.2.toNat (Tbl.get 0 s.act.stands e.2.1.toNat).toNat)) 0

/-- What member entry finds wrong with an operation (06 R298, 01 R56, 14 R614). -/
def State.entryFault (s : State) (c : Nat) (h : List Byte) : Option Err :=
  let i := s.ctxInst c
  let mask := hStands h
  let have_ := Nat.land (Tbl.get 0 s.act.stands i).toNat (2 ^ s.fuses.grade.stands - 1)
  if Nat.land mask have_ ≠ mask || Nat.land mask (s.reservedAway c) ≠ 0 then some { status := stOpConfig }
  else if Nat.land mask s.tiles.lostStands.toNat ≠ 0 then
    let t := ((tilesOf mask).find? (fun t => (s.tile t).lost)).getD 0
    some { status := stTileLost, part := 1, partNo := t }
  else if hOpcode h = opCondEnqueue && s.drCount i ≤ fld (hArg h 4 4) 8 6 then some { status := stOpConfig }
  else none

/-- A chained operation starts when its chain has come to it (07 R374). -/
def State.chainResume (s : State) (e : Nat) : State :=
  match s.op e with
  | none => s
  | some o =>
    match o.chain with
    | none => s
    | some ci =>
      match (s.entryOf o.ctx ci).bind s.op with
      | some co =>
        if co.stage = .issued && o.stage = .waiting && !((s.opsOf o.ctx).any (fun x => x.2.chain == some ci && x.2.idx < o.idx))
        then s.chainNext o.ctx ci o.idx else s
      | none => s

/-- Member entry: an operation is judged as it takes a table entry (06 R298, 07 R363); ready operations of its context follow. -/
def State.placeOp (s : State) (o : OpEntry) : State :=
  match s.freeEntry with
  | none => s
  | some e =>
    match s.entryFault o.ctx o.hdr with
    | some x => s.ctxFault o.ctx o.idx (some o.hdr) 0 x
    | none =>
      let s1 := { s with ops := Tbl.set none s.ops e (some o) }
      let s2 := (s1.updCtx o.ctx (fun x => { x with entered := o.idx })).ctxProgress o.ctx
      (s2.chainResume e).refreshReady o.ctx

/-- An operation at its chip: it enters the table or waits for room (07 R364). -/
def State.enterOp (s : State) (o : OpEntry) : State :=
  if (s.ctx o.ctx).queue.isEmpty && s.mayEnter o.ctx then s.placeOp o
  else (s.updCtx o.ctx (fun x => { x with queue := x.queue ++ [o] })).tellShare o.ctx false

/-- A fresh table entry. -/
def newOp (c idx : Nat) (h body : List Byte) (chips : List ChipId) (chain : Option Nat) (fetch : Option BodyFetch) : OpEntry :=
  { ctx := c, idx := idx, hdr := h, body := body, chips := chips, stage := .waiting, slot := none, chain := chain, staged := [], asked := [],
    out := 0, err := none, dead := false, ovf := false, replay := false, resume := 0, readyAt := 0, sigDone := false, tailTo := none,
    since := none, fetch := fetch, copied := 0, mark := none, rest := [], ride := false, gran := none, toHost := false }

/-- TABLE_ENTRY: the first operation a context holds back is entered when there is room (07 R364). -/
def execTableEntry (ctx : Nat) (s : State) : Host.Outcome State Fault Refusal :=
  .next (match (s.ctx ctx).queue with
    | o :: t =>
      let s1 := s.updCtx ctx (fun x => { x with queue := t })
      if s.live && ((s1.freeEntry.isSome && (decide ((s.opsOf ctx).length < 2048) ||
          !((s1.ctxs.any (fun x => !x.2.queue.isEmpty)))))) then s1.placeOp o else s
    | [] => s)

/-! ## Dispatch (06 R299, R995, 07 R349 to R358, R1001) -/

/-- CSFORM and CSDESC of an operation's chip set (07 R1001). -/
def csDescOf (h : List Byte) (v : Nat) (self : ChipId) : Nat × Nat :=
  match hPkind h with
  | 0 => if hPlace h = 0xFFFF then (3, 0) else (0, hPlace h)
  | 1 => if csForm v = 1 then (1, fld v 16 32) else (2, fld v 16 16)
  | _ => (0, self.toNat)

/-- The OPERATION launch of an operation for chip `d` (07 Table 7-1, R357, R358, R1001). -/
def State.launchOp (s : State) (c : Nat) (o : Owner) (i off : Nat) (h body : List Byte) (v : Nat) (chips : List ChipId) (last : Bool) (d : ChipId) : Packet :=
  let cs := csDescOf h v s.dom.chipId
  let fs := (s.ctx c).frags
  let inline := decide (hBody8 h ≤ 24)
  let isList := inline && decide (cs.1 = 2)
  let place := if isList then fragAt fs 0 (fld v 32 32) (2 * fld v 16 16) else fragAt fs 0 (off + 32) body.length
  let split := !place.2.2 && (isList || !inline)
  let dva := if split then eAddr o.entry else (fs.getD place.1 (0, 0)).1 + place.2.1
  let named := isList || !inline
  let kind := 1 + 16 * b2n last + 32 * (rtBits o.rt).1 + 64 * b2n inline + 128 * b2n split
  launchPkt o.inst (toLe 1 kind ++ toLe 1 ((rtBits o.rt).2 + 16 * cs.1) ++ toLe 2 c ++ toLe 2 (s.ctx c).gen.toNat ++ toLe 2 i ++ toLe 2 chips.length
    ++ zeros 2 ++ toLe 4 cs.2 ++ toLe 8 (if named then dva else 0) ++ toLe 4 (if split then place.1 else 0)
    ++ toLe 4 (if split then place.2.1 else 0)
    ++ putAt h 1 (toLe 1 (leAt h 1 1 / 4 * 4) ++ toLe 2 d.toNat)
    ++ (if inline then body else []))

/-- No later operation of the buffer is placed on the chip (07 Table 7-1 LAST). -/
def State.lastOn (s : State) (c i : Nat) (d : ChipId) : Bool := !(((s.ctx c).sets.drop i).dropLast.any (fun cs => cs.contains d))

/-- One operation goes to every chip of its set: entered here, launched to the others in ascending order (07 R349). -/
def State.spread (s : State) (c : Nat) (o : Owner) (i off : Nat) (h body : List Byte) (v : Nat) (chips : List ChipId) (chain : Option Nat) : State :=
  let sorted := chips.mergeSort (fun a b => decide (a.toNat ≤ b.toNat))
  sorted.foldl (fun s d =>
    match s.owner c with
    | none => s
    | some w =>
      if w.fault.isSome || w.phase ≠ .dispatching then s
      else if d = s.dom.chipId then s.enterOp (newOp c i h body chips chain none)
      else if s.isLost d then s.ctxFault c i (some h) 0 { status := stChipLost, peer := d.toNat }
      else
        let p := s.launchOp c o i off h body v chips (s.lastOn c i d) d
        (s.updCtx c (fun x => { x with sentTo := if x.sentTo.contains d then x.sentTo else x.sentTo ++ [d] })).newXfer d (.launch c i) [p]) s

/-- The chip-set entry that PLACE names, and its list of chips; 0 and none where the operation names no set. PLACE lies below CSCOUNT, the list in the data
area with zeros to its 8-byte boundary (06 R299, R301, R303, Table 6-3). -/
def State.readSet (s : State) (c : Nat) (o : Owner) (fs : List (Nat × Nat)) (i : Nat) (h : List Byte) : Option (Nat × List Byte) × State :=
  let broken := fun (s : State) => (none, s.bufferBroken c (some h) (cfgBroken i))
  if hPkind h ≠ 1 then (some (0, []), s)
  else if o.csCount ≤ hPlace h then broken s
  else
    match s.fragRead c fs (64 + 8 * hPlace h) 8 with
    | (none, s1) => (none, s1)
    | (some vb, s1) =>
      let v := ofLe vb
      let n := 2 * fld v 16 16
      if !csEntryOk v o.dataOff (fragTotal fs) then broken s1
      else if csForm v ≠ 2 then (some (v, []), s1)
      else
        match s1.fragRead c fs (fld v 32 32) (n + listPad n) with
        | (none, s2) => (none, s2)
        | (some lb, s2) => if allZero (lb.drop n) then (some (v, lb.take n), s2) else broken s2

/-- One operation read for dispatch: header, chip set and body, judged; none while bytes are awaited or after a failure. -/
def State.readOp (s : State) (c : Nat) (o : Owner) : Option (List Byte × List Byte × Nat × List ChipId × ChainSt) × State :=
  let fs := (s.ctx c).frags
  let total := fragTotal fs
  let i := o.nextOp
  let off := o.nextOff
  if total < off + 32 then (none, s.bufferBroken c none (cfgBroken i))
  else
    match s.fragRead c fs off 32 with
    | (none, s1) => (none, s1)
    | (some h, s1) =>
      let n := 8 * hBody8 h
      let count := (s.ctx c).sets.length
      if 4092 < hBody8 h || total < off + 32 + n || (hOpcode h = opEnd && i ≠ count) || (hOpcode h ≠ opEnd && i = count)
      then (none, s1.bufferBroken c (some h) (cfgBroken i))
      else
        match s1.fragRead c fs (off + 32) n with
        | (none, s2) => (none, s2)
        | (some body, s2) =>
          match s2.readSet c o fs i h with
          | (none, s3) => (none, s3)
          | (some y, s3) =>
            let chips := match hPkind h with
              | 0 => if hPlace h = 0xFFFF then o.members else [BitVec.ofNat 16 (hPlace h)]
              | 1 => csChips y.1 y.2
              | _ => [s3.dom.chipId]
            match judgeOp (s3.roll o) i h body chips ((s3.ctx c).sets.take (i - 1)) (s3.ctx c).chain with
            | .inl x => (none, s3.bufferBroken c (some h) x)
            | .inr ch => (some (h, body, y.1, chips, ch), s3)

/-- A context whose buffer may be dispatched now (14 R643). -/
def State.mayDispatch (s : State) (c : Nat) : Option Owner :=
  match s.owner c with
  | some o => if s.live && o.phase = .dispatching && o.fault.isNone && s.epochApplied o.waitEpoch then some o else none
  | none => none

/-- DISPATCH_READ: the next operation other than END is read again, judged and entered or forwarded. -/
def State.dispatchOne (s : State) (c : Nat) : State :=
  match s.mayDispatch c with
  | none => s
  | some o =>
    if (s.ctx c).sets.length ≤ o.nextOp then s
    else
      match s.readOp c o with
      | (none, s1) => s1
      | (some (h, body, v, chips, ch), s1) =>
        let inChain := (s.ctx c).chain.map (·.1)
        let s2 := ((s1.ctxFresh c).updCtx c (fun x => { x with chain := ch, sets := x.sets.set (o.nextOp - 1) chips, heads := x.heads.set (o.nextOp - 1) h })).updOwner c (fun w =>
          { w with nextOp := o.nextOp + 1, nextOff := o.nextOff + 32 + 8 * hBody8 h })
        s2.spread c o o.nextOp o.nextOff h body v chips inChain

def execDispatchRead (ctx : Nat) (s : State) : Host.Outcome State Fault Refusal := .next (s.dispatchOne ctx)

/-- END: every other operation has been read; its own bytes are judged, with its COUNT against the operations as they were read; this chip's share is
looked at and the count may pass (06 R299, R344, R345, R995, 07 R385, R386). -/
def State.endOp (s : State) (c : Nat) : State :=
  match s.owner c with
  | none => s
  | some o =>
    if s.live && o.phase = .ended then (s.shareCheck c).endCheck c
    else
      match s.mayDispatch c with
      | none => s
      | some o =>
        if o.nextOp < (s.ctx c).sets.length then s
        else
          match s.readOp c o with
          | (none, s1) => s1
          | (some (h, _, _, _, _), s1) =>
            match endCount (autoCount (s1.ctx c).sets) h with
            | none => s1.bufferBroken c (some h) (cfgBroken o.nextOp)
            | some n => (((s1.ctxFresh c).updOwner c (fun w => { w with phase := .ended, expected := some n })).shareCheck c).endCheck c

def execEnd (ctx : Nat) (s : State) : Host.Outcome State Fault Refusal := .next (s.endOp ctx)

/-! ## Launches at a member (07 R353 to R362) -/

/-- Fields of a REMOTE_LAUNCH payload (07 Table 7-1). -/
def lKind (d : List Byte) : Nat := fld (leAt d 0 1) 0 4
def lBit (d : List Byte) (n : Nat) : Bool := bit (leAt d 0 1) n
def lCtx (d : List Byte) : BitVec 10 := BitVec.ofNat 10 (leAt d 2 2)
def lGen (d : List Byte) : BitVec 16 := BitVec.ofNat 16 (leAt d 4 2)
def lIdx (d : List Byte) : Nat := leAt d 6 2
def lRt (d : List Byte) : Option (BitVec 4) := if lBit d 5 then some (BitVec.ofNat 4 (leAt d 1 1)) else none

/-- The share of an admitting chip's context here, of whatever generation. -/
def State.shareCtx (s : State) (chip : ChipId) (ctx : BitVec 10) : Option (Nat × Share) :=
  s.ctxs.findSome? (fun e => match e.2.use with | .share h => if h.chip = chip && h.ctx = ctx then some (e.1, h) else none | _ => none)

/-- The chips a launch's set names, so far as the launch says; for every member, the members this chip's routing tables reach now (07 R1001; log 102). -/
def State.launchChips (s : State) (d : List Byte) : List ChipId :=
  let desc := leAt d 12 4
  match fld (leAt d 1 1) 4 4 with
  | 0 => [BitVec.ofNat 16 (fld desc 0 16)]
  | 1 => rectChips (1 + desc * 2 ^ 16)
  | 3 => s.memberList.filter (fun c => c == s.dom.chipId || !(s.routePorts c).isEmpty)
  | _ => []

/-- What a member has still to read of a launched operation: its body, or a collective's chip list. -/
def launchFetch (d h : List Byte) : Option BodyFetch :=
  let split := lBit d 7
  let dva := leAt d 16 8
  if !lBit d 6 then
    (if hOpcode h = opNop then none
     else some { list := false, split := split, dva := dva, frag := leAt d 24 4, off := leAt d 28 4, len := 8 * hBody8 h })
  else if fld (leAt d 1 1) 4 4 = 2 && hCollective h then
    some { list := true, split := split, dva := dva, frag := leAt d 24 4, off := leAt d 28 4, len := 2 * fld (leAt d 12 4) 0 16 }
  else none

/-- The chain an arriving operation belongs to: that of a CHAIN below it that still lacks operations (06 R334). -/
def State.shareChain (s : State) (c i : Nat) (h : List Byte) : Option Nat × State :=
  match (s.ctx c).chain with
  | some (ci, ch, left, _) => (some ci, s.updCtx c (fun x => { x with chain := if left = 1 then none else some (ci, ch, left - 1, 0) }))
  | none => (none, if hOpcode h = opChain then s.updCtx c (fun x => { x with chain := some (i, h, fld (hArg h 0 4) 0 8, 0) }) else s)

/-- The fragments from `frag` on that a split body or list lies in: entries of the table, read one by one (fuel), and the bytes'
pieces; none while awaited; OP_CONFIG past the last entry a table may have, since a launch does not carry FRAGCNT (07 R358, R359; log 103). -/
def State.splitPieces (s : State) (i : Nat) (st : Tbl (Option Byte)) (table : Nat) : Nat → Nat → Nat → Nat → (Got × List (Nat × Nat)) × State
  | 0, _, _, len => ((if len = 0 then .bytes [] else .bad { status := stOpConfig }, []), s)
  | k + 1, frag, off, len =>
    if len = 0 then ((.bytes [], []), s)
    else
      let r := s.gather i st 4 (table + 16 * frag) 16
      match r.1 with
      | .bytes b =>
        let n := leAt b 8 4
        if n ≤ off then State.splitPieces r.2 i st table k (frag + 1) (off - n) len
        else
          let m := min len (n - off)
          let q := State.splitPieces r.2 i st table k (frag + 1) 0 (len - m)
          ((q.1.1, (leAt b 0 8 + off, m) :: q.1.2), q.2)
      | g => ((g, []), r.2)

/-- The bytes of a launch's body or list, from its fragments or in one stretch. -/
def State.bodyGather (s : State) (i : Nat) (st : Tbl (Option Byte)) (f : BodyFetch) : Got × State :=
  let p := if f.split then s.splitPieces i st f.dva (4096 - f.frag) f.frag f.off f.len else ((.bytes [], [(f.dva, f.len)]), s)
  match p.1.1 with
  | .bytes _ => p.1.2.foldl (fun (a : Got × State) q => (a.1.join (a.2.gather i st 4 q.1 q.2).1, (a.2.gather i st 4 q.1 q.2).2)) (.bytes [], p.2)
  | x => (x, p.2)

/-- BODY_READ_DONE: the body or list is complete, or its read fails the operation (07 R359, R995). -/
def State.bodyRead (s : State) (e : Nat) : State :=
  match s.op e with
  | none => s
  | some o =>
    match o.fetch with
    | none => s
    | some f =>
      match s.opGather e (s.bodyGather (s.ctxInst o.ctx) o.staged f) with
      | (none, s1) => s1
      | (some bs, s1) =>
        let s2 := s1.updOp e (fun w =>
          if f.list then { w with fetch := none, chips := listChips bs (bs.length / 2), staged := [], asked := [] }
          else { w with fetch := none, body := bs, staged := [], asked := [] })
        (s2.chainResume e).refreshReady o.ctx

def execBodyReadDone (entry : Nat) (s : State) : Host.Outcome State Fault Refusal := .next (if s.live then s.bodyRead entry else s)

/-- An OPERATION launch: the share is found or taken, the operation entered (07 R353, R354, R360, R362). -/
def State.takeOperation (s : State) (p : Packet) : Fate × State :=
  let d := p.data
  let h := (d.drop 32).take 32
  let held := s.shareCtx p.src (lCtx d)
  if (s.inst p.inst.toNat).stopped then (.done 0, s) else
  match held with
  | some (c, sh) =>
    if sh.gen ≠ lGen d then
      (.done 0, s.event evStaleLaunch 3 p.inst.toNat (p.src.toNat + (lCtx d).toNat * 2 ^ 16 + (lGen d).toNat * 2 ^ 32) 0)
    else
      let s1 := s.updShare c (fun w => { w with last := w.last || lBit d 4 })
      if sh.faulted || sh.aborting then (.done 0, s1)
      else
        let q := s1.shareChain c (lIdx d) h
        let s2 := q.2.enterOp (newOp c (lIdx d) h (if lBit d 6 then d.drop 64 else []) (s.launchChips d) q.1 (launchFetch d h))
        (.done 0, match s2.entryOf c (lIdx d) with | some e => s2.bodyRead e | none => s2)
  | none =>
    match s.freeContext with
    | none => (.later, s)
    | some c =>
      let sh : Share := { chip := p.src, ctx := lCtx d, gen := lGen d, inst := p.inst, rt := lRt d, last := lBit d 4, ovf := false,
                          replayed := false, faulted := false, aborting := false, sent := false, order := s.orders, abortPkt := none }
      let s1 := (({ s with orders := s.orders + 1 }).updCtx c (fun x => { Ctx.reset with gen := x.gen + 1, use := .share sh })).pruneColls c
      let q := s1.shareChain c (lIdx d) h
      let s2 := q.2.enterOp (newOp c (lIdx d) h (if lBit d 6 then d.drop 64 else []) (s.launchChips d) q.1 (launchFetch d h))
      (.done 0, match s2.entryOf c (lIdx d) with | some e => s2.bodyRead e | none => s2)

/-- The operations of a share that ends have stopped: a guilty ring's sequence goes on, an ABORT is acknowledged, the context is freed; one of an
instance being stopped is freed at PURGE (07 R361, 13 R576, R577, 15 Table 15-6). -/
def State.drained (s : State) (c : Nat) : State :=
  if !s.still c then s
  else
    match (s.ctx c).use with
    | .owner o => if (s.inst o.inst.toNat).stopped then s.freeCtx c else if o.phase = .aborting then s.guiltyFinish o.ring else s
    | .share h =>
      if !h.aborting then s
      else match h.abortPkt with
        | some p => ((s.commitTid p.src p.tid 0).sendAck p 0).freeCtx c
        | none => if (s.inst h.inst.toNat).stopped then s else s.freeCtx c
    | .free => s

/-- What follows where an operation's writes have been dropped: contexts that waited for it go on. -/
def State.drainAll (s : State) : State := (s.ctxs.map (·.1)).foldl State.drained s

/-- ABORT: the share ends; it is acknowledged, and its context freed, once the operations on tiles have stopped and the writes are dropped
(07 R361, 13 R577). -/
def State.takeAbort (s : State) (p : Packet) : Fate × State :=
  match s.shareCtx p.src (lCtx p.data) with
  | some (c, sh) =>
    if sh.gen ≠ lGen p.data then (.done 0, s)
    else
      let s1 := if sh.aborting then s else s.endShare c
      if s1.still c then (.done 0, s1.freeCtx c)
      else (.quiet, s1.updShare c (fun h => { h with aborting := true, abortPkt := some p }))
  | none => (.done 0, s)

/-- FAULT_REPORT at the admitting chip: a fault of the buffer whose generation matches (13 R573, R574). -/
def State.takeReport (s : State) (p : Packet) : Fate × State :=
  let c := (lCtx p.data).toNat
  if (s.ctx c).gen = lGen p.data && (s.owner c).isSome then
    (.done 0, s.applyFault c (lIdx p.data) (leAt p.data 10 2) 1 (padTo 128 (p.data.drop 32)))
  else (.done 0, s)

/-- A REMOTE_LAUNCH of any kind; a reserved KIND is acknowledged and does nothing. -/
def State.takeLaunch (s : State) (p : Packet) : Fate × State :=
  match lKind p.data with
  | 1 => s.takeOperation p
  | 2 => s.takeAbort p
  | 3 => s.takeReport p
  | _ => (.done 0, s)

/-! ## Grants (07 R368 to R371, 20 R856) -/

/-- Real-time slot of a context's buffer, 16 for none, and its order of admission. -/
def State.ctxRank (s : State) (c : Nat) : Nat × Nat :=
  match (s.ctx c).use with
  | .owner o => (match o.rt with | some r => r.toNat | none => 16, o.order)
  | .share h => (match h.rt with | some r => r.toNat | none => 16, h.order)
  | .free => (17, 0)

/-- The order of R370 between two operations. -/
def rankLe (a b : (Nat × Nat) × Nat) : Bool :=
  decide (a.1.1 < b.1.1 ∨ (a.1.1 = b.1.1 ∧ (a.1.2 < b.1.2 ∨ (a.1.2 = b.1.2 ∧ a.2 ≤ b.2))))

/-- Ready operations in the order of R370. -/
def State.readyOps (s : State) : List (Nat × OpEntry) :=
  (s.ops.filterMap (fun e => match e.2 with | some o => if o.stage == .ready && !o.dead then some (e.1, o) else none | none => none)).mergeSort
    (fun a b => rankLe (s.ctxRank a.2.ctx, a.2.idx) (s.ctxRank b.2.ctx, b.2.idx))

/-- Shares that have reported a fault dispatch nothing further (07 R362). -/
def State.shareStopped (s : State) (c : Nat) : Bool :=
  match (s.ctx c).use with
  | .owner o => o.fault.isSome || o.phase = .aborting
  | .share h => h.faulted || h.aborting
  | .free => true

/-- Stands that are held, by operations or kept for a running probe (17 R758). -/
def State.heldStands (s : State) : Nat := s.stands.foldl (fun m x => Nat.lor m (2 ^ x.1)) s.probeMask

/-- The first operation that can start; stands an earlier one waits for are kept for it (07 R371). -/
def State.grantable (s : State) : Nat → List (Nat × OpEntry) → Option (Nat × OpEntry)
  | _, [] => none
  | kept, x :: t =>
    if s.shareStopped x.2.ctx then s.grantable kept t
    else if hTiles x.2.hdr then
      let m := hStands x.2.hdr
      if Nat.land m (Nat.lor s.heldStands kept) = 0 then some x else s.grantable (Nat.lor kept m) t
    else if s.slots.length < 512 then some x
    else s.grantable kept t

/-- Stands leave RETENTION as work arrives (20 R856). -/
def State.wakeStands (s : State) (mask : Nat) : State := (standsOf mask).foldl (fun s n => s.retain n false) s

/-- Flipped words in the SRAM of tiles. -/
def State.sramFlips (s : State) (ts : List Nat) : List Nat :=
  (s.mem.flips.map (·.1)).filter (fun w => ts.any (fun t => decide (tileBase + t * tileBytes ≤ 8 * w ∧ 8 * w < tileBase + (t + 1) * tileBytes)))

/-- The words among those that an operation reaches as it stages or reads its operands: which, the spec does not say (log 108). -/
def State.reached (s : State) : List Nat → List Nat × State
  | [] => ([], s)
  | w :: ws =>
    let r := (s.draw 1)
    let q := r.2.reached ws
    (if r.1 = 1 then w :: q.1 else q.1, q.2)

/-- An operation stages its operands in the SRAM of its tiles: whole words, which clear what was wrong in them (03 R161, R1003). -/
def State.stageSram (s : State) (ts : List Nat) : State :=
  let r := s.reached (s.sramFlips ts)
  r.1.foldl State.unflip r.2

/-- An operation reads the SRAM of its tiles: single flips are corrected and counted; the tile of an uncorrectable word it meets (03 R158, 14 R606). -/
def State.readSram (s : State) (ts : List Nat) : Option Nat × State :=
  let r := s.reached (s.sramFlips ts)
  ((r.1.find? (fun w => decide (2 ≤ r.2.flipsOf w))).map (fun w => (8 * w - tileBase) / tileBytes), r.2.correct r.1)

/-- One ready operation starts with its stands or a CFE slot. -/
def State.grantOne (s : State) : State :=
  match s.grantable 0 s.readyOps with
  | none => s
  | some (e, o) =>
    let s1 := if hTiles o.hdr then
        ({ s with stands := (standsOf (hStands o.hdr)).foldl (fun t n => Tbl.set 0 t n (e + 1)) s.stands }.wakeStands (hStands o.hdr)).freshBeats
          (hStands o.hdr) |>.stageSram (tilesOf (hStands o.hdr))
      else
        match (List.range 512).find? (fun k => Tbl.get 0 s.slots k = 0) with
        | some k => ({ s with slots := Tbl.set 0 s.slots k (e + 1) }).updOp e (fun w => { w with slot := some k })
        | none => s
    (s1.updOp e (fun w => { w with stage := .running })).ctxProgress o.ctx

def execStandGrant (s : State) : Host.Outcome State Fault Refusal := .next (if s.live then s.grantOne else s)

/-! ## Tile faults and replay (14 R606 to R616, 12 R510, R562, R563) -/

/-- A wait in gated mode (06 R332). -/
def gatedWait (h : List Byte) : Bool := (hOpcode h = opWait || hOpcode h = opTallyWait) && bit (hArg h 4 4) 1

/-- A tile is gated: it holds no operation, chain or spin wait (20 Table 20-1). -/
def State.tileGated (s : State) (t : Nat) : Bool :=
  match (s.opOnTile t).bind s.op with
  | some o => o.stage == .held && gatedWait o.hdr
  | none => true

/-- A share of an operation starts over on its stands: writes not committed are dropped, waits register again (14 Table 14-1, R611).
An operation with a resume point keeps what it has sent: those rows and elements are behind the point (12 R563). -/
def State.replayOp (s : State) (e : Nat) : State :=
  match s.op e with
  | none => s
  | some o =>
    if o.resume ≠ 0 then s.updOp e (fun w => { w with stage := .running, replay := true, rest := [] })
    else
      let s1 := s.voidXfers (fun x => x.purpose.ofEntry e)
      let s2 := { s1 with gal := { s1.gal with waiters := s1.gal.waiters.filter (fun w => w.entry ≠ e) } }
      let wait := hOpcode o.hdr = opWait || hOpcode o.hdr = opTallyWait
      let key := s2.collKey o
      let s3 := { s2 with colls := s2.colls.map (fun (k : Coll) => if k.key = key then { k with data := [], asked := false } else k) }
      s3.updOp e (fun w => { w with stage := .running, out := 0, err := none, tailTo := none, staged := [], asked := [], copied := 0, rest := [], gran := none,
                                    ovf := false, replay := w.replay || !wait })

/-- An operation whose results are discarded has come to its boundary: it leaves the table, its stands and those of its chain come free
(07 R361, R374). -/
def State.stopOp (s : State) (e : Nat) (o : OpEntry) : State :=
  let chain := match o.chain with
    | some ci => ((s.opsOf o.ctx).filter (fun (x : Nat × OpEntry) => x.2.idx == ci)).map (fun (x : Nat × OpEntry) => x.1)
    | none => []
  ((s.freeOp e) |> fun s => chain.foldl State.freeOp s).drained o.ctx

/-- A tile fault has interrupted the share of an operation: it starts over on the spare, or stops where its results are discarded. -/
def State.interrupt (s : State) (e : Nat) : State :=
  match s.op e with
  | some o => if o.dead then s.stopOp e o else s.replayOp e
  | none => s

/-- The SRAM of a logical tile is cleared. -/
def State.clearTile (s : State) (t : Nat) : State :=
  let lo := tileBase + t * tileBytes
  { s with mem := { s.mem with bytes := s.mem.bytes.filter (fun c => !decide (lo ≤ c.1 ∧ c.1 < lo + tileBytes)),
                               flips := s.mem.flips.filter (fun c => !decide (lo ≤ 8 * c.1 ∧ 8 * c.1 < lo + tileBytes)) } }

/-- The lowest-numbered spare neither in service nor failed: 0 or 1 (14 R607). -/
def State.freeSpare (s : State) : Option Nat :=
  let ok := fun k => !s.tiles.inServ.getLsbD k && !s.tiles.failedS.getLsbD k
  let p0 := s.tiles.spare0.toNat
  let p1 := s.tiles.spare1.toNat
  if ok 0 && ok 1 then some (if p0 ≤ p1 then 0 else 1) else if ok 0 then some 0 else if ok 1 then some 1 else none

/-- An instance's capability registers change: CAP_GEN rises and ERROR fires without a status bit (15 R671). -/
def State.capChange (s : State) (i : Nat) : State := (s.updInst i (fun x => { x with capGen := x.capGen + 1 })).cause i causeError

/-- The tile is lost, and its stand (14 R612 to R615). -/
def State.loseTile (s : State) (t : Nat) : State :=
  let held := (s.act.stands.filter (fun x => x.2.getLsbD (t / 4))).map (·.1)
  let s1 := (s.updTile t (fun x => { x with lost := true })).event evDegraded 3 0 t 0
  let s2 := { s1 with tiles := { s1.tiles with lostStands := s1.tiles.lostStands ||| BitVec.ofNat 8 (2 ^ (t / 4)) } }
  held.foldl State.capChange s2

/-- A tile fault found by a checker: FAULT_N is asserted; a spare takes the logical tile, and the interrupted share or probe starts over, or
the tile is lost (14 R607 to R613, 17 R749, R762, R767). -/
def State.faultTile (s0 : State) (t checker : Nat) : State :=
  let s := s0.safeReport 1
  let old := (s.tile t).phys.toNat
  let hit := s.opOnTile t
  let t0 := s.tiles
  let failS : BitVec 2 := (if t0.inServ.getLsbD 0 && t0.spare0.toNat = old then 1 else 0) ||| (if t0.inServ.getLsbD 1 && t0.spare1.toNat = old then 2 else 0)
  let s1 := { s with tiles := { t0 with failed := t0.failed ||| BitVec.ofNat 34 (2 ^ old), failedS := t0.failedS ||| failS } }
  match s1.freeSpare with
  | some k =>
    let new := if k = 0 then s1.tiles.spare0 else s1.tiles.spare1
    let s2 := { s1 with tiles := { s1.tiles with inServ := s1.tiles.inServ ||| BitVec.ofNat 2 (2 ^ k) } }
    let s3 := ((((s2.updTile t (fun x => { x with phys := new, inc := x.inc + 1 })).clearTile t).event evFaultReported 1 0
      (checker + 256 * t) 0).event evTileRemapped 0 0 (t + 256 * old + 65536 * new.toNat) 0).restartProbe (t / 4)
    match hit with
    | some e => s3.interrupt e
    | none => s3
  | none =>
    let s2 := s1.loseTile t
    match hit with
    | some e =>
      match s2.op e with
      | some o => if o.dead then s2.stopOp e o else s2.failOp e { status := stTileLost, part := 1, partNo := t }
      | none => s2
    | none => s2

/-! ## Completion of tile-executed operations (12 R509, R510, 08 R318, 07 R379 to R381, 09 R454, R455) -/

/-- The signal an attached field asks for, toward its home. -/
def asigTail (h : List Byte) : TailSig :=
  { obj := BitVec.ofNat 14 (asigObj (hAsig h)), kind := BitVec.ofNat 2 (asigKind (hAsig h)),
    amount := if asigKind (hAsig h) = 3 then 1 else BitVec.ofNat 16 (asigAmount (hAsig h)), iovf := false, irpl := false }

/-- A held last transfer leaves, with or without a signal in its tail. -/
def withTail (ps : List Packet) (g : TailSig) : List Packet :=
  ps.map (fun p => if p.tail then { p with sig := true, obj := g.obj, kind := g.kind, amount := g.amount, iovf := g.iovf, irpl := g.irpl } else p)

/-- This operation, with the CHAIN it ends, is all that is left of a member's share, so its last transfer may carry the increment (07 R381). -/
def State.incRides (s : State) (e : Nat) (o : OpEntry) (dst : ChipId) : Option Share :=
  match s.share o.ctx with
  | some h =>
    if h.chip = dst && h.last && !h.faulted && !h.aborting && (s.ctx o.ctx).queue.isEmpty && (s.ctx o.ctx).sigsOut = 0
      && (s.opsOf o.ctx).all (fun x => x.1 == e || some x.2.idx == o.chain) then some h else none
  | none => none

/-- Writes that a signal of operation `idx` releases are all in place: no earlier operation of the buffer has data under way that an attached signal
ends (09 R451). -/
def State.released (s : State) (c idx : Nat) : Bool :=
  let open_ := fun (x : Xfer) => match x.purpose with
    | .attached n i _ _ => n == c && decide (i < idx) && x.pkts.any (fun p => !p.data.isEmpty)
    | _ => false
  !s.fab.xfers.any open_ && !s.fab.queued.any open_

/-- The attached signal of an operation is issued: into this chip's own FIFO, or as a pure signal; none where the FIFO has no room
(08 R318, R415). -/
def State.issueAsig (s : State) (o : OpEntry) : Option State :=
  match s.asigHome o.hdr with
  | none => some s
  | some home =>
    let g := asigTail o.hdr
    let i := s.ctxInst o.ctx
    let s1 := s.updCtx o.ctx (fun x => { x with sigsOut := x.sigsOut + 1 })
    if home = s.dom.chipId then
      if s.fifoHasRoom then
        some (s1.fifoPush 0 { kind := g.kind, obj := g.obj, amount := g.amount, inst := BitVec.ofNat 6 i, chip := s.dom.chipId, notice := none,
                              origin := .attached o.ctx o.idx o.hdr })
      else none
    else if s.isLost home then
      some ((s1.ctxFault o.ctx o.idx (some o.hdr) 1 { status := stChipLost, peer := home.toNat }).updCtx o.ctx (fun x => { x with sigsOut := x.sigsOut - 1 }))
    else some (s1.pureSignal home (.attached o.ctx o.idx o.hdr 0) (BitVec.ofNat 6 i) (hOrd o.hdr) g)

/-- An operation whose writes are all in place completes: its held last transfer leaves with the attached signal or the increment, or
plain; else the signal is issued by itself. -/
def State.finishOp (s : State) (e : Nat) (o : OpEntry) : State :=
  if (s.asigHome o.hdr).isSome && !s.released o.ctx o.idx then s
  else
  match o.tailTo with
  | some (dst, dva, ps) =>
    let s0 := s.updOp e (fun w => { w with tailTo := none })
    match s.asigHome o.hdr with
    | some _ =>
      let s1 := s0.updCtx o.ctx (fun x => { x with sigsOut := x.sigsOut + 1 })
      (s1.newXfer dst (.attached o.ctx o.idx o.hdr dva) (withTail ps (asigTail o.hdr))).completeOp e
    | none =>
      match s.incRides e o dst with
      | some h =>
        let s1 := s0.ctxFlags o.ctx o.ovf o.replay
        let inc := match s1.share o.ctx with | some w => incTail w | none => incTail h
        let s2 := s1.newXfer dst (.increment (some (h, o.idx, o.hdr, dva))) (withTail ps inc)
        (((s2.opsOf o.ctx).map (·.1)).foldl State.freeOp s2).freeCtx o.ctx
      | none => (s0.updOp e (fun w => { w with out := w.out + 1 })).newXfer dst (.op e dva) ps
  | none =>
    match s.issueAsig o with
    | some s1 => s1.completeOp e
    | none => s

/-- The operation of context `c` whose data a WRITE transfer carries. -/
def State.writerIn (s : State) (c : Nat) (x : Xfer) : Option Nat :=
  if !x.pkts.any (fun p => p.type == tyWrite && !p.data.isEmpty && p.msg.isNone) then none
  else match x.purpose with
    | .op e _ => (s.op e).bind (fun o => if o.ctx = c then some o.idx else none)
    | .attached n i _ _ => if n = c then some i else none
    | _ => none

/-- A write that operations of the buffer had issued here before the COPY became ready has not committed (06 R325). -/
def State.writesBefore (s : State) (o : OpEntry) : Bool :=
  let m := o.mark.getD (0, [])
  let old := fun (x : Xfer) => match s.writerIn o.ctx x with
    | some i => i ≠ o.idx && (decide (x.stamp < m.1) || m.2.contains i)
    | none => false
  s.fab.xfers.any old || s.fab.queued.any old || (s.heldOutputs o.ctx).any (fun i => m.2.contains i)

/-- OP_COMPLETE of a LAUNCH or COPY: its transfers are acknowledged and a LAUNCH's checkers have compared (12 R509, R510, 06 R323); one whose results
are discarded stops. -/
def State.opComplete (s : State) (e : Nat) (check : Check) : State :=
  match s.op e with
  | none => s
  | some o =>
    if !s.live || o.stage ≠ .issued || o.out ≠ 0 || !o.rest.isEmpty || s.hostHeld o || !(hOpcode o.hdr = opLaunch || hOpcode o.hdr = opCopy) then s
    else if o.dead then (if s.holdsStands e o then s.stopOp e o else s)
    else
      match o.err with
      | some x => s.failOp e x
      | none =>
        let r := if hOpcode o.hdr = opLaunch then s.readSram (tilesOf (hStands o.hdr)) else (none, s)
        match r.1 with
        | some t => r.2.faultTile t 0x01
        | none =>
        let s := r.2
        match decide (hOpcode o.hdr = opLaunch), check with
        | true, .differ t => if o.replay then s.failOp e { status := stCheckerFail } else (s.draw 8).2.faultTile t (s.draw 8).1.toNat
        | true, .agree => s.finishOp e o
        | false, _ => if copyLen o.body = 0 && s.writesBefore o then s else s.finishOp e o

/-- A completion increment at the owner context whose generation it carries; another is dropped and counted (07 R382, R383, R991). -/
def State.increment (s : State) (c : BitVec 10) (gen : BitVec 16) (ovf rpl : Bool) : State :=
  let hit := s.gal.incs.find? (fun k => k.ctx == c && k.gen == gen && k.ovf == ovf && k.rpl == rpl)
  let src := hit.map (·.src)
  let s0 := match hit with | some k => { s with gal := { s.gal with incs := s.gal.incs.erase k } } | none => s
  let s1 := if (s0.ctx c.toNat).gen = gen then s0.updCtx c.toNat (fun x => { x with doneBy := x.doneBy ++ src.toList }) else s0
  if (s1.owner c.toNat).isSome && (s1.ctx c.toNat).gen = gen then s1.countShare c.toNat ovf rpl
  else { s1 with incDrops := satInc s1.incDrops }

def execCompletionIncrement (ctx : BitVec 10) (gen : BitVec 16) (ovf replayed : Bool) (s : State) : Host.Outcome State Fault Refusal :=
  .next (if s.live then s.increment ctx gen ovf replayed else s)

/-- A tile reports progress: its beats rise and its ring's counter advances; an operation of an instance that is being stopped stops here
(07 R400 to R403, 15 Table 15-6 step 3). -/
def State.beat (s : State) (tile : Nat) : State :=
  match s.opOnTile tile with
  | some e =>
    match s.op e with
    | some o =>
      let s1 := (s.updTile tile (fun x => { x with beats := satInc x.beats })).ctxProgress o.ctx
      if o.dead && (s.inst (s.ctxInst o.ctx)).stopped then s1.stopOp e o else s1
    | none => s
  | none => s

end Sys2Proof.Machine
end

