-- ==== Sys2Proof/Machine/Control.lean ====
section
/-! DEFINITION. The operations the CFE and the tile DMA execute: signals, waits, fences, chains, enqueues, peer signals, COPY (06 R319 to R342, 07 R374, R394, R395, 09 R454 to R461). -/

namespace Sys2Proof.Machine

/-! ## Running an operation -/

/-- The operation of entry `e`, if it has started, is of the opcode, and has not been stopped: another operation's fault does not interrupt it
(07 R372). -/
def State.started (s : State) (e op : Nat) : Option OpEntry :=
  match s.op e with
  | some o => if s.live && o.stage = .running && !o.dead && hOpcode o.hdr = op then some o else none
  | none => none

/-- The instance an operation runs for. -/
def State.opInst (s : State) (o : OpEntry) : Nat := s.ctxInst o.ctx

/-- NOP (06 Table 6-6). -/
def execNop (entry : Nat) (s : State) : Host.Outcome State Fault Refusal :=
  .next (match s.started entry opNop with | some _ => s.completeOp entry | none => s)

/-! ## CFE-executed signals (06 R326, R328, R333, 08 R415, 09 R456) -/

/-- The chip an OREF names. -/
def State.orefHome (s : State) (o : Nat) : ChipId := if orefChip o = 0 then s.dom.chipId else BitVec.ofNat 16 (orefChip o)

/-- One change of a CFE-executed operation at its object's home: into this chip's FIFO, for which it stalls while there is no room,
or as a pure signal in the class its operation requests, which is the unordered one (02 R110). It waits for the writes it releases (09 R451). -/
def State.cfeSignal (s : State) (e : Nat) (o : OpEntry) (oref : Nat) (kind : BitVec 2) (amount : BitVec 16) : State :=
  let home := s.orefHome oref
  let obj : BitVec 14 := BitVec.ofNat 14 (orefIdx oref)
  let i : BitVec 6 := BitVec.ofNat 6 (s.opInst o)
  let s1 := s.updOp e (fun w => { w with stage := .issued, out := 1 })
  if !s.released o.ctx o.idx then s
  else if home = s.dom.chipId then
    if s.fifoHasRoom then
      s1.fifoPush 0 { kind := kind, obj := obj, amount := amount, inst := i, chip := home, notice := none, origin := .op e }
    else s
  else if s.isLost home then s.failOp e { status := stChipLost, peer := home.toNat }
  else s1.pureSignal home (.opSignal e) i (hOrd o.hdr) { obj := obj, kind := kind, amount := amount, iovf := false, irpl := false }

def execSetFlag (entry : Nat) (s : State) : Host.Outcome State Fault Refusal :=
  .next (match s.started entry opSetFlag with | some o => s.cfeSignal entry o (hArg o.hdr 0 4) 0 0 | none => s)

def execClearFlag (entry : Nat) (s : State) : Host.Outcome State Fault Refusal :=
  .next (match s.started entry opClearFlag with | some o => s.cfeSignal entry o (hArg o.hdr 0 4) 1 0 | none => s)

def execTallyAdd (entry : Nat) (s : State) : Host.Outcome State Fault Refusal :=
  .next (match s.started entry opTallyAdd with
    | some o => s.cfeSignal entry o (hArg o.hdr 0 4) 2 (BitVec.ofNat 16 (hArg o.hdr 4 4))
    | none => s)

/-- One arrival (08 R429 step 1); with HOLD the arrival's waiter registers as it is counted (08 R430). -/
def execBarrierArrive (entry : Nat) (s : State) : Host.Outcome State Fault Refusal :=
  .next (match s.started entry opBarrierArrive with | some o => s.cfeSignal entry o (hArg o.hdr 0 4) 3 1 | none => s)

/-! ## Waits and TEST (06 R327, R329 to R332, 08 R407, R420, R989, 09 R457, 14 R611) -/

/-- What an access to an object of this chip meets, its storage read first. -/
def State.access (s : State) (kind idx i : Nat) : Nat × State :=
  let s1 := s.touchObj kind idx
  (s1.objVerdict kind idx i, s1)

/-- A wait takes its place in the Gallery's order after every change ahead of it; one whose condition decides ends at once; another
registers, one waiter for each tile of its stands or one for its CFE slot. -/
def State.register (s0 : State) (e op : Nat) (objs : List (Nat × Nat)) (cond : Cond) (timeout : Nat) : State :=
  match (s0.observe).started e op with
  | none => s0.observe
  | some o =>
    let r := objs.foldl (fun (a : Option (Nat × Nat × Nat) × State) x =>
      let q := a.2.access x.1 x.2 (a.2.opInst o)
      (match a.1 with | some b => some b | none => if q.1 = 0 then none else some (x.1, x.2, q.1), q.2)) (none, s0.observe)
    let s := r.2
    match r.1 with
    | some (k, x, v) =>
      let s1 := if v = 0x10 then s.crossTenant k x (s.opInst o) s.dom.chipId else s
      s1.failOp e (s1.objErr k x v)
    | none =>
      match s.judge cond with
      | .pass => s.endWait e .pass
      | .fail => s.endWait e .fail
      | .wait =>
        let t0 := o.since.getD s.now
        let dl := if timeout = 0 then none else some (t0 + 1000 * timeout)
        let holders : List (BitVec 16) := if hStands o.hdr = 0 then [BitVec.ofNat 16 (o.slot.getD 0)]
          else (tilesOf (hStands o.hdr)).map (fun t => BitVec.ofNat 16 (0x800 + t))
        let ws : List Waiter := holders.map (fun h => { entry := e, holder := h, cond := cond, deadline := dl })
        ({ s with gal := { s.gal with waiters := s.gal.waiters ++ ws } }).updOp e (fun w => { w with stage := .held, since := some t0 })

def execWait (entry : Nat) (s : State) : Host.Outcome State Fault Refusal :=
  .next (match s.started entry opWait with
    | some o =>
      let f := orefIdx (hArg o.hdr 0 4)
      s.register entry opWait [(0, f)] (.flagIs f (bit (hArg o.hdr 4 4) 0)) (hArg o.hdr 8 4)
    | none => s)

def execTallyWait (entry : Nat) (s : State) : Host.Outcome State Fault Refusal :=
  .next (match s.started entry opTallyWait with
    | some o =>
      let t := orefIdx (hArg o.hdr 0 4)
      s.register entry opTallyWait [(1, t)] (.tallyGe t (BitVec.ofNat 32 (hArg o.hdr 12 4))) (hArg o.hdr 8 4)
    | none => s)

def execTallyWaitSpace (entry : Nat) (s : State) : Host.Outcome State Fault Refusal :=
  .next (match s.started entry opTallyWaitSpace with
    | some o =>
      let p := orefIdx (hArg o.hdr 0 4)
      let c := orefIdx (hArg o.hdr 4 4)
      s.register entry opTallyWaitSpace [(1, p), (1, c)] (.space p c (BitVec.ofNat 16 (hArg o.hdr 8 4))) (hArg o.hdr 12 4)
    | none => s)

/-- An object read by a CFE-executed operation at this chip: nothing where the access is refused, which fails it. -/
def State.readObject (s0 : State) (e op kind idx : Nat) : Option OpEntry × State :=
  match (s0.observe).started e op with
  | none => (none, s0.observe)
  | some o =>
    let r := (s0.observe).access kind idx ((s0.observe).opInst o)
    if r.1 = 0 then (some o, r.2)
    else
      let s1 := if r.1 = 0x10 then r.2.crossTenant kind idx (r.2.opInst o) r.2.dom.chipId else r.2
      (none, s1.failOp e (s1.objErr kind idx r.1))

/-- A few bytes the CFE writes for an operation, which completes once they have committed; where it is the share's last and goes to the admitting
chip, the increment rides it (07 R381). -/
def State.cfeWrite (s : State) (e dva : Nat) (bs : List Byte) : State :=
  let s1 := s.opWrite e [{ base := dva, len := bs.length, runs := [(dva, bs)], whole := true }] true
  match s1.op e with
  | some o => if o.tailTo.isSome && o.out = 0 then s1.finishOp e o else s1.cfeDone e
  | none => s1

/-- TEST: the flag's state or the tally's value, as 4 bytes (06 R327). -/
def execTest (entry : Nat) (s : State) : Host.Outcome State Fault Refusal :=
  .next (match s.started entry opTest with
    | none => s
    | some o =>
      let kind := fld (hArg o.hdr 4 4) 0 1
      let idx := orefIdx (hArg o.hdr 0 4)
      match s.readObject entry opTest kind idx with
      | (none, s1) => s1
      | (some o1, s1) =>
        let v := if kind = 0 then b2n (s1.flag idx) else (s1.tally idx).toNat
        s1.cfeWrite entry (hDva24 o1.hdr) (toLe 4 v))

/-- SIGNAL_PEER: one posted write of 4 or 8 bytes (06 R341, 04 R230, R231). -/
def execSignalPeer (entry : Nat) (s : State) : Host.Outcome State Fault Refusal :=
  .next (match s.started entry opSignalPeer with
    | some o => s.cfeWrite entry (hDva16 o.hdr) (toLe (if bit (hArg o.hdr 4 4) 16 then 8 else 4) (hArg o.hdr 8 8))
    | none => s)

/-- TIMESTAMP: the time counter as it stood when the operation became ready (06 R342). -/
def execTimestamp (entry : Nat) (s : State) : Host.Outcome State Fault Refusal :=
  .next (match s.started entry opTimestamp with
    | some o => s.cfeWrite entry (hDva16 o.hdr) (toLe 8 o.readyAt)
    | none => s)

/-! ## FENCE_GLOBAL (09 R458 to R461; log 43) -/

/-- The fence waits for an operation that had been dispatched when the fence became ready and is not complete; waits, enqueues, other fences and chain
headers issue nothing to wait for. -/
def fenceWaits (f : OpEntry) (x : OpEntry) : Bool :=
  !x.dead && (f.mark.getD (0, [])).2.contains x.idx
    && (x.out ≠ 0 || !([opWait, opTallyWait, opTallyWaitSpace, opCondEnqueue, opFence, opChain].contains (hOpcode x.hdr)))

/-- What operation `i` issued as transfer number `n` is older than the fence. -/
def fenceOlder (f : OpEntry) (i n : Nat) : Bool := i ≠ f.idx && ((f.mark.getD (0, [])).2.contains i || decide (n < (f.mark.getD (0, [])).1))

/-- A transfer that ends with an attached signal of the fence's buffer and is older than the fence. -/
def Xfer.fenced (f : OpEntry) (x : Xfer) : Bool :=
  match x.purpose with
  | .attached n i _ _ => n == f.ctx && fenceOlder f i x.stamp
  | _ => false

/-- Everything the fence waits for on this chip is in place; a host write that the dirty log holds back is not. -/
def State.fenceClear (s : State) (e : Nat) (o : OpEntry) : Bool :=
  (s.opsOf o.ctx).all (fun x => x.1 == e || !fenceWaits o x.2)
    && !s.fab.xfers.any (Xfer.fenced o) && !s.fab.queued.any (Xfer.fenced o)
    && !((s.ctx o.ctx).hostWrites.any (fun h => h.1 == s.dom.chipId) && s.holds_ (s.opInst o))

/-- The failure of a transfer the fence waits for (09 R461). -/
def State.fenceErr (s : State) (o : OpEntry) : Option Err := ((s.ctx o.ctx).xferErrs.find? (fun x => fenceOlder o x.1 x.2.1)).map (·.2.2)

/-- The flush read of one portal (09 Table 9-1). -/
def State.flushRead (s : State) (e : Nat) (o : OpEntry) (h : ChipId × Nat) : State :=
  let i := s.opInst o
  let s1 := s.updOp e (fun w => { w with out := w.out + 1 })
  if h.1 = s.dom.chipId then s1.hostRead i (s.busAddr i h.2) 0 false (.fence e)
  else s1.newXfer h.1 (.fence e) [readPkt (BitVec.ofNat 6 i) h.2 0 true]

/-- FENCE_GLOBAL: once its buffer's earlier work on this chip has committed, one flush read for each portal written through; with
nothing to flush it completes. -/
def execFenceGlobal (entry : Nat) (s : State) : Host.Outcome State Fault Refusal :=
  .next (match s.started entry opFence with
    | none => s
    | some o =>
      match s.fenceErr o with
      | some x => s.failOp entry x
      | none =>
      if !s.fenceClear entry o then s
      else
        let hs := (s.ctx o.ctx).hostWrites
        match hs.find? (fun h => s.isLost h.1) with
        | some h => s.failOp entry { status := stChipLost, peer := h.1.toNat }
        | none =>
          if hs.any (fun h => h.1 == s.dom.chipId) && !s.mayIssue (s.opInst o) then s.failOp entry { status := stXltFault }
          else
            let s1 := (s.updCtx o.ctx (fun x => { x with hostWrites := [] })).updOp entry (fun w => { w with stage := .issued })
            (hs.foldl (fun s h => s.flushRead entry o h) s1).cfeDone entry)

/-! ## CHAIN, COND_ENQUEUE (06 R334 to R340, 07 R374, R391 to R395) -/

/-- CHAIN: its first chained operation starts on the stands it holds. -/
def execChain (entry : Nat) (s : State) : Host.Outcome State Fault Refusal :=
  .next (match s.started entry opChain with
    | some o => (s.updOp entry (fun w => { w with stage := .issued })).chainNext o.ctx o.idx (o.idx + 1)
    | none => s)

/-- The device-resident ring an enqueue names. -/
def State.enqueueRing (s : State) (o : OpEntry) : Option Nat := s.drRing (s.opInst o) (fld (hArg o.hdr 4 4) 8 6)

/-- The push of an enqueue whose condition held: refused by a disabled ring, kept waiting by a full one. -/
def State.enqueue (s : State) (e : Nat) (o : OpEntry) : State :=
  match s.enqueueRing o with
  | none => s.failOp e { status := stOpConfig }
  | some n =>
    let d := s.dr n
    if d.size = 0 then s.failOp e { status := stOpConfig }
    else if 2 ^ d.size.toNat ≤ (d.push - d.release).toNat then s.updOp e (fun w => { w with stage := .held })
    else
      let entry := putAt o.body 8 (toLe 6 d.nextTag)
      let s1 := s.updDr n (fun q => { q with push := q.push + 1, nextTag := q.nextTag + 1, entries := q.entries ++ [entry] }) |>.hallWritten (pushWords n d.nextTag)
      let s2 := match d.guilty with | some g => if g.done then s1.skipEntries (.dr n) else s1 | none => s1
      s2.completeOp e

/-- The condition of an enqueue, at its object (06 R337). -/
def State.condHolds (s : State) (o : OpEntry) : Bool :=
  let idx := orefIdx (hArg o.hdr 0 4)
  let v : Word32 := BitVec.ofNat 32 (hArg o.hdr 8 4)
  let ge := decide ((s.tally idx - v).toNat < 2 ^ 31)
  match fld (hArg o.hdr 4 4) 0 3 with
  | 0 => true
  | 1 => s.flag idx
  | 2 => !s.flag idx
  | 3 => ge
  | _ => !ge

def execCondEnqueue (entry : Nat) (s : State) : Host.Outcome State Fault Refusal :=
  .next (match s.started entry opCondEnqueue with
    | none => s
    | some o =>
      let c := fld (hArg o.hdr 4 4) 0 3
      if c = 0 then s.enqueue entry o
      else
        match s.readObject entry opCondEnqueue (if c < 3 then 0 else 1) (orefIdx (hArg o.hdr 0 4)) with
        | (none, s1) => s1
        | (some o1, s1) => if s1.condHolds o1 then s1.enqueue entry o1 else s1.completeOp entry)

/-- A slot is released and a waiting enqueue pushes (07 R394). -/
def execCondEnqueuePush (entry : Nat) (s : State) : Host.Outcome State Fault Refusal :=
  .next (match s.op entry with
    | some o => if s.live && o.stage = .held && !o.dead && hOpcode o.hdr = opCondEnqueue then s.enqueue entry o else s
    | none => s)

/-! ## COPY (06 R322 to R325, 03 R191 to R194) -/

/-- The granules of a COPY's destination not yet copied, in ascending order, each with the source bytes as they stand when it is copied (R324); one of a
range longer than 64 KiB once the one before it has committed (03 R193). Answers what the last came to; none while bytes or a commitment are awaited. -/
def State.copyGranules (s : State) (e i : Nat) (o : OpEntry) (src dst n : Nat) : List (Nat × Nat) → Option Wrote × State
  | [] => (some .none, s)
  | p :: ps =>
    let big := decide (0x10000 < n)
    let busy := match s.op e with | some q => q.out != 0 | none => false
    if big && busy then (none, s)
    else
    match s.opGather e (s.gatherPieces i o.staged 1 src (piecesOf (src + (p.1 - dst)) p.2)) with
    | (none, s1) => (none, s1)
    | (some bs, s1) =>
      let w := s1.storeAll o.ctx i (hOrd o.hdr) false [{ dva := p.1, base := dst, granule := big, data := bs }]
      if w.1.bad.isSome || ps.isEmpty then (some w.1, w.2)
      else
        let xs := w.1.sent.filterMap id
        let s2 := xs.foldl (fun s x => s.newXfer x.1 (.op e x.2.1) x.2.2) w.2
        (s2.updOp e (fun q => { q with out := q.out + xs.length, copied := p.1 + p.2 - dst, gran := w.1.gran, toHost := q.toHost || w.1.posted })).copyGranules e i o src dst n ps

/-- COPY: its ranges are checked before any byte is written; then granule by granule as each granule's source is in hand. A COPY of 0 bytes touches
nothing. A granule refused meanwhile ends it. -/
def execCopy (entry : Nat) (s : State) : Host.Outcome State Fault Refusal :=
  .next (match s.started entry opCopy with
    | none => s
    | some o =>
      let i := s.opInst o
      let src := copySrc o.body
      let dst := copyDst o.body
      let n := copyLen o.body
      if n = 0 then s.updOp entry (fun w => { w with stage := .issued })
      else if s.hasReq entry then s
      else
        match s.checkPieces i 1 src false (piecesOf src n) with
        | (some (_, x), s1) => s1.failOp entry x
        | (none, s1) =>
          match s1.outHeld i [{ base := dst, len := n, runs := [(dst, zeros n)], whole := false }] with
          | some x => s1.holdReq entry x
          | none =>
            let k := s1.rangeEnd i { base := dst, len := n, runs := [], whole := false }
            let todo := (piecesOf dst n).filter (fun p => decide (dst + o.copied ≤ p.1 ∧ p.1 < k.1))
            match k.2.2.copyGranules entry i o src dst n todo with
            | (none, s2) => s2
            | (some w, s2) => (s2.updOp entry (fun q => { q with err := (match q.err with | some x => some x | none => k.2.1) })).opSent entry true w)

end Sys2Proof.Machine
end

