-- ==== Sys2Proof/Machine/Num.lean ====
section
/-! DEFINITION. Numbers of the catalogue: element types, exact values, roundings, conversions, chunked sums and the function table (10 R478 to R490, 11 R516 to R518). -/

namespace Sys2Proof.Machine

/-! ## Exact values -/

/-- A value between two roundings: NaN (always 0x7FC0_0000 in FP32), an infinity, or (-1)^neg * m * 2^e, zeros with their sign. -/
inductive Fp where
  | nan
  | inf (neg : Bool)
  | fin (neg : Bool) (m : Nat) (e : Int)
  deriving DecidableEq, Repr

def Fp.zero : Fp := .fin false 0 0
def Fp.one : Fp := .fin false 1 0

/-- The exact value of an integer. -/
def Fp.ofInt (v : Int) : Fp := .fin (decide (v < 0)) v.natAbs 0

/-- The sign bit; clear for NaN. -/
def Fp.neg? : Fp → Bool
  | .nan => false
  | .inf n => n
  | .fin n _ _ => n

def Fp.isZero : Fp → Bool
  | .fin _ 0 _ => true
  | _ => false
def Fp.isNan : Fp → Bool
  | .nan => true
  | _ => false
def Fp.isInf : Fp → Bool
  | .inf _ => true
  | _ => false

/-- The value with its sign reversed. -/
def Fp.negate : Fp → Fp
  | .nan => .nan
  | .inf n => .inf (!n)
  | .fin n m e => .fin (!n) m e

/-- The magnitude. -/
def Fp.abs : Fp → Fp
  | .nan => .nan
  | .inf _ => .inf false
  | .fin _ m e => .fin false m e

/-! ## Rounding to nearest, ties to even -/

/-- m * 2^e rounded to `p` bits, its last bit at or above 2^qmin: the significand and its exponent. -/
def roundNE (p : Nat) (qmin : Int) (m : Nat) (e : Int) : Nat × Int :=
  if m = 0 then (0, qmin)
  else
    let q := max (e + (Nat.log2 m : Int) + 1 - p) qmin
    let r : Nat × Int :=
      if q ≤ e then (m * 2 ^ (e - q).toNat, q)
      else
        let d := (q - e).toNat
        let quo := m >>> d
        let rest := m % 2 ^ d
        let up := decide (2 ^ (d - 1) < rest) || (decide (rest = 2 ^ (d - 1)) && decide (quo % 2 = 1))
        (quo + b2n up, q)
    if r.1 = 2 ^ p then (2 ^ (p - 1), r.2 + 1) else r

/-- A binary format: significand bits, exponent of the last subnormal bit, exponent bits. -/
structure Fmt where
  p    : Nat
  qmin : Int
  ebits : Nat
  deriving DecidableEq, Repr

def fmt32 : Fmt := { p := 24, qmin := -149, ebits := 8 }
def fmtBf : Fmt := { p := 8, qmin := -133, ebits := 8 }
def fmtE5 : Fmt := { p := 3, qmin := -16, ebits := 5 }
def fmtE4 : Fmt := { p := 4, qmin := -9, ebits := 4 }

/-- Exponent code of a rounded significand. -/
def Fmt.code (f : Fmt) (r : Nat × Int) : Nat := if r.1 < 2 ^ (f.p - 1) then 0 else (r.2 - f.qmin).toNat + 1

/-- Exponent and significand fields of a finite rounded value. -/
def Fmt.field (f : Fmt) (r : Nat × Int) : Nat := f.code r * 2 ^ (f.p - 1) + (if r.1 < 2 ^ (f.p - 1) then r.1 else r.1 - 2 ^ (f.p - 1))

/-- One FP32 rounding: overflow gives an infinity (10 Table 10-5). -/
def f32 : Fp → Fp
  | .fin n m e =>
    let r := roundNE 24 (-149) m e
    if 255 ≤ fmt32.code r then .inf n else .fin n r.1 r.2
  | v => v

/-- Bits of an IEEE-like format with infinities and one NaN code (10 Table 10-5). -/
def Fmt.bits (f : Fmt) (nanCode : Nat) : Fp → Nat
  | .nan => nanCode
  | .inf n => b2n n * 2 ^ (f.ebits + f.p - 1) + (2 ^ f.ebits - 1) * 2 ^ (f.p - 1)
  | .fin n m e =>
    let r := roundNE f.p f.qmin m e
    let sign := b2n n * 2 ^ (f.ebits + f.p - 1)
    if 2 ^ f.ebits - 1 ≤ f.code r then sign + (2 ^ f.ebits - 1) * 2 ^ (f.p - 1) else sign + f.field r

/-- E4M3: no infinities, saturation at 448, NaN 0x7F (10 R480, Table 10-5). -/
def bitsE4 : Fp → Nat
  | .nan => 0x7F
  | .inf n => b2n n * 128 + 0x7E
  | .fin n m e =>
    let r := roundNE 4 (-9) m e
    b2n n * 128 + min 0x7E (fmtE4.field r)

/-- FP32 bits. -/
def bits32 (v : Fp) : Nat := fmt32.bits 0x7FC00000 v

/-- A value from the bits of a format; `special` has infinities and NaN at the top exponent. -/
def Fmt.value (f : Fmt) (special : Bool) (v : Nat) : Fp :=
  let n := bit v (f.ebits + f.p - 1)
  let c := fld v (f.p - 1) f.ebits
  let m := fld v 0 (f.p - 1)
  if special && c = 2 ^ f.ebits - 1 then (if m = 0 then .inf n else .nan)
  else if c = 0 then .fin n m f.qmin
  else .fin n (m + 2 ^ (f.p - 1)) (f.qmin + c - 1)

def value32 (v : Nat) : Fp := fmt32.value true v

/-! ## Element types (10 Table 10-3) -/

def tyInt8 : Nat := 1
def tyUint8 : Nat := 2
def tyInt4 : Nat := 3
def tyUint4 : Nat := 4
def tyE4 : Nat := 5
def tyE5 : Nat := 6
def tyBf : Nat := 7
def tyF32 : Nat := 8
def tyInt32 : Nat := 9

def tyOk (t : Nat) : Bool := decide (1 ≤ t ∧ t ≤ 9)
def tyIsInt (t : Nat) : Bool := decide (t ≤ 4) || t == 9
def tyIsFp8 (t : Nat) : Bool := t == 5 || t == 6
def tyIs4 (t : Nat) : Bool := t == 3 || t == 4
/-- FP32, BF16, E4M3 or E5M2. -/
def tyIsFloat (t : Nat) : Bool := decide (5 ≤ t ∧ t ≤ 8)

/-- Bits of an element. -/
def tyBits (t : Nat) : Nat := if tyIs4 t then 4 else if t = 7 then 16 else if t = 8 || t = 9 then 32 else 8

/-- Alignment in bytes (10 R475). -/
def tyAlign (t : Nat) : Nat := (tyBits t + 7) / 8

/-- Range of an integer type, of a zero point (10 R486, Table 10-5). -/
def tyMin (t : Nat) : Int := if t = 1 then -128 else if t = 3 then -8 else if t = 9 then -(2 ^ 31) else 0
def tyMax (t : Nat) : Int := if t = 1 then 127 else if t = 2 then 255 else if t = 3 then 7 else if t = 4 then 15 else 2 ^ 31 - 1
def inTy (t : Nat) (v : Int) : Bool := decide (tyMin t ≤ v ∧ v ≤ tyMax t)

/-- Bytes of a row of `n` elements (10 R479). -/
def rowBytes (t n : Nat) : Nat := (n * tyBits t + 7) / 8

/-- The stored code of element `j` of a row. -/
def elemCode (t : Nat) (row : List Byte) (j : Nat) : Nat :=
  if tyIs4 t then fld (byteAt row (j / 2)).toNat (4 * (j % 2)) 4 else leAt row (j * (tyBits t / 8)) (tyBits t / 8)

/-- The codes of a row of `n` elements. -/
def rowCodes (t n : Nat) (row : List Byte) : List Nat := (List.range n).map (elemCode t row)

/-- The integer an integer type's code stands for. -/
def codeInt (t v : Nat) : Int := if t = 1 then sext 8 v else if t = 3 then sext 4 v else if t = 9 then sext 32 v else v

/-- The exact value of an element. -/
def codeVal (t v : Nat) : Fp :=
  if tyIsInt t then Fp.ofInt (codeInt t v)
  else if t = 5 then (if v % 128 = 0x7F then .nan else fmtE4.value false v)
  else if t = 6 then fmtE5.value true v
  else if t = 7 then fmtBf.value true v
  else value32 v

/-- Nibbles packed, two to a byte (10 R479). -/
def packNibbles : List Nat → List Byte
  | [] => []
  | [a] => [BitVec.ofNat 8 a]
  | a :: b :: t => BitVec.ofNat 8 (a + 16 * b) :: packNibbles t

/-- A row's bytes from its codes. -/
def packRow (t : Nat) (cs : List Nat) : List Byte :=
  if tyIs4 t then packNibbles cs else cs.flatMap (fun c => toLe (tyBits t / 8) c)

/-- Nearest integer, ties to even. -/
def rintFp (n : Bool) (m : Nat) (e : Int) : Int :=
  let a : Nat :=
    if 0 ≤ e then m * 2 ^ e.toNat
    else
      let d := (-e).toNat
      let quo := m >>> d
      let rest := m % 2 ^ d
      quo + b2n (decide (2 ^ (d - 1) < rest) || (decide (rest = 2 ^ (d - 1)) && decide (quo % 2 = 1)))
  if n then -(a : Int) else a

/-- Clamped into a range. -/
def clampInt (lo hi v : Int) : Int := if v < lo then lo else if hi < v then hi else v

/-- Conversion of a value to a type, with a zero point for integers: the stored code (10 R481, Table 10-5). -/
def convert (t : Nat) (zp : Int) (v : Fp) : Nat :=
  if tyIsInt t then
    let r : Int := match v with
      | .nan => zp
      | .inf n => if n then tyMin t else tyMax t
      | .fin n m e => clampInt (tyMin t) (tyMax t) (rintFp n m e + zp)
    wrap (tyBits t) r
  else if t = 5 then bitsE4 v
  else if t = 6 then fmtE5.bits 0x7E v
  else if t = 7 then fmtBf.bits 0x7FC0 v
  else bits32 v

/-! ## Exact sums and products (10 R490, 11 R516) -/

/-- An exact product. -/
def Fp.mul : Fp → Fp → Fp
  | .nan, _ => .nan
  | _, .nan => .nan
  | .inf a, .inf b => .inf (a != b)
  | .inf a, .fin b m _ => if m = 0 then .nan else .inf (a != b)
  | .fin a m _, .inf b => if m = 0 then .nan else .inf (a != b)
  | .fin a m e, .fin b n f => .fin (a != b) (m * n) (e + f)

/-- The lowest exponent among finite values. -/
def lowExp : List Fp → Int
  | [] => 0
  | [.fin _ _ e] => e
  | .fin _ _ e :: t => min e (lowExp t)
  | _ :: t => lowExp t

/-- A finite value as a multiple of 2^q, for q at or below its exponent. -/
def Fp.scaled (q : Int) : Fp → Int
  | .fin n m e => (if n then -1 else 1) * ((m * 2 ^ (e - q).toNat : Nat) : Int)
  | _ => 0

/-- An exact sum: NaN wins, then infinities; an exact zero is +0.0 unless every term is -0.0 (10 R490). -/
def sumExact (ts : List Fp) : Fp :=
  if ts.any Fp.isNan || (ts.contains (.inf true) && ts.contains (.inf false)) then .nan
  else if ts.contains (.inf false) then .inf false
  else if ts.contains (.inf true) then .inf true
  else
    let q := lowExp ts
    let v := (ts.map (Fp.scaled q)).foldl (· + ·) 0
    if v = 0 then .fin (!ts.isEmpty && ts.all (fun t => t.isZero && t.neg?)) 0 0 else .fin (decide (v < 0)) v.natAbs q

/-- One FP32 addition, subtraction, multiplication. -/
def add32 (a b : Fp) : Fp := f32 (sumExact [a, b])
def sub32 (a b : Fp) : Fp := add32 a b.negate
def mul32 (a b : Fp) : Fp := f32 (a.mul b)

/-- A quotient of naturals as a significand with at least 64 bits and a sticky last bit. -/
def divSticky (m : Nat) (e : Int) (n : Nat) (f : Int) : Nat × Int :=
  let k := 64 + Nat.log2 n
  let num := m * 2 ^ k
  (2 * (num / n) + b2n (num % n != 0), e - f - k - 1)

/-- One FP32 division. -/
def div32 : Fp → Fp → Fp
  | .nan, _ => .nan
  | _, .nan => .nan
  | .inf _, .inf _ => .nan
  | .inf a, .fin b _ _ => .inf (a != b)
  | .fin a _ _, .inf b => .fin (a != b) 0 0
  | .fin a m e, .fin b n f =>
    if n = 0 then (if m = 0 then .nan else .inf (a != b))
    else
      let r := divSticky m e n f
      f32 (.fin (a != b) r.1 r.2)

/-- Order of two values, neither NaN; -0.0 is below +0.0 (11 R531). -/
def Fp.lt : Fp → Fp → Bool
  | .inf a, .inf b => a && !b
  | .inf a, _ => a
  | _, .inf b => !b
  | .fin a m e, .fin b n f =>
    if m = 0 && n = 0 then a && !b
    else
      let q := min e f
      decide (Fp.scaled q (.fin a m e) < Fp.scaled q (.fin b n f))
  | _, _ => false

/-- Numeric order, in which the zeros are equal. -/
def Fp.below (a b : Fp) : Bool := !(a.isZero && b.isZero) && a.lt b

/-- MAX and MIN (11 R531). -/
def max32 (a b : Fp) : Fp := if a.isNan || b.isNan then .nan else if a.lt b then b else a
def min32 (a b : Fp) : Fp := if a.isNan || b.isNan then .nan else if b.lt a then b else a

/-- A sequence in chunks of 32 (fuel: the number of chunks). -/
def chunks32 {α : Type} : Nat → List α → List (List α)
  | 0, _ => []
  | k + 1, l => if l.isEmpty then [] else l.take 32 :: chunks32 k (l.drop 32)

def chunksOf {α : Type} (l : List α) : List (List α) := chunks32 ((l.length + 31) / 32) l

/-- The chunked sum of exact terms (10 R489, 11 R516). -/
def chunkSum (ts : List Fp) : Fp :=
  match (chunksOf ts).map (fun c => f32 (sumExact c)) with
  | [] => .zero
  | c :: cs => cs.foldl add32 c

/-- A 32-bit two's-complement addition that wraps, and whether it did (10 R487, R488). -/
def addWrap (a b : Int) : Int × Bool :=
  let s := a + b
  (sext 32 (wrap 32 s), decide (s < -(2 ^ 31) ∨ 2 ^ 31 ≤ s))

/-- The integer accumulator: chunk sums added with wrapping; its OVF (10 R487). -/
def intAcc (ts : List Int) : Int × Bool :=
  ((chunksOf ts).map (fun c => c.foldl (· + ·) 0)).foldl (fun a c => let r := addWrap a.1 c; (r.1, a.2 || r.2)) (0, false)

/-! ## The function table (11 R518, Table 11-2)

Functions whose value is irrational are evaluated in fixed point with 1,024 fractional bits, the tail shown by a sticky last bit, and
rounded once (log 44). -/

/-- Fractional bits. -/
def fxBits : Nat := 1024
def fxOne : Int := 2 ^ 1024

/-- A finite value in fixed point; exact for FP32 values. -/
def Fp.fx : Fp → Int
  | .fin n m e => (if n then -1 else 1) * ((m * 2 ^ (1024 + e).toNat : Nat) : Int)
  | _ => 0

def fxMul (a b : Int) : Int := (a * b) / fxOne
def fxDiv (a b : Int) : Int := (a * fxOne) / b

/-- FP32 nearest to a fixed-point value whose tail is not zero. -/
def fxRound (v : Int) : Fp := f32 (.fin (decide (v < 0)) (2 * v.natAbs + 1) (-1025))

/-- Terms x^k/k! from k on (fuel: terms). -/
def fxExpSum (x : Int) : Nat → Nat → Int → Int
  | 0, _, _ => 0
  | n + 1, k, t => t + fxExpSum x n (k + 1) (fxMul t x / (k + 1 : Nat))

/-- v squared eight times. -/
def fxSquares : Nat → Int → Int
  | 0, v => v
  | n + 1, v => fxSquares n (fxMul v v)

/-- e^x for |x| below 512. -/
def fxExp (x : Int) : Int := fxSquares 8 (fxExpSum (x / 256) 220 0 fxOne)

/-- e^x - 1 for small |x|, without losing its leading bits. -/
def fxExpm1 (x : Int) : Int := fxExpSum x 220 1 x

/-- The arc tangent of 1/k, of a hyperbolic kind with `sgn` 1 and a circular one with -1 (fuel: terms). -/
def fxAtanSum (sgn : Int) (z2 : Int) : Nat → Nat → Int → Int
  | 0, _, _ => 0
  | n + 1, k, t => t / (k : Nat) + fxAtanSum sgn z2 n (k + 2) (sgn * fxMul t z2)

/-- 2 atanh z. -/
def fxAtanh2 (z : Int) : Int := 2 * fxAtanSum 1 (fxMul z z) 400 1 z
def fxLn2 : Int := fxAtanh2 (fxOne / 3)

/-- π, by Machin's formula. -/
def fxAtanInv (k : Nat) : Int := fxAtanSum (-1) (fxMul (fxOne / (k : Nat)) (fxOne / (k : Nat))) 460 1 (fxOne / (k : Nat))
def fxPi : Int := 4 * (4 * fxAtanInv 5 - fxAtanInv 239)

/-- The integer square root by Newton's method from above (fuel: steps). -/
def isqrtFrom : Nat → Nat → Nat → Nat
  | 0, _, x => x
  | k + 1, n, x => if x = 0 then 0 else (let y := (x + n / x) / 2; if y < x then isqrtFrom k n y else x)
def isqrt (n : Nat) : Nat := if n = 0 then 0 else isqrtFrom (Nat.log2 n + 8) n (2 ^ (Nat.log2 n / 2 + 1))

/-- √v in fixed point. -/
def fxSqrt (v : Int) : Int := ((isqrt ((v * fxOne).toNat) : Nat) : Int)

/-- Terms of (-1)^n x^(2n+1) / (2^n n! (2n+1)) (fuel: terms). -/
def fxPhiSum (x2 : Int) : Nat → Nat → Int → Int
  | 0, _, _ => 0
  | k + 1, n, t => t / (2 * n + 1 : Nat) + fxPhiSum x2 k (n + 1) (-(fxMul t x2) / (2 * (n + 1) : Nat))

/-- Φ(x) for |x| at most 16. -/
def fxPhi (x : Int) : Int := fxOne / 2 + fxDiv (fxPhiSum (fxMul x x) 900 0 x) (fxSqrt (2 * fxPi))

/-- 1 / (1 + e^(-x)). -/
def fxSigmoid (x : Int) : Int := fxDiv fxOne (fxOne + fxExp (-x))

/-- An integer bound on |x| is passed. -/
def Fp.beyond (v : Fp) (n : Nat) : Bool := (Fp.fin false n 0).below v.abs

/-- tanh. -/
def fxTanh (x : Int) : Int :=
  if x.natAbs < fxOne.natAbs / 4 then fxDiv (fxExpm1 (2 * x)) (2 * fxOne + fxExpm1 (2 * x))
  else fxDiv (fxExp (2 * x) - fxOne) (fxExp (2 * x) + fxOne)

/-- ln of m * 2^e, m nonzero. -/
def fxLn (m : Nat) (e : Int) : Int :=
  let b := Nat.log2 m
  let y : Int := ((m : Nat) : Int) * fxOne / ((2 ^ b : Nat) : Int)
  let k := e + b
  if 3 * fxOne < 2 * y then fxAtanh2 (fxDiv (y / 2 - fxOne) (y / 2 + fxOne)) + (k + 1) * fxLn2
  else fxAtanh2 (fxDiv (y - fxOne) (y + fxOne)) + k * fxLn2

/-- √(m 2^e) as a significand with a sticky bit. -/
def sqrtSticky (m : Nat) (e : Int) : Nat × Int :=
  let k : Nat := 64 + (if (e % 2 = 0) then 0 else 1)
  let n := m * 2 ^ k
  let m2 := n * 2 ^ 64
  let r := isqrt m2
  (2 * r + b2n (r * r != m2), (e - k - 64) / 2 - 1)

/-- 1/√(m 2^e) as a significand with a sticky bit. -/
def rsqrtSticky (m : Nat) (e : Int) : Nat × Int :=
  let m1 := if e % 2 = 0 then m else 2 * m
  let e1 := if e % 2 = 0 then e else e - 1
  let kk := 64 + Nat.log2 m1
  let n := 2 ^ (2 * kk)
  let r := isqrt (n / m1)
  (2 * r + b2n (r * r * m1 != n), -(kk : Int) - e1 / 2 - 1)

/-- GELU on a finite nonzero value. -/
def geluFin (v : Fp) : Fp :=
  if v.beyond 16 then (if v.neg? then .fin true 0 0 else v) else fxRound (fxMul v.fx (fxPhi v.fx))

/-- GELU_TANH: x / (1 + e^(-2t)), t = √(2/π)(x + 0.044715 x³). -/
def geluTanhFin (v : Fp) : Fp :=
  if v.beyond 12 then (if v.neg? then .fin true 0 0 else v)
  else
    let x := v.fx
    let t := fxMul (fxSqrt (fxDiv (2 * fxOne) fxPi)) (x + fxMul (fxMul x x) x * 44715 / 1000000)
    fxRound (fxMul x (fxSigmoid (2 * t)))

def siluFin (v : Fp) : Fp :=
  if v.beyond 128 then (if v.neg? then .fin true 0 0 else v) else fxRound (fxMul v.fx (fxSigmoid v.fx))

def sigmoidFin (v : Fp) : Fp :=
  if v.beyond 128 then (if v.neg? then .zero else .one) else fxRound (fxSigmoid v.fx)

def tanhFin (v : Fp) : Fp := if v.beyond 64 then .fin v.neg? 1 0 else fxRound (fxTanh v.fx)

def expFin (v : Fp) : Fp :=
  if v.beyond 128 then (if v.neg? then .zero else .inf false) else fxRound (fxExp v.fx)

def logFin (m : Nat) (e : Int) : Fp :=
  if m = 2 ^ Nat.log2 m && e + Nat.log2 m = 0 then .zero else fxRound (fxLn m e)

/-- A function code that Table 11-2 lists. -/
def fnOk (c : Nat) : Bool := decide (c ≤ 0x0E)

/-- The function of code `c` at an FP32 argument (11 R518). -/
def fnVal (c : Nat) (x : Fp) : Fp :=
  match x with
  | .nan => .nan
  | .inf n =>
    match c with
    | 0x00 => x
    | 0x01 => if n then .zero else x
    | 0x02 => if n then .fin true 0 0 else x
    | 0x03 => if n then .fin true 0 0 else x
    | 0x04 => if n then .fin true 0 0 else x
    | 0x05 => if n then .zero else .one
    | 0x06 => .fin n 1 0
    | 0x07 => if n then .zero else x
    | 0x08 => if n then .nan else x
    | 0x09 => if n then .nan else x
    | 0x0A => if n then .nan else .zero
    | 0x0B => .fin n 0 0
    | 0x0C => .inf (!n)
    | 0x0D => .inf false
    | _ => .inf false
  | .fin n m e =>
    if m = 0 then
      match c with
      | 0x01 => .zero
      | 0x05 => .fin false 1 (-1)
      | 0x07 => .one
      | 0x08 => .inf true
      | 0x0A => .inf n
      | 0x0B => .inf n
      | 0x0C => .fin (!n) 0 0
      | 0x0D => .zero
      | 0x0E => .zero
      | _ => .fin n 0 0
    else
      match c with
      | 0x00 => x
      | 0x01 => if n then .zero else x
      | 0x02 => geluFin x
      | 0x03 => geluTanhFin x
      | 0x04 => siluFin x
      | 0x05 => sigmoidFin x
      | 0x06 => tanhFin x
      | 0x07 => expFin x
      | 0x08 => if n then .nan else logFin m e
      | 0x09 => if n then .nan else (let r := sqrtSticky m e; f32 (.fin false r.1 r.2))
      | 0x0A => if n then .nan else (let r := rsqrtSticky m e; f32 (.fin false r.1 r.2))
      | 0x0B => div32 .one x
      | 0x0C => x.negate
      | 0x0D => x.abs
      | _ => mul32 x x

/-- EXP (11). -/
def exp32 (x : Fp) : Fp := fnVal 0x07 x

end Sys2Proof.Machine
end

