-- ==== Sys2Proof/Machine/Launch.lean ====
section
/-! DEFINITION. Catalogue operations: descriptors, operands, how a share reads, computes and writes; MATMUL, CONV, QUANTIZE, DEQUANTIZE (10). -/

namespace Sys2Proof.Machine

/-! ## Descriptors and operands (10 R472 to R476, R998, R504, R506) -/

/-- The chip coordinate (10 R472, R473). -/
def chipCoord (chip : ChipId) (d : List Byte) : Option Nat :=
  let g := fld chip.toNat 8 8
  let m := fld chip.toNat 0 8
  let gb := leAt d 0 1
  let mb := leAt d 1 1
  if g < gb || m < mb then none else some (((g - gb) * leAt d 2 2 + (m - mb)) % 2 ^ 32)

/-- An operand record used with rows of `n` elements of type `t`; none where it is a reserved encoding (10 R474, R475). -/
def operand (d : List Byte) (off c align rows len : Nat) (vector : Bool) : Option Oper :=
  let base := leAt d off 8 + c * leAt d (off + 8) 4 * 64
  let ld := leAt d (off + 12) 4
  if 2 ^ 48 ≤ leAt d off 8 then none
  else if base % align ≠ 0 then none
  else if vector then (if ld ≠ 0 then none else some { base := base, rows := if len = 0 then 0 else 1, len := len, ld := len })
  else if 1 < rows && ld < len then none
  else some { base := base, rows := rows, len := len, ld := if rows ≤ 1 then len else ld }

/-- A matrix operand: rows of `n` elements of type `t`. -/
def matrixOp (d : List Byte) (off c t rows n : Nat) : Option Oper := operand d off c (tyAlign t) rows (rowBytes t n) false

/-- A vector operand of `n` elements of `size` bytes. -/
def vectorOp (d : List Byte) (off c size n : Nat) : Option Oper := operand d off c size 1 (size * n) true

/-- An operand the operation does not use: every byte zero. -/
def unusedOp (d : List Byte) (off : Nat) : Option Unit := if allZero ((d.drop off).take 16) then some () else none

/-- A condition a descriptor must keep. -/
def need (b : Bool) : Option Unit := if b then some () else none

/-- Bytes of a descriptor that are reserved. -/
def rsvBytes (d : List Byte) (off n : Nat) : Bool := allZero ((d.drop off).take n)

/-- No output shares a byte of its span with an input (10 R506). -/
def apart (ins outs : List Oper) : Bool :=
  outs.all (fun o => ins.all (fun i => !overlap o.base o.span i.base i.span))

/-! ## A share as a plan -/

/-- What a share's computation comes to: OP_CONFIG found in the data, or the runs of each output and OVF. -/
inductive Calc where
  | bad
  | done (runs : List (List (Nat × List Byte))) (ovf : Bool)
  deriving DecidableEq, Repr

/-- A share: operands checked whole and read first, what their bytes ask to be read next, outputs, and the result. `more` answers
none where the bytes fail the share with OP_CONFIG (10 R999, 11 R521, R537). -/
structure Plan where
  ins   : List Oper
  checks : List Oper
  more  : List (List Byte) → Option (List Oper)
  outs  : List Oper
  whole : Bool
  ride  : Bool
  /-- the resume point once everything is issued; 0 for an operation without one (12 R563) -/
  point : Nat
  result  : List (List Byte) → List (List Byte) → Calc

/-- A share that touches nothing. -/
def Plan.empty : Plan :=
  { ins := [], checks := [], more := fun _ => some [], outs := [], whole := false, ride := true, point := 0, result := fun _ _ => .done [] false }

/-- The plan's ranges are checked for reading, without being read. -/
def State.checkOpers (s : State) (i : Nat) : List Oper → Option Err × State
  | [] => (none, s)
  | o :: os =>
    if o.span = 0 then s.checkOpers i os
    else
      match s.checkPieces i 1 o.base false (piecesOf o.base o.span) with
      | (some (_, x), s1) => (some x, s1)
      | (none, s1) => s1.checkOpers i os

/-- Operands read for entry `e`; none while bytes are awaited or after a failure. -/
def State.readOpers (s : State) (e : Nat) (o : OpEntry) (os : List Oper) : Option (List (List Byte)) × State :=
  let r := s.gatherOpers (s.opInst o) o.staged os
  match s.opGather e (r.1.1, r.2) with
  | (some _, s1) => (some r.1.2, s1)
  | (none, s1) => (none, s1)

/-- Where the bytes of an operand's rows lie: chip and LPA, or portal and bus address beyond every LPA. -/
def State.places (s : State) (i : Nat) (write : Bool) (o : Oper) : List (Nat × Nat × Nat) :=
  (List.range o.rows).flatMap (fun r => (piecesOf (o.row r) o.len).filterMap (fun p =>
    match (s.xlate i p.1 p.2 write).1 with
    | .mem c lpa _ => some (c.toNat, lpa, p.2)
    | .host c => some (c.toNat, 2 ^ 48 + s.busAddr i p.1, p.2)
    | _ => none))

/-- An output shares a byte with an input, through aliased translations (10 R506). -/
def State.aliased (s : State) (i : Nat) (ins outs : List Oper) : Bool :=
  let a := ins.flatMap (s.places i false)
  (outs.flatMap (s.places i true)).any (fun x => a.any (fun y => x.1 == y.1 && overlap x.2.1 x.2.2 y.2.1 y.2.2))

/-- Output bytes the spec leaves open: free ones in place of each run's (10 R506; log 8). -/
def State.freeRuns (s : State) : List (Nat × List Byte) → List (Nat × List Byte) × State
  | [] => ([], s)
  | r :: rs =>
    let q := s.drawBytes r.2.length
    let t := q.2.freeRuns rs
    ((r.1, q.1) :: t.1, t.2)

/-- The runs of every output, free where an operation of chapter 10 has its output in its input (10 R506). -/
def State.settled (s : State) (o : OpEntry) (ins outs : List Oper) (runs : List (List (Nat × List Byte))) : List (List (Nat × List Byte)) × State :=
  if hCat o.hdr < 0x20 && s.aliased (s.opInst o) ins outs then
    runs.foldl (fun (a : List (List (Nat × List Byte)) × State) r => let q := a.2.freeRuns r; (a.1 ++ [q.1], q.2)) ([], s)
  else (runs, s)

/-- A share runs its plan: checks and reads, then computes, then writes (10 R505, 03 R191). -/
def State.runPlan (s : State) (e : Nat) (o : OpEntry) (p : Plan) : State :=
  match s.checkOpers (s.opInst o) p.checks with
  | (some x, s0) => s0.failOp e x
  | (none, s0) =>
    match s0.readOpers e o p.ins with
    | (none, s1) => s1
    | (some a, s1) =>
      match p.more a with
      | none => s1.failOp e { status := stOpConfig }
      | some os =>
        match s1.readOpers e o os with
        | (none, s2) => s2
        | (some b, s2) =>
          match p.result a b with
          | .bad => s2.failOp e { status := stOpConfig }
          | .done cs ovf =>
            let q := s2.settled o (p.ins ++ os) p.outs cs
            let runs := q.1
            let s2 := q.2
            let rs : List OutRange := (p.outs.zip runs).map (fun x => { base := x.1.base, len := x.1.span, runs := x.2, whole := p.whole })
            (s2.updOp e (fun w => { w with ovf := w.ovf || ovf, resume := max w.resume p.point })).opWrite e (rs.filter (fun r => r.len ≠ 0)) p.ride

/-- A LAUNCH of catalogue operation `cat` runs the plan its descriptor makes; a descriptor that breaks a rule fails the share with
OP_CONFIG before any operand is translated (10 R473, R476). -/
def State.runLaunch (s : State) (e cat : Nat) (plan : Nat → List Byte → OpEntry → Option Plan) : State :=
  match s.started e opLaunch with
  | none => s
  | some o =>
    if hCat o.hdr ≠ cat then s
    else
      match (chipCoord s.dom.chipId o.body).bind (fun c => plan c o.body o) with
      | none => s.failOp e { status := stOpConfig }
      | some p => s.runPlan e o p

/-- Row `r` of `n` bytes among rows read one after another. -/
def rowOf (bs : List Byte) (n r : Nat) : List Byte := (bs.drop (r * n)).take n

/-- Runs of the rows of an output. -/
def rowRuns (o : Oper) (rows : List (List Byte)) : List (Nat × List Byte) := (indexed 0 rows).map (fun x => (o.row x.1, x.2))

/-- Signed 16-bit field. -/
def s16 (d : List Byte) (off : Nat) : Int := sext 16 (leAt d off 2)

/-- FP32 field. -/
def f32At (d : List Byte) (off : Nat) : Fp := value32 (leAt d off 4)

/-- Element `j` of an FP32 vector. -/
def f32Elem (bs : List Byte) (j : Nat) : Fp := value32 (leAt bs (4 * j) 4)

/-! ## MATMUL and CONV (10 R482 to R497) -/

/-- The fields MATMUL and CONV share. -/
structure Gemm where
  at_    : Nat
  wt     : Nat
  ot     : Nat
  relu   : Bool
  sa     : Nat
  sw     : Nat
  zwv    : Bool
  bias   : Bool
  za     : Int
  zw     : Int
  zo     : Int
  saV    : Fp
  swV    : Fp
  rso    : Fp
  deriving DecidableEq, Repr

/-- The integer path (10 Table 10-9). -/
def Gemm.isInt (g : Gemm) : Bool := g.at_ == 1 || g.at_ == 2

/-- Types, modes and zero points; `z` is the offset of ZA, `f` that of SA (10 R483, R484, R486). -/
def gemmOf (d : List Byte) (z f : Nat) : Option Gemm := do
  let b5 := leAt d 5 1
  let b6 := leAt d 6 1
  let g : Gemm :=
    { at_ := fld (leAt d 4 1) 0 4, wt := fld (leAt d 4 1) 4 4, ot := fld b5 0 4, relu := bit b5 4, sa := fld b6 0 2, sw := fld b6 2 2, zwv := bit b6 4,
      bias := bit b6 5, za := s16 d z, zw := s16 d (z + 2), zo := s16 d (z + 4), saV := f32At d f, swV := f32At d (f + 4),
      rso := f32At d (f + 8) }
  let intOut := g.ot == 1 || g.ot == 2
  need (decide (fld b5 5 3 = 0) && decide (fld b6 6 2 = 0) && decide (leAt d 7 1 = 0) && decide (g.sa < 3) && decide (g.sw < 3))
  need (if g.isInt then [1, 2, 3, 4].contains g.wt && [9, 8, 7, 5, 6, 1, 2].contains g.ot
        else if tyIsFp8 g.at_ then tyIsFp8 g.wt && [8, 7, 5, 6, 1, 2].contains g.ot
        else g.at_ == 7 && g.wt == 7 && [8, 7, 5, 6, 1, 2].contains g.ot)
  need (g.ot ≠ 9 || (g.sa == 0 && g.sw == 0 && !g.relu))
  need (g.sa = 1 || leAt d f 4 = 0)
  need (g.sw = 1 || leAt d (f + 4) 4 = 0)
  need (intOut || leAt d (f + 8) 4 = 0)
  need (if intOut then inTy g.ot g.zo else g.zo == 0)
  need (if g.isInt then inTy g.at_ g.za && (if g.zwv then g.zw == 0 else inTy g.wt g.zw) else g.za == 0 && g.zw == 0 && !g.zwv)
  return g

/-- One byte of a zero-point vector, with its type's signedness (10 R999). -/
def zpByte (t : Nat) (b : Byte) : Int := if t = 1 || t = 3 then sext 8 b.toNat else b.toNat

/-- Every byte of a zero-point vector lies in its type's range. -/
def zpVecOk (t : Nat) (bs : List Byte) : Bool := bs.all (fun b => inTy t (zpByte t b))

/-- The vectors of a GEMM as read. -/
structure GemmVec where
  bias : List Byte
  sav  : List Byte
  swv  : List Byte
  zwv  : List Byte
  deriving DecidableEq, Repr

/-- The accumulator of one element, before the epilogue: codes of A and W in reduction order; a padded A element is none
(10 R485 to R490, R496). Answers an integer's value or the FP32 value, and OVF. -/
def Gemm.acc (g : Gemm) (v : GemmVec) (n : Nat) (a : List (Option Nat)) (w : List Nat) : (Int ⊕ Fp) × Bool :=
  if g.isInt then
    let zw := if g.zwv then zpByte g.wt (byteAt v.zwv n) else g.zw
    let ts := (a.zip w).map (fun x => (match x.1 with | some c => codeInt g.at_ c - g.za | none => 0) * (codeInt g.wt x.2 - zw))
    let r := intAcc ts
    if g.bias then (let q := addWrap r.1 (sext 32 (leAt v.bias (4 * n) 4)); (.inl q.1, r.2 || q.2)) else (.inl r.1, r.2)
  else
    let ts := (a.zip w).map (fun x => (match x.1 with | some c => codeVal g.at_ c | none => .zero).mul (codeVal g.wt x.2))
    let b := f32Elem v.bias n
    if ts.isEmpty then (.inr (if g.bias then b else .zero), false)
    else (.inr (if g.bias then add32 (chunkSum ts) b else chunkSum ts), false)

/-- The epilogue: the stored code (10 R484, R491). -/
def Gemm.epilogue (g : Gemm) (v : GemmVec) (m n : Nat) (acc : Int ⊕ Fp) : Nat :=
  match g.ot, acc with
  | 9, .inl i => wrap 32 i
  | _, _ =>
    let t0 := match acc with | .inl i => f32 (Fp.ofInt i) | .inr x => x
    let t1 := if g.sa = 1 then mul32 t0 g.saV else if g.sa = 2 then mul32 t0 (f32Elem v.sav m) else t0
    let t2 := if g.sw = 1 then mul32 t1 g.swV else if g.sw = 2 then mul32 t1 (f32Elem v.swv n) else t1
    let t3 := if g.relu && !t2.isNan && (t2.neg? || t2.isZero) then .zero else t2
    if tyIsInt g.ot then convert g.ot g.zo (mul32 t3 g.rso) else convert g.ot 0 t3

/-- One output row: its codes and whether any element set OVF. -/
def Gemm.rowOut (g : Gemm) (v : GemmVec) (m : Nat) (cols : List (Nat × List (Option Nat) × List Nat)) : List Nat × Bool :=
  cols.foldl (fun a x =>
    let r := g.acc v x.1 x.2.1 x.2.2
    (a.1 ++ [g.epilogue v m x.1 r.1], a.2 || r.2)) ([], false)

/-- Rows computed one by one: their bytes, and OVF. -/
def gemmRows (ot : Nat) (rows : List (List Nat × Bool)) : List (List Byte) × Bool :=
  (rows.map (fun r => packRow ot r.1), rows.any (·.2))

/-- MATMUL. -/
def matmulPlan (c : Nat) (d : List Byte) (_ : OpEntry) : Option Plan := do
  let g ← gemmOf d 24 32
  let m := leAt d 8 4
  let n := leAt d 12 4
  let k := leAt d 16 4
  need (decide (m ≤ 1048576 ∧ n ≤ 65536 ∧ k ≤ 1048576) && rsvBytes d 20 4 && rsvBytes d 30 2 && rsvBytes d 44 4)
  let a ← matrixOp d 48 c g.at_ m k
  let w ← matrixOp d 64 c g.wt n k
  let o ← matrixOp d 80 c g.ot m n
  let b ← if g.bias then (vectorOp d 96 c 4 n).map some else (unusedOp d 96).map (fun _ => none)
  let sa ← if g.sa = 2 then (vectorOp d 112 c 4 m).map some else (unusedOp d 112).map (fun _ => none)
  let sw ← if g.sw = 2 then (vectorOp d 128 c 4 n).map some else (unusedOp d 128).map (fun _ => none)
  let zw ← if g.zwv then (vectorOp d 144 c 1 n).map some else (unusedOp d 144).map (fun _ => none)
  let none_ : Oper := { base := 0, rows := 0, len := 0, ld := 0 }
  let ins := [a, w, b.getD none_, sa.getD none_, sw.getD none_, zw.getD none_]
  need (apart ins [o])
  return if m = 0 || n = 0 then Plan.empty else
    { ins := ins, checks := [], outs := [o], whole := false, ride := true, point := 0
      more := fun r => if g.zwv && !zpVecOk g.wt (r.getD 5 []) then none else some []
      result := fun r _ =>
        let v : GemmVec := { bias := r.getD 2 [], sav := r.getD 3 [], swv := r.getD 4 [], zwv := r.getD 5 [] }
        let ws := (List.range n).map (fun j => rowCodes g.wt k (rowOf (r.getD 1 []) w.len j))
        let q := gemmRows g.ot ((List.range m).map (fun i =>
          let as := (rowCodes g.at_ k (rowOf (r.getD 0 []) a.len i)).map some
          g.rowOut v i ((indexed 0 ws).map (fun x => (x.1, as, x.2)))))
        .done [rowRuns o q.1] q.2 }

def execMatmul (entry : Nat) (s : State) : Host.Outcome State Fault Refusal := .next (s.runLaunch entry 0x10 matmulPlan)

/-- Output extent of a convolution (10 R494). -/
def convExtent (h p0 p1 k dil st : Nat) : Nat :=
  if dil * (k - 1) + 1 ≤ h + p0 + p1 then (h + p0 + p1 - dil * (k - 1) - 1) / st + 1 else 0

/-- CONV. -/
def convPlan (c : Nat) (d : List Byte) (_ : OpEntry) : Option Plan := do
  let g ← gemmOf d 28 36
  let nib := fun (o : Nat) => (fld (leAt d o 1) 0 4, fld (leAt d o 1) 4 4)
  let nb := leAt d 8 2
  let h := leAt d 10 2
  let wd := leAt d 12 2
  let cin := leAt d 14 2
  let cout := leAt d 16 2
  let kk := nib 18
  let st := nib 19
  let dl := nib 20
  let pv := nib 21
  let ph := nib 22
  let gr := leAt d 24 2
  need (g.sa ≠ 2 && rsvBytes d 23 1 && rsvBytes d 26 2 && rsvBytes d 34 2)
  need (!([kk.1, kk.2, st.1, st.2, dl.1, dl.2, h, wd, cin, cout, gr].contains 0))
  need (cin % gr == 0 && cout % gr == 0)
  let oh := convExtent h pv.1 pv.2 kk.1 dl.1 st.1
  let ow := convExtent wd ph.1 ph.2 kk.2 dl.2 st.2
  let cg := cin / gr
  let kn := kk.1 * kk.2 * cg
  let a ← matrixOp d 48 c g.at_ (nb * h * wd) cin
  let w ← matrixOp d 64 c g.wt cout kn
  let o ← matrixOp d 80 c g.ot (nb * oh * ow) cout
  let b ← if g.bias then (vectorOp d 96 c 4 cout).map some else (unusedOp d 96).map (fun _ => none)
  let sw ← if g.sw = 2 then (vectorOp d 112 c 4 cout).map some else (unusedOp d 112).map (fun _ => none)
  let zw ← if g.zwv then (vectorOp d 128 c 1 cout).map some else (unusedOp d 128).map (fun _ => none)
  let none_ : Oper := { base := 0, rows := 0, len := 0, ld := 0 }
  let ins := [a, w, b.getD none_, sw.getD none_, zw.getD none_]
  need (apart ins [o])
  return if nb = 0 || oh = 0 || ow = 0 then Plan.empty else
    { ins := ins, checks := [], outs := [o], whole := false, ride := true, point := 0
      more := fun r => if g.zwv && !zpVecOk g.wt (r.getD 4 []) then none else some []
      result := fun r _ =>
        let v : GemmVec := { bias := r.getD 2 [], sav := [], swv := r.getD 3 [], zwv := r.getD 4 [] }
        let ws := (List.range cout).map (fun j => rowCodes g.wt kn (rowOf (r.getD 1 []) w.len j))
        let elem := fun (bi oy ox grp q : Nat) =>
          let kh := q / (kk.2 * cg)
          let kw := q / cg % kk.2
          let ch := grp * cg + q % cg
          let y := oy * st.1 + kh * dl.1
          let x := ox * st.2 + kw * dl.2
          if y < pv.1 || h + pv.1 ≤ y || x < ph.1 || wd + ph.1 ≤ x then none
          else some (elemCode g.at_ (rowOf (r.getD 0 []) a.len ((bi * h + (y - pv.1)) * wd + (x - ph.1))) ch)
        let q := gemmRows g.ot ((List.range (nb * oh * ow)).map (fun p =>
          let bi := p / (oh * ow)
          let oy := p / ow % oh
          let ox := p % ow
          g.rowOut v 0 ((indexed 0 ws).map (fun x =>
            (x.1, (List.range kn).map (elem bi oy ox (x.1 / (cout / gr))), x.2)))))
        .done [rowRuns o q.1] q.2 }

def execConv (entry : Nat) (s : State) : Host.Outcome State Fault Refusal := .next (s.runLaunch entry 0x11 convPlan)

/-! ## QUANTIZE and DEQUANTIZE (10 R498 to R503) -/

/-- One row quantized with its own scale: codes and s (10 R499, R500). -/
def quantRow (xs : List Fp) : List Nat × Fp :=
  if xs.any (fun x => x.isNan || x.isInf) then (xs.map (fun _ => 0), .nan)
  else
    let m := xs.foldl (fun a x => if a.below x.abs then x.abs else a) .zero
    let s := div32 m (.fin false 127 0)
    if s.isZero then (xs.map (fun _ => 0), .zero)
    else (xs.map (fun x =>
      match div32 x s with
      | .fin n k e => wrap 8 (clampInt (-127) 127 (rintFp n k e))
      | .inf n => wrap 8 (if n then -127 else 127)
      | .nan => 0), s)

/-- QUANTIZE. -/
def quantPlan (c : Nat) (d : List Byte) (_ : OpEntry) : Option Plan := do
  let it := fld (leAt d 4 1) 0 4
  let ot := fld (leAt d 4 1) 4 4
  let mode := leAt d 5 1
  let rows := leAt d 8 4
  let cols := leAt d 12 4
  let zo := s16 d 16
  let intOut := decide (1 ≤ ot ∧ ot ≤ 4)
  need (decide (mode < 2) && rsvBytes d 6 2 && rsvBytes d 18 2 && rsvBytes d 24 8 && (it == 8 || it == 7))
  need (if mode = 1 then ot == 1 else intOut || tyIsFp8 ot)
  need (decide (rows ≤ 1048576 ∧ cols ≤ 65536))
  need (if mode = 0 && intOut then inTy ot zo else leAt d 16 2 == 0)
  need (mode = 0 || leAt d 20 4 = 0)
  let x ← matrixOp d 32 c it rows cols
  let q ← matrixOp d 48 c ot rows cols
  let sv ← if mode = 1 then (vectorOp d 64 c 4 rows).map some else (unusedOp d 64).map (fun _ => none)
  let outs := [q] ++ sv.toList
  need (apart [x] outs)
  return if rows = 0 || cols = 0 then Plan.empty else
    { ins := [x], checks := [], more := fun _ => some [], outs := outs, whole := false, ride := true, point := 0
      result := fun r _ =>
        let data := (List.range rows).map (fun i => (rowCodes it cols (rowOf (r.getD 0 []) x.len i)).map (codeVal it))
        if mode = 0 then
          .done [rowRuns q (data.map (fun xs => packRow ot (xs.map (fun v => convert ot zo (mul32 v (f32At d 20))))))] false
        else
          let qs := data.map quantRow
          .done [rowRuns q (qs.map (fun y => packRow 1 y.1)),
                 rowRuns (sv.getD q) [qs.flatMap (fun y => toLe 4 (bits32 y.2))]] false }

def execQuantize (entry : Nat) (s : State) : Host.Outcome State Fault Refusal := .next (s.runLaunch entry 0x12 quantPlan)

/-- DEQUANTIZE. -/
def dequantPlan (c : Nat) (d : List Byte) (_ : OpEntry) : Option Plan := do
  let it := fld (leAt d 4 1) 0 4
  let ot := fld (leAt d 4 1) 4 4
  let sm := fld (leAt d 5 1) 0 2
  let zv := bit (leAt d 5 1) 2
  let rows := leAt d 8 4
  let cols := leAt d 12 4
  let z := s16 d 16
  need (decide (sm < 3) && decide (fld (leAt d 5 1) 3 5 = 0) && rsvBytes d 6 2 && rsvBytes d 18 2 && rsvBytes d 24 8 && tyIsInt it && tyOk it && (ot == 8 || ot == 7))
  need (decide (rows ≤ 1048576 ∧ cols ≤ 65536) && (!zv || it != 9))
  need (if zv || it = 9 then z == 0 else inTy it z)
  need (sm = 0 || leAt d 20 4 = 0)
  let q ← matrixOp d 32 c it rows cols
  let x ← matrixOp d 48 c ot rows cols
  let sv ← if sm = 0 then (unusedOp d 64).map (fun _ => none) else (vectorOp d 64 c 4 (if sm = 1 then rows else cols)).map some
  let zo ← if zv then (vectorOp d 80 c 1 cols).map some else (unusedOp d 80).map (fun _ => none)
  let none_ : Oper := { base := 0, rows := 0, len := 0, ld := 0 }
  let ins := [q, sv.getD none_, zo.getD none_]
  need (apart ins [x])
  return if rows = 0 || cols = 0 then Plan.empty else
    { ins := ins, checks := [], outs := [x], whole := false, ride := true, point := 0
      more := fun r => if zv && !zpVecOk it (r.getD 2 []) then none else some []
      result := fun r _ =>
        .done [rowRuns x ((List.range rows).map (fun i =>
          packRow ot ((indexed 0 (rowCodes it cols (rowOf (r.getD 0 []) q.len i))).map (fun y =>
            let zp := if zv then zpByte it (byteAt (r.getD 2 []) y.1) else z
            let s := if sm = 0 then f32At d 20 else f32Elem (r.getD 1 []) (if sm = 1 then i else y.1)
            convert ot 0 (mul32 (f32 (Fp.ofInt (codeInt it y.2 - zp))) s)))))] false }

def execDequantize (entry : Nat) (s : State) : Host.Outcome State Fault Refusal := .next (s.runLaunch entry 0x13 dequantPlan)

end Sys2Proof.Machine
end

