-- ==== Sys2Proof/Machine/Vector.lean ====
section
/-! DEFINITION. ATTENTION, NORM, SOFTMAX, ELEMENTWISE, REDUCE, GATHER, SCATTER, SAMPLE and COPY_TRANSFORM (11 R519 to R543). -/

namespace Sys2Proof.Machine

/-- Rows of values of an operand that was read. -/
def valRows (t rows cols : Nat) (o : Oper) (bs : List Byte) : List (List Fp) :=
  (List.range rows).map (fun i => (rowCodes t cols (rowOf bs o.len i)).map (codeVal t))

/-- Inputs are taken to FP32 (11 R516). -/
def valRows32 (t rows cols : Nat) (o : Oper) (bs : List Byte) : List (List Fp) := (valRows t rows cols o bs).map (fun r => r.map f32)

/-- One stored row of values. -/
def storeRow (t : Nat) (vs : List Fp) : List Byte := packRow t (vs.map (convert t 0))

/-- Signed element of an INT32 vector. -/
def i32Elem (bs : List Byte) (j : Nat) : Int := sext 32 (leAt bs (4 * j) 4)

/-! ## ATTENTION (11 R519 to R524) -/

/-- The running state of one query: m (none for -infinity), l and o. -/
structure Attn where
  m : Option Fp
  l : Fp
  o : List Fp
  deriving DecidableEq, Repr

/-- One block of valid keys: scores and value rows (11 R523 step 4). -/
def Attn.block (a : Attn) (ks : List (Fp × List Fp)) : Attn :=
  match ks with
  | [] => a
  | k0 :: _ =>
    let top := ks.foldl (fun t k => if t.below k.1 then k.1 else t) k0.1
    let m1 := match a.m with | some m => if m.below top then top else m | none => top
    let c := match a.m with | some m => some (exp32 (sub32 m m1)) | none => none
    let scale := fun v => match c with | some x => mul32 v x | none => v
    let ps := ks.map (fun k => exp32 (sub32 k.1 m1))
    { m := some m1, l := add32 (scale a.l) (f32 (sumExact ps)),
      o := (indexed 0 a.o).map (fun x =>
        add32 (scale x.2) (f32 (sumExact ((ps.zip ks).map (fun p => p.1.mul (p.2.2.getD x.1 .zero)))))) }

/-- One query's output values (11 R523). `keys` gives each valid key's index, K row and V row, ascending. -/
def attnQuery (dh : Nat) (scale vscale : Fp) (q : List Fp) (keys : List (Nat × List Fp × List Fp)) : List Fp :=
  let scored := (keys.map (fun k => (k.1, mul32 (chunkSum ((q.zip k.2.1).map (fun x => x.1.mul x.2))) scale, k.2.2))).filter
    (fun k => k.2.1 ≠ .inf true)
  if scored.any (fun k => k.2.1.isNan || k.2.1.isInf) then List.replicate dh .nan
  else if scored.isEmpty then List.replicate dh .zero
  else
    let top := scored.foldl (fun n k => max n (k.1 / 32)) 0
    let a := (List.range (top + 1)).foldl (fun (a : Attn) b => a.block ((scored.filter (fun k => k.1 / 32 == b)).map (·.2)))
      { m := none, l := .zero, o := List.replicate dh .zero }
    a.o.map (fun v => mul32 (div32 v a.l) vscale)

/-- ATTENTION. -/
def attentionPlan (c : Nat) (d : List Byte) (_ : OpEntry) : Option Plan := do
  let qt := fld (leAt d 4 1) 0 4
  let kt := fld (leAt d 4 1) 4 4
  let ot := fld (leAt d 5 1) 0 4
  let causal := bit (leAt d 5 1) 4
  let dh := leAt d 6 2
  let b := leAt d 8 2
  let ql := leAt d 10 2
  let hq := leAt d 12 2
  let hk := leAt d 14 2
  let cap := leAt d 16 4
  need (fld (leAt d 5 1) 5 3 == 0 && rsvBytes d 28 4 && ((qt == 7 && kt == 7) || (tyIsFp8 qt && tyIsFp8 kt)) && tyIsFloat ot)
  need (decide (1 ≤ dh ∧ dh ≤ 256 ∧ 1 ≤ hq ∧ hq ≤ 256 ∧ 1 ≤ hk ∧ hk ≤ 256 ∧ 1 ≤ cap ∧ cap ≤ 1048576) && hq % hk == 0)
  let q ← matrixOp d 32 c qt (b * ql * hq) dh
  let k ← matrixOp d 48 c kt (b * hk * cap) dh
  let v ← matrixOp d 64 c kt (b * hk * cap) dh
  let o ← matrixOp d 80 c ot (b * ql * hq) dh
  let kl ← vectorOp d 96 c 4 b
  need (apart [q, k, v, kl] [o])
  let lens := fun (r : List (List Byte)) => (List.range b).map (fun i => i32Elem (r.getD 0 []) i)
  let part := fun (x : Oper) (i g n : Nat) => ({ base := x.row ((i * hk + g) * cap), rows := n, len := x.len, ld := x.ld } : Oper)
  return if b = 0 || ql = 0 then Plan.empty else
    { ins := [kl], checks := [q, k, v], outs := [o], whole := false, ride := true, point := 0
      more := fun r =>
        if (lens r).any (fun n => decide (n < 0 ∨ (cap : Int) < n)) then none
        else
          let bg := (indexed 0 (lens r)).flatMap (fun x => (List.range hk).map (fun g => (x.1, g, x.2.toNat)))
          some (q :: bg.map (fun y => part k y.1 y.2.1 y.2.2) ++ bg.map (fun y => part v y.1 y.2.1 y.2.2))
      result := fun r z =>
        let qs := valRows qt (b * ql * hq) dh q (z.getD 0 [])
        let rows := (List.range (b * ql * hq)).map (fun n =>
          let bi := n / hq / ql
          let i := n / hq % ql
          let g := n % hq / (hq / hk)
          let len := ((lens r).getD bi 0).toNat
          let ks := valRows kt len dh k (z.getD (1 + bi * hk + g) [])
          let vs := valRows kt len dh v (z.getD (1 + b * hk + bi * hk + g) [])
          let ok := (List.range len).filter (fun (j : Nat) => !causal || decide ((j : Int) ≤ (len : Int) - ql + i))
          storeRow ot (attnQuery dh (f32At d 20) (f32At d 24) (qs.getD n []) (ok.map (fun j => (j, ks.getD j [], vs.getD j [])))))
        .done [rowRuns o rows] false }

def execAttention (entry : Nat) (s : State) : Host.Outcome State Fault Refusal := .next (s.runLaunch entry 0x20 attentionPlan)

/-! ## NORM and SOFTMAX (11 R525 to R528) -/

/-- A count as FP32. -/
def count32 (n : Nat) : Fp := f32 (.fin false n 0)

/-- One row of NORM; `g` and `b` are the gain and bias, empty where absent (11 R526). -/
def normRow (layer : Bool) (eps : Fp) (xs g b : List Fp) (gv bv : Bool) : List Fp :=
  let n := count32 xs.length
  let mu := div32 (chunkSum xs) n
  let ds := if layer then xs.map (fun x => sub32 x mu) else xs
  let v := div32 (chunkSum (ds.map (fun y => y.mul y))) n
  let r := fnVal 0x0A (add32 v eps)
  (indexed 0 ds).map (fun x =>
    let t := mul32 x.2 r
    let t1 := if gv then mul32 t (g.getD x.1 .zero) else t
    if bv then add32 t1 (b.getD x.1 .zero) else t1)

/-- The FP32 values of a vector. -/
def f32Vec (bs : List Byte) (n : Nat) : List Fp := (List.range n).map (f32Elem bs)

/-- NORM. -/
def normPlan (c : Nat) (d : List Byte) (_ : OpEntry) : Option Plan := do
  let it := fld (leAt d 4 1) 0 4
  let ot := fld (leAt d 4 1) 4 4
  let mode := fld (leAt d 5 1) 0 2
  let gv := bit (leAt d 5 1) 2
  let bv := bit (leAt d 5 1) 3
  let rows := leAt d 8 4
  let cols := leAt d 12 4
  let eps := f32At d 16
  need (tyIsFloat it && tyIsFloat ot && decide (mode < 2) && fld (leAt d 5 1) 4 4 == 0 && rsvBytes d 6 2 && rsvBytes d 20 12)
  need (decide (rows ≤ 1048576 ∧ cols ≤ 65536) && !eps.isNan && !eps.isInf && (!eps.neg? || eps.isZero))
  let x ← matrixOp d 32 c it rows cols
  let y ← matrixOp d 48 c ot rows cols
  let g ← if gv then (vectorOp d 64 c 4 cols).map some else (unusedOp d 64).map (fun _ => none)
  let b ← if bv then (vectorOp d 80 c 4 cols).map some else (unusedOp d 80).map (fun _ => none)
  let none_ : Oper := { base := 0, rows := 0, len := 0, ld := 0 }
  need (apart [x, g.getD none_, b.getD none_] [y])
  return if rows = 0 || cols = 0 then Plan.empty else
    { ins := [x, g.getD none_, b.getD none_], checks := [], more := fun _ => some [], outs := [y], whole := false, ride := true, point := 0
      result := fun r _ =>
        let gs := f32Vec (r.getD 1 []) cols
        let bs := f32Vec (r.getD 2 []) cols
        .done [rowRuns y ((valRows it rows cols x (r.getD 0 [])).map (fun xs => storeRow ot (normRow (mode == 1) eps xs gs bs gv bv)))] false }

def execNorm (entry : Nat) (s : State) : Host.Outcome State Fault Refusal := .next (s.runLaunch entry 0x21 normPlan)

/-- One row of SOFTMAX (11 R528). -/
def softmaxRow (scale : Fp) (xs : List Fp) : List Fp :=
  let ts := xs.map (fun x => mul32 x scale)
  if ts.any (fun t => t.isNan || t == .inf false) then ts.map (fun _ => .nan)
  else if ts.all (fun t => t == .inf true) then ts.map (fun _ => .zero)
  else
    let m := ts.foldl (fun a t => if a.below t then t else a) (.inf true)
    let es := ts.map (fun t => exp32 (sub32 t m))
    let sum := chunkSum es
    es.map (fun e => div32 e sum)

/-- SOFTMAX. -/
def softmaxPlan (c : Nat) (d : List Byte) (_ : OpEntry) : Option Plan := do
  let it := fld (leAt d 4 1) 0 4
  let ot := fld (leAt d 4 1) 4 4
  let rows := leAt d 8 4
  let cols := leAt d 12 4
  need (tyIsFloat it && tyIsFloat ot && rsvBytes d 5 3 && rsvBytes d 20 12 && decide (rows ≤ 1048576 ∧ cols ≤ 1048576))
  let x ← matrixOp d 32 c it rows cols
  let y ← matrixOp d 48 c ot rows cols
  need (apart [x] [y])
  return if rows = 0 || cols = 0 then Plan.empty else
    { ins := [x], checks := [], more := fun _ => some [], outs := [y], whole := false, ride := true, point := 0
      result := fun r _ =>
        .done [rowRuns y ((valRows it rows cols x (r.getD 0 [])).map (fun xs => storeRow ot (softmaxRow (f32At d 16) xs)))] false }

def execSoftmax (entry : Nat) (s : State) : Host.Outcome State Fault Refusal := .next (s.runLaunch entry 0x22 softmaxPlan)

/-! ## ELEMENTWISE and REDUCE (11 R529 to R533) -/

/-- A type ELEMENTWISE and the ARG operations take. -/
def tyNot4 (t : Nat) : Bool := tyOk t && !tyIs4 t

/-- A binary operation of R531. -/
def binVal (b : Nat) (x y : Fp) : Fp :=
  match b with
  | 1 => add32 x y
  | 2 => sub32 x y
  | 3 => mul32 x y
  | 4 => max32 x y
  | 5 => min32 x y
  | _ => x

/-- ELEMENTWISE. -/
def elementwisePlan (c : Nat) (d : List Byte) (_ : OpEntry) : Option Plan := do
  let xt := fld (leAt d 4 1) 0 4
  let yt := fld (leAt d 4 1) 4 4
  let ot := fld (leAt d 5 1) 0 4
  let bin := fld (leAt d 5 1) 4 3
  let late := bit (leAt d 5 1) 7
  let fn := leAt d 6 1
  let yb := leAt d 7 1
  let rows := leAt d 8 4
  let cols := leAt d 12 4
  need (tyNot4 xt && tyNot4 ot && decide (bin ≤ 5) && fnOk fn && decide (yb < 4) && rsvBytes d 16 16 && decide (rows ≤ 1048576 ∧ cols ≤ 1048576))
  need (if bin = 0 then yt == 0 && yb == 0 else tyNot4 yt)
  let x ← matrixOp d 32 c xt rows cols
  let none_ : Oper := { base := 0, rows := 0, len := 0, ld := 0 }
  let size := tyBits yt / 8
  let y ← if bin = 0 then (unusedOp d 48).map (fun _ => none_)
    else if yb = 0 then matrixOp d 48 c yt rows cols
    else vectorOp d 48 c size (if yb = 1 then rows else if yb = 2 then cols else 1)
  let z ← matrixOp d 64 c ot rows cols
  need (apart [x, y] [z])
  return if rows = 0 || cols = 0 then Plan.empty else
    { ins := [x, y], checks := [], more := fun _ => some [], outs := [z], whole := false, ride := true, point := 0
      result := fun r _ =>
        let yv := fun (i j : Nat) =>
          let k := if yb = 0 then j else if yb = 1 then i else if yb = 2 then j else 0
          f32 (codeVal yt (elemCode yt (if yb = 0 then rowOf (r.getD 1 []) y.len i else r.getD 1 []) k))
        .done [rowRuns z ((indexed 0 (valRows32 xt rows cols x (r.getD 0 []))).map (fun row =>
          storeRow ot ((indexed 0 row.2).map (fun e =>
            if bin = 0 then fnVal fn e.2
            else if late then binVal bin (fnVal fn e.2) (yv row.1 e.1)
            else fnVal fn (binVal bin e.2 (yv row.1 e.1))))))] false }

def execElementwise (entry : Nat) (s : State) : Host.Outcome State Fault Refusal := .next (s.runLaunch entry 0x23 elementwisePlan)

/-- The permitted types of REDUCE (11 Table 11-4). -/
def reduceTypes (op it ot : Nat) : Bool :=
  let small := it == 1 || it == 2 || it == 9
  if 5 ≤ op then tyNot4 it && ot == 9
  else if small then (op == 0 || op == 1 || op == 2) && ot == 9
  else tyIsFloat it && (ot == 8 || ot == 7)

/-- The index ARGMAX or ARGMIN returns (11 R533). -/
def argExtreme (lo : Bool) (vs : List Fp) : Nat :=
  match (indexed 0 vs).find? (fun x => x.2.isNan) with
  | some x => x.1
  | none =>
    match indexed 0 vs with
    | [] => 0
    | h :: t => (t.foldl (fun a x => if (if lo then x.2.lt a.2 else a.2.lt x.2) then x else a) h).1

/-- One reduction: the stored code and OVF. `vs` are exact values; `is` their integers where the type is one. -/
def reduceSeq (op it ot : Nat) (cs : List Nat) : Nat × Bool :=
  let vs := cs.map (codeVal it)
  match op with
  | 0 =>
    if tyIsInt it then
      let r := cs.foldl (fun (a : Int × Bool) v => let q := addWrap a.1 (codeInt it v); (q.1, a.2 || q.2)) (0, false)
      (wrap 32 r.1, r.2)
    else (convert ot 0 (chunkSum vs), false)
  | 1 => (convert ot 0 (vs.tail.foldl max32 (vs.headD .zero)), false)
  | 2 => (convert ot 0 (vs.tail.foldl min32 (vs.headD .zero)), false)
  | 3 => (convert ot 0 (chunkSum (vs.map (fun v => v.mul v))), false)
  | 4 => (convert ot 0 (div32 (chunkSum vs) (count32 vs.length)), false)
  | 5 => (argExtreme false vs, false)
  | _ => (argExtreme true vs, false)

/-- REDUCE. -/
def reducePlan (c : Nat) (d : List Byte) (_ : OpEntry) : Option Plan := do
  let it := fld (leAt d 4 1) 0 4
  let ot := fld (leAt d 4 1) 4 4
  let op := fld (leAt d 5 1) 0 3
  let axis := bit (leAt d 5 1) 3
  let rows := leAt d 8 4
  let cols := leAt d 12 4
  need (decide (op ≤ 6) && fld (leAt d 5 1) 4 4 == 0 && rsvBytes d 6 2 && rsvBytes d 16 16 && reduceTypes op it ot)
  need (decide (rows ≤ 1048576 ∧ cols ≤ 1048576))
  let x ← matrixOp d 32 c it rows cols
  let n := if axis then cols else rows
  let z ← vectorOp d 48 c (tyBits ot / 8) n
  need (apart [x] [z])
  return if rows = 0 || cols = 0 then Plan.empty else
    { ins := [x], checks := [], more := fun _ => some [], outs := [z], whole := false, ride := true, point := 0
      result := fun r _ =>
        let m := (List.range rows).map (fun i => rowCodes it cols (rowOf (r.getD 0 []) x.len i))
        let seqs := if axis then (List.range cols).map (fun j => m.map (fun row => row.getD j 0)) else m
        let q := seqs.map (reduceSeq op it ot)
        .done [rowRuns z [packRow ot (q.map (·.1))]] (q.any (·.2)) }

def execReduce (entry : Nat) (s : State) : Host.Outcome State Fault Refusal := .next (s.runLaunch entry 0x24 reducePlan)

/-! ## GATHER and SCATTER (11 R534 to R538, 12 R563) -/

/-- The indices of a share. -/
def idxList (bs : List Byte) (n : Nat) : List Int := (List.range n).map (i32Elem bs)

/-- An index names a table row. -/
def idxIn (trows : Nat) (v : Int) : Bool := decide (0 ≤ v ∧ v < (trows : Int))

/-- One row of an operand. -/
def Oper.one (o : Oper) (r : Nat) : Oper := { base := o.row r, rows := 1, len := o.len, ld := o.len }

/-- GATHER. -/
def gatherPlan (c : Nat) (d : List Byte) (_ : OpEntry) : Option Plan := do
  let et := fld (leAt d 4 1) 0 4
  let oob := bit (leAt d 4 1) 4
  let n := leAt d 8 4
  let cols := leAt d 12 4
  let trows := leAt d 16 4
  need (tyOk et && fld (leAt d 4 1) 5 3 == 0 && rsvBytes d 5 3 && rsvBytes d 20 12)
  need (decide (n ≤ 1048576 ∧ 1 ≤ cols ∧ cols ≤ 65536 ∧ 1 ≤ trows ∧ trows ≤ 16777216))
  let t ← matrixOp d 32 c et trows cols
  let ix ← vectorOp d 48 c 4 n
  let z ← matrixOp d 64 c et n cols
  need (apart [t, ix] [z])
  let rows := fun (r : List (List Byte)) => (idxList (r.getD 0 []) n).filter (idxIn trows)
  return if n = 0 then Plan.empty else
    { ins := [ix], checks := [t], outs := [z], whole := false, ride := true, point := 0
      more := fun r =>
        if !oob && !((idxList (r.getD 0 []) n).all (idxIn trows)) then none
        else some ((rows r).map (fun v => t.one v.toNat))
      result := fun r q =>
        let got := (rows r).zip q
        .done [rowRuns z ((idxList (r.getD 0 []) n).map (fun v =>
          match got.find? (fun g => g.1 == v) with
          | some g => packRow et (rowCodes et cols g.2)
          | none => zeros z.len))] false }

def execGather (entry : Nat) (s : State) : Host.Outcome State Fault Refusal := .next (s.runLaunch entry 0x25 gatherPlan)

/-- One element added into another (11 R536). -/
def addElem (et a b : Nat) : Nat × Bool :=
  if et = 9 then (let r := addWrap (codeInt 9 a) (codeInt 9 b); (wrap 32 r.1, r.2))
  else (convert et 0 (add32 (codeVal et a) (codeVal et b)), false)

/-- One row added into another: codes and OVF. -/
def addRow (et : Nat) (a b : List Nat) : List Nat × Bool :=
  let r := (a.zip b).map (fun x => addElem et x.1 x.2)
  (r.map (·.1), r.any (·.2))

/-- SCATTER. -/
def scatterPlan (c : Nat) (d : List Byte) (e : OpEntry) : Option Plan := do
  let et := fld (leAt d 4 1) 0 4
  let oob := bit (leAt d 4 1) 4
  let mode := fld (leAt d 4 1) 5 2
  let n := leAt d 8 4
  let cols := leAt d 12 4
  let trows := leAt d 16 4
  need (tyOk et && decide (mode < 2) && !bit (leAt d 4 1) 7 && rsvBytes d 5 3 && rsvBytes d 20 12)
  need (mode = 0 || et == 8 || et == 7 || et == 9)
  need (decide (n ≤ 1048576 ∧ 1 ≤ cols ∧ cols ≤ 65536 ∧ 1 ≤ trows ∧ trows ≤ 16777216))
  let t ← matrixOp d 32 c et trows cols
  let ix ← vectorOp d 48 c 4 n
  let sr ← matrixOp d 64 c et n cols
  need (apart [ix, sr] [t])
  let add := mode = 1
  let dest := fun (r : List (List Byte)) =>
    ((indexed 0 (idxList (r.getD 0 []) n)).filter (fun x => decide (e.resume ≤ x.1) && idxIn trows x.2)).map (fun x => (x.1, x.2.toNat))
  let distinct := fun (r : List (List Byte)) => ((dest r).map (·.2)).eraseDups
  return if n = 0 then Plan.empty else
    { ins := [ix, sr], checks := if add then [t] else [], outs := [t], whole := true, ride := !add, point := if add then n else 0
      more := fun r =>
        if !oob && !((idxList (r.getD 0 []) n).all (idxIn trows)) then none
        else some (if add then (distinct r).map t.one else [])
      result := fun r q =>
        let start : List (Nat × List Nat) := (distinct r).zip (q.map (rowCodes et cols))
        let src := fun (k : Nat) => rowCodes et cols (rowOf (r.getD 1 []) sr.len k)
        let fin := (dest r).foldl (fun (a : List (Nat × List Nat) × Bool) x =>
          if add then
            let old := match a.1.find? (fun y => y.1 == x.2) with | some y => y.2 | none => []
            let s := addRow et old (src x.1)
            ((x.2, s.1) :: a.1.filter (fun y => y.1 ≠ x.2), a.2 || s.2)
          else ((x.2, src x.1) :: a.1.filter (fun y => y.1 ≠ x.2), a.2)) (if add then start else [], false)
        .done [(fin.1.reverse).map (fun x => (t.row x.1, packRow et x.2))] fin.2 }

def execScatter (entry : Nat) (s : State) : Host.Outcome State Fault Refusal := .next (s.runLaunch entry 0x26 scatterPlan)

/-! ## SAMPLE (11 R539 to R541) -/

/-- mix(z) of R540. -/
def mix64 (z : Nat) : Nat :=
  let a := Nat.xor z (z >>> 29) * 0x8F2D61C735A9E4B3 % 2 ^ 64
  let b := Nat.xor a (a >>> 32) * 0xE5C13B974D06A82F % 2 ^ 64
  Nat.xor b (b >>> 29)

/-- u of a row: 24 bits of the draw, as an FP32 value in [0, 1). -/
def drawU (seed step : Nat) : Fp :=
  let z := mix64 (Nat.xor seed (step * 0x9E3779B97F4A7C15 % 2 ^ 64))
  let y := mix64 ((z + 0xB7E151628AED2A6B) % 2 ^ 64)
  .fin false (y >>> 40) (-24)

/-- GREEDY: the lowest index of the largest logit. -/
def greedy (xs : List Fp) : Option Nat :=
  match (indexed 0 xs).filter (fun x => !x.2.isNan) with
  | [] => none
  | h :: t => some (t.foldl (fun a x => if a.2.below x.2 then x else a) h).1

/-- The running sums of R541 step 3. -/
def runSums : Option Fp → List (Nat × Fp) → List (Nat × Fp)
  | _, [] => []
  | none, x :: t => x :: runSums (some x.2) t
  | some c, x :: t => let n := add32 c x.2; (x.1, n) :: runSums (some n) t

/-- One row's index under temperature, top-k and top-p; none for -1 (11 R541). -/
def sampleRow (topk : Nat) (topp rtemp u : Fp) (xs : List Fp) : Option Nat :=
  let ls := ((indexed 0 xs).filter (fun x => !x.2.isNan)).map (fun x => (x.1, mul32 x.2 rtemp))
  let cand := (ls.filter (fun x => x.2 ≠ .inf true && !x.2.isNan)).mergeSort (fun a b => !a.2.below b.2)
  let kept := if topk = 0 then cand else cand.take topk
  if ls.any (fun x => x.2 == .inf false) then none
  else
    match kept with
    | [] => none
    | h :: _ =>
      let cs := runSums none (kept.map (fun x => (x.1, exp32 (sub32 x.2 h.2))))
      let total := (cs.getLastD (0, .zero)).2
      let need_ := mul32 topp total
      let n := (cs.findIdx (fun x => !x.2.below need_))
      let inn := cs.take (n + 1)
      let cn := (inn.getLastD (0, .zero))
      let th := mul32 u cn.2
      match inn.find? (fun x => th.below x.2) with
      | some x => some x.1
      | none => some cn.1

/-- SAMPLE. -/
def samplePlan (c : Nat) (d : List Byte) (_ : OpEntry) : Option Plan := do
  let it := fld (leAt d 4 1) 0 4
  let gr := bit (leAt d 4 1) 4
  let rows := leAt d 8 4
  let cols := leAt d 12 4
  let topk := leAt d 16 2
  let topp := f32At d 20
  let rt := f32At d 24
  need ((it == 8 || it == 7) && fld (leAt d 4 1) 5 3 == 0 && rsvBytes d 5 3 && rsvBytes d 18 2 && rsvBytes d 28 4)
  need (decide (rows ≤ 1048576 ∧ 1 ≤ cols ∧ cols ≤ 1048576))
  need (if gr then rsvBytes d 16 12
    else decide (topk ≤ 4096) && Fp.zero.below topp && !topp.isNan && !Fp.one.below topp && Fp.zero.below rt && !rt.isNan && !rt.isInf)
  let x ← matrixOp d 32 c it rows cols
  let none_ : Oper := { base := 0, rows := 0, len := 0, ld := 0 }
  let sd ← if gr then (unusedOp d 48).map (fun _ => none_) else vectorOp d 48 c 8 rows
  let st ← if gr then (unusedOp d 64).map (fun _ => none_) else vectorOp d 64 c 4 rows
  let o ← vectorOp d 80 c 4 rows
  need (apart [x, sd, st] [o])
  return if rows = 0 then Plan.empty else
    { ins := [x, sd, st], checks := [], more := fun _ => some [], outs := [o], whole := false, ride := true, point := 0
      result := fun r _ =>
        let ts := (indexed 0 (valRows it rows cols x (r.getD 0 []))).map (fun row =>
          if gr then greedy row.2
          else sampleRow topk topp rt (drawU (leAt (r.getD 1 []) (8 * row.1) 8) (leAt (r.getD 2 []) (4 * row.1) 4)) row.2)
        .done [rowRuns o [ts.flatMap (fun t => match t with | some v => toLe 4 v | none => toLe 4 0xFFFFFFFF)]] false }

def execSample (entry : Nat) (s : State) : Host.Outcome State Fault Refusal := .next (s.runLaunch entry 0x27 samplePlan)

/-! ## COPY_TRANSFORM (11 R542, R543) -/

/-- COPY_TRANSFORM. -/
def transformPlan (c : Nat) (d : List Byte) (_ : OpEntry) : Option Plan := do
  let it := fld (leAt d 4 1) 0 4
  let ot := fld (leAt d 4 1) 4 4
  let tr := bit (leAt d 5 1) 0
  let rows := leAt d 8 4
  let cols := leAt d 12 4
  need (tyOk it && tyOk ot && fld (leAt d 5 1) 1 7 == 0 && rsvBytes d 6 2 && rsvBytes d 16 16 && decide (rows ≤ 1048576 ∧ cols ≤ 1048576))
  let x ← matrixOp d 32 c it rows cols
  let z ← if tr then matrixOp d 48 c ot cols rows else matrixOp d 48 c ot rows cols
  need (apart [x] [z])
  return if rows = 0 || cols = 0 then Plan.empty else
    { ins := [x], checks := [], more := fun _ => some [], outs := [z], whole := false, ride := true, point := 0
      result := fun r _ =>
        let m := valRows it rows cols x (r.getD 0 [])
        let q := if tr then (List.range cols).map (fun j => m.map (fun row => row.getD j .zero)) else m
        .done [rowRuns z (q.map (storeRow ot))] false }

def execCopyTransform (entry : Nat) (s : State) : Host.Outcome State Fault Refusal := .next (s.runLaunch entry 0x28 transformPlan)

end Sys2Proof.Machine
end

