-- ==== Sys2Proof/Machine/Collective.lean ====
section
/-! DEFINITION. The fabric collectives: announcements, contributions, reduction in rank order, replay requests (11 R544 to R553, 12 R563, R564, R1002). -/

namespace Sys2Proof.Machine

/-- A collective's descriptor as a chip of coordinate `c` reads it (11 R544, R547, R549). -/
structure CollDesc where
  cat   : Nat
  it    : Nat
  ot    : Nat
  red   : Nat
  n     : Nat
  p     : Nat
  c     : Nat
  inn   : Oper
  outp  : Oper
  deriving DecidableEq, Repr

/-- OUT equals IN. -/
def CollDesc.inPlace (k : CollDesc) : Bool := k.cat == 0x30 && k.inn.base == k.outp.base && k.inn.span == k.outp.span

/-- The descriptor's own rules. -/
def collDesc (c : Nat) (d : List Byte) (cat : Nat) : Option CollDesc := do
  let it := fld (leAt d 4 1) 0 4
  let ot := fld (leAt d 4 1) 4 4
  let red := leAt d 5 1
  let n := leAt d 8 4
  let p := leAt d 12 4
  need (rsvBytes d 6 2 && rsvBytes d 16 16 && decide (n ≤ 2 ^ 28 ∧ 1 ≤ p ∧ p ≤ 65534))
  need (if cat = 0x32 then tyOk it && ot == it && red == 0
        else decide (red < 3) && (if it = 9 then ot == 9 else (it == 8 || it == 7) && (ot == 8 || ot == 7)))
  need (cat ≠ 0x31 || n % p == 0)
  let m := if cat = 0x30 then n else if cat = 0x31 then n / p else n * p
  let inn ← operand d 32 c (tyAlign it) 1 (rowBytes it n) true
  let outp ← operand d 48 c (tyAlign ot) 1 (rowBytes ot m) true
  let k : CollDesc := { cat := cat, it := it, ot := ot, red := red, n := n, p := p, c := c, inn := inn, outp := outp }
  let slice := cat = 0x32 && (c * n * tyBits it) % 8 = 0 && (n * tyBits it) % 8 = 0 && inn.base = outp.base + c * n * tyBits it / 8
  need (apart [inn] [outp] || k.inPlace || slice)
  return k

/-- The record of the collective of a key; a fresh one of an instance, and its context's generation here, where there is none yet: a peer may be heard before
this chip's launch arrives. -/
def State.coll (s : State) (key : List Byte) (inst : Nat) (gen : BitVec 16) : Coll :=
  match s.colls.find? (fun k => k.key == key) with
  | some k => k
  | none => { key := key, inst := inst, gen := gen, announced := [], data := [], asked := false, past := none }

/-- The record of an operation's collective. -/
def State.opColl (s : State) (o : OpEntry) : Coll := s.coll (s.collKey o) (s.ctxInst o.ctx) (s.ctx o.ctx).gen

def State.setColl (s : State) (k : Coll) : State := { s with colls := s.colls.filter (fun x => x.key ≠ k.key) ++ [k] }

/-- Peers of an operation. -/
def State.peers (s : State) (o : OpEntry) : List ChipId := o.chips.filter (· ≠ s.dom.chipId)

/-- An announcement enters the record; a second one of the same rank is a failed check (11 R545). -/
def Coll.announce (k : Coll) (rank : Nat) (status : BitVec 16) : Coll :=
  { k with announced := Tbl.set none k.announced rank (some (if (Tbl.get none k.announced rank).isSome then 1 else status)) }

/-- The live operation of a key. -/
def State.collOp (s : State) (key : List Byte) : Option (Nat × OpEntry) :=
  s.ops.findSome? (fun e => match e.2 with
    | some o => if hCollective o.hdr && !o.dead && s.collKey o == key then some (e.1, o) else none
    | none => none)

/-- What a message of a collective is entered in, with the progress it makes (11 R551); nothing once the collective is over here. -/
def State.hearColl (s : State) (key : List Byte) (inst : Nat) (f : Coll → Coll) : State :=
  let k := s.coll key inst 0
  if k.past.isSome then s
  else
    let s1 := s.setColl (f k)
    match s.collOp key with
    | some (_, o) => s1.ctxProgress o.ctx
    | none => s1

/-- Contribution data of a rank; a range already held is discarded (11 R550). -/
def Coll.contribute (k : Coll) (rank index : Nat) (bytes : List Byte) : Coll :=
  let had := Tbl.get [] k.data rank
  if had.any (fun x => x.1 == index && x.2.length == bytes.length) then k
  else { k with data := Tbl.set [] k.data rank (had ++ [(index, bytes)]) }

/-- The code of element `e` among pieces, if it has come. -/
def pieceElem (t : Nat) (ps : List (Nat × List Byte)) (e : Nat) : Option Nat :=
  ps.findSome? (fun p => if p.1 ≤ e && rowBytes t (e - p.1 + 1) ≤ p.2.length then some (elemCode t p.2 (e - p.1)) else none)

/-- One reduced element: codes by rank, ascending (11 R546). -/
def reduceElem (k : CollDesc) (cs : List Nat) : Nat × Bool :=
  if k.it = 9 then
    let is := cs.map (codeInt 9)
    match is with
    | [] => (0, false)
    | x :: t =>
      if k.red = 0 then (let r := t.foldl (fun (a : Int × Bool) v => let q := addWrap a.1 v; (q.1, a.2 || q.2)) (x, false); (wrap 32 r.1, r.2))
      else (wrap 32 (t.foldl (fun a v => if k.red = 1 then max a v else min a v) x), false)
  else
    match cs.map (fun c => f32 (codeVal k.it c)) with
    | [] => (0, false)
    | x :: t => (convert k.ot 0 (t.foldl (fun a v => if k.red = 0 then add32 a v else if k.red = 1 then max32 a v else min32 a v) x), false)

/-- Element `e` of the reduction: a result committed elsewhere, or every rank's value combined; none while one is missing. -/
def collElem (k : CollDesc) (data : Tbl (List (Nat × List Byte))) (e : Nat) : Option (Nat × Bool) :=
  match pieceElem k.ot (Tbl.get [] data k.p) e with
  | some c => if k.cat = 0x30 then some (c, false) else none
  | none => ((List.range k.p).mapM (fun r => pieceElem k.it (Tbl.get [] data r) e)).map (reduceElem k)

/-- The codes this chip writes, and OVF; none while a contribution is missing. -/
def collOut (k : CollDesc) (data : Tbl (List (Nat × List Byte))) : Option (List Nat × Bool) :=
  let all := fun (es : List Nat) => (es.mapM (collElem k data)).map (fun l => (l.map (·.1), l.any (·.2)))
  if k.cat = 0x30 then all (List.range k.n)
  else if k.cat = 0x31 then all ((List.range (k.n / k.p)).map (· + k.c * (k.n / k.p)))
  else ((List.range k.p).mapM (fun r => (List.range k.n).mapM (pieceElem k.it (Tbl.get [] data r)))).map (fun l => (l.flatten, false))

/-- The contributions are in hand: the result is written in ascending order (11 R546 to R549). -/
def State.collWrite (s : State) (e : Nat) (o : OpEntry) (k : CollDesc) : State :=
  match collOut k (s.opColl o).data with
  | none => s
  | some (cs, ovf) =>
    let r : OutRange := { base := k.outp.base, len := k.outp.span, runs := [(k.outp.base, packRow k.ot cs)], whole := false }
    (s.updOp e (fun w => { w with ovf := w.ovf || ovf, resume := if k.inPlace then k.n else 0 })).opWrite e [r] (!k.inPlace)

/-- A transfer of a collective to a peer: where operation `e` stands behind it, the operation waits for its acknowledgement (07 R379, 11 R550). -/
def State.collTo (s : State) (e : Option Nat) (inst : Nat) (ord : Bool) (d : ChipId) (m : CtlMsg) : State :=
  match e with
  | some n => (s.updOp n (fun w => { w with out := w.out + 1 })).newXfer d (.collective n) [collPkt (BitVec.ofNat 6 inst) ord m]
  | none => s.newXfer d .ctl [collPkt (BitVec.ofNat 6 inst) ord m]

/-- Elements of type `t` that a transfer of 256 bytes carries. -/
def collElems (t : Nat) : Nat := 2048 / tyBits t

/-- A rank's values go to a peer, 256 bytes a transfer, whole elements each (log 15). -/
def State.collValues (s : State) (e : Option Nat) (inst : Nat) (ord : Bool) (d : ChipId) (key : List Byte) (t rank : Nat) (bs : List Byte) : State :=
  (indexed 0 (pieces 256 ((bs.length + 255) / 256) bs)).foldl (fun s p =>
    s.collTo e inst ord d (.contribute key rank (p.1 * collElems t) p.2)) s

/-- IN is read and sent to every peer; a replaying share also asks each peer again (11 R545, 12 R564). -/
def State.collSend (s : State) (e : Nat) (o : OpEntry) (k : CollDesc) : State :=
  if (s.opColl o).asked then s.collWrite e o k
  else
    match s.readOpers e o [k.inn] with
    | (none, s1) => s1
    | (some bs, s1) =>
      let mine := bs.headD []
      let key := s1.collKey o
      let i := s1.ctxInst o.ctx
      let s2 := (s1.peers o).foldl (fun s d =>
        let t := s.collValues (some e) i (hOrd o.hdr) d key k.it k.c mine
        if o.replay then t.collTo (some e) i (hOrd o.hdr) d (.replayAsk key) else t) s1
      let c := s2.opColl o
      (s2.setColl { c with asked := true, data := Tbl.set [] c.data k.c [(0, mine)] }).collWrite e o k

/-- The rank under which the record keeps that this chip has announced itself: above every rank (11 R544). -/
def selfRank : Nat := 0x10000

/-- This chip announces its rank to every peer, whether or not its check passed; a share that fails waits for no acknowledgement of it (11 R545). -/
def State.collAnnounce (s : State) (e : Nat) (o : OpEntry) (rank : Nat) (ok : Bool) : State :=
  let st : BitVec 16 := if ok then 0 else 1
  let s1 := s.setColl (((s.opColl o).announce rank st).announce selfRank 0)
  (s1.peers o).foldl (fun s d =>
    s.collTo (if ok then some e else none) (s.ctxInst o.ctx) (hOrd o.hdr) d (.announce (s.collKey o) rank st)) s1

/-- A collective's row: the check and its announcement, then the exchange, then the result. Each firing goes as far as what has arrived
allows. -/
def State.runCollective (s : State) (e cat : Nat) : State :=
  match s.started e opLaunch with
  | none => s
  | some o =>
    if hCat o.hdr ≠ cat then s
    else
      match (chipCoord s.dom.chipId o.body).bind (fun c => collDesc c o.body cat) with
      | none => s.failOp e { status := stOpConfig }
      | some k =>
        if o.resume ≠ 0 then s.opSent e false .none
        else
          let own := decide (k.c < k.p) && decide (o.chips.length = k.p)
          let first := (s.opColl o).announced.any (fun a => a.1 == selfRank)
          let s1 := if first then s else s.collAnnounce e o k.c own
          let told := (s1.opColl o).announced.filter (fun a => a.1 ≠ selfRank)
          if told.any (fun a => a.2 ≠ some 0) || !own then s1.failOp e { status := stOpConfig }
          else if !((List.range k.p).all (fun r => told.any (fun a => a.1 == r))) then s1
          else if k.n = 0 then s1.opSent e true .none
          else s1.collSend e o k

def execAllReduce (entry : Nat) (s : State) : Host.Outcome State Fault Refusal := .next (s.runCollective entry 0x30)
def execReduceScatter (entry : Nat) (s : State) : Host.Outcome State Fault Refusal := .next (s.runCollective entry 0x31)
def execAllGather (entry : Nat) (s : State) : Host.Outcome State Fault Refusal := .next (s.runCollective entry 0x32)

/-- The operation a replaying peer asks about: live with its entry, or completed here and still known. -/
def State.collFor (s : State) (key : List Byte) : Option (Option Nat × OpEntry × Nat × BitVec 16) :=
  match s.collOp key with
  | some (e, o) => some (some e, o, s.ctxInst o.ctx, (s.ctx o.ctx).gen)
  | none => (s.colls.find? (fun k => k.key == key)).bind (fun k => k.past.map (fun o => (none, o, k.inst, k.gen)))

/-- A replaying share asks for this chip's contribution again: its IN values, or the results committed in place; where they cannot be
read, a failure notice, and this chip's own share fails (12 R564, R1002). -/
def State.replayAsked (s : State) (src : ChipId) (key : List Byte) : State :=
  match s.collFor key with
  | none => s
  | some (e, o, i, gen) =>
    match (chipCoord s.dom.chipId o.body).bind (fun c => collDesc c o.body (hCat o.hdr)) with
    | none => s
    | some k =>
      let done := k.inPlace && o.resume ≠ 0
      match s.gather i o.staged 1 k.inn.base k.inn.span with
      | (.bytes bs, s1) => s1.collValues e i (hOrd o.hdr) src key (if done then k.ot else k.it) (if done then k.p else k.c) bs
      | (.need _, s1) => s1
      | (.held _, s1) => s1
      | (.bad x, s1) =>
        let s2 := s1.collTo none i (hOrd o.hdr) src (.replayFail key (BitVec.ofNat 16 x.status))
        match e with
        | some n => s2.failOp n x
        | none => if (s2.ctx o.ctx).gen = gen then s2.ctxFault o.ctx o.idx (some o.hdr) 1 x else s2

/-- What a transfer of a collective says, at its destination (11 R545, R550, 12 R564, R1002). -/
def State.takeColl (s : State) (p : Packet) (m : CtlMsg) : State :=
  match m with
  | .announce key rank st => s.hearColl key p.inst.toNat (fun k => k.announce rank st)
  | .contribute key rank index bs => s.hearColl key p.inst.toNat (fun k => k.contribute rank index bs)
  | .replayAsk key => s.replayAsked p.src key
  | .replayFail key st =>
    match s.collOp key with
    | some (e, _) => s.failOp e { status := st.toNat }
    | none => s
  | _ => s

end Sys2Proof.Machine
end

