-- ==== Sys2Proof/Machine/Report.lean ====
section
/-! DEFINITION. The boot report, the result codes of a start, and the commit of the shadow set (15 R677 to R683, 19 R819 to R822, R850, R851, 22 R911 to R916). -/

namespace Sys2Proof.Machine

/-! ## The boot report (19 Table 19-2, Table 19-3, Table 19-6) -/

/-- The 16 bytes of the boot report. SPARES counts the spares in service (log 46). -/
def State.bootReport (s : State) : List Byte :=
  let spares := b2n (s.tiles.inServ.getLsbD 0 && !s.tiles.failedS.getLsbD 0) + b2n (s.tiles.inServ.getLsbD 1 && !s.tiles.failedS.getLsbD 1)
  toLe 1 (s.boot.state.code + 16 * s.boot.kind.toNat) ++ toLe 1 s.boot.result.toNat ++ toLe 2 s.detailNow.toNat
    ++ toLe 4 s.elapsedMs ++ toLe 2 (min 65535 ((s.now - s.boot.entered) / 1000000)) ++ toLe 2 s.dom.chipId.toNat
    ++ toLe 1 spares ++ toLe 1 s.boot.nlevel.toNat ++ toLe 1 s.boot.results.toNat ++ zeros 1

def resTileRepaired : Nat := 0x01
def resDegraded : Nat := 0x02
def resSramRepaired : Nat := 0x03
def resCopyRejected : Nat := 0x04
def resRetainedRejected : Nat := 0x05
def resDomainOfOne : Nat := 0x06
def resRejected : Nat := 0x07
def resRomSelftest : Nat := 0x10
def resFlashNotFound : Nat := 0x11
def resImageRejected : Nat := 0x12
def resConfigBad : Nat := 0x13
def resNoGolden : Nat := 0x14
def resRecoveryStrap : Nat := 0x15
def resMemtrainFail : Nat := 0x16
def resSramFail : Nat := 0x17
def resLbistFail : Nat := 0x18
def resInjectionFail : Nat := 0x19

/-- A nonzero result is kept, counted and printed (R821, R822, R851). -/
def State.result (s : State) (code detail : Nat) : State :=
  ({ s with boot := { s.boot with result := BitVec.ofNat 8 code, detail := BitVec.ofNat 16 detail, results := satInc s.boot.results } }).uartLine

/-! ## The commit of the shadow set (15 R680, R681, 22 R915, R916) -/

/-- The set a commit would make active: a change of the event ring that R915 forbids keeps the previous values. -/
def evqKept (act shd : CfgSet) : Bool :=
  act.evqSize ≠ 0 && shd.evqSize ≠ 0 && (act.evqSize ≠ shd.evqSize || act.evqBase ≠ shd.evqBase)

/-- Instances whose capability values two sets differ in: stands, device-resident rings, owned objects (15 R670, R671). -/
def capDiff (a b : CfgSet) : List Nat :=
  (List.range 64).filter (fun i =>
    let owns := fun (t : Tbl (BitVec 12)) => (t.filter (fun e => decide (fld e.2.toNat 0 6 = i))).map (·.1)
    Tbl.get 0 a.stands i ≠ Tbl.get 0 b.stands i || Tbl.get 0 a.drRings i ≠ Tbl.get 0 b.drRings i
      || owns a.flagOwn ≠ owns b.flagOwn || owns a.tallyOwn ≠ owns b.tallyOwn || owns a.barOwn ≠ owns b.barOwn)

/-- Instances that exist. -/
def State.present (s : State) : List Nat := (s.insts.filter (fun e => e.2.state != .absent)).map (·.1)

/-- Capability changes of the instances among `is` that exist. -/
def State.capChanges (s : State) (is : List Nat) : State := (is.filter (fun i => s.present.contains i)).foldl State.capChange s

/-- The events the boot log held go to the ring, oldest first, then one OVERFLOW for those beyond it (19 R850, 22 R916). -/
def State.flushBootLog (s : State) : State :=
  let s1 := { s with evq := { s.evq with bootLog := [], bootLost := 0 } }
  let s2 := s.evq.bootLog.foldl State.pushEvent s1
  if s.evq.bootLost = 0 then s2
  else s2.pushEvent (eventBytes evOverflow 0 0 s2.dom.chipId.toNat s2.now s.evq.bootLost 0)

/-- Reservations of stands the instance no longer holds end, here and for the ring (15 R665). -/
def State.trimReserves (s : State) : State :=
  { s with tiles := { s.tiles with reserved := Tbl.mapAll (0, 0) s.tiles.reserved (fun _ e => (e.1, e.2 &&& Tbl.get 0 s.act.stands e.1.toNat)) }, sqs := Tbl.mapAll Sq.reset s.sqs (fun n q =>
      match s.sqInst n with
      | some i => if q.cfg.realTime then { q with cfg := { q.cfg with reserve := q.cfg.reserve &&& s.instStands i } } else q
      | none => q) }

/-- The shadow set becomes active and is copied back, with everything that follows from it (R680, 22 R915, R916). -/
def State.commitShadow (s : State) : State :=
  let keep := evqKept s.act s.shd
  let new := if keep then { s.shd with evqBase := s.act.evqBase, evqSize := s.act.evqSize, evqThresh := s.act.evqThresh,
                                       evqCons := s.act.evqCons, evqNotify := s.act.evqNotify } else s.shd
  let old := s.act
  let s1 := { s with act := new, shd := new }
  let s2 := if keep then s1.blkError blkFe beReserved else s1
  let s3 := (s2.trimReserves.capChanges (capDiff old new)).rehold
  if old.evqSize = 0 && new.evqSize ≠ 0 then
    ({ s3 with evq := { s3.evq with prod := s3.tallyOfReg new.evqCons, drop := 0 } }).flushBootLog
  else s3

/-- The lock is free again; its generation stays. -/
def State.unlock (s : State) : State := { s with lock := { SeqLock.reset with gen := s.lock.gen } }

/-- The shadow set is a copy of the active one again, and the lock is released (R681). -/
def State.abandonShadow (s : State) : State := ({ s with shd := s.act }).unlock

/-- The lock is granted (R677, R678). -/
def State.grantLock (s : State) (agent : BitVec 3) (inc : BitVec 8) (behalf : Bool) : State :=
  { s with lock := { held := true, agent := agent, inc := inc, gen := s.lock.gen + 1, behalf := behalf } }

/-! ## Mailbox messages to the manager (15 Table 15-2, R655, R656) -/

/-- A 64-byte message. -/
def mboxMsg (opcode tag kind inst status : Nat) (body : List Byte) : List Byte :=
  padTo 64 (toLe 1 opcode ++ toLe 1 tag ++ toLe 1 (kind + 4 * inst) ++ zeros 1 ++ toLe 2 status ++ zeros 2 ++ body)

def msDone : Nat := 0x00
def msPending : Nat := 0x01
def msBadCommand : Nat := 0x10
def msBadInstance : Nat := 0x11
def msNoResource : Nat := 0x12
def msBusy : Nat := 0x13
def msMsixEnabled : Nat := 0x14
def msNotFrontEnd : Nat := 0x15
def msLocked : Nat := 0x16
def msSecureHeld : Nat := 0x17
def msImageBad : Nat := 0x18
def msImageMismatch : Nat := 0x19

/-- Bytes put into a register file, zero where nothing is listed. -/
def putTbl (t : Tbl Byte) (at_ : Nat) (bs : List Byte) : Tbl Byte := (indexed at_ bs).foldl (fun t e => Tbl.set 0 t e.1 e.2) t

/-- Bytes of a register file. -/
def getTbl (t : Tbl Byte) (at_ n : Nat) : List Byte := (addrs at_ n).map (Tbl.get 0 t)

/-- Waiting responses enter the response queue while it has a free slot, each raising MBX_IN (R655, R656). Fuel: the responses. -/
def State.flushRsp (s : State) : Nat → State
  | 0 => s
  | n + 1 =>
    match s.mgr.rspWait with
    | [] => s
    | m :: t =>
      if 16 ≤ (s.mgr.rspPi - s.mgr.rspCons).toNat then s
      else
        let slot := s.mgr.rspPi.toNat % 16
        let s1 := { s with mgr := { s.mgr with rsp := putTbl s.mgr.rsp (64 * slot) m, rspPi := s.mgr.rspPi + 1, rspWait := t } }
        State.flushRsp (s1.cause 0 causeMbxIn) n

/-- A response or notice to the manager; it waits while the queue is full. -/
def State.notify (s : State) (m : List Byte) : State :=
  let s1 := { s with mgr := { s.mgr with rspWait := s.mgr.rspWait ++ [m] } }
  s1.flushRsp s1.mgr.rspWait.length

/-- LOCK_BROKEN names the chip, the agent and the generation; a member tells the active front end (R683). -/
def State.lockBrokenNotice (s : State) (agent : BitVec 3) (gen : BitVec 16) : State :=
  if s.isFe then s.notify (mboxMsg 0x81 0 2 0 msDone (toLe 2 s.dom.chipId.toNat ++ toLe 1 agent.toNat ++ zeros 1 ++ toLe 4 gen.toNat))
  else s.ctl s.dom.frontEnd (.lockBroken agent gen)

/-- The owner of the lock, if it is one of `agents`, is gone: the lock is released and the shadow set restored (R683). -/
def State.breakLock (s : State) (agents : List (BitVec 3)) : State :=
  if s.lock.held && agents.contains s.lock.agent then
    (s.abandonShadow).lockBrokenNotice s.lock.agent s.lock.gen
  else s

end Sys2Proof.Machine
end

