-- ==== Sys2Proof/Machine/Staging.lean ====
section
/-! DEFINITION. The bodies of the manager's commands and what they stage in a configuration set (15 R659, R660, R664, R667, R670). -/

namespace Sys2Proof.Machine

/-! ## Command bodies (15 R659, Table 15-4) -/

/-- CSET of a command, bytes 8 to 15. -/
def mCset (m : List Byte) : Nat := leAt m 8 8

/-- The chips a CSET names. -/
def csetChips (v : Nat) : List ChipId := rectChips v

/-- A CSET is a RECT entry whose chips are no reserved IDs (R659, 06 R302, R304). -/
def csetOk (v : Nat) : Bool := decide (csForm v = 1) && csEntryOk v 0 0 && chipsOk (csetChips v)

/-- Objects of OBJ_ASSIGN and OBJ_RESET: kind, first, count. -/
def mKind (m : List Byte) : Nat := leAt m 16 1
def mFirst (m : List Byte) : Nat := leAt m 18 2
def mCount (m : List Byte) : Nat := leAt m 20 2

/-- The objects named. -/
def mObjs (m : List Byte) : List Nat := addrs (mFirst m) (mCount m)

/-! ## Staging (R660, R664) -/

/-- Every object of a list given the same owner word. -/
def ownAll (t : Tbl (BitVec 12)) (w : BitVec 12) (ks : List Nat) : Tbl (BitVec 12) := ks.foldl (fun t k => Tbl.set 0 t k w) t

/-- A configuration set with a command of instance `i` carried out on it. A stand comes from instance 0 or from nobody. -/
def CfgSet.staged (c : CfgSet) (i : Nat) (m : List Byte) : CfgSet :=
  let w : BitVec 12 := BitVec.ofNat 12 (i + 64 * fld (leAt m 22 1) 0 6)
  match leAt m 0 1 with
  | 0x03 =>
    let mask : BitVec 8 := BitVec.ofNat 8 (leAt m 16 1)
    let s1 := if i = 0 then c.stands else Tbl.upd 0 c.stands 0 (fun v => v &&& ~~~mask)
    { c with stands := Tbl.set 0 s1 i mask }
  | 0x05 => { c with drRings := Tbl.set 0 c.drRings i (BitVec.ofNat 16 (leAt m 16 1 + 256 * leAt m 17 1)) }
  | 0x06 =>
    match mKind m with
    | 0 => { c with flagOwn := ownAll c.flagOwn w (mObjs m) }
    | 1 => { c with tallyOwn := ownAll c.tallyOwn w (mObjs m) }
    | _ => { c with barOwn := ownAll c.barOwn w (mObjs m) }
  | 0x07 => { c with sgrp := Tbl.set 0 c.sgrp (leAt m 16 1) (BitVec.ofNat 64 (leAt m 24 8)) }
  | 0x09 => { c with xltRoot := Tbl.set 0 c.xltRoot i (BitVec.ofNat 64 (leAt m 16 8)) }
  | 0x0A =>
    let k := 8 * i + leAt m 16 1
    { c with slotCtl := Tbl.set 0 c.slotCtl k (BitVec.ofNat 32 (leAt m 17 1 + 65536 * leAt m 18 2)),
             slotBase := Tbl.set 0 c.slotBase k (BitVec.ofNat 64 (leAt m 24 8)), slotLimit := Tbl.set 0 c.slotLimit k (BitVec.ofNat 32 (leAt m 32 4)) }
  | _ => c

/-- The MGMT writes that stage a command on another chip: offset, width, value. Stands and device-resident rings have no register:
they ride the EPOCH commit (log 54). -/
def stageWrites (i : Nat) (m : List Byte) : List (Nat × Bool × Word64) :=
  let w : Word64 := BitVec.ofNat 64 (i + 64 * fld (leAt m 22 1) 0 6)
  match leAt m 0 1 with
  | 0x06 =>
    match mKind m with
    | 0 => (mObjs m).map (fun k => (0x410000 + 4 * k, false, w))
    | 1 => (mObjs m).map (fun k => (0x420000 + 4 * k, false, w))
    | _ => (mObjs m).map (fun k => (0x430000 + 32 * k, false, w))
  | 0x07 => [(0x440000 + 8 * leAt m 16 1, true, BitVec.ofNat 64 (leAt m 24 8))]
  | 0x09 => [(0x501000 + 8 * i, true, BitVec.ofNat 64 (leAt m 16 8))]
  | 0x0A =>
    let k := 0x502000 + 256 * i + 32 * leAt m 16 1
    [(k, false, BitVec.ofNat 64 (leAt m 17 1 + 65536 * leAt m 18 2)), (k + 8, true, BitVec.ofNat 64 (leAt m 24 8)),
     (k + 16, false, BitVec.ofNat 64 (leAt m 32 4))]
  | _ => []

/-- A configuration set without anything of instance `i` (R667 steps 1, 2, 4). -/
def CfgSet.without (c : CfgSet) (i : Nat) : CfgSet :=
  let keep := fun (t : Tbl (BitVec 12)) => t.filter (fun e => decide (fld e.2.toNat 0 6 ≠ i))
  let slots := fun (k : Nat) => decide (k / 8 ≠ i)
  { c with flagOwn := keep c.flagOwn, tallyOwn := keep c.tallyOwn, barOwn := keep c.barOwn, stands := Tbl.set 0 c.stands i 0,
           drRings := Tbl.set 0 c.drRings i 0, xltRoot := Tbl.set 0 c.xltRoot i 0, slotCtl := c.slotCtl.filter (fun e => slots e.1),
           slotBase := c.slotBase.filter (fun e => slots e.1), slotLimit := c.slotLimit.filter (fun e => slots e.1) }

/-- Opcodes whose body names chips by a CSET and stages configuration on them (15 Table 15-4). -/
def stagesCset (op : Nat) : Bool := [0x03, 0x05, 0x06, 0x07, 0x09, 0x0A].contains op

/-- What a command allots on other chips is remembered by the active front end and the standby (R664, R670). -/
def State.noteRemote (s : State) (i : Nat) (m : List Byte) : State :=
  let cs := if stagesCset (leAt m 0 1) then (csetChips (mCset m)).filter (· ≠ s.dom.chipId) else []
  let r := cs.foldl (fun t c => Tbl.upd CfgSet.reset t c.toNat (fun x => x.staged i m)) s.mgr.remote
  let r1 := if leAt m 0 1 = 0x02 then Tbl.mapAll CfgSet.reset s.mgr.remote (fun _ x => x.without i) else r
  { s with mgr := { s.mgr with remote := r1 } }

end Sys2Proof.Machine
end

