-- ==== Sys2Proof/Machine/Takeover.lean ====
section
/-! DEFINITION. What the standby mirrors from the journal, and the takeover from it (14 R640, R645 to R651, Table 14-3, Table 14-5). -/

namespace Sys2Proof.Machine

/-! ## Instances as commands make them (15 R662, R663, 04 R219) -/

/-- Vector ranges of the other functions: first entry and count. -/
def State.vecRanges (s : State) (i : Nat) : List (Nat × Nat) :=
  (s.pcie.fns.filter (fun e => e.1 ≠ i && e.2.vecs ≠ 0)).map (fun e => (e.2.vecBase.toNat, e.2.vecs.toNat))

/-- The lowest run of `n` free entries of the endpoint's 2,048 for function `i` (log 47). -/
def State.vecRoom (s : State) (i n : Nat) : Option Nat :=
  let used := s.vecRanges i
  let free := fun b => decide (b + n ≤ 2048) && used.all (fun u => decide (b + n ≤ u.1 ∨ u.1 + u.2 ≤ b))
  ((0 :: used.map (fun u => u.1 + u.2)).filter free).foldl (fun (a : Option Nat) b => match a with | none => some b | some x => some (min x b)) none

/-- Function `i` is given `n` vectors. -/
def State.giveVectors (s : State) (i n : Nat) : State :=
  let b := (s.vecRoom i n).getD 0
  s.updFc i (fun f => { f with vecs := BitVec.ofNat 11 n, vecBase := BitVec.ofNat 11 b })

/-- What CREATE makes (15 R662). -/
def State.makeInst (s : State) (i : Nat) (m : List Byte) : State :=
  (s.giveVectors i (leAt m 8 2)).updInst i (fun x =>
    { x with state := .ready, sqFirst := leAt m 10 2, sqCount := leAt m 12 2, cqFirst := leAt m 14 2, cqCount := leAt m 16 2,
             rtMax := leAt m 18 1, capGen := x.capGen + 1 })

/-- What DESTROY leaves of an instance on the active front end (15 R667): its rings are unallotted, its vectors are given back. -/
def State.dropInst (s : State) (i : Nat) : State :=
  let x := s.inst i
  let s1 := { s with sqs := s.sqs.filter (fun e => !decide (x.sqFirst ≤ e.1 ∧ e.1 < x.sqFirst + x.sqCount)),
                     cqs := s.cqs.filter (fun e => !decide (x.cqFirst ≤ e.1 ∧ e.1 < x.cqFirst + x.cqCount)) }
  (s1.updInst i (fun x => { Inst.reset with epoch := x.epoch, capGen := x.capGen + 1, pend := x.pend })).updFc i
    (fun f => { f with vecs := 0, vecBase := 0 })

/-! ## Applying journal records (Table 14-3) -/

/-- Fields of a journal record. -/
def jType (r : JRec) : Nat := leAt r 0 1
def jInst (r : JRec) : Nat := fld (leAt r 2 1) 0 6
def jRing (r : JRec) : Nat := leAt r 3 1
def jBody (r : JRec) : List Byte := r.drop 8

/-- The records of a packet's bytes, in order (fuel: their number is at most a quarter of the bytes). -/
def splitRecs : Nat → List Byte → List JRec
  | 0, _ => []
  | k + 1, bs => if bs.length < 8 || leAt bs 1 1 = 0 then [] else bs.take (8 * leAt bs 1 1) :: splitRecs k (bs.drop (8 * leAt bs 1 1))

/-- Window offset of the first command slot (22 Table 22-5). -/
def cmdSlotOff : Nat := 0x100100

/-- A command of the manager mirrored whole takes its effect on the instance table here (14 R638; log 48). -/
def State.mirrorCommand (s : State) (m : List Byte) : State :=
  let i := fld (leAt m 2 1) 2 6
  match leAt m 0 1 with
  | 0x01 => s.makeInst i m
  | 0x02 => (s.dropInst i).noteRemote i m
  | 0x04 => s.giveVectors i (leAt m 8 2)
  | 0x10 => s.updInst i (fun x => { x with state := .quiescing })
  | 0x11 => s.updInst i (fun x => { x with state := .ready })
  | _ => s.noteRemote i m

/-- A CONFIG record: a word of a command slot; with its last word the command is whole. -/
def State.mirrorConfig (s : State) (off : Nat) (v : List Byte) : State :=
  let a := off - cmdSlotOff
  if off < cmdSlotOff || 512 ≤ a then s
  else
    let s1 := { s with mgr := { s.mgr with cmd := putTbl s.mgr.cmd a v } }
    if a % 64 = 56 then s1.mirrorCommand (getTbl s1.mgr.cmd (a / 64 * 64) 64) else s1

/-- Ring configuration as RING_CFG carries it. -/
def sqCfgOf (b : List Byte) : SqCfg :=
  let w := leAt b 8 4
  let r := leAt b 32 8
  { size := BitVec.ofNat 5 (leAt b 12 4), base := BitVec.ofNat 48 (leAt b 0 8), cq := BitVec.ofNat 8 w, realTime := bit w 8,
    rtSlot := BitVec.ofNat 4 (fld w 12 4), reserve := BitVec.ofNat 8 (fld w 16 8), tagBase := BitVec.ofNat 48 (leAt b 16 8),
    shadowPi := BitVec.ofNat 48 (leAt b 24 8), pollUs := BitVec.ofNat 16 r, weight := BitVec.ofNat 8 (fld r 16 8),
    burst := BitVec.ofNat 6 (fld r 24 6), hangMs := BitVec.ofNat 16 (fld r 32 16) }

def cqCfgOf (q : Cq) (b : List Byte) : Cq :=
  { q with base := BitVec.ofNat 48 (leAt b 0 8), size := BitVec.ofNat 5 (leAt b 8 4), vecsel := BitVec.ofNat 11 (leAt b 12 4),
           coalCount := BitVec.ofNat 8 (fld (leAt b 12 4) 16 8), coalTime := BitVec.ofNat 16 (leAt b 16 4) }

/-- The mirror of an entry changed. -/
def State.updMirror (s : State) (n tag : Nat) (f : Mirror → Mirror) : State :=
  { s with pair := { s.pair with mirrors := s.pair.mirrors.map (fun m => if m.ring = n && m.tag = tag then f m else m) } }

/-- A RECORD of a mirrored ring: the write index passes it, W follows, a GUILTY record is noted (14 R640, 05 R267). -/
def State.mirrorRecord (s : State) (i n : Nat) (b : List Byte) : State :=
  let idx : BitVec 32 := BitVec.ofNat 32 (leAt b 0 4)
  let c := (s.inst i).cqFirst + leAt b 4 1
  let rec_ := (b.drop 8).take 32
  let rel : BitVec 32 := BitVec.ofNat 32 (leAt rec_ 12 4)
  let s1 := s.updCq c (fun q => if (idx + 1 - q.h).toNat ≤ (q.wr - q.h).toNat then q else { q with wr := idx + 1 })
  let s2 := s1.updSq n (fun q => if (rel - q.release).toNat < 2 ^ 31 then { q with release := rel, fetch := rel } else q)
  match leAt rec_ 7 1 with
  | 1 => (s2.tagWritten n (leAt rec_ 0 6)).updMirror n (leAt rec_ 0 6) (fun m => { m with record := some (c, idx, rec_) })
  | 2 => s2.setGuilt (.host n) ((s2.guilt (.host n)).map (fun g => { g with written := true, done := true }))
  | _ => s2

/-- One record of an applied epoch (Table 14-3). -/
def State.applyRec (s : State) (r : JRec) : State :=
  let i := jInst r
  let b := jBody r
  let n := (s.inst i).sqFirst + jRing r
  match jType r with
  | 0x01 =>
    let m : Mirror := { ring := n, tag := eSeq b, entry := b.take 64, admitted := false, replaySafe := false, record := none }
    ({ s with pair := { s.pair with mirrors := s.pair.mirrors ++ [m] } }).updSq n (fun q =>
      { q with e := eSeq b + 1, fetch := q.fetch + 1, release := q.release + 1 })
  | 0x02 => s.updMirror n (leAt b 0 6) (fun m => { m with admitted := true, replaySafe := bit (leAt b 6 1) 0 })
  | 0x03 => s.mirrorRecord i n b
  | 0x04 =>
    let v : BitVec 32 := BitVec.ofNat 32 (leAt b 0 4)
    if bit (leAt b 4 1) 0 then
      let c := (s.inst i).cqFirst + jRing r
      let s1 := s.updCq c (fun q => { q with h := v, hApp := v })
      { s1 with pair := { s1.pair with mirrors := s1.pair.mirrors.filter (fun m => match m.record with
          | some (d, x, _) => !(d == c && decide (1 ≤ (v - x).toNat ∧ (v - x).toNat < 2 ^ 31))
          | none => true) } }
    else s.updSq n (fun q => { q with k := v })
  | 0x05 =>
    if byteAt r 4 = 1 then
      s.updCq ((s.inst i).cqFirst + jRing r) (fun q =>
        let n := cqCfgOf q b
        if q.size ≠ 0 && n.size ≠ 0 then n else cqCfgOf { Cq.reset with fresh := q.fresh } b)
    else if (s.sq n).cfg.size ≠ 0 && (sqCfgOf b).size ≠ 0 then s.updSq n (fun q => { q with cfg := sqCfgOf b })
    else
      let cfg := sqCfgOf b
      ({ s with pair := { s.pair with mirrors := s.pair.mirrors.filter (fun m => m.ring ≠ n) } }).updSq n (fun _ => { Sq.reset with cfg := cfg, e := cfg.tagBase.toNat, w := cfg.tagBase.toNat - 1 })
  | 0x06 =>
    let slot := leAt b 0 4
    let cap := (b.drop 8).take 128
    let s1 := if slot < 8 then s.updFn i (fun f => { f with caps := Tbl.set none f.caps slot (some cap) }) else s
    if bit (leAt b 4 1) 0 then s1
    else s1.setGuilt (.host n) (some { slot := if slot < 8 then some slot else none, written := false, done := false, tag := leAt cap 4 6,
                                       status := BitVec.ofNat 16 (leAt cap 0 2) })
  | 0x07 =>
    let slot := leAt b 0 4
    let s1 := if slot < 8 then s.updFn i (fun f => { f with caps := Tbl.set none f.caps slot none }) else s
    match s1.guilt (.host n) with
    | some g => if g.slot.getD 0xFFFFFFFF = slot then s1.setGuilt (.host n) none else s1
    | none => s1
  | 0x08 =>
    let slot := (s.sq n).release.toNat % (s.sq n).n
    let s1 := { s with sqs := Tbl.mapAll Sq.reset s.sqs (fun k q => if s.sqInst k == some i then { q with halted := true } else q) }
    s1.updFn i (fun f => { f with halt := if f.halt = 0 then BitVec.ofNat 64 (jRing r + 256 * leAt b 6 1 + 65536 * slot + 2 ^ 63) else f.halt })
  | 0x09 => s.mirrorConfig (leAt b 0 3) ((r.drop 16).take 8)
  | _ => s

/-! ## Takeover (R645 to R649) -/

/-- Slots from H on whose PHASE shows them written at their index (R646). -/
def foundRun (n : Nat) : Nat → List (List Byte) → List (List Byte)
  | _, [] => []
  | i, r :: t => if bit (leAt r 31 1) 7 == phaseOf i n then r :: foundRun n (i + 1) t else []

/-- One completion ring reconciled: records found count as written, the write index passes them (R646). -/
def State.reconcile (s : State) (c : Nat) : State :=
  let q := s.cq c
  if q.size = 0 then s
  else
    let i := (s.cqInst c).getD 0
    let slots := match s.pair.found.find? (fun x => x.1 == c) with | some x => x.2 | none => []
    let run := foundRun q.n q.h.toNat (slots.take q.n)
    let f := q.h + BitVec.ofNat 32 run.length
    let s1 := s.updCq c (fun q => { q with wr := if (q.wr - q.h).toNat ≤ run.length then f else q.wr, reserved := 0, waiting := [], fresh := 0 })
    (indexed 0 run).foldl (fun s x =>
      let n := (s.inst i).sqFirst + leAt x.2 6 1
      if leAt x.2 7 1 = 1 then
        (s.tagWritten n (leAt x.2 0 6)).updMirror n (leAt x.2 0 6) (fun m => { m with record := some (c, q.h + BitVec.ofNat 32 x.1, x.2) })
      else if leAt x.2 7 1 = 2 then
        s.setGuilt (.host n) ((s.guilt (.host n)).map (fun g => { g with written := true, done := true }))
      else s) s1

/-- A record whose slot the scan did not find is written again at its own index, with REDELIVERED (Table 14-5). -/
def State.rewriteRecord (s : State) (c : Nat) (idx : BitVec 32) (rec_ : List Byte) : State :=
  let i := (s.cqInst c).getD 0
  let q := s.cq c
  let dva := q.base.toNat + 32 * (idx.toNat % q.n)
  (s.postRing i dva (rec_.set 10 (byteAt rec_ 10 ||| 4))).updCq c (fun q => { q with fresh := q.fresh + 1 })

/-- An entry of a mirrored ring that is not guilty (Table 14-5). `frontier` is F of its completion ring, past H. -/
def State.takeMirror (s : State) (runs : List (Nat × Nat)) (m : Mirror) : State :=
  let r := RingRef.host m.ring
  match m.record with
  | some (c, idx, rec_) =>
    let run := match runs.find? (fun x => x.1 == c) with | some x => x.2 | none => 0
    if (idx - (s.cq c).h).toNat < run then s else s.rewriteRecord c idx rec_
  | none =>
    if !m.admitted then s.updSq m.ring (fun q => { q with cache := q.cache ++ [m.entry] })
    else
      match s.guilt r with
      | some g =>
        let mine := g.tag = m.tag
        let st := if mine then g.status.toNat else if m.replaySafe then stAbortedGuilty else stAbortedFailover
        s.bufferRecord r m.tag st false false false (eUser m.entry) 0 none (eIrq m.entry) false
      | none =>
        if m.replaySafe then
          match s.freeContext with
          | some c => (s.admitEntry r m.entry).updOwner c (fun o => { o with redelivered := true })
          | none => s.updSq m.ring (fun q => { q with cache := q.cache ++ [m.entry] })
        else s.bufferRecord r m.tag stAbortedFailover false false false (eUser m.entry) 0 none (eIrq m.entry) false

/-- A guilty ring after its entries: its GUILTY record, if that is not written, then SKIPPED_GUILTY (R648, 13 R576; log 49). -/
def State.takeGuilt (s : State) (n : Nat) : State :=
  match s.guilt (.host n) with
  | none => s
  | some g =>
    if g.written then s.skipEntries (.host n)
    else ((s.setGuilt (.host n) (some { g with done := true })).guiltyRecord (.host n) { g with done := true } none).skipEntries (.host n)

/-- Functions start error status and causes from zero, but for inherited halts and this chip's guilty device-resident rings (23 R974). -/
def State.freshCauses (s : State) : State :=
  let dr := fun i => s.drs.any (fun e => e.2.guilty.isSome && s.ringInst (.dr e.1) == i)
  s.present.foldl (fun s i => s.updFn i (fun f =>
    { f with err := (if f.halt = 0 then 0 else BitVec.ofNat 14 (2 ^ esHalted)) ||| (if dr i then BitVec.ofNat 14 (2 ^ esDrGuilty) else 0),
             errCnt := [], cause := 0, cqCause := 0, drGuilty := [] })) s

/-- A vector no function has: completion rings announce nothing while the entries are completed (R649). -/
def noVector : BitVec 11 := 2047

/-- The standby becomes the active front end of a domain without a standby. -/
def State.becomeFront (s : State) : State :=
  { s with pair := { s.pair with inbox := [], openRecs := [], kept := [], lossSeen := false, claiming := false },
           dom := { s.dom with role := .frontEnd, frontEnd := s.dom.chipId, standby := none, root := true, rootId := s.dom.chipId } }

/-- Completion slots that the scan found written beyond the consumer index of ring `c`. -/
def State.foundOf (s : State) (c : Nat) : Nat :=
  let q := s.cq c
  let slots := match s.pair.found.find? (fun x => x.1 == c) with | some x => x.2 | none => []
  (foundRun q.n q.h.toNat (slots.take q.n)).length

/-- Submission rings hold no entry any more: they are fetched again from their release counts. -/
def Sq.rewound (q : Sq) : Sq := { q with fetch := q.release, asked := 0, arrived := [], cache := [], slots := [], again := [], unreleased := [], admitted := 0 }

/-- What the takeover has mirrored is used up. -/
def State.mirrorsDone (s : State) : State := { s with pair := { s.pair with mirrors := [], found := [] } }

/-- Rings that got a record. -/
def State.gotRecord (before after : State) (c : Nat) : Bool :=
  decide ((after.cq c).wr ≠ (before.cq c).wr) || decide ((before.cq c).fresh < (after.cq c).fresh)

/-- Steps 3 and 5 to 8 of Table 14-4 (step 4 is the fence and the EPOCH commit before it). -/
def State.takeOver (s : State) (old : ChipId) : State :=
  let s2 := s.becomeFront.freshCauses
  let cs := (s2.cqs.filter (fun e => e.2.size != 0)).map (·.1)
  let vecs := cs.map (fun c => (c, (s2.cq c).vecsel))
  let runs := cs.map (fun c => (c, s2.foundOf c))
  let s3 := cs.foldl State.reconcile s2
  let s4 := cs.foldl (fun s c => s.updCq c (fun q => { q with vecsel := noVector })) s3
  let ns := (s4.sqs.filter (fun e => e.2.cfg.size != 0)).map (·.1)
  let s5 := ns.foldl (fun s n => s.updSq n Sq.rewound) s4
  let s6 := (s5.pair.mirrors.mergeSort (fun a b => decide (a.tag ≤ b.tag))).foldl (fun s m => s.takeMirror runs m) s5
  let s7 := ns.foldl State.takeGuilt s6
  let got := cs.filter (State.gotRecord s5 s7)
  let s8 := vecs.foldl (fun s v => s.updCq v.1 (fun q => { q with vecsel := v.2 })) s7
  let s9 := ns.foldl State.fetchRing s8.mirrorsDone
  got.foldl State.cqFire (s9.event evChipLost 3 0 old.toNat s9.dom.depoch.toNat)

end Sys2Proof.Machine
end

