-- ==== Sys2Proof/Machine/InstStop.lean ====
section
/-! DEFINITION. Disabling an instance with work in flight: STOP, PURGE and the steps of Table 15-6 (15 R684 to R689, 04 R237 to R239). -/

namespace Sys2Proof.Machine

/-! ## Commands in the journal (14 R638; log 48) -/

/-- A command that took effect is journaled as the words of its slot. -/
def State.journalCommand (s : State) (m : List Byte) : State :=
  (List.range 8).foldl (fun s k =>
    s.journal (jrec 0x09 (fld (leAt m 2 1) 2 6) 0 (toLe 3 (cmdSlotOff + 8 * k) ++ zeros 5 ++ (m.drop (8 * k)).take 8))) s

/-- A PENDING command ends: its DONE notice goes to the manager, with the same TAG (15 R656, R657). -/
def State.endPending (s : State) (i status : Nat) (body : List Byte) : State :=
  match (s.inst i).pend with
  | none => s
  | some c => (s.updInst i (fun x => { x with pend := none })).notify (mboxMsg 0x80 c.tag.toNat 2 i status body)

/-! ## What a chip holds of an instance -/

/-- Contexts whose buffer is the instance's. -/
def State.ctxsOf (s : State) (i : Nat) : List Nat :=
  (s.ctxs.filter (fun e => match e.2.use with
    | .owner o => o.inst.toNat == i
    | .share h => h.inst.toNat == i
    | .free => false)).map (·.1)

/-- Transfers that a context's buffer has started outlive it, and act on nothing when they end. -/
def State.orphan (s : State) (c : Nat) : State :=
  { s with fab := { s.fab with xfers := s.fab.xfers.map (fun x => match x.purpose with
      | .launch n _ => if n = c then { x with purpose := .ctl } else x
      | .abort n => if n = c then { x with purpose := .ctl } else x
      | .faultReport n => if n = c then { x with purpose := .ctl } else x
      | _ => x) } }

/-- A context of the instance ends without a record: its operations stop, those on tiles at their next progress beat; uncommitted writes are dropped. An
owner context is given back then, a share context with PURGE (Table 15-6 steps 2 and 3). -/
def State.stopCtx (s : State) (c : Nat) : State :=
  let s1 := (s.endShare c).orphan c
  ((s1.updShare c (fun h => { h with aborting := true })).updOwner c (fun o => { o with phase := .aborting })).drained c

/-- Operations of the instance still run on tiles, or have a write that is not yet known to be dropped. -/
def State.opsRun (s : State) (i : Nat) : Bool :=
  (s.ctxsOf i).any (fun c => !(s.opsOf c).isEmpty)
    || s.fab.xfers.any (fun x => (match x.purpose with | .dropped _ => true | _ => false) && x.pkts.any (fun p => p.inst.toNat == i))

/-- Every REMOTE_LAUNCH sent for the instance is acknowledged (Table 15-6 step 3). -/
def State.launchesOut (s : State) (i : Nat) : Bool :=
  let hit := fun (x : Xfer) => x.pkts.any (fun p => p.type == tyLaunch && p.inst.toNat == i)
  s.fab.xfers.any hit || s.fab.queued.any hit

/-- STOP on this chip: no work of the instance starts, what runs is stopped (Table 15-6 steps 2 and 3). STOPPED is owed. -/
def State.stopLocal (s : State) (i : Nat) : State :=
  let s1 := s.updInst i (fun x => { x with stopped := true, step := 1 })
  let s2 := (s.ctxsOf i).foldl State.stopCtx s1
  let s3 := s2.forgetReads (fun u => match u with
    | .ring n _ _ => s2.sqInst n == some i
    | .shadow n => s2.sqInst n == some i
    | .again n _ => s2.sqInst n == some i
    | _ => false)
  { s3 with sqs := Tbl.mapAll Sq.reset s3.sqs (fun n q => if s3.sqInst n == some i then { q with arrived := [], asked := 0 } else q) }

/-- Objects the instance owns here go back to their reset values and LAST fields, poisoning kept (Table 15-6 step 5, 08 R994; log 51). -/
def State.resetObjects (s : State) (i : Nat) : State :=
  let keep := fun (kind idx : Nat) => decide (fld (s.objOwn kind idx).toNat 0 6 ≠ i)
  { s with gal := { s.gal with flags := s.gal.flags.filter (fun e => keep 0 e.1), tallies := s.gal.tallies.filter (fun e => keep 1 e.1),
                               bars := s.gal.bars.filter (fun e => keep 2 e.1),
                               last := s.gal.last.filter (fun e => keep (e.1 / 0x4000) (e.1 % 0x4000)) } }

/-- PURGE on this chip: the new instance epoch, no share, parked signal, tracked transfer or waiter of the instance; its
device-resident rings are disabled (Table 15-6 steps 4 and 5, R688). -/
def State.purgeLocal (s : State) (i : Nat) (epoch : BitVec 7) : State :=
  let s1 := (s.ctxsOf i).foldl (fun s c => ((s.endNow c).orphan c).freeCtx c) s
  let first := s1.drFirst i
  let count := s1.drCount i
  let s2 := { s1 with
    fab := { s1.fab with trackers := s1.fab.trackers.filter (fun t => t.inst.toNat ≠ i),
                         ordHeld := s1.fab.ordHeld.filter (fun p => p.isCtl || p.inst.toNat ≠ i),
                         ordDue := s1.fab.ordDue.filter (fun e => e.2.2.toNat ≠ i),
                         held := s1.fab.held.filter (fun h => h.packet.isCtl || h.packet.inst.toNat ≠ i) },
    gal := { s1.gal with slots := s1.gal.slots.filter (fun e => match e.2 with | some x => x.sig.inst.toNat ≠ i | none => false) },
    drs := s1.drs.filter (fun e => !decide (first ≤ e.1 ∧ e.1 < first + count)),
    tiles := { s1.tiles with reserved := s1.tiles.reserved.filter (fun e => e.2.1.toNat ≠ i) } }
  (s2.resetObjects i).updInst i (fun x => { x with epoch := epoch, step := 0, stopped := false })

/-- An INST_CTL packet (R687). -/
def instPkt (sub i : Nat) (epoch : BitVec 7) : Packet := ctlPkt tyInstCtl (BitVec.ofNat 6 i) (toLe 1 sub ++ toLe 1 i ++ toLe 1 epoch.toNat ++ zeros 5)

/-- Members other than this chip. -/
def State.others (s : State) : List ChipId := s.memberList.filter (· ≠ s.dom.chipId)

/-! ## The root's sequence (R687) -/

/-- Configuration fields of the function's rings after a reset go to the standby. -/
def State.journalRings (s : State) (i : Nat) : State :=
  let x := s.inst i
  let sq := (s.sqs.filter (fun e => decide (x.sqFirst ≤ e.1 ∧ e.1 < x.sqFirst + x.sqCount) && e.2.cfg.size != 0)).map (·.1)
  let cq := (s.cqs.filter (fun e => decide (x.cqFirst ≤ e.1 ∧ e.1 < x.cqFirst + x.cqCount) && e.2.size != 0)).map (·.1)
  let s1 := { s with sqs := s.sqs.filter (fun e => !decide (x.sqFirst ≤ e.1 ∧ e.1 < x.sqFirst + x.sqCount)),
                     cqs := s.cqs.filter (fun e => !decide (x.cqFirst ≤ e.1 ∧ e.1 < x.cqFirst + x.cqCount)) }
  cq.foldl (fun s c => s.journal (s.cqCfgRec c)) (sq.foldl (fun s n => s.journal (s.sqCfgRec n)) s1)

/-- A function's own registers, vectors and configuration space after a Function Level Reset; its vector allotment stands (R685). -/
def State.resetFn (s : State) (fn : Nat) : State :=
  let s1 := { s with fns := Tbl.set Fn.reset s.fns fn Fn.reset,
                     pcie := { s.pcie with vecs := s.pcie.vecs.filter (fun e => !decide (vecKey fn 0 ≤ e.1 ∧ e.1 < vecKey (fn + 1) 0)),
                                           reads := s.pcie.reads.map (fun (r : HostRd) => if r.fn = fn then { r with use := .dropped } else r),
                                           readWait := s.pcie.readWait.filter (fun w => w.2.2.fn ≠ fn),
                                           posted := s.pcie.posted.filter (fun p => p.1 ≠ fn),
                                           fences := s.pcie.fences.filter (· ≠ fn),
                                           heldReads := s.pcie.heldReads.filter (fun h => h.1 ≠ fn),
                                           dlogHeld := s.pcie.dlogHeld.filter (fun h => h.1 ≠ fn) } }
  s1.updFc fn (fun f => { FnCfg.reset with vecs := f.vecs, vecBase := f.vecBase })

/-- The manager's queues are empty again. -/
def State.resetQueues (s : State) : State :=
  { s with mgr := { s.mgr with cmd := [], cmdPi := 0, cmdCi := 0, rsp := [], rspPi := 0, rspCons := 0, rspWait := [] } }

/-- Steps 5 and 6 of Table 15-6. -/
def State.finishFlr (s : State) (i : Nat) : State :=
  let caps := ((s.fn i).caps.filter (fun e => e.2.isSome)).map (·.1)
  let s1 := caps.foldl (fun s k => s.journal (jrec 0x07 i 0xFF (toLe 4 k ++ zeros 4))) s
  let s2 := ((s1.journalRings i).resetFn i).updInst i (fun x => { x with state := .ready, stopped := false, step := 0 })
  let s3 := if i = 0 then s2.resetQueues else s2
  s3.notify (mboxMsg 0x82 0 2 i msDone [])

/-- A member has answered PURGED, or has been lost. -/
def State.purgeAnswered (s : State) (i : Nat) (src : ChipId) : State :=
  match s.rootw.stops.find? (fun w => w.1 == i) with
  | none => s
  | some w =>
    if !w.2.1.isEmpty || !w.2.2.contains src then s
    else
      let left := w.2.2.filter (· ≠ src)
      let rest := s.rootw.stops.filter (fun x => x.1 ≠ i)
      if left.isEmpty then (State.finishFlr { s with rootw := { s.rootw with stops := rest } } i)
      else { s with rootw := { s.rootw with stops := rest ++ [(i, [], left)] } }

/-- Every member has answered STOPPED: PURGE goes to every member, this chip included. -/
def State.purgeAll (s : State) (i : Nat) : State :=
  let epoch := (s.inst i).epoch + 1
  let rest := s.rootw.stops.filter (fun x => x.1 ≠ i)
  let s1 := { s with rootw := { s.rootw with stops := rest ++ [(i, [], s.memberList)] } }
  let s2 := s1.others.foldl (fun s d => s.newXfer d .ctl [instPkt 3 i epoch]) s1
  (s2.purgeLocal i epoch).purgeAnswered i s.dom.chipId

/-- A member has answered STOPPED, or has been lost. -/
def State.stopAnswered (s : State) (i : Nat) (src : ChipId) : State :=
  match s.rootw.stops.find? (fun w => w.1 == i) with
  | none => s
  | some w =>
    if !w.2.1.contains src then s
    else
      let left := w.2.1.filter (· ≠ src)
      if left.isEmpty then s.purgeAll i
      else { s with rootw := { s.rootw with stops := s.rootw.stops.map (fun x => if x.1 = i then (i, left, x.2.2) else x) } }

/-- STOPPED is answered for every instance whose operations have stopped and whose launches are all acknowledged (Table 15-6 step 3). -/
def State.answerStops (s : State) : State :=
  ((s.insts.filter (fun e => e.2.step == 1)).map (·.1)).foldl (fun s i =>
    if s.launchesOut i || s.opsRun i then s
    else
      let s1 := s.updInst i (fun x => { x with step := 2 })
      if s.dom.root then s1.stopAnswered i s.dom.chipId
      else s1.newXfer s.dom.rootId .ctl [instPkt 2 i 0]) s

/-- Members that are lost answer nothing any more (R687). -/
def State.stopsWithout (s : State) (x : ChipId) : State :=
  (s.rootw.stops.map (·.1)).foldl (fun s i => (s.stopAnswered i x).purgeAnswered i x) s

/-- The root begins: STOP to every member, itself included. -/
def State.beginStop (s : State) (i : Nat) : State :=
  let s1 := { s with rootw := { s.rootw with stops := s.rootw.stops ++ [(i, s.memberList, [])] } }
  let s2 := s1.others.foldl (fun s d => s.newXfer d .ctl [instPkt 1 i 0]) s1
  (s2.stopLocal i).answerStops

/-! ## Resets of functions (R684, R689, 04 R211, R237 to R239) -/

/-- The function's windows close, and nothing it has not issued leaves the portal (Table 15-6 step 1). -/
def State.closeFn (s : State) (fn : Nat) : State :=
  let s1 := s.updFc fn (fun f => { f with flr := true })
  { s1 with pcie := { s1.pcie with posted := s1.pcie.posted.filter (fun p => p.1 ≠ fn), dlogHeld := s1.pcie.dlogHeld.filter (fun h => h.1 ≠ fn) } }

/-- Step 1 of Table 15-6 on the active front end; a PENDING command of the instance ends with BUSY. -/
def State.flrHost (s : State) (fn : Nat) : State :=
  ((s.endPending fn msBusy []).closeFn fn).updInst fn (fun x => { x with state := .resetting, stopped := true })

/-- The first critical ring of an instance, while the chip is armed (17 R766). -/
def State.criticalRing (s : State) (i : Nat) : Option Nat :=
  if s.safe.mode && s.safe.armed then (s.sqs.find? (fun e => s.sqInst e.1 == some i && s.critical (.host e.1))).map (·.1) else none

/-- The instance of a function is disabled, by the active front end (R684). -/
def State.flrInst (s : State) (fn : Nat) : State :=
  match s.criticalRing fn with
  | some r => ((s.disarm 1).enterSafe 0x21 r).resetFn fn
  | none => (s.flrHost fn).beginStop fn

/-- A Function Level Reset finds a domain to carry it out: the chip has formed one and serves, hibernating or not. -/
def State.flrServed (s : State) : Bool := s.dom.formed && !s.safest.inSafe && (s.boot.state == .ready || s.boot.state == .hibernate)

/-- On a portal that is not the active front end, the function closes until the PURGE of its instance, which the portal asks the active front end
for (R203, R684; log 50). -/
def State.flrAway (s : State) (fn : Nat) : State :=
  if (s.fc fn).flr then s else (s.closeFn fn).ctl s.dom.frontEnd (.flr (BitVec.ofNat 6 fn))

/-- An FLR of one function. -/
def State.flrFn (s : State) (fn : Nat) : State :=
  if !s.flrServed then s.resetFn fn
  else if !s.isFe then s.flrAway fn
  else if (s.inst fn).state = .absent then s.resetFn fn
  else if (s.inst fn).state = .resetting then s
  else s.flrInst fn

/-- Some virtual function is still being disabled. -/
def State.vfsResetting (s : State) : Bool := s.insts.any (fun e => e.1 != 0 && e.2.state == .resetting)

/-- Instance 0 is reset once every virtual function has completed its own disable (R689). -/
def State.pfNext (s : State) : State :=
  if (s.inst 0).step = 9 && !s.vfsResetting then (s.updInst 0 (fun x => { x with step := 0 })).beginStop 0 else s

/-- Every virtual function is disabled (04 R238). -/
def State.disableVfs (s : State) : State :=
  let s1 := s.vfs.foldl State.flrFn s
  { s1 with pcie := { s1.pcie with vfEn := false } }

/-- Instance 0 is disabled after every virtual function (R689). -/
def State.flrManager (s : State) : State :=
  if (s.inst 0).state = .resetting then s
  else match s.criticalRing 0 with
    | some r => ((s.disarm 1).enterSafe 0x21 r).resetFn 0
    | none => ((s.flrHost 0).updInst 0 (fun x => { x with step := 9 })).pfNext

/-- Another portal's function has been reset: its instance is disabled, or where there is none the portal is answered with PURGE (log 50). -/
def State.takeFlr (s : State) (src : ChipId) (fn : Nat) : State :=
  if !s.isFe then s
  else if fn = 0 then s.flrManager
  else if (s.inst fn).state = .absent then s.newXfer src .ctl [instPkt 3 fn (s.inst fn).epoch]
  else if (s.inst fn).state = .resetting then s
  else s.flrInst fn

/-- An FLR of the physical function: the virtual functions, then instance 0; its lock is broken (R683, R689). -/
def State.flrPf (s : State) : State :=
  let s1 := s.disableVfs.breakLock [1]
  if !s1.flrServed then s1.resetFn 0
  else if !s1.isFe then s1.flrAway 0
  else s1.flrManager

def execFunctionLevelReset (fn : Nat) (s : State) : Host.Outcome State Fault Refusal :=
  .next (if s.fnHere fn then (if fn = 0 then s.flrPf else (s.flrFn fn).pfNext) else s)

def execVfDisable (s : State) : Host.Outcome State Fault Refusal :=
  .next (if s.pcie.up then s.disableVfs.pfNext else s)

def execPfFlr (s : State) : Host.Outcome State Fault Refusal := .next (if s.pcie.up then s.flrPf else s)

/-- The link goes down; it trains again when the host side does. -/
def State.linkLost (s : State) : State :=
  { s with pcie := { s.pcie with up := false, rate := 0, width := 0, l1 := false, training := !s.boot.perstLow } }

/-- HOT_RESET: a hot reset, or the loss of the link, resets every function of the portal as a PF FLR does (04 R239). -/
def execHotReset (linkLoss : Bool) (s : State) : Host.Outcome State Fault Refusal :=
  .next (if s.pcie.up then (if linkLoss then s.flrPf.linkLost else s.flrPf) else s)

/-! ## The rows' content (R687) -/

/-- STOP at a member. -/
def State.takeStop (s : State) (i : Nat) : State := (s.stopLocal i).answerStops

/-- PURGE at a member: PURGED goes back with the epoch it carried; a function of this portal that waited for it is reset. -/
def State.takePurge (s : State) (src : ChipId) (i : Nat) (epoch : BitVec 7) : State :=
  let s1 := (s.purgeLocal i epoch).newXfer src .ctl [instPkt 4 i epoch]
  if (s1.fc i).flr then s1.resetFn i else s1

end Sys2Proof.Machine
end

