-- ==== Sys2Proof/Machine/Context.lean ====
section
/-! DEFINITION. Context images: what SAVE writes, how an image is read and checked, what RESTORE puts back on a chip (15 R692 to R695, Table 15-7; log 60). -/

namespace Sys2Proof.Machine

/-! ## Writing an image (Table 15-7) -/

/-- A section: TYPE, a count in [31:8] that the layout of log 60 uses, LEN8, content. An empty one is left out. -/
def section_ (type cnt : Nat) (body : List Byte) : List (List Byte) :=
  if body.isEmpty then [] else [padTo ((body.length + 15) / 8 * 8) (toLe 1 type ++ toLe 3 cnt ++ toLe 4 ((body.length + 15) / 8) ++ body)]

/-- The 64 bytes of a submission ring. -/
def sqImage (q : Sq) : List Byte :=
  let c := q.cfg
  let g := match q.guilty with | some g => g.slot.getD 0xFF | none => 0xFF
  padTo 64 (toLe 6 c.base.toNat ++ toLe 1 c.cq.toNat ++ toLe 1 c.size.toNat ++ toLe 6 c.tagBase.toNat ++ toLe 1 (b2n c.realTime + 16 * c.rtSlot.toNat)
    ++ toLe 1 c.reserve.toNat ++ toLe 6 c.shadowPi.toNat ++ toLe 2 c.pollUs.toNat ++ toLe 1 c.weight.toNat ++ toLe 1 c.burst.toNat ++ toLe 2 c.hangMs.toNat
    ++ toLe 4 q.k.toNat ++ toLe 4 q.fetch.toNat ++ toLe 4 q.release.toNat ++ toLe 6 q.e ++ toLe 6 q.w
    ++ toLe 1 (b2n q.guilty.isSome + 2 * b2n q.halted) ++ toLe 1 g)

/-- The 32 bytes of a completion ring. -/
def cqImage (q : Cq) : List Byte :=
  padTo 32 (toLe 6 q.base.toNat ++ toLe 1 q.size.toNat ++ toLe 1 q.coalCount.toNat ++ toLe 2 q.vecsel.toNat ++ toLe 2 q.coalTime.toNat
    ++ toLe 4 q.wr.toNat ++ toLe 4 q.h.toNat)

/-- The 32 bytes of a device-resident ring. -/
def drImage (d : Dr) : List Byte :=
  padTo 32 (toLe 6 d.recBase.toNat ++ toLe 1 d.size.toNat ++ toLe 1 d.weight.toNat ++ toLe 4 d.done.toNat ++ toLe 1 d.burst.toNat ++ zeros 1
    ++ toLe 2 d.hangMs.toNat ++ toLe 4 d.push.toNat ++ toLe 4 d.release.toNat ++ toLe 6 d.w)

/-- VALUE and PHASE of an object of this chip (08 Table 8-6). -/
def State.objValue (s : State) (kind k : Nat) : Nat :=
  if kind = 0 then b2n (s.flag k) else if kind = 1 then (s.tally k).toNat
  else (s.bar k).count.toNat + 65536 * b2n (s.bar k).sense + 131072 * b2n (s.bar k).forwarded
def State.objPhase (s : State) (kind k : Nat) : Nat := if kind = 2 then (s.bar k).phase.toNat else 0

/-- Objects an instance owns in a configuration set: kind and index. -/
def CfgSet.owned (g : CfgSet) (i : Nat) : List (Nat × Nat) :=
  let f := fun (kind : Nat) (t : Tbl (BitVec 12)) => (t.filter (fun e => decide (fld e.2.toNat 0 6 = i))).map (fun e => (kind, e.1))
  f 0 g.flagOwn ++ f 1 g.tallyOwn ++ f 2 g.barOwn

/-- Objects of one chip, 8 bytes each; another chip's values are free (log 60). -/
def State.objImages (s : State) (c : ChipId) : List (Nat × Nat) → List Byte × State
  | [] => ([], s)
  | o :: os =>
    let v := if c = s.dom.chipId then ((s.objPhase o.1 o.2, s.objValue o.1 o.2), s)
      else (let a := s.draw 16; let b := a.2.draw 32; ((a.1.toNat, b.1.toNat), b.2))
    let r := v.2.objImages c os
    (toLe 2 (o.2 + 16384 * o.1) ++ toLe 2 v.1.1 ++ toLe 4 v.1.2 ++ r.1, r.2)

/-- Device-resident rings of one chip; another chip's are free. -/
def State.drImages (s : State) (c : ChipId) (i : Nat) : List Byte × State :=
  let w := Tbl.get 0 (s.cfgAt c).drRings i
  let first := fld w.toNat 0 8
  let n := fld w.toNat 8 8
  if c = s.dom.chipId then ((addrs first n).flatMap (fun k => drImage (s.dr k)), s) else s.drawBytes (32 * n)

/-- Sections of every member, chip by chip. -/
def State.chipSections (s : State) (i : Nat) (dr : Bool) : List ChipId → List (List Byte) × State
  | [] => ([], s)
  | c :: cs =>
    let r := if dr then s.drImages c i else s.objImages c ((s.cfgAt c).owned i)
    let q := r.2.chipSections i dr cs
    ((if r.1.isEmpty then [] else section_ (if dr then 3 else 4) 0 (toLe 8 c.toNat ++ r.1)) ++ q.1, q.2)

/-- The header and its CRC around the sections. -/
def imageOf (inst nlevel stands : Nat) (secs : List (List Byte)) : List Byte :=
  let body := secs.flatten
  let h := padTo 64 (toLe 2 0x51C7 ++ [1] ++ toLe 1 inst ++ toLe 1 nlevel ++ toLe 1 stands ++ toLe 2 secs.length ++ toLe 4 ((64 + body.length) / 8))
  putAt (h ++ body) 12 (toLe 4 (crc32c (h ++ body)).toNat)

/-- The context image of an instance. -/
def State.image (s : State) (i : Nat) : List Byte × State :=
  let x := s.inst i
  let sq := addrs x.sqFirst x.sqCount
  let rings := section_ 1 x.sqCount (sq.flatMap (fun n => sqImage (s.sq n)) ++ (addrs x.cqFirst x.cqCount).flatMap (fun c => cqImage (s.cq c)))
  let pend := section_ 2 0 (sq.flatMap (fun n => (s.sq n).cache.flatMap (fun e => toLe 8 (n - x.sqFirst) ++ e)))
  let d := s.chipSections i true (s.memberList)
  let o := d.2.chipSections i false (s.memberList)
  let caps := section_ 5 0 ((s.fn i).caps.flatMap (fun e => match e.2 with
    | some c => toLe 1 e.1 ++ toLe 1 (leAt c 3 1) ++ toLe 1 (b2n (bit (leAt c 2 1) 2)) ++ zeros 5 ++ padTo 128 c
    | none => []))
  let f := s.fn i
  let status := section_ 6 0 (padTo 64 (toLe 4 f.err.toNat ++ (List.range 14).flatMap (fun k => toLe 2 (Tbl.get 0 f.errCnt k).toNat)))
  (imageOf i s.boot.nlevel.toNat s.fuses.grade.stands (rings ++ pend ++ d.1 ++ o.1 ++ caps ++ status), o.2)

/-! ## Reading an image (R694) -/

/-- The sections of an image: type, count field, content (fuel: the bytes). -/
def cutSections : Nat → List Byte → List (Nat × Nat × List Byte)
  | 0, _ => []
  | k + 1, bs =>
    let n := 8 * leAt bs 4 4
    if bs.length < 8 || n < 8 || bs.length < n then [] else (leAt bs 0 1, leAt bs 1 3, (bs.take n).drop 8) :: cutSections k (bs.drop n)

/-- MAGIC, VERSION, LEN8 and CRC are valid in what the buffer holds. -/
def imageValid (buf : List Byte) : Bool :=
  let n := 8 * leAt buf 8 4
  leAt buf 0 2 == 0x51C7 && leAt buf 2 1 == 1 && decide (64 ≤ n ∧ n ≤ buf.length)
    && leAt buf 12 4 == (crc32c (putAt (buf.take n) 12 (zeros 4))).toNat

/-- The sections of a valid image. -/
def imageSections (img : List Byte) : List (Nat × Nat × List Byte) :=
  cutSections img.length ((img.take (8 * leAt img 8 4)).drop 64)

/-- Ring counts of an image. -/
def imageSqs (img : List Byte) : Nat := ((imageSections img).find? (fun x => x.1 == 1)).elim 0 (fun x => x.2.1)
def imageCqs (img : List Byte) : Nat := ((imageSections img).find? (fun x => x.1 == 1)).elim 0 (fun x => (x.2.2.length - 64 * x.2.1) / 32)

/-- The objects an OBJECTS section names: kind, index, PHASE, VALUE. -/
def secObjs (b : List Byte) : List (Nat × Nat × Nat × Nat) :=
  (List.range ((b.length - 8) / 8)).map (fun k =>
    let w := leAt b (8 + 8 * k) 8
    (fld w 14 2, fld w 0 14, fld w 16 16, fld w 32 32))

/-- Every object is owned by the instance on its chip, and at its reset value where that chip is this one. -/
def State.objsFit (s : State) (i : Nat) (img : List Byte) : Bool :=
  ((imageSections img).filter (fun x => x.1 == 4)).all (fun x =>
    let c : ChipId := BitVec.ofNat 16 (leAt x.2.2 0 8)
    let own := (s.cfgAt c).owned i
    (secObjs x.2.2).all (fun o => own.contains (o.1, o.2.1) && (c != s.dom.chipId || (s.objValue o.1 o.2.1 == 0 && s.objPhase o.1 o.2.1 == 0))))

/-- The image fits the target instance. -/
def State.imageFits (s : State) (i : Nat) (img : List Byte) : Bool :=
  leAt img 4 1 == s.boot.nlevel.toNat && leAt img 5 1 == s.fuses.grade.stands && decide (imageSqs img ≤ (s.inst i).sqCount)
    && decide (imageCqs img ≤ (s.inst i).cqCount) && s.objsFit i img

/-! ## Putting it back (R695) -/

/-- A submission ring of 64 image bytes. -/
def sqOf (b : List Byte) : Sq :=
  let g := leAt b 53 1
  { Sq.reset with
    cfg := { size := BitVec.ofNat 5 (leAt b 7 1), base := BitVec.ofNat 48 (leAt b 0 6), cq := BitVec.ofNat 8 (leAt b 6 1), realTime := bit (leAt b 14 1) 0,
             rtSlot := BitVec.ofNat 4 (fld (leAt b 14 1) 4 4), reserve := BitVec.ofNat 8 (leAt b 15 1), tagBase := BitVec.ofNat 48 (leAt b 8 6),
             shadowPi := BitVec.ofNat 48 (leAt b 16 6), pollUs := BitVec.ofNat 16 (leAt b 22 2), weight := BitVec.ofNat 8 (leAt b 24 1),
             burst := BitVec.ofNat 6 (leAt b 25 1), hangMs := BitVec.ofNat 16 (leAt b 26 2) },
    k := BitVec.ofNat 32 (leAt b 28 4), fetch := BitVec.ofNat 32 (leAt b 32 4), release := BitVec.ofNat 32 (leAt b 36 4), e := leAt b 40 6,
    w := leAt b 46 6, halted := bit (leAt b 52 1) 1,
    guilty := if bit (leAt b 52 1) 0 then some { slot := if g = 0xFF then none else some g, written := true, done := true, tag := 0, status := 0 } else none }

/-- A completion ring of 32 image bytes. -/
def cqOf (b : List Byte) : Cq :=
  { Cq.reset with
    size := BitVec.ofNat 5 (leAt b 6 1), base := BitVec.ofNat 48 (leAt b 0 6), coalCount := BitVec.ofNat 8 (leAt b 7 1), vecsel := BitVec.ofNat 11 (leAt b 8 2),
    coalTime := BitVec.ofNat 16 (leAt b 10 2), wr := BitVec.ofNat 32 (leAt b 12 4), h := BitVec.ofNat 32 (leAt b 16 4), hApp := BitVec.ofNat 32 (leAt b 16 4) }

/-- A device-resident ring of 32 image bytes: no entry of it is saved, so it restarts after its last recorded tag. -/
def drOf (b : List Byte) : Dr :=
  { Dr.reset with
    recBase := BitVec.ofNat 48 (leAt b 0 6), size := BitVec.ofNat 5 (leAt b 6 1), weight := BitVec.ofNat 8 (leAt b 7 1), done := BitVec.ofNat 32 (leAt b 8 4),
    burst := BitVec.ofNat 6 (leAt b 12 1), hangMs := BitVec.ofNat 16 (leAt b 14 2), push := BitVec.ofNat 32 (leAt b 16 4),
    release := BitVec.ofNat 32 (leAt b 20 4), w := leAt b 24 6, nextTag := leAt b 24 6 + 1 }

/-- One saved object on this chip: an addition to its reset value, or the saved barrier state. -/
def State.putObj (s : State) (o : Nat × Nat × Nat × Nat) : State :=
  match o.1 with
  | 0 => { s with gal := { s.gal with flags := Tbl.set false s.gal.flags o.2.1 (bit o.2.2.2 0) } }
  | 1 => { s with gal := { s.gal with tallies := Tbl.upd 0 s.gal.tallies o.2.1 (fun v => v + BitVec.ofNat 32 o.2.2.2) } }
  | _ => s.setBar o.2.1 { count := BitVec.ofNat 16 o.2.2.2, sense := bit o.2.2.2 16, phase := BitVec.ofNat 16 o.2.2.1, forwarded := bit o.2.2.2 17 }

/-- One section put back for instance `i`: on its own chip for objects and device-resident rings, on the active front end for the rest. -/
def State.putSection (s : State) (i : Nat) (x : Nat × Nat × List Byte) : State :=
  let b := x.2.2
  let here := leAt b 0 8 == s.dom.chipId.toNat
  let piece := fun (base n k : Nat) => (b.drop (base + n * k)).take n
  match x.1 with
  | 1 =>
    if !s.isFe then s
    else
      let s1 := (List.range x.2.1).foldl (fun s k => s.updSq ((s.inst i).sqFirst + k) (fun _ => sqOf (piece 0 64 k))) s
      (List.range ((b.length - 64 * x.2.1) / 32)).foldl (fun s k => s.updCq ((s.inst i).cqFirst + k) (fun _ => cqOf (piece (64 * x.2.1) 32 k))) s1
  | 2 =>
    if !s.isFe then s
    else (List.range (b.length / 72)).foldl (fun s k =>
      s.updSq ((s.inst i).sqFirst + leAt (piece 0 72 k) 0 8) (fun q => { q with cache := q.cache ++ [(piece 0 72 k).drop 8] })) s
  | 3 => if here then (List.range ((b.length - 8) / 32)).foldl (fun s k => s.updDr (s.drFirst i + k) (fun _ => drOf (piece 8 32 k))) s else s
  | 4 => if here then (secObjs b).foldl State.putObj s else s
  | 5 =>
    if !s.isFe then s
    else (List.range (b.length / 136)).foldl (fun s k =>
      s.updFn i (fun f => { f with caps := Tbl.set none f.caps (leAt (piece 0 136 k) 0 1) (some ((piece 0 136 k).drop 8)) })) s
  | 6 =>
    if !s.isFe then s
    else s.updFn i (fun f => { f with err := BitVec.ofNat 14 (leAt b 0 4),
                                      errCnt := (List.range 14).foldl (fun t k => Tbl.set 0 t k (BitVec.ofNat 16 (leAt b (4 + 2 * k) 2))) f.errCnt })
  | _ => s

/-- RESTORE on one chip; the rings' new configuration goes to the standby. -/
def State.restoreHere (s : State) (i : Nat) (img : List Byte) : State :=
  let s1 := (imageSections img).foldl (fun s x => s.putSection i x) s
  let s2 := s1.updInst i (fun x => { x with state := .quiesced })
  if !s2.isFe then s2
  else
    let s3 := (addrs (s2.inst i).sqFirst (imageSqs img)).foldl (fun s n => (s.journal (s.sqCfgRec n)).tellReserve i n) s2
    (addrs (s3.inst i).cqFirst (imageCqs img)).foldl (fun s c => s.journal (s.cqCfgRec c)) s3

end Sys2Proof.Machine
end

