-- ==== Sys2Proof/Machine/Crypto.lean ====
section
/-! DEFINITION. The algorithms the secure world names: SHA-384 (FIPS 180-4) and ECDSA P-384 verification (FIPS 186-5), as those standards
give them (16 R708, R709, Table 16-7; PRESUMED, log 11). -/

namespace Sys2Proof.Machine

/-! ## SHA-384 -/

def w64 : Nat := 2 ^ 64

def rotr64 (x n : Nat) : Nat := Nat.lor (x >>> n) ((x <<< (64 - n)) % w64)

/-- The round constants. -/
def shaK : List Nat :=
  ([0x428A2F98D728AE22, 0x7137449123EF65CD, 0xB5C0FBCFEC4D3B2F, 0xE9B5DBA58189DBBC,
    0x3956C25BF348B538, 0x59F111F1B605D019, 0x923F82A4AF194F9B, 0xAB1C5ED5DA6D8118,
    0xD807AA98A3030242, 0x12835B0145706FBE, 0x243185BE4EE4B28C, 0x550C7DC3D5FFB4E2,
    0x72BE5D74F27B896F, 0x80DEB1FE3B1696B1, 0x9BDC06A725C71235, 0xC19BF174CF692694] ++
   [0xE49B69C19EF14AD2, 0xEFBE4786384F25E3, 0x0FC19DC68B8CD5B5, 0x240CA1CC77AC9C65,
    0x2DE92C6F592B0275, 0x4A7484AA6EA6E483, 0x5CB0A9DCBD41FBD4, 0x76F988DA831153B5,
    0x983E5152EE66DFAB, 0xA831C66D2DB43210, 0xB00327C898FB213F, 0xBF597FC7BEEF0EE4,
    0xC6E00BF33DA88FC2, 0xD5A79147930AA725, 0x06CA6351E003826F, 0x142929670A0E6E70] ++
   [0x27B70A8546D22FFC, 0x2E1B21385C26C926, 0x4D2C6DFC5AC42AED, 0x53380D139D95B3DF,
    0x650A73548BAF63DE, 0x766A0ABB3C77B2A8, 0x81C2C92E47EDAEE6, 0x92722C851482353B,
    0xA2BFE8A14CF10364, 0xA81A664BBC423001, 0xC24B8B70D0F89791, 0xC76C51A30654BE30,
    0xD192E819D6EF5218, 0xD69906245565A910, 0xF40E35855771202A, 0x106AA07032BBD1B8] ++
   [0x19A4C116B8D2D0C8, 0x1E376C085141AB53, 0x2748774CDF8EEB99, 0x34B0BCB5E19B48A8,
    0x391C0CB3C5C95A63, 0x4ED8AA4AE3418ACB, 0x5B9CCA4F7763E373, 0x682E6FF3D6B2B8A3,
    0x748F82EE5DEFB2FC, 0x78A5636F43172F60, 0x84C87814A1F0AB72, 0x8CC702081A6439EC,
    0x90BEFFFA23631E28, 0xA4506CEBDE82BDE9, 0xBEF9A3F7B2C67915, 0xC67178F2E372532B] ++
   [0xCA273ECEEA26619C, 0xD186B8C721C0C207, 0xEADA7DD6CDE0EB1E, 0xF57D4F7FEE6ED178,
    0x06F067AA72176FBA, 0x0A637DC5A2C898A6, 0x113F9804BEF90DAE, 0x1B710B35131C471B,
    0x28DB77F523047D84, 0x32CAAB7B40C72493, 0x3C9EBE0A15C9BEBC, 0x431D67C49C100D4C,
    0x4CC5D4BECB3E42B6, 0x597F299CFC657E2A, 0x5FCB6FAB3AD6FAEC, 0x6C44198C4A475817])

/-- The initial hash value of SHA-384. -/
def shaInit : List Nat :=
  [0xCBBB9D5DC1059ED8, 0x629A292A367CD507, 0x9159015A3070DD17, 0x152FECD8F70E5939,
   0x67332667FFC00B31, 0x8EB44A8768581511, 0xDB0C2E0D64F98FA7, 0x47B5481DBEFA4FA4]

def sml0 (x : Nat) : Nat := Nat.xor (Nat.xor (rotr64 x 1) (rotr64 x 8)) (x >>> 7)
def sml1 (x : Nat) : Nat := Nat.xor (Nat.xor (rotr64 x 19) (rotr64 x 61)) (x >>> 6)
def big0 (x : Nat) : Nat := Nat.xor (Nat.xor (rotr64 x 28) (rotr64 x 34)) (rotr64 x 39)
def big1 (x : Nat) : Nat := Nat.xor (Nat.xor (rotr64 x 14) (rotr64 x 18)) (rotr64 x 41)
def shaCh (e f g : Nat) : Nat := Nat.xor (Nat.land e f) (Nat.land (w64 - 1 - e) g)
def shaMaj (a b c : Nat) : Nat := Nat.xor (Nat.xor (Nat.land a b) (Nat.land a c)) (Nat.land b c)

/-- Message words after the sixteen of a block, each from the sixteen before it (newest first); fuel: words to add. -/
def shaWords : Nat → List Nat → List Nat
  | 0, ws => ws
  | k + 1, ws => shaWords k ((sml1 (ws.getD 1 0) + ws.getD 6 0 + sml0 (ws.getD 14 0) + ws.getD 15 0) % w64 :: ws)

/-- One round on the eight working values. -/
def shaRound (v : List Nat) (kw : Nat × Nat) : List Nat :=
  let t1 := v.getD 7 0 + big1 (v.getD 4 0) + shaCh (v.getD 4 0) (v.getD 5 0) (v.getD 6 0) + kw.1 + kw.2
  [(t1 + big0 (v.getD 0 0) + shaMaj (v.getD 0 0) (v.getD 1 0) (v.getD 2 0)) % w64, v.getD 0 0, v.getD 1 0, v.getD 2 0,
   (v.getD 3 0 + t1) % w64, v.getD 4 0, v.getD 5 0, v.getD 6 0]

/-- The number that bytes in big-endian order spell. -/
def ofBe (bs : List Byte) : Nat := ofLe bs.reverse
def toBe (n v : Nat) : List Byte := (toLe n v).reverse

/-- One block of 128 bytes. -/
def shaBlock (h : List Nat) (blk : List Byte) : List Nat :=
  let first := (List.range 16).map (fun i => ofBe ((blk.drop (8 * i)).take 8))
  let ws := (shaWords 64 first.reverse).reverse
  (h.zip ((shaK.zip ws).foldl shaRound h)).map (fun x => (x.1 + x.2) % w64)

/-- The blocks of a padded message (fuel: their number). -/
def shaBlocks : Nat → List Nat → List Byte → List Nat
  | 0, h, _ => h
  | k + 1, h, bs => shaBlocks k (shaBlock h (bs.take 128)) (bs.drop 128)

/-- SHA-384: 48 bytes in the order the algorithm produces them. -/
def sha384 (m : List Byte) : List Byte :=
  let n := m.length
  let bs := m ++ [0x80] ++ zeros ((240 - (n + 1) % 128) % 128) ++ toBe 16 (8 * n)
  ((shaBlocks (bs.length / 128) shaInit bs).take 6).flatMap (toBe 8)

/-! ## ECDSA P-384 verification -/

def p384 : Nat := 2 ^ 384 - 2 ^ 128 - 2 ^ 96 + 2 ^ 32 - 1
def n384 : Nat := 0xFFFFFFFFFFFFFFFFFFFFFFFFFFFFFFFFFFFFFFFFFFFFFFFFC7634D81F4372DDF581A0DB248B0A77AECEC196ACCC52973
def b384 : Nat := 0xB3312FA7E23EE7E4988E056BE3F82D19181D9C6EFE8141120314088F5013875AC656398D8A2ED19D2A85C8EDD3EC2AEF
def gx384 : Nat := 0xAA87CA22BE8B05378EB1C71EF320AD746E1D3B628BA79B9859F741E082542A385502F25DBF55296C3A545E3872760AB7
def gy384 : Nat := 0x3617DE4A96262C6F5D9E98BF9292DC29F8F41DBD289A147CE9DA3113B5F0B8C00A60B1CE1D7E819D7A431D7C90EA0E5F

/-- Modular power, square and multiply (fuel: bits of the exponent). -/
def powMod (m : Nat) : Nat → Nat → Nat → Nat
  | 0, _, _ => 1 % m
  | k + 1, b, e => let r := powMod m k (b * b % m) (e / 2); if e % 2 = 1 then r * b % m else r

/-- The inverse modulo a prime of 384 bits. -/
def invMod (m a : Nat) : Nat := powMod m 384 (a % m) (m - 2)

/-- A point in Jacobian coordinates; Z of 0 is the point at infinity. -/
abbrev JPoint := Nat × Nat × Nat

def subMod (a b : Nat) : Nat := (a + p384 - b % p384) % p384

def jDouble (q : JPoint) : JPoint :=
  let x := q.1
  let y := q.2.1
  let z := q.2.2
  if z = 0 || y = 0 then (1, 1, 0)
  else
    let yy := y * y % p384
    let s := 4 * x * yy % p384
    let zz := z * z % p384
    let m := 3 * (subMod x zz) * (x + zz) % p384
    let x3 := subMod (m * m) (2 * s)
    (x3, subMod (m * (subMod s x3)) (8 * yy * yy), 2 * y * z % p384)

def jAdd (a b : JPoint) : JPoint :=
  if a.2.2 = 0 then b
  else if b.2.2 = 0 then a
  else
    let za := a.2.2 * a.2.2 % p384
    let zb := b.2.2 * b.2.2 % p384
    let u1 := a.1 * zb % p384
    let u2 := b.1 * za % p384
    let s1 := a.2.1 * b.2.2 * zb % p384
    let s2 := b.2.1 * a.2.2 * za % p384
    let h := subMod u2 u1
    let r := subMod s2 s1
    if h = 0 then (if r = 0 then jDouble a else (1, 1, 0))
    else
      let hh := h * h % p384
      let hhh := h * hh % p384
      let v := u1 * hh % p384
      let x3 := subMod (r * r) (hhh + 2 * v)
      (x3, subMod (r * (subMod v x3)) (s1 * hhh), h * a.2.2 * b.2.2 % p384)

/-- A multiple of a point (fuel: bits of the factor). -/
def jMul : Nat → Nat → JPoint → JPoint
  | 0, _, _ => (1, 1, 0)
  | k + 1, e, q => let r := jMul k (e / 2) (jDouble q); if e % 2 = 1 then jAdd q r else r

/-- The x coordinate of a point that is not at infinity. -/
def jX (q : JPoint) : Nat := let i := invMod p384 q.2.2; q.1 * (i * i % p384) % p384

/-- A public key is a point of the curve. -/
def onCurve (x y : Nat) : Bool := decide (x < p384 ∧ y < p384) && (y * y + 3 * x) % p384 == (x * x * x + b384) % p384

/-- A signature (r, s) over a digest verifies under a public key. -/
def ecdsaOk (x y : Nat) (digest : List Byte) (r s : Nat) : Bool :=
  if !onCurve x y || r = 0 || s = 0 || n384 ≤ r || n384 ≤ s then false
  else
    let w := invMod n384 s
    let q := jAdd (jMul 384 (ofBe digest * w % n384) (gx384, gy384, 1)) (jMul 384 (r * w % n384) (x, y, 1))
    q.2.2 != 0 && jX q % n384 == r

/-- A key of 96 bytes, x then y, and a signature of 96 bytes, r then s, all little-endian (00 R8, 16 R708). -/
def sigOk (key digest sig : List Byte) : Bool := ecdsaOk (leAt key 0 48) (leAt key 48 48) digest (leAt sig 0 48) (leAt sig 48 48)

end Sys2Proof.Machine
end

