-- ==== Sys2Proof/Machine/Conf.lean ====
section
/-! DEFINITION. Confidential instances on one chip: page ownership, the tables of the carve-out, measurement (16 R705, R712, R722 to R729; logs 62, 63). -/

namespace Sys2Proof.Machine

/-! ## Keys and pages -/

/-- A fresh key pair in slot `i`; none once the secure state is zeroized (R716, R717, R736). -/
def State.fillKey (s : State) (i : Nat) : State :=
  if s.sec.zeroized then s
  else { s with sec := { s.sec with lastGen := s.sec.lastGen + 1, keys := Tbl.set 0 s.sec.keys i (s.sec.lastGen + 1) } }

/-- Zeros written over ranges: the bytes, their flips and their keys go. -/
def State.zeroRanges (s : State) (rs : List (Nat × Nat)) : State :=
  let inside := fun (a : Nat) => rs.any (fun r => decide (r.1 ≤ a ∧ a < r.1 + r.2))
  { s with mem := { s.mem with bytes := s.mem.bytes.filter (fun c => !inside c.1), flips := s.mem.flips.filter (fun c => !inside (8 * c.1)),
                               enc := s.mem.enc.filter (fun c => !inside (16 * c.1)) } }

/-- The 8-byte entry at an LPA as the bytes lie. -/
def State.rawEntry (s : State) (lpa : Nat) : Nat := ofLe ((addrs lpa 8).map (Tbl.get 0 s.mem.bytes))

/-- Pages of this chip assigned to a confidential instance, by page number. -/
def State.confPages (s : State) (i : Nat) : List Nat :=
  (s.sec.owner.filter (fun e => e.2.getLsbD 6 && decide (fld e.2.toNat 0 6 = i))).map (·.1)

/-- The Security Controller zeroes a confidential instance's pages and clears their ownership; the table pages of the carve-out are free again
once no page is owned (R729; log 62). -/
def State.forgetConf (s : State) (i : Nat) : State :=
  let ps := s.confPages i
  let s1 := s.zeroRanges (ps.map (fun p => (p * 0x10000, 0x10000)))
  let own := s.sec.owner.filter (fun e => !ps.contains e.1)
  { s1 with sec := { s1.sec with owner := own, nextTable := if own.isEmpty then 0 else s1.sec.nextTable } }

/-! ## Tables in the carve-out (log 62) -/

/-- First LPA of the carve-out; the ownership table takes its first 128 KiB. -/
def State.carveBase (s : State) : Nat := dramEnd - s.sec.carve.toNat * 0x1000000

/-- A zeroed table of `size` bytes, aligned; none where the carve-out is full. -/
def State.newTable (s : State) (size : Nat) : Option (Nat × State) :=
  let off := (max 0x20000 s.sec.nextTable + size - 1) / size * size
  if s.sec.carve.toNat * 0x1000000 < off + size then none
  else
    let s1 := s.zeroRanges [(s.carveBase + off, size)]
    some (s.carveBase + off, { s1 with sec := { s1.sec with nextTable := off + size } })

/-- An entry of a table, and the table it names: made where it is not valid. -/
def State.nextLevel (s : State) (at_ size : Nat) : Option (Nat × State) :=
  let e := s.rawEntry at_
  if bit e 0 then (if bit e 1 then none else some (fld e 12 36 * 4096, s))
  else
    match s.newTable size with
    | none => none
    | some (t, s1) => some (t, s1.pokes at_ (toLe 8 (t + 1)))

/-- A cached leaf of the page is dropped. -/
def State.uncachePage (s : State) (i dva : Nat) : State :=
  { s with xlt := { s.xlt with cache := s.xlt.cache.filter (fun l => !(l.inst == i && l.base == dva / 0x10000 * 0x10000)) } }

/-- A page leaf with ENC = 1 in the tables of instance `i` (03 Table 3-4): the page lies on this chip. -/
def State.mapPage (s : State) (root i dva lpa : Nat) (r w : Bool) : Option State :=
  match s.nextLevel (fld root 12 36 * 4096 + 8 * fld dva 38 9) 4096 with
  | none => none
  | some (t2, s1) =>
    match s1.nextLevel (t2 + 8 * fld dva 29 9) 65536 with
    | none => none
    | some (t3, s2) =>
      let leaf := 3 + 4 * b2n r + 8 * b2n w + 64 + lpa / 0x10000 * 0x10000 + s.dom.chipId.toNat * 2 ^ 48
      some ((s2.pokes (t3 + 8 * fld dva 16 13) (toLe 8 leaf)).uncachePage i dva)

/-- Consecutive pages mapped; none where a table cannot be made. Fuel: the pages left. -/
def State.mapPages (s : State) (root i : Nat) (r w : Bool) : Nat → Nat → Nat → Option State
  | 0, _, _ => some s
  | k + 1, dva, lpa =>
    match s.mapPage root i dva lpa r w with
    | none => none
    | some s1 => s1.mapPages root i r w k (dva + 0x10000) (lpa + 0x10000)

/-- Leaves of a level-3 table that target pages among `ps` are cleared. -/
def State.unmapTable (s : State) (ps : List Nat) (t3 : Nat) : State :=
  (List.range 8192).foldl (fun s k =>
    let e := s.rawEntry (t3 + 8 * k)
    if bit e 0 && ps.contains (fld e 16 32) then s.pokes (t3 + 8 * k) (zeros 8) else s) s

/-- Tables below an entry list: the valid entries of a table of 512. -/
def State.children (s : State) (t : Nat) : List Nat :=
  (List.range 512).filterMap (fun k => let e := s.rawEntry (t + 8 * k); if bit e 0 && !bit e 1 then some (fld e 12 36 * 4096) else none)

/-- Pages are unmapped from an instance's tables here. -/
def State.unmapPages (s : State) (i : Nat) (ps : List Nat) : State :=
  let root := Tbl.get 0 s.act.xltRoot i
  let t3s := if root.getLsbD 0 then (s.children (fld root.toNat 12 36 * 4096)).flatMap s.children else []
  let s1 := t3s.foldl (fun s t => s.unmapTable ps t) s
  { s1 with xlt := { s1.xlt with cache := s1.xlt.cache.filter (fun l => l.inst ≠ i) } }

/-! ## Measurement (R712, R725) -/

/-- Extension of a 48-byte measurement. -/
def extend (m x : List Byte) : List Byte := sha384 (padTo 48 m ++ x)

/-- INST_MEAS is extended while construction lasts. -/
def State.measure (s : State) (i : Nat) (x : List Byte) : State :=
  s.updInst i (fun v => if v.final then v else { v with meas := extend v.meas x })

/-- MRn is extended. -/
def State.extendMr (s : State) (n : Nat) (x : List Byte) : State :=
  { s with sec := { s.sec with mrs := Tbl.set (zeros 48) s.sec.mrs n (extend (Tbl.get (zeros 48) s.sec.mrs n) x) } }

/-! ## The secure commands' part on one chip (Table 16-5) -/

/-- CONF_ASSIGN and CONF_RELEASE: first page and count, as page numbers. -/
def mPages (m : List Byte) : List Nat := addrs (leAt m 16 8 / 0x10000) (leAt m 24 4)

/-- CONF_MAP's fields. -/
def mDva (m : List Byte) : Nat := leAt m 16 8
def mLpa (m : List Byte) : Nat := leAt m 24 8
def mMapCount (m : List Byte) : Nat := leAt m 32 4

/-- What CONF_MAP measures: DVA, LPA, count, R, W. -/
def mapMeasure (m : List Byte) : List Byte := sha384 (toLe 8 (mDva m) ++ toLe 8 (mLpa m) ++ toLe 4 (mMapCount m) ++ toLe 1 (fld (leAt m 36 1) 0 1) ++ toLe 1 (fld (leAt m 36 1) 1 1))

/-- The page is assigned to the instance here. -/
def State.assigned (s : State) (i p : Nat) : Bool := decide ((Tbl.get 0 s.sec.owner p).toNat = 64 + i)

/-- Every target page of CONF_MAP is assigned here. -/
def State.mapTargets (s : State) (i : Nat) (m : List Byte) : Bool := (addrs (mLpa m / 0x10000) (mMapCount m)).all (s.assigned i)

/-- CONF_CREATE: a root of its own where there is a carve-out, staged in the shadow set. -/
def State.confCreateHere (s : State) (i : Nat) : State :=
  let s1 := s.updInst i (fun x => { x with conf := true, held := true, final := false, meas := zeros 48 })
  match (if s1.sec.carve = 0 then none else s1.newTable 4096) with
  | some (t, s2) => { s2 with shd := { s2.shd with xltRoot := Tbl.set 0 s2.shd.xltRoot i (BitVec.ofNat 64 (t + 1)) } }
  | none => s1

/-- CONF_ASSIGN: pages with a zero ownership byte are zeroed and assigned. -/
def State.confAssignHere (s : State) (i : Nat) (m : List Byte) : State :=
  if s.sec.carve = 0 then s
  else
    let ps := (mPages m).filter (fun p => Tbl.get 0 s.sec.owner p = 0)
    let s1 := s.zeroRanges (ps.map (fun p => (p * 0x10000, 0x10000)))
    State.rehold { s1 with sec := { s1.sec with owner := ps.foldl (fun t p => Tbl.set 0 t p (BitVec.ofNat 8 (64 + i))) s1.sec.owner } }

/-- CONF_MAP; nothing where a page is not assigned or a table cannot be made. -/
def State.confMapHere (s : State) (i : Nat) (m : List Byte) : Option State :=
  let root := (Tbl.get 0 s.act.xltRoot i).toNat
  if s.sec.carve = 0 || !bit root 0 || !s.mapTargets i m then none
  else s.mapPages root i (bit (leAt m 36 1) 0) (bit (leAt m 36 1) 1) (mMapCount m) (mDva m) (mLpa m)

/-- CONF_RELEASE: the instance's pages among those named are unmapped, zeroed and given back. -/
def State.confReleaseHere (s : State) (i : Nat) (m : List Byte) : State :=
  let ps := (mPages m).filter (s.assigned i)
  let s1 := (s.unmapPages i ps).zeroRanges (ps.map (fun p => (p * 0x10000, 0x10000)))
  State.rehold { s1 with sec := { s1.sec with owner := s1.sec.owner.filter (fun e => !ps.contains e.1) } }

/-- The part of a secure command on this chip, which its chip set names or which has none. -/
def State.confPart (s : State) (op i : Nat) (m : List Byte) (named : Bool) : State :=
  match op with
  | 0x20 => s.confCreateHere i
  | 0x21 => if named then s.confAssignHere i m else s
  | 0x22 => ((if named then s.confMapHere i m else none).getD s).measure i (mapMeasure m)
  | 0x24 => s.updInst i (fun x => { x with held := false, final := true })
  | 0x25 => if named then s.confReleaseHere i m else s
  | _ => s

end Sys2Proof.Machine
end

