-- ==== Sys2Proof/Machine/Parts.lean ====
section
/-! DEFINITION. What a command of the manager does on each chip at the domain epoch it takes effect at, beyond the shadow set (15 R660, R666, R667, R690, R691, R697 to R701; log 53). -/

namespace Sys2Proof.Machine

/-! ## OBJ_RESET (R666) -/

/-- One object at its reset value, its LAST fields with it, its poisoning cleared (08 R994). -/
def State.resetObj (s : State) (kind idx : Nat) : State :=
  let g := s.gal
  let g1 := match kind with
    | 0 => { g with flags := Tbl.set false g.flags idx false }
    | 1 => { g with tallies := Tbl.set 0 g.tallies idx 0 }
    | _ => { g with bars := Tbl.set Bar.reset g.bars idx Bar.reset }
  { s with gal := { g1 with poisoned := Tbl.set false g1.poisoned (objKey kind idx) false,
                            last := Tbl.set Last.reset g1.last (objKey kind idx) Last.reset } }

/-- The named objects the instance owns here. -/
def State.resetNamed (s : State) (i : Nat) (m : List Byte) : State :=
  ((mObjs m).filter (fun k => decide (fld (s.objOwn (mKind m) k).toNat 0 6 = i))).foldl (fun s k => s.resetObj (mKind m) k) s

/-! ## DESTROY (R667) -/

/-- Pages of a level-3 table that map this chip: first LPA and length. -/
def State.pageLeaves (s : State) (t3 : Nat) : List (Nat × Nat) :=
  (List.range 8192).filterMap (fun k =>
    let e := s.rawEntry (t3 + 8 * k)
    if bit e 0 && bit e 1 && fld e 48 16 = s.dom.chipId.toNat then some (fld e 16 32 * 0x10000, 0x10000) else none)

/-- Pages and blocks below a level-2 table. -/
def State.blockLeaves (s : State) (t2 : Nat) : List (Nat × Nat) :=
  (List.range 512).flatMap (fun k =>
    let e := s.rawEntry (t2 + 8 * k)
    if !bit e 0 then []
    else if bit e 1 then (if fld e 48 16 = s.dom.chipId.toNat then [(fld e 16 32 * 0x10000, 0x20000000)] else [])
    else s.pageLeaves (fld e 12 36 * 4096))

/-- Every page and block of this chip that a valid leaf of the instance's tables maps here. -/
def State.mappedHere (s : State) (i : Nat) : List (Nat × Nat) :=
  let root := Tbl.get 0 s.act.xltRoot i
  if !root.getLsbD 0 then []
  else (List.range 512).flatMap (fun k =>
    let e := s.rawEntry (fld root.toNat 12 36 * 4096 + 8 * k)
    if bit e 0 && !bit e 1 then s.blockLeaves (fld e 12 36 * 4096) else [])

/-- DESTROY on one chip: objects, pages, then what the configuration sets hold of the instance. Its key is fresh; held units are released
last (16 R729). -/
def State.destroyHere (s : State) (i : Nat) : State :=
  let objs := fun (kind : Nat) (t : Tbl (BitVec 12)) => (t.filter (fun e => decide (fld e.2.toNat 0 6 = i))).map (fun e => (kind, e.1))
  let mine := objs 0 s.act.flagOwn ++ objs 1 s.act.tallyOwn ++ objs 2 s.act.barOwn
  let s1 := (mine.foldl (fun s k => s.resetObj k.1 k.2) s).zeroRanges (s.mappedHere i)
  let s2 := (s1.forgetConf i).fillKey i
  let s3 := { s2 with act := s2.act.without i, shd := s2.shd.without i, xlt := { s2.xlt with cache := s2.xlt.cache.filter (fun l => l.inst ≠ i) } }
  State.rehold (s3.updInst i (fun x => { x with conf := false, held := false, final := false, meas := [] }))

/-! ## Dirty logs (R699 to R701) -/

/-- DLOG on one portal: 0 ENABLE, 1 CLEAR, 2 FLUSH, 3 DISABLE. -/
def State.dlogPart (s : State) (i sub : Nat) : State :=
  let clear := fun (s : State) => { s with dlog := { s.dlog with filter := List.filter (fun (p : Nat × Nat) => decide (p.1 ≠ i)) s.dlog.filter } }
  match sub with
  | 0 => clear (s.updInst i (fun x => { x with dlog := true }))
  | 1 => clear s
  | 3 => s.updInst i (fun x => { x with dlog := false })  -- writes that wait are still logged as they go (R701)
  | _ => s

/-! ## The part of a command -/

/-- A named object the instance owns here has a registered waiter (R666). -/
def State.namedWaiter (s : State) (i : Nat) (m : List Byte) : Bool :=
  let named := fun (kind k : Nat) => kind == mKind m && decide (mFirst m ≤ k ∧ k < mFirst m + mCount m) && decide (fld (s.objOwn kind k).toNat 0 6 = i)
  (csetChips (mCset m)).contains s.dom.chipId && s.gal.waiters.any (fun w => match w.cond with
    | .flagIs f _ => named 0 f
    | .tallyGe t _ => named 1 t
    | .space p c _ => named 1 p || named 1 c
    | .phasePast b _ => named 2 b)

/-- A device-resident ring of the instance is enabled here. -/
def State.drsOn (s : State) (i : Nat) : Bool := s.drs.any (fun e => e.2.size != 0 && s.drInst e.1 == some i)

/-- What only this chip can say against a command before its domain epoch, 0 where it has nothing: a waiter on a named object, an enabled
device-resident ring, an object of the image not at its reset value; a Security Controller that is zeroized or has no carve-out, a page that is
not the instance's (R666, R667, R694, 16 R725, R736; log 111). -/
def State.partStatus (s : State) (p : CmdPart) : Nat :=
  let i := p.inst.toNat
  let named := (csetChips (mCset p.msg)).contains s.dom.chipId
  match p.opcode.toNat with
  | 0x20 => if s.sec.zeroized then msSecureHeld else msDone
  | 0x21 => if !named then msDone else if s.sec.zeroized then msSecureHeld else if s.sec.carve = 0 then msNoResource else msDone
  | 0x22 => if !named then msDone else if s.sec.zeroized then msSecureHeld else if (s.confMapHere i p.msg).isNone then msNoResource else msDone
  | 0x25 => if named && s.sec.zeroized then msSecureHeld else msDone
  | 0x08 => if s.namedWaiter i p.msg then msBusy else msDone
  | 0x02 => if s.drsOn i then msBusy else msDone
  | 0x13 => if s.drsOn i then msBusy else if s.objsFit i (p.msg.drop 64) then msDone else msImageMismatch
  | _ => msDone

/-- What a command does here. -/
def State.cmdPart (s : State) (p : CmdPart) : State :=
  let i := p.inst.toNat
  let stage := fun (s : State) =>
    if (csetChips (mCset p.msg)).contains s.dom.chipId then { s with shd := s.shd.staged i p.msg } else s
  match p.opcode.toNat with
  | 0x03 => stage s
  | 0x05 => stage s
  | 0x02 => let t := s.destroyHere i; if t.isFe then t.dropInst i else t
  | 0x08 => if (csetChips (mCset p.msg)).contains s.dom.chipId then s.resetNamed i p.msg else s
  | 0x10 => s.updInst i (fun x => { x with state := .quiescing })
  | 0x11 => s.updInst i (fun x => if x.state = .quiescing || x.state = .quiesced then { x with state := .ready } else x)
  | 0x13 => s.restoreHere i (p.msg.drop 64)
  | 0x14 => s.dlogPart i (leAt p.msg 8 1)
  | op => s.confPart op i p.msg ((csetChips (mCset p.msg)).contains s.dom.chipId)

end Sys2Proof.Machine
end

