-- ==== Sys2Proof/Machine/Roots.lean ====
section
/-! DEFINITION. The root's work: routing tables, EPOCH prepare and commit, chip loss, fencing; and what each chip does at a prepare and a commit (02 R112 to R131, R141 to R144, R982, R983, 14 R617 to R624). -/

namespace Sys2Proof.Machine

/-! ## Tables from links (02 R112 to R117; 02 "Routing") -/

/-- Links of the domain: chip, port, partner, partner's port. -/
abbrev Links := List (ChipId × Nat × ChipId × Nat)

/-- Distances plus one by chip, 0 where unreached: the layers after `front` at distance `d` (fuel: the links). -/
def bfs (ls : Links) : Nat → List ChipId → Tbl Nat → Nat → Tbl Nat
  | 0, _, t, _ => t
  | k + 1, front, t, d =>
    let next := ((ls.filter (fun l => front.contains l.2.2.1 && Tbl.get 0 t l.1.toNat == 0)).map (·.1)).eraseDups
    if next.isEmpty then t else bfs ls k next (next.foldl (fun t c => Tbl.set 0 t c.toNat (d + 1)) t) (d + 1)

/-- Distances plus one to the nearest of some chips. -/
def distTo (ls : Links) (targets : List ChipId) : Tbl Nat :=
  bfs ls (ls.length + 1) targets (targets.foldl (fun t c => Tbl.set 0 t c.toNat 1) []) 1

/-- Group and member of a chip ID. -/
def grpOf (c : ChipId) : Nat := fld c.toNat 8 8
def mbrOf (c : ChipId) : Nat := fld c.toNat 0 8

/-- A mask of ports. -/
def maskOf (ps : List Nat) : Nat := ps.foldl (fun m p => Nat.lor m (2 ^ p)) 0

/-- PRIMARY and ALTERNATE of chip `c` toward the chips a distance table is for; 0 where they are not reached. -/
def routeWord (ls : Links) (t : Tbl Nat) (c : ChipId) (first : Bool) : Word64 :=
  let d := Tbl.get 0 t c.toNat
  let mine := ls.filter (fun l => l.1 == c)
  let pri := (mine.filter (fun l => Tbl.get 0 t l.2.2.1.toNat ≠ 0 && Tbl.get 0 t l.2.2.1.toNat + 1 = d)).map (·.2.1)
  let alt := (mine.filter (fun l => Tbl.get 0 t l.2.2.1.toNat = d)).map (·.2.1)
  if d = 0 then 0 else BitVec.ofNat 64 (maskOf pri + maskOf alt * 2 ^ 24 + b2n first * 2 ^ 48 + 2 ^ 49)

/-- Every chip of `c`'s group has a link to the chip of group `g` with its own member number (R116). -/
def memberFirst (ls : Links) (members : List ChipId) (c : ChipId) (g : Nat) : Bool :=
  (members.filter (fun x => grpOf x = grpOf c)).all (fun x =>
    ls.any (fun l => l.1 == x && grpOf l.2.2.1 == g && mbrOf l.2.2.1 == mbrOf x))

/-- Links of the broadcast tree: each chip but the root keeps its lowest port toward a chip nearer the root. -/
def treeLinks (ls : Links) (members : List ChipId) (root : ChipId) : Links :=
  let t := distTo ls [root]
  members.filterMap (fun c =>
    if c = root then none
    else ((ls.filter (fun l => l.1 == c && Tbl.get 0 t l.2.2.1.toNat ≠ 0 && Tbl.get 0 t l.2.2.1.toNat + 1 = Tbl.get 0 t c.toNat)).mergeSort
      (fun a b => decide (a.2.1 ≤ b.2.1))).head?)

/-- Ports of chip `c` in the tree. -/
def treePorts (tree : Links) (c : ChipId) : List Nat :=
  tree.filterMap (fun l => if l.1 = c then some l.2.1 else if l.2.2.1 = c then some l.2.2.2 else none)

/-- FAB_MC 0 of chip `c` (R117, R120). -/
def treeWord (tree : Links) (c : ChipId) : Word32 := BitVec.ofNat 32 (maskOf (treePorts tree c) + 2 ^ 24 + 2 ^ 25)

/-- MGMT offsets of the routing tables (22 Table 22-10). -/
def offGrp (g : Nat) : Nat := 0x710000 + 8 * g
def offMbr (m : Nat) : Nat := 0x710800 + 8 * m
def offMc (k : Nat) : Nat := 0x711000 + 4 * k

/-- Every table entry of chip `c`: group entries of the other groups ever formed, member entries of its own group, FAB_MC 0. -/
def tablesOf (ls : Links) (members ever : List ChipId) (root c : ChipId) : List (Nat × Bool × Word64) :=
  let groups := ((ever.map grpOf).eraseDups).filter (· ≠ grpOf c)
  let own := (ever.filter (fun x => grpOf x = grpOf c && x ≠ c)).eraseDups
  let inner := ls.filter (fun l => grpOf l.1 = grpOf c && grpOf l.2.2.1 = grpOf c)
  groups.map (fun g => (offGrp g, true, routeWord ls (distTo ls (members.filter (fun x => grpOf x = g))) c (memberFirst ls members c g)))
    ++ own.map (fun x => (offMbr (mbrOf x), true, if members.contains x then routeWord inner (distTo inner [x]) c false else 0))
    ++ [(offMc 0, false, BitVec.ofNat 64 (treeWord (treeLinks ls members root) c).toNat)]

/-- One routing entry staged in this chip's shadow set (R982). -/
def State.stageRoute (s : State) (off : Nat) (v : Word64) : State :=
  if 0x711000 ≤ off then { s with shd := { s.shd with mc := Tbl.set 0 s.shd.mc 0 (BitVec.ofNat 32 v.toNat) } }
  else if 0x710800 ≤ off then { s with shd := { s.shd with mbr := Tbl.set 0 s.shd.mbr ((off - 0x710800) / 8) v } }
  else { s with shd := { s.shd with grp := Tbl.set 0 s.shd.grp ((off - 0x710000) / 8) v } }

/-- Links between members that are up (R983). -/
def State.liveLinks (s : State) (members : List ChipId) : Links :=
  s.rootw.links.filter (fun l => members.contains l.1 && members.contains l.2.2.1 && !s.rootw.downs.contains (l.1, l.2.1)
    && !s.rootw.downs.contains (l.2.2.1, l.2.2.2))

/-- Every chip's tables staged: this chip's in its shadow set, the others' by MGMT packets (R128, R131). -/
def State.stageTables (s : State) (members : List ChipId) : State :=
  let ls := s.liveLinks members
  let ever := (s.dom.ever ++ members).eraseDups
  members.foldl (fun s c =>
    let t := tablesOf ls members ever s.dom.chipId c
    if c = s.dom.chipId then t.foldl (fun s e => s.stageRoute e.1 e.2.2) s
    else t.foldl (fun s e => s.ctl c (.mgmt 3 false (BitVec.ofNat 24 e.1) e.2.1 (some e.2.2))) s) s

/-! ## The end of a chip's work with a lost chip (14 R619, R620) -/

/-- The first operation of a context placed on chip `x`: index and header. -/
def State.firstOn (s : State) (c : Nat) (x : ChipId) : Option (Nat × List Byte) :=
  match (indexed 1 ((s.ctx c).sets.zip (s.ctx c).heads)).find? (fun e => e.2.1.contains x) with
  | some e => some (e.1, e.2.2)
  | none => none

/-- A completion increment of chip `x` for context `c` has arrived and is not yet counted. -/
def State.incHere (s : State) (c : Nat) (x : ChipId) : Bool :=
  s.gal.incs.any (fun k => k.src == x && k.ctx == BitVec.ofNat 10 c)

/-- CHIP_LOST becomes the fault of an admitted buffer with an operation on `x` whose share has not counted (R620). -/
def State.loseShare (s : State) (x : ChipId) (c : Nat) : State :=
  match s.owner c, s.firstOn c x with
  | some o, some (i, h) =>
    if o.fault.isSome || o.phase = .aborting || (s.ctx c).doneBy.contains x || s.incHere c x then s
    else
      let err : Err := { status := stChipLost, peer := x.toNat }
      s.applyFault c i stChipLost 0 (s.capture o.inst.toNat i (some h) 0 err)
  | _, _ => s

/-- ABORT acknowledgements of `x` are no longer awaited (13 R576). -/
def State.acksWithout (s : State) (x : ChipId) : State :=
  let due := (s.ctxs.filter (fun e => e.2.acksDue.contains x)).map (·.1)
  due.foldl (fun s c =>
    let s1 := s.updCtx c (fun k => { k with acksDue := k.acksDue.filter (· ≠ x) })
    match s1.owner c with
    | some o => s1.guiltyFinish o.ring
    | none => s1) s

/-- Collectives whose chip set holds `x` fail (11 R552). -/
def State.collsWithout (s : State) (x : ChipId) : State :=
  (s.ops.filterMap (fun e => match e.2 with
    | some o => if hCollective o.hdr && o.chips.contains x && !o.dead && o.stage ≠ .waiting then some e.1 else none
    | none => none)).foldl (fun s e => s.failOp e { status := stChipLost, peer := x.toNat }) s

/-- An invalidation no longer waits for `x`: it ends with CHIP_LOST once no other chip is awaited (22 R932). -/
def State.invalWithout (s : State) (x : ChipId) : State :=
  if !s.xlt.busy || !s.xlt.waiting.contains x then s
  else
    let left := s.xlt.waiting.filter (· ≠ x)
    { s with xlt := { s.xlt with waiting := left, busy := !left.isEmpty, result := 1, gen := if left.isEmpty then s.xlt.gen + 1 else s.xlt.gen } }

/-- Nothing is kept of chip `x`: membership, transfers, windows, trackers, held packets, parked signals that are not complete. -/
def State.forgetChip (s : State) (x : ChipId) : State :=
  { s with
    dom := { s.dom with lost := s.dom.lost ++ [x], members := s.dom.members.filter (· ≠ x),
                        standby := if s.dom.standby = some x then none else s.dom.standby },
    fab := { s.fab with xfers := s.fab.xfers.filter (fun y => y.dst ≠ x), queued := s.fab.queued.filter (fun y => y.dst ≠ x),
                        trackers := s.fab.trackers.filter (fun t => t.src ≠ x), ordHeld := s.fab.ordHeld.filter (fun p => p.src ≠ x),
                        ordDue := s.fab.ordDue.filter (fun e => e.1 ≠ x),
                        held := s.fab.held.filter (fun h => h.packet.src ≠ x), mcHeld := s.fab.mcHeld.filter (fun h => h.packet.src ≠ x),
                        windows := s.fab.windows.filter (fun w => w.src ≠ x) },
    ctxs := Tbl.mapAll Ctx.reset s.ctxs (fun _ k => match k.use with
      | .owner o => { k with use := .owner { o with waits := o.waits.filter (· ≠ x) } }
      | _ => k),
    fns := Tbl.mapAll Fn.reset s.fns (fun _ f => { f with drGuilty := f.drGuilty.filter (fun g => g.1 ≠ x) }),
    gal := { s.gal with slots := s.gal.slots.filter (fun e => match e.2 with | some k => k.src ≠ x || k.ready | none => false) } }

/-- This chip treats `x` as lost (R619, R620). -/
def State.loseChip (s : State) (x : ChipId) : State :=
  if s.isLost x || x = s.dom.chipId then s
  else
    let gone := s.fab.xfers.filter (fun y => y.dst == x) ++ s.fab.queued.filter (fun y => y.dst == x)
    let s2 := gone.foldl (fun s y => s.xferFail y { status := stChipLost, peer := x.toNat }) (s.forgetChip x)
    let shares := (s2.ctxs.filter (fun e => match e.2.use with | .share h => h.chip == x | _ => false)).map (·.1)
    let s3 := shares.foldl (fun s c => ((s.endShare c).updShare c (fun h => { h with aborting := true, abortPkt := none })).drained c) s2
    let owners := (s3.ctxs.filter (fun e => match e.2.use with | .owner _ => true | _ => false)).map (·.1)
    let s4 := owners.foldl (fun s c => s.loseShare x c) s3
    (((s4.acksWithout x).collsWithout x).invalWithout x).drainAll

/-- Records and slots held back for the standby go on once there is none (05 R256, 14 R643). -/
def State.unheld (s : State) : State :=
  let s1 := s.flushCqs
  (s1.sqs.map (·.1)).foldl (fun s n => State.releaseSlots s n ((s.sq n).unreleased.length)) s1

/-- EPOCH prepare on this chip: the chips it names are lost; nothing of them remains (R618, R619). Stops and locks that waited for
them go on. -/
def State.prepareLocal (s : State) (lost : List ChipId) : State :=
  let had := s.dom.standby.isSome
  let s1 := lost.foldl State.loseChip s
  let s2 := if lost.contains s.dom.rootId || lost.contains s.dom.frontEnd then s1.breakLock [2, 3] else s1
  let s3 := if had && s2.dom.standby.isNone then s2.unheld else s2
  let s4 := if s3.dom.root then lost.foldl State.stopsWithout s3 else s3
  s4.answerStops.pfNext

/-! ## The commit on a chip (02 R131, R982, 15 R680, R682, 22 R924) -/

/-- The staged routing entries become active; every other entry keeps both copies (R982). -/
def State.swapRoutes (s : State) : State :=
  { s with act := { s.act with grp := s.shd.grp, mbr := s.shd.mbr, mc := Tbl.set 0 s.act.mc 0 (Tbl.get 0 s.shd.mc 0) } }

/-- The role a roster gives this chip (02 R129, 14 R625, 01 R43). -/
def State.roleOf (s : State) (r : Roster) : Role :=
  if r.frontEnd = s.dom.chipId then .frontEnd
  else if r.standby = some s.dom.chipId then .standby
  else if s.pcie.up then .dataPortal else .member

/-- Membership as a commit gives it. -/
def State.enroll (s : State) (r : Roster) : State :=
  { s with
    dom := { s.dom with members := r.members, ever := (s.dom.ever ++ r.members).eraseDups, rootId := r.root, root := decide (r.root = s.dom.chipId),
                        standby := r.standby, frontEnd := r.frontEnd, role := s.roleOf r, formed := true },
    rootw := { s.rootw with links := r.links, downs := r.downs },
    pair := if s.dom.formed then s.pair else { s.pair with lease := r.frontEnd = s.dom.chipId && r.standby.isSome } }

/-- At formation the links of the roster say which chip each port leads to, and training has said that chip's incarnation (R73, R141, 13 R591). -/
def State.meetPartners (s : State) (ls : Links) : State :=
  ls.foldl (fun s l =>
    if l.1 ≠ s.dom.chipId then s
    else
      let s1 := s.updPort l.2.1 (fun p => { p with partnerChip := l.2.2.1 })
      { s1 with dom := { s1.dom with incs := Tbl.set 0 s1.dom.incs l.2.2.1.toNat (s.port l.2.1).partnerInc } }) s

/-- Ports that lead to no chip of the newly formed domain are held (R127, R130; log 46). -/
def State.holdStrangers (s : State) (ls : Links) : State :=
  let out := fun (n : Nat) => !ls.any (fun l => l.1 == s.dom.chipId && l.2.1 == n)
  { s with fab := { s.fab with ports := Tbl.mapAll Port.reset s.fab.ports (fun n p =>
      if p.st = .active && out n then p.into .held else p) } }

/-- Guilty device-resident rings of this chip: instance and instance-local ring. -/
def State.guiltyDrs (s : State) : List (Nat × Nat) :=
  (s.drs.filter (fun e => e.2.guilty.isSome)).map (fun e => (s.ringInst (.dr e.1), s.ringLocal (.dr e.1)))

/-- A new active front end learns of this chip's guilty device-resident rings (23 R952, R974). -/
def State.tellGuilt (s : State) (old : ChipId) : State :=
  if s.isFe || s.dom.frontEnd = old then s
  else s.guiltyDrs.foldl (fun s g => s.ctl s.dom.frontEnd (.guilt (BitVec.ofNat 6 g.1) (BitVec.ofNat 6 g.2) true)) s

/-- EPOCH commit on this chip: routes or the locked shadow set become active, DEPOCH advances, the capability registers of every
instance change (R131, R671). A command's commit covers the locks of the root, a commit of the manager those held on its behalf and,
where `own`, its own lock (22 R924). -/
def State.commitLocal (s : State) (depoch : Word32) (routing : Bool) (roster : Option Roster) (part : Option CmdPart) (own : Bool) : State :=
  let forming := !s.dom.formed
  let s1 := { s with dom := { s.dom with depoch := depoch, preparing := none, leaving := [], owed := none } }
  let s2 := match roster with | some r => (if forming then ((s1.enroll r).meetPartners r.links).holdStrangers r.links else s1.enroll r) | none => s1
  let s3 := match part with | some p => s2.cmdPart p | none => s2
  let mine := s3.lock.held && (if part.isSome then s3.lock.agent == 3 && !s3.lock.behalf
    else (s3.lock.agent == 3 && s3.lock.behalf) || (own && s3.lock.agent == 1))
  let s4 := if routing then s3.swapRoutes else if mine then s3.commitShadow.unlock else s3
  let s5 := (s4.capChanges s4.present).tellGuilt s.dom.frontEnd
  if forming && roster.isSome && s5.boot.state = .fabric then s5.enter .frontend else s5

/-! ## The root's commits (R131, R982, R983, 14 R617 to R621) -/

/-- Members the root addresses. -/
def State.rootOthers (s : State) : List ChipId := (s.memberList.filter (fun c => c ≠ s.dom.chipId && !s.isLost c))

/-- The roster of the domain as it now stands. -/
def State.roster (s : State) : Roster :=
  let ms := s.memberList.filter (fun c => !s.isLost c)
  { members := ms, root := s.dom.chipId, standby := s.dom.standby, frontEnd := s.dom.frontEnd,
    links := s.rootw.links, downs := s.rootw.downs }

/-- The answer of a command carried out at its domain epoch. QUIESCE goes on until the instance is quiet; RESUME has been answered. -/
def State.commandEnd (s : State) (i op : Nat) : State :=
  if op = 0x10 then s
  else if op = 0x11 then s.updInst i (fun x => { x with pend := none })
  else s.endPending i msDone []

/-- The command a commit is for, as the other chips carry it out. -/
def State.usePart (s : State) (use : EpochUse) : Option CmdPart :=
  match use with
  | .command i _ op => (s.inst i.toNat).pend.map (fun p => { opcode := op, inst := i, msg := p.msg })
  | _ => none

/-- Shares of a chip that is leaving still run here, or have writes not yet dropped (R619). -/
def State.leavingShares (s : State) : Bool :=
  s.ctxs.any (fun e => match e.2.use with | .share h => s.dom.leaving.contains h.chip | _ => false)

/-- Every acknowledgement is in: the root broadcasts the commit, applies it itself, and ends what the commit was for. -/
def State.finishEpoch (s : State) : State :=
  match s.rootw.use with
  | none => s
  | some use =>
    let d := s.dom.depoch + 1
    let losses := s.dom.leaving
    let routing := match use with | .formation => true | .routing => true | .takeover => true | _ => false
    let part := s.usePart use
    let s0 := { s with rootw := { s.rootw with use := none, acks := [], asking := [], losses := s.rootw.losses.filter (fun x => !losses.contains x) } }
    let old := s.dom.frontEnd
    let s1 := if use = .takeover then
        { s0 with dom := { s0.dom with frontEnd := s0.dom.chipId, standby := none } } else s0
    let roster := if routing then some s1.roster else none
    let s2 := s1.ctls s1.rootOthers (.commit d routing roster part)
    let s3 := s2.commitLocal d routing roster part true
    let told := if use = .takeover then losses.filter (· ≠ old) else losses
    let s4 := if routing then told.foldl (fun s x => s.event evChipLost 3 0 x.toNat d.toNat) s3 else s3
    match use with
    | .command i _ _ =>
      let m := match (s.inst i.toNat).pend with | some p => p.msg | none => []
      let s5 := ((s4.noteRemote i.toNat m).journalCommand m).commandEnd i.toNat (leAt m 0 1)
      { s5 with rootw := { s5.rootw with locked := [] } }
    | .manager => { s4 with mgr := { s4.mgr with epBusy := false, epRes := 0 }, rootw := { s4.rootw with mgrLocks := [] } }
    | .takeover => s4.takeOver old
    | _ => s4

/-- The root prepares a commit of a kind and waits for acknowledgements, its own included where shares of a lost chip have still to stop here;
alone it commits at once. -/
def State.prepare (s : State) (use : EpochUse) (lost : List ChipId) : State :=
  let s1 := s.prepareLocal lost
  let s2 := { s1 with dom := { s1.dom with preparing := some (s1.dom.depoch + 1), leaving := lost } }
  let to_ := s2.rootOthers
  let own := s2.leavingShares
  let s3 := { s2 with rootw := { s2.rootw with use := some use, acks := if own then to_ ++ [s2.dom.chipId] else to_ },
                      dom := { s2.dom with owed := if own then some 0 else none } }
  let s4 := s3.ctls to_ (.prepare (s3.dom.depoch + 1) lost (s3.usePart use))
  if to_.isEmpty && !own then s4.finishEpoch else s4

/-- A routing swap: now, or after the commit that runs (R982, R983). -/
def State.startRouting (s : State) : State :=
  if !s.dom.root || !s.dom.formed then s
  else if s.rootw.use.isSome then { s with rootw := { s.rootw with again := true } }
  else
    let lost := s.rootw.losses
    let s1 := { s with rootw := { s.rootw with again := false } }
    let members := s1.memberList.filter (fun c => !lost.contains c && !s1.isLost c)
    (s1.stageTables members).prepare .routing lost

/-- A routing swap asked for meanwhile follows (fuel: swaps in a row). -/
def State.rootNext (s : State) : State :=
  if s.rootw.use.isNone && s.rootw.again then s.startRouting else s

/-- A lost chip answers no prepare and gives no lock; a commit of the manager's locks over it is abandoned (22 R925). -/
def State.awaitWithout (s : State) (x : ChipId) : State :=
  let had := s.rootw.acks.contains x
  let w := { s.rootw with acks := s.rootw.acks.filter (· ≠ x), asking := s.rootw.asking.filter (· ≠ x), locked := s.rootw.locked.filter (· ≠ x) }
  let s1 := { s with rootw := { w with mgrLocks := s.rootw.mgrLocks.filter (· ≠ x) } }
  if s.mgr.epBusy && s.rootw.mgrLocks.contains x then
    let mine := s.rootw.use == some .manager
    let s2 := { s1 with rootw := { s1.rootw with use := if mine then none else w.use, acks := if mine then [] else w.acks, mgrLocks := [] },
                        mgr := { s1.mgr with epBusy := false, epRes := 2 } }
    let s3 := s2.ctls s1.rootw.mgrLocks (.mgmt 3 true 0x48 false (some 3))
    if !mine && had && w.acks.isEmpty then s3.finishEpoch else s3
  else if s.rootw.use.isSome && had && w.acks.isEmpty then s1.finishEpoch
  else s1

/-! ## Ports, fences, losses (R141 to R144, R617, R983) -/

/-- The root learns that a port has left ACTIVE (R983). -/
def State.portDown (s : State) (c : ChipId) (n : Nat) : State :=
  if !s.dom.root || !s.dom.formed then s
  else (({ s with rootw := { s.rootw with downs := if s.rootw.downs.contains (c, n) then s.rootw.downs else s.rootw.downs ++ [(c, n)] } } : State).startRouting).rootNext

/-- A port of this chip has left ACTIVE: the root is told (R983). -/
def State.portLeft (s : State) (n : Nat) : State :=
  if !s.dom.formed then s
  else if s.dom.root then s.portDown s.dom.chipId n
  else s.ctl s.dom.rootId (.portLeft n)

/-- Ports that lead to a chip are fenced, whatever state they are in: FENCE pairs, nothing routed (R141). -/
def State.fencePorts (s : State) (x : ChipId) : State :=
  ((s.fab.ports.filter (fun e => e.2.partnerChip == x && e.2.st != .fenced)).map (·.1)).foldl (fun s n =>
    let was := (s.port n).st == .active
    let s1 := (s.updPort n (fun p => { p.into .fenced with link := Link.reset, backoff := false })).emit (.fenceBlocks n s.dom.chipId s.dom.chipInc)
    if was then s1.portLeft n else s1) s

/-- Chips with a link to `x`. -/
def State.neighbours (s : State) (x : ChipId) : List ChipId := ((s.rootw.links.filter (fun l => l.2.2.1 == x)).map (·.1)).eraseDups

/-- FENCE_NOTICE to every neighbour of a lost chip (R142). -/
def State.fenceAround (s : State) (x : ChipId) : State :=
  let ns := (s.neighbours x).filter (fun c => !s.isLost c && c ≠ x)
  let s1 := s.ctls (ns.filter (· ≠ s.dom.chipId)) (.fence x)
  if ns.contains s.dom.chipId then s1.fencePorts x else s1

/-- No ACTIVE port leads to a member (R617). -/
def State.cutOff (s : State) (x : ChipId) : Bool :=
  let ms := s.memberList.filter (fun c => !s.isLost c)
  Tbl.get 0 (distTo (s.liveLinks ms) [s.dom.chipId]) x.toNat = 0

/-- The root declares a chip lost: its neighbours are fenced and a routing swap names it (R142, R617, R618). -/
def State.declareLost (s : State) (x : ChipId) : State :=
  if !s.dom.root || !s.dom.formed || s.isLost x || s.rootw.losses.contains x || !s.memberList.contains x || x = s.dom.chipId then s
  else
    let s1 := { s with rootw := { s.rootw with losses := s.rootw.losses ++ [x] } }
    let s2 := s1.awaitWithout x
    ((s2.fenceAround x).startRouting).rootNext

end Sys2Proof.Machine
end

