-- ==== Sys2Proof/Machine/CmdEpoch.lean ====
section
/-! DEFINITION. A command that names other chips: locks in ascending chip ID, staging, commit at a domain epoch (15 R660, R682). -/

namespace Sys2Proof.Machine

/-- Chips whose locks a command needs, ascending: those whose configuration it changes, every member for DESTROY and CONF_CREATE. -/
def State.lockChips (s : State) (m : List Byte) : List ChipId :=
  let cs := if leAt m 0 1 = 0x02 || leAt m 0 1 = 0x20 then s.memberList else if stagesCset (leAt m 0 1) then csetChips (mCset m) else []
  cs.mergeSort (fun a b => decide (a.toNat ≤ b.toNat))

/-- Every lock taken for the command is abandoned, and the command is answered (R682); an instance whose DESTROY comes to nothing is READY again. -/
def State.abandonCommand (s : State) (i status : Nat) : State :=
  let others := s.rootw.locked.filter (· ≠ s.dom.chipId)
  let s1 := s.ctls others (.mgmt 3 false 0x48 false (some 3))
  let s2 := if s.rootw.locked.contains s.dom.chipId && s1.lock.held && s1.lock.agent = 3 then s1.abandonShadow else s1
  let s3 := s2.updInst i (fun x => if x.state = .destroying then { x with state := .ready } else x)
  ({ s3 with rootw := { s3.rootw with use := none, acks := [], asking := [], locked := [] } }).endPending i status []

/-- The next lock is asked for; with the last one the commit is prepared (fuel: the chips). -/
def State.lockNext (s : State) (i : Nat) (m : List Byte) : Nat → State
  | 0 => s
  | k + 1 =>
    match s.rootw.asking with
    | [] =>
      match s.rootw.use with
      | some u => s.prepare u []
      | none => s
    | c :: t =>
      if c = s.dom.chipId then
        if s.lock.held then s.abandonCommand i msLocked
        else
          let s1 := s.grantLock 3 s.dom.chipInc false
          let s2 := { s1 with shd := s1.shd.staged i m, rootw := { s1.rootw with asking := t, locked := s1.rootw.locked ++ [c] } }
          State.lockNext s2 i m k
      else s.ctl c (.mgmt 3 false 0x48 false (some 1))

/-- A member has answered the root's request for its lock: granted, its staging is written and the next lock asked for; held, every
lock is abandoned and the command answered LOCKED (R682). -/
def State.lockAnswer (s : State) (src : ChipId) (ok : Bool) : State :=
  match s.rootw.use, s.rootw.asking with
  | some (.command i _ _), c :: t =>
    if c ≠ src then s
    else if !ok then s.abandonCommand i.toNat msLocked
    else
      let m := match (s.inst i.toNat).pend with | some p => p.msg | none => []
      let s1 := (stageWrites i.toNat m).foldl (fun s w => s.ctl src (.mgmt 3 false (BitVec.ofNat 24 w.1) w.2.1 (some w.2.2))) s
      let s2 := { s1 with rootw := { s1.rootw with asking := t, locked := s1.rootw.locked ++ [src] } }
      s2.lockNext i.toNat m (t.length + 1)
  | _, _ => s

/-- The root begins a PENDING command's commit. -/
def State.beginCommand (s : State) (i : Nat) : State :=
  match (s.inst i).pend with
  | none => s
  | some p =>
    let cs := s.lockChips p.msg
    let s1 := { s with rootw := { s.rootw with use := some (.command (BitVec.ofNat 6 i) p.tag p.opcode), asking := cs, locked := [] } }
    s1.lockNext i p.msg (cs.length + 1)

/-- The root is free: a routing swap asked for meanwhile, then the manager's commit, then the oldest waiting command (02 R982, 22 R924). -/
def State.rootGo (s : State) : State :=
  let s1 := s.rootNext
  if s1.rootw.use.isSome then s1
  else if s1.mgr.epBusy then s1.prepare .manager []
  else
    match s1.rootw.waitCmds with
    | [] => s1
    | i :: t => ({ s1 with rootw := { s1.rootw with waitCmds := t } }).beginCommand i.toNat

/-- A member turns a command down at its prepare: the command changes nothing, and is answered with that status. -/
def State.commandRefused (s : State) (status : Nat) : State :=
  match s.rootw.use with
  | some (.command i _ _) =>
    State.rootGo ({ s with dom := { s.dom with preparing := none, owed := none } }.abandonCommand i.toNat status)
  | _ => s

/-- A command that needs a domain epoch: now, or when the root is free. -/
def State.queueCommand (s : State) (i : Nat) : State :=
  ({ s with rootw := { s.rootw with waitCmds := s.rootw.waitCmds ++ [BitVec.ofNat 6 i] } }).rootGo

end Sys2Proof.Machine
end

