-- ==== Sys2Proof/Machine/Domain.lean ====
section
/-! DEFINITION. Election, discovery and domain formation; prepares, commits, losses and fences as they arrive (02 R121 to R131, R141 to R144, R983, 14 R617 to R625, 19 R841 to R847; log 46). -/

namespace Sys2Proof.Machine

/-! ## Election (R121 to R123) -/

/-- The chip takes part in formation. -/
def State.electing (s : State) : Bool := s.live && s.boot.state == .fabric && s.fab.enabled && !s.dom.formed

/-- The chip's own candidate key (R122). -/
def State.ownKey (s : State) : Word64 :=
  BitVec.ofNat 64 (s.fuses.serial.toNat + b2n (bit (leAt s.boot.cfg 6 1) 0) * 2 ^ 62 + b2n s.pcie.up * 2 ^ 63)

/-- ACTIVE ports. -/
def State.activePorts (s : State) : List Nat := portsOf s.activeMask

/-- The requested chip ID of the configuration area (19 Table 19-5). -/
def State.requestedId (s : State) : ChipId := BitVec.ofNat 16 (leAt s.boot.cfg 4 2)

/-- REPORT of this chip but its links. -/
def State.bareReport (s : State) : Report :=
  { serial := s.fuses.serial, requested := s.requestedId, pcie := s.pcie.up, preferred := bit (leAt s.boot.cfg 6 1) 0,
    eligible := bit (leAt s.boot.cfg 6 1) 1, links := [] }

/-- REPORT of this chip, with the partner of each ACTIVE port. How a chip learns a partner's serial the spec does not say: it is drawn when the link
comes up and stands while it does (log 46). -/
def State.ownReport (s : State) : Report :=
  { s.bareReport with links := s.activePorts.map (fun n =>
      { port := BitVec.ofNat 5 n, partner := (s.port n).partnerSerial, partnerPort := BitVec.ofNat 5 (s.port n).partnerPort.toNat }) }

/-- A REPORT kept by serial. -/
def keepReport (rs : List Report) (r : Report) : List Report := rs.filter (fun x => x.serial ≠ r.serial) ++ [r]

/-- The best key is announced on every ACTIVE port. -/
def State.announceKey (s : State) : State := s.sendDiscs s.activePorts (.elect s.disc.best)

/-- The chip's own key is its best again: it stands as a candidate (R123, R846). -/
def State.candidate (s : State) : State :=
  ({ s with disc := { s.disc with active := true, best := s.ownKey, parent := none, isRoot := false } }).announceKey

/-- The chip's REPORT, and those it holds, go to its parent. -/
def State.reportUp (s : State) (port : Nat) (held : List Report) : State :=
  (s.ownReport :: held).foldl (fun s r => s.sendDisc port (.report r)) s

/-- A root that hears a better key gives up the role and what it had assigned (R123). -/
def State.giveUpRoot (s : State) : State :=
  if !s.disc.closed then s
  else { s with
    dom := { s.dom with chipId := 0, rootId := 0, root := false, members := [], standby := none, frontEnd := 0 },
    rootw := RootWork.reset, disc := { s.disc with closed := false, granted := [], readies := [] } }

/-- A key is received: a better one makes its sender the parent. -/
def State.takeKey (s : State) (port : Nat) (key : Word64) : State :=
  let best := if s.disc.active then s.disc.best else s.ownKey
  if key.toNat ≤ best.toNat then
    if s.disc.active then s else s.candidate
  else
    let s := s.giveUpRoot
    let held := s.disc.reports.filter (fun r => r.serial ≠ s.fuses.serial)
    let s1 := { s with disc := { s.disc with active := true, best := key, parent := some port, isRoot := false, reports := held,
                                             children := s.disc.children.filter (· ≠ port) } }
    ((s1.announceKey).sendDisc port .parent).reportUp port held

/-- ELECT (R123). -/
def State.takeElect (s : State) (port : Nat) (key : Word64) : State :=
  if s.electing && (s.port port).st = .active then s.takeKey port key else s

/-- A port reaches ACTIVE: in formation the election begins or goes on there (R121); in a formed domain it is held and reported
(R130). -/
def State.portUp (s : State) (n : Nat) : State :=
  if s.dom.formed then s.event evPortHeld 0 0 n 0
  else if !s.electing then s
  else if !s.disc.active then s.candidate
  else
    let s1 := s.sendDisc n (.elect s.disc.best)
    match s1.disc.parent with
    | some p => s1.reportUp p []
    | none => s1

/-- The own key may have risen (R122): the chip stands again if it now has the best key. -/
def State.keyRaised (s : State) : State :=
  if s.electing && s.disc.active && !s.disc.closed && decide (s.disc.best.toNat < s.ownKey.toNat) then s.candidate else s

/-- 200 µs with the own key best make the chip root (R123). -/
def execRootTimer (s : State) : Host.Outcome State Fault Refusal :=
  .next (if s.electing && s.disc.active && s.disc.best = s.ownKey && s.disc.parent.isNone && !s.disc.isRoot then
      { s with disc := { s.disc with isRoot := true, reports := s.ownReport :: s.disc.reports.filter (fun r => r.serial ≠ s.fuses.serial) } }
    else s)

/-- PARENT: the sender is a child. -/
def State.takeParent (s : State) (port : Nat) : State :=
  if s.electing && (s.port port).st = .active && !s.disc.children.contains port then
    { s with disc := { s.disc with children := s.disc.children ++ [port] } } else s

/-- REPORT: kept, and relayed to the parent (R845 on a HELD port). -/
def State.takeDiscReport (s : State) (port : Nat) (r : Report) : State :=
  if s.electing && (s.port port).st = .active && !s.disc.closed && r.serial ≠ s.fuses.serial then
    let s1 := { s with disc := { s.disc with reports := keepReport s.disc.reports r } }
    match s1.disc.parent with
    | some p => s1.sendDisc p (.report r)
    | none => s1
  else s

/-! ## A domain of one (R34, 19 R844, R847) -/

/-- The chip forms a domain of one. -/
def State.formOne (s : State) (id : ChipId) (code : Nat) : State :=
  let local_ : Word32 := BitVec.ofNat 32 (2 ^ 24 + 2 ^ 25)
  let s1 := { s with
    dom := { s.dom with chipId := id, depoch := 1, role := .frontEnd, root := true, formed := true, members := [id],
                        ever := [id], rootId := id, frontEnd := id, standby := none, rejected := decide (code = resRejected) },
    act := { s.act with mc := Tbl.set 0 s.act.mc 0 local_ }, shd := { s.shd with mc := Tbl.set 0 s.shd.mc 0 local_ },
    disc := { Disc.reset with best := s.disc.best }, rootw := RootWork.reset }
  (((s1.holdStrangers []).capChanges s1.present).result code 0).enter .frontend

/-- FORM_WAIT passes without an ACTIVE port (R844). -/
def execFormationWaitExpiry (s : State) : Host.Outcome State Fault Refusal :=
  .next (if s.electing && s.activeMask = 0 then s.formOne 1 resDomainOfOne else s)

/-- FORM_MAX passes without an ASSIGN: the chip abandons its parent (R846). -/
def execAssignTimeout (s : State) : Host.Outcome State Fault Refusal :=
  .next (if s.electing && s.disc.parent.isSome && s.dom.chipId = 0 then
      ({ s with disc := { s.disc with reports := [], children := [] } }).candidate else s)

/-! ## Assigning IDs (R124 to R127) -/

/-- A requested ID that names a chip (R124). -/
def reqOk (c : ChipId) : Bool := c ≠ 0 && c ≠ 0xFFFF

/-- Links between the chips of REPORTs, numbered as the REPORTs, in both directions. -/
def reportLinks (rs : List Report) : Links :=
  let no := fun (x : BitVec 48) => rs.findIdx? (fun r => r.serial == x)
  let one := (indexed 0 rs).flatMap (fun e => e.2.links.filterMap (fun l =>
    match no l.partner with
    | some k => some (BitVec.ofNat 16 e.1, l.port.toNat, BitVec.ofNat 16 k, l.partnerPort.toNat)
    | none => none))
  (one ++ one.map (fun l => (l.2.2.1, l.2.2.2, l.1, l.2.1))).eraseDups

/-- Links among some chips. -/
def linksAmong (ls : Links) (cs : List ChipId) : Links := ls.filter (fun l => cs.contains l.1 && cs.contains l.2.2.1)

/-- Neighbours of `c` one hop nearer to what a distance table is for. -/
def stepTo (ls : Links) (t : Tbl Nat) (c : ChipId) : List ChipId :=
  (ls.filter (fun l => l.1 == c && Tbl.get 0 t l.2.2.1.toNat ≠ 0 && Tbl.get 0 t l.2.2.1.toNat + 1 = Tbl.get 0 t c.toNat)).map (·.2.2.1)

/-- Where the root's tables may send a packet for `d` on from `c` (R113, R116). -/
def nextHops (ls : Links) (members : List ChipId) (c d : ChipId) : List ChipId :=
  let inner := ls.filter (fun l => grpOf l.1 = grpOf c && grpOf l.2.2.1 = grpOf c)
  let mate : ChipId := BitVec.ofNat 16 (256 * grpOf c + mbrOf d)
  if grpOf d = grpOf c then stepTo inner (distTo inner [d]) c
  else if memberFirst ls members c (grpOf d) && mbrOf d ≠ mbrOf c && members.contains mate then stepTo inner (distTo inner [mate]) c
  else stepTo ls (distTo ls (members.filter (fun x => grpOf x = grpOf d))) c

/-- Chips from which every route to `d` takes at most `k` hops. -/
def within (ls : Links) (members : List ChipId) (d : ChipId) : Nat → List ChipId
  | 0 => [d]
  | k + 1 =>
    let near := within ls members d k
    members.filter (fun c => c == d || (!(nextHops ls members c d).isEmpty && (nextHops ls members c d).all (fun x => near.contains x)))

/-- No route of the tables takes more than seven hops (R127). -/
def sevenHops (ls : Links) (members : List ChipId) : Bool :=
  members.all (fun d => let r := within ls members d 7; members.all (fun c => r.contains c))

/-- Chips in breadth-first order from chip 0, layer by layer. -/
def layers (t : Tbl Nat) (n : Nat) : List (List ChipId) :=
  (List.range n).map (fun d => (List.range n).filterMap (fun k => if Tbl.get 0 t k = d + 1 then some (BitVec.ofNat 16 k) else none))

/-- Grants so far: chip (by REPORT number) and ID, in the order granted. -/
abbrev Grants := List (ChipId × ChipId)

/-- The ID granted to a chip. -/
def grantOf (g : Grants) (c : ChipId) : Option ChipId := (g.find? (fun e => e.1 == c)).map (·.2)

/-- The tree parent of a chip: the lowest granted ID one layer nearer, then the lowest port there (R124). No DISC packet tells the root which parent a chip
adopted, so the tree is taken breadth-first from the reported links, and parents without a granted ID tie behind all others (log 90,
DESIGN CHOICE). -/
def parentKey (ls : Links) (t : Tbl Nat) (g : Grants) (c : ChipId) : Nat :=
  let ps := (ls.filter (fun l => l.2.2.1 == c && Tbl.get 0 t l.1.toNat + 1 = Tbl.get 0 t c.toNat)).map (fun l =>
    (match grantOf g l.1 with | some i => i.toNat | none => 0x10000) * 32 + l.2.1)
  ps.foldl min (0x20000 * 32)

/-- Requests granted layer by layer (R124). -/
def grantRequests (rs : List Report) (ls : Links) (t : Tbl Nat) (order : List (List ChipId)) (rootId : ChipId) : Grants :=
  order.foldl (fun g layer =>
    let now := layer.mergeSort (fun a b => decide (parentKey ls t g a ≤ parentKey ls t g b))
    now.foldl (fun g c =>
      let q := match rs[c.toNat]? with | some r => r.requested | none => 0
      if c ≠ 0 && reqOk q && !(g.map (·.2)).contains q then g ++ [(c, q)] else g) g) [(0, rootId)]

/-- Grants without those outside the connected part of their group that holds the group's first grant (R126). -/
def dropSplit (ls : Links) (g : Grants) : Grants :=
  g.filter (fun e =>
    let mates := g.filter (fun x => grpOf x.2 = grpOf e.2)
    match mates.head? with
    | some f => Tbl.get 0 (distTo (linksAmong ls (mates.map (·.1))) [f.1]) e.1.toNat ≠ 0
    | none => true)

/-- The lowest free ID of a group. -/
def freeId (g : Grants) (grp : Nat) : Option ChipId :=
  ((List.range 256).map (fun m => BitVec.ofNat 16 (256 * grp + m))).find? (fun c => reqOk c && !(g.map (·.2)).contains c)

/-- The next chip to join a group: the first in order with a link to it, breadth-first; for an empty group the nearest to the root. A group that holds granted
members grows from all of them, in the order granted (R125; log 90, DESIGN CHOICE). -/
def nextJoin (ls : Links) (order : List ChipId) (g : Grants) (grp : Nat) : Option ChipId :=
  let free := order.filter (fun c => (grantOf g c).isNone)
  let mates := (g.filter (fun e => grpOf e.2 = grp)).map (·.1)
  if mates.isEmpty then free.head?
  else (mates.flatMap (fun m => (ls.filter (fun l => l.1 == m && free.contains l.2.2.1)).map (·.2.2.1))).head?

/-- The remaining chips take the lowest free IDs, one group at a time (R125). Fuel: groups and chips. -/
def assignRest (ls : Links) (order : List ChipId) : Nat → Nat → Grants → Grants
  | 0, _, g => g
  | k + 1, grp, g =>
    if 256 ≤ grp then g
    else
      match nextJoin ls order g grp, freeId g grp with
      | some c, some i => assignRest ls order k grp (g ++ [(c, i)])
      | _, _ => assignRest ls order k (grp + 1) g

/-- The IDs of some chips, in breadth-first order, over the links among them (R124 to R126). -/
def grantAll (rs : List Report) (ls : Links) (ok : List ChipId) : Grants :=
  let lk := linksAmong ls ok
  let t := distTo lk [0]
  let order := layers t rs.length
  let req := match rs.head? with | some r => r.requested | none => 0
  assignRest lk order.flatten (256 + rs.length) 0 (dropSplit lk (grantRequests rs lk t order (if reqOk req then req else 1)))

/-- The links among chips with IDs, by ID. -/
def idLinks (ls : Links) (g : Grants) : Links :=
  ls.filterMap (fun l => match grantOf g l.1, grantOf g l.2.2.1 with
    | some a, some b => some (a, l.2.1, b, l.2.2.2)
    | _, _ => none)

/-- Every ID the root assigns, by REPORT number. A chip whose admission would give a route of more than seven hops is rejected and has
none (R127). -/
def assignIds (rs : List Report) : Grants :=
  let ls := reportLinks rs
  let ok := ((layers (distTo ls [0]) rs.length).flatten).foldl (fun ok c =>
    let g := grantAll rs ls (ok ++ [c])
    if sevenHops (idLinks ls g) (g.map (fun (e : ChipId × ChipId) => e.2)) then ok ++ [c] else ok) []
  grantAll rs ls ok

/-- The key of a REPORT (R122). -/
def Report.key (r : Report) : Nat := r.serial.toNat + b2n r.preferred * 2 ^ 62 + b2n r.pcie * 2 ^ 63

/-- The designated standby: the eligible portal with the highest key but the root (14 R625). -/
def standbyOf (rs : List Report) (g : Grants) : Option ChipId :=
  let best := (g.filterMap (fun e =>
    match rs[e.1.toNat]? with
    | some r => if e.1 ≠ 0 && r.pcie && r.eligible then some (r.key, e.2) else none
    | none => none)).mergeSort (fun a b => decide (b.1 ≤ a.1))
  best.head?.map (·.2)

/-! ## Closing collection and the commit (R128, R129, 19 R842 to R844) -/

/-- The commit of a new domain once every READY is in. -/
def State.formCommit (s : State) : State :=
  let want := (s.disc.granted.map (·.1)).filter (· ≠ s.fuses.serial)
  if s.disc.closed && s.rootw.use = some .formation && want.all (fun x => s.disc.readies.contains x) then s.finishEpoch else s

/-- The root assigns IDs, rejects, stages every chip's tables and waits. -/
def State.closeCollection (s : State) : State :=
  let rs := s.disc.reports
  let g := assignIds rs
  let ser := fun (c : ChipId) => match rs[c.toNat]? with | some r => r.serial | none => 0
  let kids := s.disc.children
  let rejects := (rs.drop 1).filter (fun r => !(g.map (fun e => ser e.1)).contains r.serial)
  let s1 := rejects.foldl (fun s r => s.sendDiscs kids (.reject r.serial 1)) s
  let own := match grantOf g 0 with | some i => i | none => 1
  if g.length ≤ 1 then s1.formOne own resDomainOfOne
  else
    let s2 := (g.drop 1).foldl (fun s e => s.sendDiscs kids (.assign (ser e.1) e.2 1)) s1
    let ls := idLinks (reportLinks rs) g
    let ids := g.map (fun (e : ChipId × ChipId) => e.2)
    let s3 := { s2 with
      dom := { s2.dom with chipId := own, rootId := own, root := true, members := ids, standby := standbyOf rs g,
                           frontEnd := if s2.pcie.up then own else 0 },
      rootw := { RootWork.reset with use := some .formation, links := ls },
      disc := { s2.disc with closed := true, granted := g.map (fun (e : ChipId × ChipId) => (ser e.1, e.2)), readies := [] } }
    s3.stageTables s3.dom.members

/-- COLLECTION_CLOSE: `sinceFabric` and `sinceReport` in ms. -/
def execCollectionClose (sinceFabric sinceReport : Nat) (s : State) : Host.Outcome State Fault Refusal :=
  let or_ := fun (v d : Nat) => if v = 0 then d else v
  let expect := leAt s.boot.cfg 24 2
  let wait := or_ (leAt s.boot.cfg 26 2) 50
  let quiet := or_ (leAt s.boot.cfg 28 2) 10
  let max_ := or_ (leAt s.boot.cfg 32 4) 5000
  let due := (decide (expect ≠ 0) && decide (expect ≤ s.disc.reports.length))
    || (decide (expect = 0) && decide (wait ≤ sinceFabric) && decide (quiet ≤ sinceReport)) || decide (max_ ≤ sinceFabric)
  .next (if s.electing && s.disc.isRoot && !s.disc.closed && due then s.closeCollection else s)

/-- ASSIGN from the parent: the chip's own ID, or relayed to the children. -/
def State.takeAssign (s : State) (port : Nat) (serial : BitVec 48) (id : ChipId) (depoch : Word32) : State :=
  if !s.electing || s.disc.parent ≠ some port then s
  else if serial = s.fuses.serial then { s with dom := { s.dom with chipId := id } }
  else s.sendDiscs s.disc.children (.assign serial id depoch)

/-- REJECT from the parent: a domain of one, or relayed to the children (R847). -/
def State.takeReject (s : State) (port : Nat) (serial : BitVec 48) (reason : BitVec 8) : State :=
  if !s.electing || s.disc.parent ≠ some port then s
  else if serial = s.fuses.serial then s.formOne 1 resRejected
  else s.sendDiscs s.disc.children (.reject serial reason)

/-- READY: counted at the root, relayed elsewhere. -/
def State.takeReady (s : State) (port : Nat) (serial : BitVec 48) : State :=
  if !s.electing || (s.port port).st ≠ .active then s
  else if s.disc.closed then
    ({ s with disc := { s.disc with readies := if s.disc.readies.contains serial then s.disc.readies else s.disc.readies ++ [serial] } }).formCommit
  else match s.disc.parent with
    | some p => s.sendDisc p (.ready serial)
    | none => s

/-! ## EPOCH and FENCE_NOTICE packets -/

/-- The sender of an order to a member: the root, or the standby that takes its place (R131, R141, 14 R623). -/
def State.fromRoot (s : State) (src : ChipId) : Bool := src == s.dom.rootId || s.dom.standby == some src

/-- The acknowledgement of a prepare at the root; the last one brings the commit, one that refuses ends its command (R131; log 111). -/
def State.takePrepareAck (s : State) (src : ChipId) (depoch : Word32) (status : Nat) : State :=
  if s.dom.root && s.rootw.use.isSome && depoch = s.dom.depoch + 1 && s.rootw.acks.contains src then
    if status ≠ 0 then s.commandRefused status
    else
      let left := s.rootw.acks.filter (· ≠ src)
      let s1 := { s with rootw := { s.rootw with acks := left } }
      if left.isEmpty then s1.finishEpoch.rootGo else s1
  else s

/-- A prepare is acknowledged once every operation of the shares it ended has stopped and every uncommitted write of them is dropped (R619). -/
def State.prepareAnswer (s : State) : State :=
  match s.dom.owed, s.dom.preparing with
  | some st, some d =>
    if s.leavingShares then s
    else
      let s1 := { s with dom := { s.dom with owed := none } }
      if s1.dom.root then s1.takePrepareAck s1.dom.chipId d st.toNat else s1.ctl s1.dom.rootId (.prepareAck d st)
  | _, _ => s

/-- EPOCH prepare: the chips it names are lost, and the chip acknowledges to the root; a prepare that names the root comes from the
standby, which takes the role (R619, R623). -/
def State.takePrepare (s : State) (src : ChipId) (depoch : Word32) (lost : List ChipId) (part : Option CmdPart) : State :=
  if !s.dom.formed || s.dom.root || !s.fromRoot src || lost.contains s.dom.chipId || depoch ≠ s.dom.depoch + 1 then s
  else
    let heir := match s.dom.standby with | some d => d | none => s.dom.rootId
    let s1 := s.prepareLocal lost
    let st := match part with | some p => s1.partStatus p | none => msDone
    State.prepareAnswer { s1 with dom := { s1.dom with preparing := some depoch, leaving := lost, owed := some (BitVec.ofNat 16 st),
                                                       rootId := if lost.contains s.dom.rootId then heir else s.dom.rootId } }

/-- EPOCH commit: of the formation on a chip that has its ID, or of the next epoch on a member. -/
def State.takeCommit (s : State) (src : ChipId) (depoch : Word32) (routing : Bool) (roster : Option Roster) (part : Option CmdPart) : State :=
  let named := match roster with | some r => r.members.contains s.dom.chipId | none => s.dom.formed
  let when_ := if s.dom.formed then !s.dom.root && s.fromRoot src else s.electing && s.dom.chipId ≠ 0 && routing && s.disc.parent.isSome
  if named && when_ && depoch = s.dom.depoch + 1 then s.commitLocal depoch routing roster part false else s

/-- A port of a member has left ACTIVE: the root routes round it (R983). -/
def State.takePortLeft (s : State) (chip : ChipId) (port : Nat) : State :=
  if s.memberList.contains chip then (s.portDown chip port).rootGo else s

/-- A chip is lost at the root: no ACTIVE port leads to it, or a source has found it unresponsive (R142, R617). -/
def State.lossAtRoot (s : State) (chip : ChipId) (unresponsive : Bool) : State :=
  if s.dom.root && (unresponsive || s.cutOff chip) then (s.declareLost chip).rootGo else s

/-- FENCE_NOTICE: ports that lead to the chip it names are fenced (R141). -/
def State.takeFence (s : State) (src chip : ChipId) : State :=
  if s.dom.formed && s.fromRoot src && chip ≠ s.dom.chipId then s.fencePorts chip else s

/-- FENCE received on the named ports: on every ACTIVE one, the chip stops injecting and reports itself fenced (R144). -/
def execFenceReceived (ports : List Nat) (s : State) : Host.Outcome State Fault Refusal :=
  .next (if s.live && s.dom.formed && s.activeMask ≠ 0 && s.activePorts.all (fun n => ports.contains n) then
      ({ s with dom := { s.dom with fencedSelf := true } }).emit .selfFenced else s)

end Sys2Proof.Machine
end

