-- ==== Sys2Proof/Machine/Pair.lean ====
section
/-! DEFINITION. The front-end pair: heartbeat, lease, claims, journal (14 R628 to R645). The handlers of packets take them as `deliver` passes them on. -/

namespace Sys2Proof.Machine

/-! ## HEARTBEAT (R628, Table 14-2) -/

/-- A HEARTBEAT packet of this chip. -/
def State.hbPkt (s : State) (sub : Nat) (routed resend : Bool) (claimant : ChipId) (jepoch : Word32) : Packet :=
  ctlPkt tyHeartbeat 0 (toLe 1 sub ++ toLe 1 (b2n routed + 2 * b2n resend) ++ toLe 2 claimant.toNat ++ toLe 4 s.dom.depoch.toNat
    ++ toLe 4 jepoch.toNat ++ zeros 4 ++ toLe 8 s.now ++ zeros 8)

/-- Fields of a HEARTBEAT. -/
def hbSub (p : Packet) : Nat := leAt p.data 0 1
def hbRouted (p : Packet) : Bool := bit (leAt p.data 1 1) 0
def hbResend (p : Packet) : Bool := bit (leAt p.data 1 1) 1
def hbClaimant (p : Packet) : ChipId := BitVec.ofNat 16 (leAt p.data 2 2)
def hbDepoch (p : Packet) : Word32 := BitVec.ofNat 32 (leAt p.data 4 4)
def hbJepoch (p : Packet) : Word32 := BitVec.ofNat 32 (leAt p.data 8 4)

/-- A single-packet transfer sent on a given port. -/
def State.newXferOn (s : State) (port : Nat) (dst : ChipId) (p : Packet) : State :=
  if s.dom.fencedSelf || decide (4096 ≤ s.outTo dst) || (s.port port).st ≠ .active then s.newXfer dst .ctl [p]
  else
    let tid := Tbl.get 0 s.fab.nextTid dst.toNat
    let q := { s.addressed dst p with tid := tid }
    let x : Xfer := { dst := dst, tid := tid, pkts := [q], got := [], sends := 1, pktSends := [], rounds := 0, refused := [], purpose := .ctl }
    let s1 := { s with fab := { s.fab with nextTid := Tbl.set 0 s.fab.nextTid dst.toNat (tid + 1), xfers := s.fab.xfers ++ [x] } }
    s1.sendOn port { q with vl := 0 }.sealed

/-- The active front end's BEATs: one on each ACTIVE pair port, one routed (R629). -/
def execBeatTimer (s : State) : Host.Outcome State Fault Refusal :=
  .next (match s.dom.standby with
    | some d =>
      if s.live && s.dom.formed && s.isFe && !s.pair.beaten then
        let s1 := s.pairPorts.foldl (fun s n => s.newXferOn n d (s.hbPkt 1 false false 0 s.pair.jepoch)) s
        s1.newXfer d .ctl [s1.hbPkt 1 true false 0 s1.pair.jepoch]
      else s
    | none => s)

/-- BEAT at the standby: answered by an ECHO on the same path, until the standby claims (R629, R632). RESEND is set once. -/
def State.takeBeat (s : State) (via : Option Nat) (p : Packet) : State :=
  if s.dom.role ≠ .standby || p.src ≠ s.dom.frontEnd || s.pair.lossSeen then s
  else
    let q := s.hbPkt 2 (hbRouted p) s.pair.resend 0 s.pair.applied
    let s1 := { s with pair := { s.pair with resend := false } }
    match via with
    | some n => if hbRouted p then s1.newXfer p.src .ctl [q] else s1.newXferOn n p.src q
    | none => s1.newXfer p.src .ctl [q]

/-! ## What the standby has applied (R641 to R643) -/

/-- Consumer indices of an epoch now applied count for R643. -/
def State.appliedIndices (s : State) (rs : List JRec) : State :=
  rs.foldl (fun s r =>
    if jType r = 4 && bit (leAt (jBody r) 4 1) 0 then
      s.updCq ((s.inst (jInst r)).cqFirst + jRing r) (fun q => { q with hApp := BitVec.ofNat 32 (leAt (jBody r) 0 4) })
    else s) s

/-- JAPPLIED: epochs up to it are dropped, and what waited for them goes on. -/
def State.journalApplied (s : State) (v : Word32) : State :=
  let ahead := decide (s.pair.japplied.toNat < v.toNat ∧ v.toNat ≤ s.pair.jepoch.toNat)
  if !ahead then s
  else
    let gone := s.pair.kept.filter (fun e => decide (e.num.toNat ≤ v.toNat))
    let s1 := { s with pair := { s.pair with japplied := v, kept := s.pair.kept.filter (fun e => decide (v.toNat < e.num.toNat)) } }
    (gone.foldl (fun s e => s.appliedIndices e.recs) s1).unheld

/-- ECHO at the active front end (R631, R640, R641). An epoch that an uncorrectable error keeps from being resent ends the pair (13 R1004). -/
def State.takeEcho (s : State) (p : Packet) : State :=
  if !s.isFe || s.dom.standby ≠ some p.src then s
  else
    let s1 := { s with pair := { s.pair with lease := s.pair.lease || !(s.pair.claiming || s.pair.beaten) } }
    let s2 := s1.journalApplied (hbJepoch p)
    if !hbResend p then s2
    else match s2.pair.kept.find? (fun e => e.num == hbJepoch p + 1) with
      | some e =>
        match s2.readCheck (epochWords e.num e.recs) with
        | (none, s3) => s3.sendEpoch e.num e.recs
        | (some _, s3) => (s3.declareLost p.src).rootGo
      | none => s2

/-! ## Claims (R632 to R635) -/

/-- The step after a win (R635, R645). -/
def State.claimWon (s : State) (found : List (Nat × List (List Byte))) : State :=
  let s1 := { s with pair := { s.pair with claiming := false } }
  if s1.isFe then
    let s2 := { s1 with pair := { s1.pair with lease := true } }
    match s2.dom.standby with
    | some d => (s2.declareLost d).rootGo
    | none => s2
  else
    let old := s1.dom.frontEnd
    let s2 := { s1 with pair := { s1.pair with found := found },
                        dom := { s1.dom with root := true, rootId := s1.dom.chipId },
                        rootw := { RootWork.reset with links := s1.rootw.links, downs := s1.rootw.downs, losses := [old] } }
    let s3 := s2.fenceAround old
    (((s3.stageTables (s3.memberList.filter (fun c => c ≠ old && !s3.isLost c))).prepare .takeover [old])).rootGo

/-- A GRANT counted: more than half of the members of the epoch win, for the active front end half too (R634). -/
def State.countGrant (s : State) (src : ChipId) (found : List (Nat × List (List Byte))) : State :=
  if !s.pair.claiming || !s.memberList.contains src || s.pair.grants.contains src then s
  else
    let s1 := { s with pair := { s.pair with grants := s.pair.grants ++ [src] } }
    let n := s1.memberList.length
    let g := 2 * s1.pair.grants.length
    if n < g || (s1.isFe && g = n) then s1.claimWon found else s1

/-- Whether this member grants a claim of a domain epoch, and the state after (R633). -/
def State.vote (s : State) (claimant : ChipId) (depoch : Word32) : Bool × State :=
  let taken := match s.pair.granted with | some (d, _) => d == depoch | none => false
  if taken then (false, s) else (true, { s with pair := { s.pair with granted := some (depoch, claimant) } })

/-- CLAIM to every member, this chip included (R632). -/
def State.startClaim (s : State) : State :=
  let s1 := { s with pair := { s.pair with claiming := true, grants := [], denies := [] } }
  let s2 := s1.others.foldl (fun s c => s.newXfer c .ctl [s.hbPkt 3 true false s.dom.chipId 0]) s1
  let v := s2.vote s2.dom.chipId s2.dom.depoch
  if v.1 then v.2.countGrant v.2.dom.chipId [] else { v.2 with pair := { v.2.pair with denies := [v.2.dom.chipId] } }

/-- CLAIM at a member. -/
def State.takeClaim (s : State) (p : Packet) : State :=
  if !s.dom.formed then s
  else
    let v := s.vote (hbClaimant p) (hbDepoch p)
    v.2.newXfer p.src .ctl [v.2.hbPkt (if v.1 then 4 else 5) true false (hbClaimant p) 0]

/-- GRANT and DENY at the claimant. -/
def State.takeGrant (s : State) (p : Packet) (found : List (Nat × List (List Byte))) : State :=
  if hbClaimant p = s.dom.chipId then s.countGrant p.src found else s

def State.takeDeny (s : State) (p : Packet) : State :=
  if hbClaimant p = s.dom.chipId && s.pair.claiming && !s.pair.denies.contains p.src then
    { s with pair := { s.pair with denies := s.pair.denies ++ [p.src] } }
  else s

/-- The lease lapses: the active front end stops for host rings and claims (R631, R632). -/
def execLeaseLapse (s : State) : Host.Outcome State Fault Refusal :=
  .next (if s.live && s.dom.formed && s.paired && s.pair.lease && !s.pair.claiming && !s.pair.beaten then
      ({ s with pair := { s.pair with lease := false } }).startClaim else s)

/-- The standby detects heartbeat loss and claims. -/
def State.lossDetected (s : State) : State :=
  if s.live && s.dom.formed && s.dom.role = .standby && !s.pair.lossSeen then
    ({ s with pair := { s.pair with lossSeen := true } }).startClaim else s

/-- HEARTBEAT_LOSS (R630). -/
def execHeartbeatLoss (s : State) : Host.Outcome State Fault Refusal := .next s.lossDetected

/-- A chip is declared unresponsive: to the root, or, the root itself, to the standby (02 R135, R984). -/
def State.heardDeclare (s : State) (src chip : ChipId) : State :=
  if !s.memberList.contains src then s
  else if s.dom.root then s.lossAtRoot chip true
  else if chip = s.dom.rootId then s.lossDetected
  else s

/-- 300 µs without a win lose the claim: a former active front end never resumes, a standby stays standby (R634, R635). -/
def execClaimTimeout (s : State) : Host.Outcome State Fault Refusal :=
  .next (if s.pair.claiming then { s with pair := { s.pair with claiming := false, beaten := s.pair.beaten || s.isFe } } else s)

/-! ## The journal at the standby (R636 to R641, R644) -/

/-- The open epoch closes 20 µs after its first record (R639). -/
def execJournalEpochClose (s : State) : Host.Outcome State Fault Refusal :=
  .next (if s.live && s.paired then s.closeEpoch else s)

/-- Bytes of the packets of one epoch, in packet order. -/
def State.epochBytes (s : State) (num : Word32) : List Byte :=
  (((s.pair.inbox.filter (fun e => e.1 == num)).mergeSort (fun a b => decide (a.2.1.toNat ≤ b.2.1.toNat))).map (·.2.2)).flatten

/-- Epochs whose END has arrived are applied in order; a mismatch, or an uncorrectable error in what the Hall holds of it (13 R1004), discards one and
asks for it again. Fuel: the packets held. -/
def State.applyEpochs : Nat → State → State
  | 0, s => s
  | k + 1, s =>
    let num := s.pair.applied + 1
    let bs := s.epochBytes num
    let recs := splitRecs (bs.length / 8) bs
    match recs.getLast? with
    | none => s
    | some e =>
      if jType e ≠ 0x0F then s
      else
        let body := recs.dropLast
        let clear := { s with pair := { s.pair with inbox := s.pair.inbox.filter (fun x => x.1 ≠ num) } }
        let held := clear.readCheck (journalWords num.toNat ((s.pair.inbox.filter (fun x => x.1 == num)).length))
        if held.1.isNone && leAt (jBody e) 4 2 = body.length && leAt (jBody e) 0 4 = (crc32c body.flatten).toNat then
          let t := body.foldl State.applyRec held.2
          State.applyEpochs k { t with pair := { t.pair with applied := num } }
        else { held.2 with pair := { held.2.pair with resend := true } }

/-- JOURNAL at the standby; an epoch already applied is not kept. -/
def State.takeJournal (s : State) (p : Packet) : State :=
  let num : Word32 := BitVec.ofNat 32 (leAt p.data 0 4)
  if s.dom.role ≠ .standby || p.src ≠ s.dom.frontEnd || decide (num.toNat ≤ s.pair.applied.toNat) then s
  else
    let held := (s.pair.inbox.filter (fun x => x.1 == num)).length
    let s0 := s.hallWritten ((journalWords num.toNat (held + 1)).drop (32 * held))
    let s1 := { s0 with pair := { s0.pair with inbox := s0.pair.inbox ++ [(num, BitVec.ofNat 16 (leAt p.data 4 2), p.data.drop 8)] } }
    s1.applyEpochs (s1.pair.inbox.length + 1)

/-- JOURNAL with JEPOCH 0 at the active front end: a write forwarded from the standby's windows (R644). -/
def State.takeForward (s : State) (p : Packet) : State :=
  if s.isFe && s.dom.standby = some p.src then s.forwarded p.data else s

end Sys2Proof.Machine
end

