-- ==== Sys2Proof/Machine/Answers.lean ====
section
/-! DEFINITION. Answers at the source of a transfer: acknowledgements, refusals, resends (02 R132 to R135, R986, 08 R443, 13 R577, R594). -/

namespace Sys2Proof.Machine

/-! ## Invalidation of translations: what follows where accesses end (03 R180) -/

/-- Cached leaves of an instance that an invalidation covers are dropped. -/
def State.dropLeaves (s : State) (i : Nat) (all : Bool) (base len : Nat) : State :=
  let hit := fun (l : Leaf) => l.inst == i && (all || decide (l.base < base + len ∧ base < l.base + (if l.block then 0x20000000 else 0x10000)))
  { s with xlt := { s.xlt with cache := s.xlt.cache.filter (fun l => !hit l) } }

/-- The running invalidation has ended. -/
def State.invalEnd (s : State) (result : BitVec 2) : State :=
  { s with xlt := { s.xlt with busy := false, result := result, waiting := [], gen := s.xlt.gen + 1 } }

/-- A chip's report of its invalidation at the active front end: the last one ends it. -/
def State.takeInvalDone (s : State) (chip : ChipId) : State :=
  if s.xlt.busy && s.xlt.waiting.contains chip then
    let left := s.xlt.waiting.filter (· ≠ chip)
    if left.isEmpty then s.invalEnd s.xlt.result else { s with xlt := { s.xlt with waiting := left } }
  else s

/-- An access of instance `i` that was checked before the leaves went, and has neither committed nor faulted. -/
def staleAccess (i : BitVec 6) (stamp : Nat) (x : Xfer) : Bool :=
  decide (x.stamp < stamp) && x.pkts.any (fun p => p.inst == i && p.msg.isNone && (p.type == tyReadReq || (p.type == tyWrite && !p.data.isEmpty)))

/-- This chip's part of an invalidation ends, and is reported, once every access already checked has committed or faulted (03 R180; log 106). -/
def State.invalCheck (s : State) : State :=
  match s.xlt.pend with
  | none => s
  | some (i, stamp) =>
    if s.fab.xfers.any (staleAccess i stamp) || s.fab.queued.any (staleAccess i stamp) then s
    else
      let s1 := { s with xlt := { s.xlt with pend := none } }
      if s1.isFe then s1.takeInvalDone s1.dom.chipId else s1.ctl s1.dom.frontEnd .invalDone

/-- This chip's part of an invalidation: it drops the leaves. -/
def State.invalHere (s : State) (i : Nat) (all : Bool) (base len : Nat) : State :=
  let s1 := s.dropLeaves i all base len
  { s1 with xlt := { s1.xlt with pend := some (BitVec.ofNat 6 i, s1.fab.issued) } }.invalCheck

/-- What may follow an answer: contexts whose writes are all dropped, a prepare and a stop that waited for it are answered, the physical function's
reset goes on. -/
def State.afterAnswer (s : State) : State := s.drainAll.prepareAnswer.answerStops.pfNext.invalCheck

/-- XFER_ACK of a transfer other than an ABORT. -/
def execXferAck (p : Packet) (s : State) : Host.Outcome State Fault Refusal :=
  .next (State.afterAnswer (match s.answered p with
    | some x => if p.type == tyAck && (match x.purpose with | .abort _ => false | _ => true) then s.applyAck x p.reason else s
    | none => s.countAnswer p))

/-- XFER_ACK of an ABORT (13 R577). -/
def execAbortAck (p : Packet) (s : State) : Host.Outcome State Fault Refusal :=
  .next (State.afterAnswer (match s.answered p with
    | some x => if p.type == tyAck && (match x.purpose with | .abort _ => true | _ => false) then s.applyAck x p.reason else s
    | none => s.countAnswer p))

/-- READ_RSP at the requester. -/
def execReadRsp (p : Packet) (s : State) : Host.Outcome State Fault Refusal :=
  .next (State.afterAnswer (match s.answered p with
    | some x => if p.type == tyReadRsp && x.pkts.any (fun q => q.type == tyReadReq) then s.takeRsp x p else s
    | none => s.countAnswer p))

/-- E2E_NAK CRC: the named packet alone is sent again (02 R133). -/
def execE2eNakCrc (p : Packet) (s : State) : Host.Outcome State Fault Refusal :=
  .next (State.afterAnswer (match s.answered p with
    | some x => if p.type == tyNak && p.reason = 1 then
        (s.heard x).resendPkts x (x.pkts.filter (fun q => q.pktidx == p.pktidx)) else s
    | none => s.countAnswer p))

/-- E2E_NAK STALE: the incarnation is refreshed from the root, then the transfer is sent again (02 R134). Its answer comes from a
chip whose SINC is not the one held, so the check of 02 R139 on replies does not apply to it (log 34). -/
def execE2eNakStale (p : Packet) (inc : BitVec 8) (s : State) : Host.Outcome State Fault Refusal :=
  .next (if s.mine p && !p.malformed && p.type == tyNak && p.reason = 2 then
      if p.crc ≠ p.pcrc then s.bumpPcrc
      else
        match s.xferOf p.src p.tid with
        | none => s
        | some x =>
          let s1 := { s with dom := { s.dom with incs := Tbl.set 0 s.dom.incs x.dst.toNat inc } }
          let s2 := if s.dom.root then s1 else s1.ctl s.dom.rootId (.incRequest x.dst)
          (s2.heard x).resendPkts x x.pkts
    else s)

/-- E2E_NAK RETRY_LATER: the packet waits for the resend point (02 R134, 13 R594). -/
def execE2eNakRetryLater (p : Packet) (s : State) : Host.Outcome State Fault Refusal :=
  .next (State.afterAnswer (match s.answered p with
    | some x => if p.type == tyNak && p.reason = 3 then
        (s.heard x).updXfer x (fun y => { y with refused := if y.refused.contains p.pktidx.toNat then y.refused else y.refused ++ [p.pktidx.toNat] })
      else s
    | none => s.countAnswer p))

/-- 50 µs after a RETRY_LATER: a round resends the refused packets; a transfer refused in 20 rounds is given up (13 R594). -/
def execRetryLaterResend (dst : ChipId) (tid : BitVec 24) (s : State) : Host.Outcome State Fault Refusal :=
  .next (State.afterAnswer (match s.xferOf dst tid with
    | none => s
    | some x =>
      if !s.live || x.refused.isEmpty then s
      else if 20 ≤ x.rounds then s.giveUp x
      else (s.updXfer x (fun y => { y with rounds := y.rounds + 1, refused := [] })).resendPkts x
        (x.pkts.filter (fun q => x.refused.contains q.pktidx.toNat))))

/-- The error an E2E_NAK ABANDONED gives: of a signal's transfer the object, of a read of memory the LPA, CHECKER_FAIL (08 R443, 13 Table 13-5); of a
read of the host the DVA, XLT_FAULT (03 R188, 04 R212; log 77). -/
def Xfer.abandonedErr (x : Xfer) : Err :=
  let tail := x.pkts.getLast?.getD Packet.zero
  let fetch := match x.purpose with | .ctxRead _ _ _ => true | _ => false
  let acc := if fetch then 4 else 1
  if tail.type == tyReadReq then
    if bit tail.addr.toNat 47 then { status := stXltFault, addr := x.dva, access := acc }
    else { status := stCheckerFail, addr := tail.addr.toNat, access := acc, peer := x.dst.toNat }
  else { status := stCheckerFail, peer := x.dst.toNat, objChip := if tail.sig then x.dst.toNat else 0,
         objIdx := if tail.sig then tail.obj.toNat else 0, objKind := if tail.sig then sigObjKind tail.kind.toNat else 0 }

/-- E2E_NAK ABANDONED: the transfer ends and its operation fails with CHECKER_FAIL; no void follows (08 R443, 02 R986). -/
def execE2eNakAbandoned (p : Packet) (s : State) : Host.Outcome State Fault Refusal :=
  .next (State.afterAnswer (match s.answered p with
    | some x =>
      if p.type == tyNak && p.reason = 4 then
        (s.endXfer x).xferFail x x.abandonedErr
      else s
    | none => s.countAnswer p))

/-- A destination that answers nothing: the root declares it lost, another source tells the root; about the root it tells the standby, or claims where it is
the standby, and without a standby gives the transfer up (02 R135, R984, R986). -/
def State.unresponsive (s : State) (x : Xfer) : State :=
  if s.dom.root then s.lossAtRoot x.dst true
  else if x.dst ≠ s.dom.rootId then s.ctl s.dom.rootId (.declare x.dst)
  else
    match s.dom.standby with
    | some d => if d = s.dom.chipId then s.lossDetected else s.ctl d (.declare x.dst)
    | none => s.giveUp x

/-- A transfer is sent again for want of an answer, and what may follow from that (02 R132, R135). -/
def State.sendAgain (s : State) (x : Xfer) : State :=
  let s1 := s.resendAll x
  match s1.xferOf x.dst x.tid with
  | some y => if y.mute then s1.unresponsive y else s1
  | none => s1

/-- The acknowledgement limit passes: the whole transfer is sent again; with its fourth send the destination is declared
unresponsive (02 R132, R135). -/
def execXferAckTimeout (dst : ChipId) (tid : BitVec 24) (s : State) : Host.Outcome State Fault Refusal :=
  .next (State.afterAnswer (match s.xferOf dst tid with
    | none => s
    | some x => if s.live then s.sendAgain x else s))

end Sys2Proof.Machine
end

