-- ==== Sys2Proof/Machine/Manager.lean ====
section
/-! DEFINITION. The sequence lock and the manager's commands: creation, allotment, quiesce, dirty logs (15 R652 to R671, R677 to R681, R690, R691, R697 to R702). -/

namespace Sys2Proof.Machine

/-! ## The sequence lock (15 R677 to R681) -/

/-- The incarnation recorded with a lock that an agent takes: the root's for AGENT 3, this chip's for the others. -/
def State.agentInc (s : State) (agent : BitVec 3) : BitVec 8 :=
  if agent = 3 && s.dom.rootId ≠ s.dom.chipId then Tbl.get 0 s.dom.incs s.dom.rootId.toNat else s.dom.chipInc

/-- The lock is held by this agent, as it now is. -/
def State.holds (s : State) (agent : BitVec 3) (behalf : Bool) : Bool :=
  s.lock.held && s.lock.agent == agent && s.lock.behalf == behalf && s.lock.inc == s.agentInc agent

/-- An OP written to FE_SEQLOCK: 1 ACQUIRE, 2 COMMIT, 3 ABANDON. -/
def State.lockOp (s : State) (agent : BitVec 3) (behalf : Bool) (op : Nat) : State :=
  match op with
  | 1 => if s.lock.held then s else s.grantLock agent (s.agentInc agent) behalf
  | 2 => if s.holds agent behalf then s.commitShadow.unlock else s
  | 3 => if s.holds agent behalf then s.abandonShadow else s
  | _ => s

/-- FE_SEQLOCK acts: IMAGES has ended, the chip is not in its safe state, the agent is one of R677 (19 Table 19-2). -/
def State.lockServed (s : State) (agent : BitVec 3) : Bool := s.boot.served && !s.safest.inSafe && decide (1 ≤ agent.toNat ∧ agent.toNat ≤ 4)

def execSeqlockAcquire (agent : BitVec 3) (s : State) : Host.Outcome State Fault Refusal :=
  .next (if s.lockServed agent then s.lockOp agent false 1 else s)

def execSeqlockCommit (agent : BitVec 3) (s : State) : Host.Outcome State Fault Refusal :=
  .next (if s.lockServed agent then s.lockOp agent false 2 else s)

def execSeqlockAbandon (agent : BitVec 3) (s : State) : Host.Outcome State Fault Refusal :=
  .next (if s.lockServed agent then s.lockOp agent false 3 else s)

/-! ## The command queue (R655 to R658) -/

def mOpcode (m : List Byte) : Nat := leAt m 0 1
def mTag (m : List Byte) : Nat := leAt m 1 1
def mInst (m : List Byte) : Nat := fld (leAt m 2 1) 2 6

/-- The command at the front of the queue. -/
def State.frontCmd (s : State) : Option (List Byte) :=
  if s.mgr.cmdPi = s.mgr.cmdCi then none else some (getTbl s.mgr.cmd (64 * (s.mgr.cmdCi.toNat % 8)) 64)

/-- The front command is taken for execution. -/
def State.takeCmd (s : State) : State := { s with mgr := { s.mgr with cmdCi := s.mgr.cmdCi + 1 } }

/-- The response to a command. -/
def State.respond (s : State) (m : List Byte) (status : Nat) (body : List Byte) : State :=
  s.notify (mboxMsg (mOpcode m) (mTag m) 1 (mInst m) status body)

/-- Opcodes a manager may send (Table 15-4, 16 Table 16-5); DLOG only with a SUBOP it names. -/
def cmdKnown (m : List Byte) : Bool :=
  [0x01, 0x02, 0x03, 0x04, 0x05, 0x06, 0x07, 0x08, 0x09, 0x0A, 0x0F, 0x10, 0x11, 0x12, 0x13, 0x20, 0x21, 0x22, 0x23, 0x24, 0x25, 0x28].contains (mOpcode m)
    || (mOpcode m == 0x14 && decide (leAt m 8 1 ≤ 3))

/-- The header of a request: KIND 0, MSTATUS and the reserved bytes zero (Table 15-2). -/
def headerOk (m : List Byte) : Bool := decide (fld (leAt m 2 1) 0 2 = 0) && allZero ((m.drop 3).take 5)

/-- Front commands that name no command are answered BAD_COMMAND (fuel: the queue's 8 slots). -/
def State.settleQueue (s : State) : Nat → State
  | 0 => s
  | k + 1 =>
    match s.frontCmd with
    | some m => if cmdKnown m && headerOk m then s else State.settleQueue (s.takeCmd.respond m msBadCommand []) k
    | none => s

/-- The active front end executes commands: READY and not in the safe state. -/
def State.executes (s : State) : Bool := s.boot.state == .ready && s.live && s.isFe

/-- A command of one opcode, when it is at the front of the queue. -/
def State.runCmd (s : State) (op : Nat) (f : State → Nat → List Byte → State) : State :=
  match s.frontCmd with
  | some m =>
    if s.executes && mOpcode m = op && cmdKnown m && headerOk m then State.settleQueue (f s.takeCmd (mInst m) m) 8 else s
  | none => s

/-- Every visible command of a portal that is not the active front end is answered NOT_FRONT_END (R658). Fuel: the slots. -/
def State.refuseQueue (s : State) : Nat → State
  | 0 => s
  | k + 1 =>
    match s.frontCmd with
    | some m => State.refuseQueue ((s.takeCmd.respond m msNotFrontEnd []).event evMgmtRefused 0 (mInst m) (mInst m) 0x100300) k
    | none => s

/-- MBX_CMD_DB (R655, 05 R250 with N of 8). -/
def State.commandDb (s : State) (v : Word32) : State :=
  let d := (v - s.mgr.cmdPi).toNat
  if d = 0 || 2 ^ 31 ≤ d then s
  else if 8 < (v - s.mgr.cmdCi).toNat then s.fnError 0 esDbOverrun
  else
    let s1 := { s with mgr := { s.mgr with cmdPi := v } }
    if s1.executes then s1.settleQueue 8
    else if s1.boot.state = .ready && !s1.isFe then s1.refuseQueue 8
    else s1

def execCommandDoorbell (value : Word32) (s : State) : Host.Outcome State Fault Refusal :=
  .next (if s.pcie.up && s.boot.served && !s.safest.inSafe then s.commandDb value else s)

/-! ## What every command checks first -/

/-- Refusals common to the commands that act on an existing instance, in order: reserved fields, a PENDING command (R657), an ABSENT
instance, a state that forbids it. -/
def State.common (s : State) (i : Nat) (bad : Bool) (states : List InstState) : Option Nat :=
  if bad then some msBadCommand
  else if (s.inst i).pend.isSome then some msBusy
  else if (s.inst i).state = .absent then some msBadInstance
  else if !states.contains (s.inst i).state then some msBusy
  else none

/-- Bytes of a message that are reserved from `k` on. -/
def restZero (m : List Byte) (k : Nat) : Bool := allZero (m.drop k)

/-- A command becomes PENDING and is carried out at a domain epoch. -/
def State.pendCmd (s : State) (i : Nat) (m : List Byte) : State :=
  ((s.updInst i (fun x => { x with pend := some { opcode := BitVec.ofNat 8 (mOpcode m), tag := BitVec.ofNat 8 (mTag m), msg := m } })).respond m msPending
    []).queueCommand i

/-! ## CREATE, SET_VECTORS (R662, 04 R219, R222, 16 R717) -/

/-- Two ranges of rings meet. -/
def ringsMeet (a n b k : Nat) : Bool := overlap a n b k

/-- A ring range of CREATE meets one another instance holds. -/
def State.ringsTaken (s : State) (i : Nat) (m : List Byte) : Bool :=
  s.insts.any (fun e => e.1 != i && e.2.state != .absent
    && (ringsMeet (leAt m 10 2) (leAt m 12 2) e.2.sqFirst e.2.sqCount || ringsMeet (leAt m 14 2) (leAt m 16 2) e.2.cqFirst e.2.cqCount))

/-- Real-time allowance of the instances that exist. -/
def State.rtTotal (s : State) : Nat := (s.insts.filter (fun e => e.2.state != .absent)).foldl (fun n e => n + e.2.rtMax) 0

/-- The fields of CREATE are within Table 15-1. -/
def createFields (m : List Byte) : Bool :=
  decide (1 ≤ leAt m 8 2 ∧ leAt m 8 2 ≤ 1024) && decide (leAt m 10 2 + leAt m 12 2 ≤ 256) && decide (leAt m 14 2 + leAt m 16 2 ≤ 256)
    && decide (leAt m 18 1 ≤ 16) && restZero m 19

def State.doCreate (s : State) (i : Nat) (m : List Byte) : State :=
  if i = 0 || (s.inst i).state ≠ .absent || (s.inst i).pend.isSome then s.respond m msBusy []
  else if !createFields m then s.respond m msBadCommand []
  else if s.ringsTaken i m || 16 < s.rtTotal + leAt m 18 1 || (s.vecRoom i (leAt m 8 2)).isNone then s.respond m msNoResource []
  else
    let s1 := ((s.makeInst i m).fillKey i).cause i causeError
    (s1.respond m msDone []).journalCommand m

def execCreate (s : State) : Host.Outcome State Fault Refusal := .next (s.runCmd 0x01 State.doCreate)

/-- The vectors of a function are changed; a reduction resets its vector selects (04 "Corners"). -/
def State.changeVectors (s : State) (i n : Nat) : State :=
  let x := s.inst i
  let s1 := s.giveVectors i n
  if n < (s.fc i).vecs.toNat then
    let s2 := s1.updFn i (fun f => { f with vecsel0 := 0, vecsel1 := 0 })
    { s2 with cqs := Tbl.mapAll Cq.reset s2.cqs (fun k q => if x.cqFirst ≤ k ∧ k < x.cqFirst + x.cqCount then { q with vecsel := 0 } else q) }
  else s1

def State.doSetVectors (s : State) (i : Nat) (m : List Byte) : State :=
  match s.common i (!(decide (1 ≤ leAt m 8 2 ∧ leAt m 8 2 ≤ 1024) && restZero m 10)) [.ready] with
  | some st => s.respond m st []
  | none =>
    if (s.fc i).msixEn then s.respond m msMsixEnabled []
    else if (s.vecRoom i (leAt m 8 2)).isNone then s.respond m msNoResource []
    else (((s.changeVectors i (leAt m 8 2)).capChange i).respond m msDone []).journalCommand m

def execSetVectors (s : State) : Host.Outcome State Fault Refusal := .next (s.runCmd 0x04 State.doSetVectors)

/-! ## Commands with a chip set (R659, R660, R664, 16 R727) -/

/-- Owner word of an object in a configuration set. -/
def CfgSet.own (g : CfgSet) (kind k : Nat) : BitVec 12 :=
  if kind = 0 then Tbl.get 0 g.flagOwn k else if kind = 1 then Tbl.get 0 g.tallyOwn k else Tbl.get 0 g.barOwn k

/-- An instance is confidential. -/
def State.isConf (s : State) (i : Nat) : Bool := (s.inst i).conf

/-- The CSET is well formed and names members (R659). -/
def State.csetGood (s : State) (m : List Byte) : Bool := csetOk (mCset m) && (csetChips (mCset m)).all (fun c => s.memberList.contains c && !s.isLost c)

/-- The command takes effect: at a chip commit where its set names this chip alone, else at a domain epoch (R660). -/
def State.carry (s : State) (i : Nat) (m : List Byte) : State :=
  if csetChips (mCset m) = [s.dom.chipId] then
    if mOpcode m = 0x08 then ((s.resetNamed i m).respond m msDone []).journalCommand m
    else if s.lock.held then s.respond m msLocked []
    else
      let s1 := s.grantLock 2 s.dom.chipInc false
      let s2 := { s1 with shd := s1.shd.staged i m }
      (s2.commitShadow.unlock.respond m msDone []).journalCommand m
  else s.pendCmd i m

/-- A command with a chip set: its own reserved fields, the secure world's hold, the resource another instance holds, a waiter. -/
def State.csetCmd (s : State) (i : Nat) (m : List Byte) (good secure lack busy : Bool) (states : List InstState) : State :=
  match s.common i (!(good && s.csetGood m)) states with
  | some st => s.respond m st []
  | none =>
    if secure then s.respond m msSecureHeld []
    else if lack then s.respond m msNoResource []
    else if busy then s.respond m msBusy []
    else s.carry i m

def State.doSetStands (s : State) (i : Nat) (m : List Byte) : State :=
  let mask := leAt m 16 1
  let other := fun (c : ChipId) => (s.cfgAt c).stands.any (fun e => decide (e.1 ≠ 0 ∧ e.1 ≠ i) && decide (Nat.land e.2.toNat mask ≠ 0))
  let parked := fun (c : ChipId) => c == s.dom.chipId && (standsOf mask).any s.standParked
  s.csetCmd i m (decide (mask < 2 ^ s.fuses.grade.stands) && restZero m 17) false ((csetChips (mCset m)).any (fun c => other c || parked c)) false [.ready]

def State.doSetDrrings (s : State) (i : Nat) (m : List Byte) : State :=
  let first := leAt m 16 1
  let count := leAt m 17 1
  let meets := fun (c : ChipId) => (s.cfgAt c).drRings.any (fun e => decide (e.1 ≠ i) && overlap first count (fld e.2.toNat 0 8) (fld e.2.toNat 8 8))
  s.csetCmd i m (decide (first + count ≤ 64) && restZero m 18) false ((csetChips (mCset m)).any meets) false [.ready]

/-- Objects of OBJ_ASSIGN and OBJ_RESET exist. -/
def objsGood (m : List Byte) : Bool := decide (mKind m < 3) && leAt m 17 1 == 0 && decide (mFirst m + mCount m ≤ objCount (mKind m))

/-- A named object, on a named chip, of whose owner `p` holds. -/
def State.namedOwner (s : State) (m : List Byte) (p : Nat → Bool) : Bool :=
  (csetChips (mCset m)).any (fun c => (mObjs m).any (fun k => p (fld ((s.cfgAt c).own (mKind m) k).toNat 0 6)))

def State.doObjAssign (s : State) (i : Nat) (m : List Byte) : State :=
  s.csetCmd i m (objsGood m && decide (leAt m 22 1 < 64) && restZero m 23) (s.namedOwner m s.isConf) (s.namedOwner m (fun o => decide (o ≠ 0 ∧ o ≠ i))) false [.ready]

/-- An object of a confidential instance shares the group, on a named chip. -/
def State.confShares (s : State) (m : List Byte) : Bool :=
  let hit := fun (e : Nat × BitVec 12) => s.isConf (fld e.2.toNat 0 6) && e.2.getLsbD 6 && decide (fld e.2.toNat 7 5 = leAt m 16 1)
  (csetChips (mCset m)).any (fun c => (s.cfgAt c).flagOwn.any hit || (s.cfgAt c).tallyOwn.any hit || (s.cfgAt c).barOwn.any hit)

def State.doShareGroup (s : State) (i : Nat) (m : List Byte) : State :=
  s.csetCmd i m (decide (leAt m 16 1 < 32) && allZero ((m.drop 17).take 7) && restZero m 32) (s.confShares m) false false [.ready]

def State.doObjReset (s : State) (i : Nat) (m : List Byte) : State :=
  s.csetCmd i m (objsGood m && restZero m 22) (s.namedOwner m (fun o => o == i && s.isConf o)) false (s.namedWaiter i m) [.ready]

def State.doXltRoot (s : State) (i : Nat) (m : List Byte) : State :=
  let v := leAt m 16 8
  s.csetCmd i m (decide (fld v 1 11 = 0) && decide (fld v 48 16 = 0) && restZero m 24) (s.isConf i) false false [.ready, .quiesced]

def State.doHostSlot (s : State) (i : Nat) (m : List Byte) : State :=
  s.csetCmd i m (decide (leAt m 16 1 < 8) && decide (leAt m 17 1 < 8) && leAt m 20 4 == 0 && leAt m 24 2 == 0 && restZero m 36) false false false [.ready, .quiesced]

def execSetStands (s : State) : Host.Outcome State Fault Refusal := .next (s.runCmd 0x03 State.doSetStands)
def execSetDrrings (s : State) : Host.Outcome State Fault Refusal := .next (s.runCmd 0x05 State.doSetDrrings)
def execObjAssign (s : State) : Host.Outcome State Fault Refusal := .next (s.runCmd 0x06 State.doObjAssign)
def execShareGroup (s : State) : Host.Outcome State Fault Refusal := .next (s.runCmd 0x07 State.doShareGroup)
def execObjReset (s : State) : Host.Outcome State Fault Refusal := .next (s.runCmd 0x08 State.doObjReset)
def execXltRoot (s : State) : Host.Outcome State Fault Refusal := .next (s.runCmd 0x09 State.doXltRoot)
def execHostSlot (s : State) : Host.Outcome State Fault Refusal := .next (s.runCmd 0x0A State.doHostSlot)

/-! ## QUERY (R661, R670; log 59) -/

def InstState.code : InstState → Nat
  | .absent => 0 | .ready => 1 | .quiescing => 2 | .quiesced => 3 | .resetting => 4 | .destroying => 5

/-- The body of a QUERY: the capability values a message has room for. -/
def State.queryBody (s : State) (i : Nat) : List Byte :=
  let x := s.inst i
  if x.state = .absent then [0]
  else
    toLe 1 x.state.code ++ toLe 1 i ++ toLe 1 s.boot.nlevel.toNat ++ toLe 1 s.fuses.grade.stands ++ toLe 2 x.sqCount ++ toLe 2 x.cqCount
      ++ toLe 1 x.rtMax ++ zeros 1 ++ toLe 2 (s.fc i).vecs.toNat ++ toLe 2 s.memberList.length ++ toLe 2 s.dom.chipId.toNat ++ toLe 4 s.dom.depoch.toNat
      ++ toLe 4 x.capGen.toNat ++ toLe 1 (Tbl.get 0 s.act.stands i).toNat ++ toLe 1 s.tiles.lostStands.toNat ++ toLe 1 (s.drCount i) ++ zeros 1

def State.doQuery (s : State) (i : Nat) (m : List Byte) : State :=
  if !restZero m 8 then s.respond m msBadCommand []
  else if (s.inst i).pend.isSome then s.respond m msBusy []
  else s.respond m msDone (s.queryBody i)

def execQuery (s : State) : Host.Outcome State Fault Refusal := .next (s.runCmd 0x0F State.doQuery)

/-! ## DESTROY (R667) -/

/-- A ring of the instance is enabled, as the active front end sees it. -/
def State.ringsOn (s : State) (i : Nat) : Bool :=
  s.sqs.any (fun e => e.2.cfg.size != 0 && s.sqInst e.1 == some i) || s.cqs.any (fun e => e.2.size != 0 && s.cqInst e.1 == some i)
    || s.drs.any (fun e => e.2.size != 0 && s.drInst e.1 == some i)

def State.doDestroy (s : State) (i : Nat) (m : List Byte) : State :=
  match s.common i (!restZero m 8) [.ready] with
  | some st => s.respond m st []
  | none =>
    if i = 0 then s.respond m msBadInstance []
    else if s.ringsOn i then s.respond m msBusy []
    else State.pendCmd (s.updInst i (fun x => { x with state := .destroying })) i m

def execDestroy (s : State) : Host.Outcome State Fault Refusal := .next (s.runCmd 0x02 State.doDestroy)

/-! ## QUIESCE and RESUME (R690, R691) -/

def State.doQuiesce (s : State) (i : Nat) (m : List Byte) : State :=
  match s.common i (!restZero m 8) [.ready] with
  | some st => s.respond m st []
  | none => s.pendCmd i m

def execQuiesce (s : State) : Host.Outcome State Fault Refusal := .next (s.runCmd 0x10 State.doQuiesce)

/-- Nothing of the instance is admitted, waits to be recorded, or is held on the dirty log here (R690; log 52). -/
def State.quiet (s : State) (i : Nat) : Bool :=
  (s.ctxsOf i).isEmpty && !s.cqs.any (fun e => !e.2.waiting.isEmpty && s.cqInst e.1 == some i) && !s.pcie.dlogHeld.any (fun h => h.1 == i)

def execQuiesceComplete (inst : Nat) (s : State) : Host.Outcome State Fault Refusal :=
  .next (if s.executes && (s.inst inst).state = .quiescing && s.quiet inst then
      State.endPending (s.updInst inst (fun x => { x with state := .quiesced })) inst msDone []
    else s)

/-- A command of the instance runs, other than a QUIESCE that waits for quiet. -/
def State.commandRuns (s : State) (i : Nat) : Bool :=
  match (s.inst i).pend with
  | none => false
  | some p =>
    let mine := match s.rootw.use with
      | some (.command j _ _) => j.toNat == i
      | _ => false
    p.opcode != 0x10 || mine || s.rootw.waitCmds.contains (BitVec.ofNat 6 i)

/-- RESUME of a QUIESCING instance ends its QUIESCE with BUSY, as an FLR does (log 53). -/
def State.doResume (s : State) (i : Nat) (m : List Byte) : State :=
  let running := s.commandRuns i
  if !restZero m 8 then s.respond m msBadCommand []
  else if running then s.respond m msBusy []
  else if (s.inst i).state = .absent then s.respond m msBadInstance []
  else if (s.inst i).state ≠ .quiescing && (s.inst i).state ≠ .quiesced then s.respond m msBusy []
  else
    let s1 := (s.endPending i msBusy []).respond m msDone []
    (s1.updInst i (fun x => { x with pend := some { opcode := 0x11, tag := BitVec.ofNat 8 (mTag m), msg := m } })).queueCommand i

def execResume (s : State) : Host.Outcome State Fault Refusal := .next (s.runCmd 0x11 State.doResume)

/-! ## SAVE and RESTORE (R692 to R696, 16 R727) -/

/-- A PENDING answer at once, and the DONE notice that follows with it. -/
def State.pendThen (s : State) (m : List Byte) (status : Nat) (body : List Byte) : State :=
  (s.respond m msPending []).notify (mboxMsg 0x80 (mTag m) 2 (mInst m) status body)

/-- An image of known length written to instance 0's space, page by page. -/
def State.storeImage (s : State) (dva : Nat) (bs : List Byte) : State :=
  (piecesOf dva bs.length).foldl (fun s p => s.cfeStore 0 p.1 ((bs.drop (p.1 - dva)).take p.2) .image) s

def State.doSave (s : State) (i : Nat) (m : List Byte) : State :=
  match s.common i (!(restZero m 20 && decide (leAt m 8 8 < 2 ^ 48))) [.quiesced] with
  | some st => s.respond m st []
  | none =>
    if s.isConf i then s.respond m msSecureHeld []
    else
      let r := s.image i
      if leAt m 16 4 < r.1.length then s.pendThen m msNoResource []
      else (r.2.storeImage (leAt m 8 8) r.1).pendThen m msDone (toLe 4 r.1.length)

def execSave (s : State) : Host.Outcome State Fault Refusal := .next (s.runCmd 0x12 State.doSave)

/-- One piece: from this chip's memory, or as the host or another chip gives it; zeros where it may not be read. -/
def State.loadPiece (s : State) (away : List Byte) (p : Nat × Nat) : List Byte × State :=
  match s.xlate 0 p.1 p.2 false with
  | (.mem chip lpa enc, s1) =>
    if chip ≠ s1.dom.chipId then (away, s1)
    else if s1.confDenied 0 enc lpa p.2 then (zeros p.2, s1.confRefused 0 s1.dom.chipId lpa)
    else match s1.readMem (if enc then s1.keyOf 0 else 0) lpa p.2 with
      | (.inl bs, s2) => (bs, s2)
      | (.inr _, s2) => (zeros p.2, s2)
  | (.host _, s1) => (away, s1)
  | (_, s1) => (zeros p.2, s1)

/-- The bytes of an image buffer, piece by piece: this chip's memory where it lies there, else what the read brought. -/
def State.loadPieces (s : State) (base : Nat) (host : List Byte) : List (Nat × Nat) → List Byte × State
  | [] => ([], s)
  | p :: ps =>
    let r := s.loadPiece (padTo p.2 ((host.drop (p.1 - base)).take p.2)) p
    let q := r.2.loadPieces base host ps
    (r.1 ++ q.1, q.2)

/-- A confidential instance has no RESTORE; the image is checked before anything changes, then every member takes its part. -/
def State.doRestore (host : List Byte) (s : State) (i : Nat) (m : List Byte) : State :=
  match s.common i (!(restZero m 20 && decide (leAt m 8 8 < 2 ^ 48))) [.ready] with
  | some st => s.respond m st []
  | none =>
    if s.isConf i then s.respond m msSecureHeld []
    else if s.ringsOn i then s.respond m msBusy []
    else
      let r := s.loadPieces (leAt m 8 8) host (piecesOf (leAt m 8 8) (leAt m 16 4))
      if !imageValid r.1 then r.2.pendThen m msImageBad []
      else if !r.2.imageFits i r.1 then r.2.pendThen m msImageMismatch []
      else
        let c : PendCmd := { opcode := 0x13, tag := BitVec.ofNat 8 (mTag m), msg := m ++ r.1.take (8 * leAt r.1 8 4) }
        ((r.2.updInst i (fun x => { x with pend := some c })).respond m msPending []).queueCommand i

def execRestore (host : List Byte) (s : State) : Host.Outcome State Fault Refusal := .next (s.runCmd 0x13 (State.doRestore host))

/-! ## Dirty logs (R699 to R702, 22 R917) -/

/-- DLOG with one SUBOP. On a domain of one it takes effect at once; FLUSH finds every earlier entry issued. -/
def State.doDlog (sub : Nat) (s : State) (i : Nat) (m : List Byte) : State :=
  match s.common i (!restZero m 9) [.ready, .quiescing, .quiesced] with
  | some st => s.respond m st []
  | none =>
    if sub = 0 && s.dlog.size = 0 then s.respond m msBusy []
    else if s.rootOthers.isEmpty || sub = 2 then ((s.dlogPart i sub).respond m msDone []).journalCommand m
    else s.pendCmd i m

/-- DLOG of one SUBOP at the front of the queue. -/
def State.runDlog (s : State) (sub : Nat) : State :=
  match s.frontCmd with
  | some m => if leAt m 8 1 = sub then s.runCmd 0x14 (State.doDlog sub) else s
  | none => s

def execDlogEnable (s : State) : Host.Outcome State Fault Refusal := .next (s.runDlog 0)
def execDlogClear (s : State) : Host.Outcome State Fault Refusal := .next (s.runDlog 1)
def execDlogFlush (s : State) : Host.Outcome State Fault Refusal := .next (s.runDlog 2)
def execDlogDisable (s : State) : Host.Outcome State Fault Refusal := .next (s.runDlog 3)

/-- Held host writes go out in order as far as the log ring has room (R702); CFE-executed operations that waited for theirs complete. -/
def State.dlogRelease (s : State) : State :=
  let s1 := s.pcie.dlogHeld.foldl (fun s h => s.postHeld h.1 h.2) { s with pcie := { s.pcie with dlogHeld := [] } }
  (s1.ops.filterMap (fun e => e.2.bind (fun o => if o.toHost then some e.1 else none))).foldl State.cfeDone s1

def execDlogRoom (s : State) : Host.Outcome State Fault Refusal := .next (if s.live && s.dlogRoomNow then s.dlogRelease else s)

end Sys2Proof.Machine
end

