-- ==== Sys2Proof/Machine/Ports.lean ====
section
/-! DEFINITION. Ports: training, loss, and the link layer (02 R60 to R92; logs 55, 114). -/

namespace Sys2Proof.Machine

/-! ## Training (R71 to R77) -/

/-- Code of a training state in TS (Table 2-2). -/
def TrainState.code : TrainState → BitVec 4
  | .lock => 1 | .equalize => 2 | .align => 3 | .config => 4

/-- The TS blocks of a port, one on each lane. The preset it asks for in EQUALIZE is measured: a free value. -/
def State.sendTs (s : State) (n : Nat) : State :=
  let p := s.port n
  let d := s.draw 3
  let mk : TrainSet :=
    { tstate := p.train.code, lane := 0, port := BitVec.ofNat 5 n, preset := if p.train = .equalize then d.1 else 0, ready := p.ready,
      chip := s.dom.chipId, cinc := s.dom.chipInc, proto := 1, stands := BitVec.ofNat 4 (Grade.stands s.fuses.grade), nlevel := s.boot.nlevel }
  d.2.emit (.ts n mk { mk with lane := 1 })

/-- A port enters a training state and sends its TS blocks, with READY (log 55). -/
def State.trainIn (s : State) (n : Nat) (t : TrainState) : State :=
  (s.updPort n (fun p => { p.into .training with train := t, ready := true })).sendTs n

/-- A port of this chip has left ACTIVE. Where it went DOWN, the transfers that it carried are sent again, a send that counts (R132, R135); the root is
told (R983). -/
def State.portGone (s : State) (n : Nat) (down : Bool) : State :=
  let hit := if down then s.fab.xfers.filter (fun x => x.ports.contains n) else []
  (hit.foldl (fun s x => if (s.xferOf x.dst x.tid).isSome then s.sendAgain x else s) s).portLeft n

/-- A port leaves whatever it does and trains from LOCK; its unacknowledged flits are kept (R71, R84). -/
def State.retrain (s : State) (n : Nat) : State :=
  let was := (s.port n).st == .active
  let s1 := (s.updPort n (fun p => { p with attempts := 0, backoff := false })).trainIn n .lock
  if was then s1.portGone n false else s1

/-- A port goes DOWN: its flits are discarded (R84). It tries again after the wait of R75 (log 55). -/
def State.takeDown (s : State) (n : Nat) : State :=
  let was := (s.port n).st == .active
  let s1 := s.updPort n (fun p => { p.into .down with backoff := true, attempts := 0, link := Link.reset })
  if was then s1.portGone n true else s1

/-- A port that carries or trains. -/
def Port.up (p : Port) : Bool := p.st == .active || p.st == .held || p.st == .training || p.st == .incompatible

/-- The fabric unit runs. -/
def State.fabricRuns (s : State) : Bool := s.live && s.fab.enabled

/-- BLOCK_LOCK_LOSS (R71). -/
def execBlockLockLoss (port : Nat) (s : State) : Host.Outcome State Fault Refusal :=
  .next (if s.fabricRuns && decide (port < 24) && (s.port port).up then s.retrain port else s)

/-- LANE_LOSS (R63). -/
def execLaneLoss (port : Nat) (s : State) : Host.Outcome State Fault Refusal :=
  .next (if s.fabricRuns && decide (port < 24) && (s.port port).up then s.takeDown port else s)

/-- DOWN_RECEIVED (R69, Table 2-1). -/
def execDownReceived (port : Nat) (s : State) : Host.Outcome State Fault Refusal :=
  .next (if s.fabricRuns && decide (port < 24) && (s.port port).up then s.takeDown port else s)

/-- The field of CONFIG in which the partner differs: 1 PROTO, 2 STANDS, 3 NLEVEL, 0 none (R76). Where several differ the event names the
first in that order, which the spec leaves open (log 92). -/
def State.mismatchOf (s : State) (t : TrainSet) : Nat :=
  if t.proto ≠ 1 then 1 else if t.stands.toNat ≠ Grade.stands s.fuses.grade then 2 else if t.nlevel ≠ s.boot.nlevel then 3 else 0

/-- The 28 virtual channels. -/
def allVcs : List Nat := (List.range 4).flatMap (fun c => (List.range 7).map (fun l => 8 * c + l))

/-- The link layer starts: nine flits of credit are granted on every channel, and kept flits go again (R91). -/
def Link.begin_ (l : Link) : Link :=
  { l with credit := [], granted := [], used := [], owed := allVcs.map (fun v => (v, 9)), stalls := 0, nakking := false }

/-- An LCW without flits: the acknowledgement, and at most two credit returns (R78, R85, R91, R104). -/
def State.sendLcw (s : State) (n : Nat) (nak : Bool) : State :=
  let l := (s.port n).link
  (s.updPort n (fun p => { p with link := s.lcwGone l })).emit (.lcw n (s.lcwFor l l.nextSeq [] nak))

/-- An acknowledgement, or credit that may be returned, is due. -/
def State.lcwDue (s : State) (n : Nat) : Bool :=
  (s.port n).link.ackDue || (s.port n).link.owed.any (fun e => s.returns e.1 && decide (e.2 ≠ 0))

/-- Empty LCWs until nothing more is due (fuel: returns in a row). -/
def State.sendLcws (n : Nat) : Nat → State → State
  | 0, s => s
  | k + 1, s => if s.lcwDue n then State.sendLcws n k (s.sendLcw n false) else s

/-- CONFIG ends (R76, R91, Table 2-3). -/
def State.trained (s : State) (n : Nat) (t : TrainSet) : State :=
  let bad := s.mismatchOf t
  if bad ≠ 0 then
    (s.updPort n (fun p => { p.into .incompatible with mismatch := BitVec.ofNat 3 bad })).event evPortIncompatible 0 0 (n + 32 * bad) 0
  else
    let d := s.draw 48
    let s1 := d.2.updPort n (fun p => { p with st := if s.dom.formed then .held else .active, mismatch := 0, attempts := 0,
                                               partnerPort := t.port.setWidth 8, partnerChip := t.chip, partnerInc := t.cinc,
                                               partnerSerial := d.1, link := p.link.begin_ })
    let s2 := if t.chip = 0 then s1 else { s1 with dom := { s1.dom with incs := Tbl.set 0 s1.dom.incs t.chip.toNat t.cinc } }
    ((State.sendLcws n 16 s2).portUp n).pumpPort n

/-- A port in training moves on: READY sets of its own state stand on both lanes (R72 to R74, R61). -/
def State.advance (s : State) (port : Nat) (t0 t1 : TrainSet) (inverted : BitVec 2) : State :=
  let p := s.port port
  let ok := s.fabricRuns && decide (port < 24) && p.st == .training && !p.backoff && p.ready && t0.ready && t1.ready && t0.tstate == p.train.code
    && t1.tstate == p.train.code && t0.lane != t1.lane
  if !ok then s
  else match p.train with
    | .lock => (s.updPort port (fun q => { q with invert := inverted })).trainIn port .equalize
    | .equalize => (s.updPort port (fun q => { q with preset := t0.preset })).trainIn port .align
    | .align => (s.updPort port (fun q => { q with swap := t0.lane == 1 })).trainIn port .config
    | .config => s.trained port t0

/-- TRAINING_ADVANCE: the block that has stood for sixteen consecutive TS blocks on each receive lane, as descrambled (R74). -/
def execTrainingAdvance (port : Nat) (b0 b1 : Block) (s : State) : Host.Outcome State Fault Refusal :=
  .next (match (s.port port).readTrain b0 b1 with
    | some (t0, t1, inverted) => s.advance port t0 t1 inverted
    | none => s)

/-- TRAINING_TIMEOUT: back to LOCK; the eighth failure in a row waits 100 ms (R75). -/
def execTrainingTimeout (port : Nat) (s : State) : Host.Outcome State Fault Refusal :=
  let p := s.port port
  .next (if s.fabricRuns && decide (port < 24) && p.st == .training && !p.backoff then
      let n := p.attempts + 1
      if 8 ≤ n then s.updPort port (fun q => { q with attempts := 0, backoff := true, train := .lock, ready := false })
      else (s.updPort port (fun q => { q with attempts := n })).trainIn port .lock
    else s)

/-- TRAINING_BACKOFF: the 100 ms have passed (R75). -/
def execTrainingBackoff (port : Nat) (s : State) : Host.Outcome State Fault Refusal :=
  let p := s.port port
  .next (if s.fabricRuns && decide (port < 24) && (p.st == .training || p.st == .down) && p.backoff then
      (s.updPort port (fun q => { q with backoff := false })).trainIn port .lock
    else s)

/-! ## The link layer (R78 to R92) -/

/-- A sequence number at or below another (R81). The numbers wrap at 4,096 and the spec does not say what "at or below" means then: half the
range counts as below, far more than the 512 that may be outstanding (log 92). -/
def seqAtOrBelow (a b : BitVec 12) : Bool := decide ((b - a).toNat < 2048)

/-- ACKSEQ: flits up to it are acknowledged; answers whether any was (R82). -/
def Link.acked (l : Link) (seq : BitVec 12) : Bool × Link :=
  let left := l.unacked.filter (fun f => !seqAtOrBelow f.1 seq)
  if left.length < l.unacked.length then (true, { l with unacked := left, stalls := 0 }) else (false, l)

/-- Every unacknowledged flit goes again, counted (R83, 22 FAB_PORT, FAB_REPLAY_COUNT). -/
def State.resend (s : State) (n : Nat) : State :=
  let l := (s.port n).link
  if l.unacked.isEmpty then s
  else
    let s1 := s.updPort n (fun p => { p with resends := satInc p.resends, link := { p.link with stalls := p.link.stalls + 1 } })
    s1.bumpReplay.sendFlits n l.unacked

/-- A credit return; none where it would pass what was granted at link-up (R92; log 55). -/
def Link.credited (l : Link) (vc count : Nat) : Option Link :=
  if count = 0 then some l
  else if !l.used.contains vc then some { l with credit := Tbl.upd 0 l.credit vc (· + count), granted := Tbl.upd 0 l.granted vc (· + count) }
  else if Tbl.get 0 l.granted vc < Tbl.get 0 l.credit vc + count then none
  else some { l with credit := Tbl.upd 0 l.credit vc (· + count) }

/-- What a sound LCW says: acknowledgement, NAK, credit (R82, R83, R92). -/
def State.takeLcw (s : State) (n : Nat) (w : Lcw) : State :=
  let l0 := (s.port n).link
  let a := if w.ackv then l0.acked w.ackseq else (false, l0)
  let s1 := s.updPort n (fun p => { p with link := a.2 })
  let s2 := if w.nak then s1.resend n else s1
  match ((s2.port n).link.credited w.cvcA.toNat w.ccntA.toNat).bind (fun l => l.credited w.cvcB.toNat w.ccntB.toNat) with
  | none => s2.retrain n
  | some l => (s2.updPort n (fun p => { p with link := l })).pumpPort n

/-- The flits of a sound group: accepted in sequence, dropped without NAK when old, else refused (R80, R81). -/
def State.takeGroup (s : State) (n : Nat) (flits : List Flit) (seq : BitVec 12) : State :=
  let l := (s.port n).link
  let last := seq + BitVec.ofNat 12 (flits.length - 1)
  if seq = l.rxLast + 1 then
    s.updPort n (fun p => { p with link := { p.link with rx := p.link.rx ++ flits, rxLast := last, rxAny := true, nakking := false, ackDue := true } })
  else if l.rxAny && seqAtOrBelow last l.rxLast then s.updPort n (fun p => { p with link := { p.link with ackDue := true } })
  else if l.nakking then s
  else (s.updPort n (fun p => { p with link := { p.link with nakking := true } })).sendLcw n true

/-- A group that fails its checks: NAK once until the resent flits arrive (R80). -/
def State.refuseGroup (s : State) (n : Nat) (again : Bool) : State :=
  if (s.port n).link.nakking && !again then s
  else (s.updPort n (fun p => { p with link := { p.link with nakking := true } })).sendLcw n true

/-- A group and its control word, as read: what a sound word says is taken, then the flits (R80 to R83, R92). -/
def State.groupIn (s : State) (port : Nat) (flits : List Flit) (blocksOk : Bool) (lcw : Lcw) : State :=
  if lcw.lcrc ≠ lcw.crc then s.refuseGroup port false
  else
    let s1 := s.takeLcw port lcw
    if lcw.empty || (s1.port port).st = .training then s1
    else if blocksOk && lcw.gcrc = crc32c flits.flatten && flits.length = lcw.gcnt.toNat + 1 then s1.takeGroup port flits lcw.gseq
    else s1.refuseGroup port (lcw.gseq = (s.port port).link.rxLast + 1)

/-- FLIT_GROUP: the block pairs of a group and the control word that closes it, as descrambled from the two receive lanes; without a control word
nothing of it is accepted (R80). -/
def execFlitGroup (port : Nat) (pairs : List (Block × Block)) (s : State) : Host.Outcome State Fault Refusal :=
  let p := s.port port
  .next (if !(s.fabricRuns && decide (port < 24) && (p.st == .active || p.st == .held)) then s
    else match readGroup (pairs.map p.corrected) with
      | none => s.refuseGroup port false
      | some (flits, ok, lcw) => s.groupIn port flits ok lcw)

/-- REPLAY_TIMEOUT (R83). -/
def execReplayTimeout (port : Nat) (s : State) : Host.Outcome State Fault Refusal :=
  .next (if s.fabricRuns && ((s.port port).st == .active || (s.port port).st == .held) then s.resend port else s)

/-- RESEND_LIMIT: sixteen resends without progress; `retrained` says whether retraining does (R84). -/
def execResendLimit (port : Nat) (retrained : Bool) (s : State) : Host.Outcome State Fault Refusal :=
  .next (if s.fabricRuns && ((s.port port).st == .active || (s.port port).st == .held) && decide (16 ≤ (s.port port).link.stalls) then
      (if retrained then s.retrain port else s.takeDown port)
    else s)

/-- ACK_DEADLINE (R85). -/
def execAckDeadline (port : Nat) (s : State) : Host.Outcome State Fault Refusal :=
  .next (if s.fabricRuns && ((s.port port).st == .active || (s.port port).st == .held) then State.sendLcws port 64 s else s)

end Sys2Proof.Machine
end

