-- ==== Sys2Proof/Machine/MemFaults.lean ====
section
/-! DEFINITION. Scrubbing, retraining, requests that meet a resetting part, and invalidation of translations (03 R153, R163 to R166, R180, R1003, 13 R592 to R595, 22 R930 to R932; log 56). -/

namespace Sys2Proof.Machine

/-! ## Scrubbing (03 R158, R163, R164, R166, R1003) -/

/-- Words of a store with flips, by LPA. -/
def State.flipped (s : State) (lo hi : Nat) : List Nat :=
  ((s.mem.flips.map (·.1)).filter (fun w => decide (lo ≤ 8 * w ∧ 8 * w < hi)))

/-- Groups of DRAM whose tag names a wrong index: their first LPA. -/
def State.badGroups (s : State) : List Nat := ((s.mem.tagDiff.map (·.1)).filter s.tagBad).map (· * 448)

/-- SCRUB_PASS: one pass over every DRAM group. Single flips are corrected and counted; an uncorrectable word, and a group with a bad
tag, is counted and reported and stays. The period of MEM_SCRUB holds from the next pass (R934). -/
def execScrubPass (s : State) : Host.Outcome State Fault Refusal :=
  .next (if !s.live || s.mem.selfRef then s
    else
      let ws := s.flipped 0 dramEnd
      let bad := ws.filter (fun w => decide (2 ≤ s.flipsOf w))
      let s0 := (s.mem.tagDiff.map (·.1)).foldl State.correctTag (s.correct ws)
      let s1 := bad.foldl (fun s w => s.reportUe (8 * w)) s0
      let s2 := s1.badGroups.foldl State.reportUe s1
      { s2 with mem := { s2.mem with scrubRun := s2.mem.scrub, scrubPos := 0 } })

/-- Tile whose SRAM holds an LPA. -/
def tileAt (lpa : Nat) : Nat := (lpa - tileBase) / tileBytes

/-- An uncorrectable word of tile SRAM is reported (R166); of an idle tile it is rewritten with zero, and where it persists the tile has a fault
(R1003). -/
def State.scrubTile (persist : List Nat) (s : State) (w : Nat) : State :=
  let t := tileAt (8 * w)
  let s1 := s.reportUe (8 * w)
  if (s.opOnTile t).isSome then s1
  else
    let s2 := (s1.pokes (8 * w) (zeros 8)).unflip w
    if persist.contains t && !(s2.tile t).lost then s2.faultTile t 0x01 else s2

/-- SRAM_SCRUB: the background pass over Hall and tile SRAM; `persist` names the tiles whose word stays bad when rewritten. -/
def execSramScrub (persist : List Nat) (s : State) : Host.Outcome State Fault Refusal :=
  .next (if !s.live then s
    else
      let hall := s.flipped hallBase hallEnd
      let tiles := s.flipped tileBase s.sramEnd
      let s1 := s.correct (hall ++ tiles)
      let s2 := (hall.filter (fun w => decide (2 ≤ s1.flipsOf w))).foldl (fun s w => s.reportUe (8 * w)) s1
      (tiles.filter (fun w => decide (2 ≤ s1.flipsOf w))).foldl (State.scrubTile persist) s2)

/-- WCK_RETRAIN: the write clock is trained again once the die temperature, in °C, has moved by more than 10 (R153). -/
def execWckRetrain (temp : BitVec 8) (s : State) : Host.Outcome State Fault Refusal :=
  let d := (temp.toInt - s.mem.trainTemp.toInt).natAbs
  .next (if s.live && !s.mem.selfRef && decide (10 < d) then
      { s with mem := { s.mem with trainTemp := temp, retrains := satInc s.mem.retrains } } else s)

/-! ## Requests at a resetting part (13 R592 to R595) -/

/-- The request at a place of the list changed. -/
def State.setReq (s : State) (k : Nat) (q : LocalReq) : State := { s with parts := { s.parts with reqs := s.parts.reqs.set k q } }

/-- PART_HOLD_EXPIRY: held 50 µs, the request is refused with RETRY_LATER (R592). -/
def execPartHoldExpiry (index : Nat) (s : State) : Host.Outcome State Fault Refusal :=
  .next (match s.parts.reqs[index]? with
    | some q => if q.waiting then s else s.setReq index { q with waiting := true, refusals := q.refusals + 1 }
    | none => s)

/-- The error of a request to a part. -/
def State.partErr (s : State) (status : Nat) (x : Part) (held : BitVec 8) : Err :=
  { status := status, part := x.code, partNo := x.no, incHeld := held.toNat, incFound := (s.partInc x).toNat }

/-- LOCAL_RETRY: 50 µs after a refusal. After 20 the operation fails; else the request is held again, or, the part back, served:
a STALE refusal refreshes the incarnation and the one retry meets it (R594, R595). -/
def execLocalRetry (index : Nat) (s : State) : Host.Outcome State Fault Refusal :=
  .next (match s.parts.reqs[index]? with
    | some q =>
      if !q.waiting then s
      else if 20 ≤ q.refusals then
        ({ s with parts := { s.parts with reqs := s.parts.reqs.eraseIdx index } }).failOp q.entry (s.partErr stRetryLater q.part q.inc)
      else if s.parts.resetting.contains q.part then s.setReq index { q with waiting := false }
      else { s with parts := { s.parts with reqs := s.parts.reqs.eraseIdx index } }
    | none => s)

/-- PART_TIMEOUT: no reply in 500 µs fails the operation, with STALE where the part's incarnation has changed (R595). -/
def execPartTimeout (entry : Nat) (part : Part) (held : BitVec 8) (s : State) : Host.Outcome State Fault Refusal :=
  .next (match s.op entry with
    | some o =>
      if !s.live || o.dead then s
      else
        let found := s.partInc part
        let s1 := s.event evPartTimeout 3 (s.ctxInst o.ctx) (part.code + part.no * 2 ^ 8 + held.toNat * 2 ^ 16 + found.toNat * 2 ^ 24) 0
        let s2 := { s1 with parts := { s1.parts with reqs := s1.parts.reqs.filter (fun q => q.entry ≠ entry) } }
        s2.failOp entry (s.partErr (if found = held then stRetryLater else stStale) part held)
    | none => s)

/-! ## Invalidation (03 R180, 22 R930 to R932) -/

/-- GO at the active front end, its registers written. -/
def State.invalGo (s : State) : State :=
  let v := s.xlt.cset.toNat
  let cs := csetChips v
  let base := s.xlt.base.toNat
  let len := s.xlt.len.toNat * 0x10000
  if !csetOk v || !cs.all (fun c => s.memberList.contains c) then s.invalEnd 2
  else if !s.xlt.all && len = 0 then s.invalEnd 0
  else
    let s1 := ({ s with xlt := { s.xlt with busy := true, result := 0, waiting := cs } }).ctls (cs.filter (· ≠ s.dom.chipId))
      (.inval s.xlt.inst s.xlt.all (BitVec.ofNat 48 base) s.xlt.len)
    if cs.contains s.dom.chipId then s1.invalHere s.xlt.inst.toNat s.xlt.all base len else s1

/-- A write of XLT_INVAL_CTL: ignored while an invalidation runs (R933). On a chip that is not the active front end, GO comes from
it: the chip drops the leaves and reports (log 57). -/
def State.invalCtl (s : State) (v : Word64) : State :=
  if s.xlt.busy then s.blkError blkXlt beBusy
  else
    let s1 := { s with xlt := { s.xlt with inst := BitVec.ofNat 6 v.toNat, all := v.getLsbD 6 } }
    if !v.getLsbD 8 then s1
    else if s1.isFe then s1.invalGo
    else s1.invalHere s1.xlt.inst.toNat s1.xlt.all s1.xlt.base.toNat (s1.xlt.len.toNat * 0x10000)

/-- XLT_INVAL_GO. -/
def execXltInvalGo (value : Word64) (s : State) : Host.Outcome State Fault Refusal :=
  .next (if s.live && s.boot.state = .ready then s.invalCtl value else s)

end Sys2Proof.Machine
end

