-- ==== Sys2Proof/Machine/Secure.lean ====
section
/-! DEFINITION. The secure world's commands: confidential instances, attestation, the Crypto Officer, debug unlocking, zeroization (16 R711, R724 to R736, R744, 22 R940 to R945). -/

namespace Sys2Proof.Machine

/-! ## Confidential instances (R724 to R731) -/

/-- A secure command's part: here at once where it concerns this chip alone, else at a domain epoch. -/
def State.carryConf (s : State) (i : Nat) (m : List Byte) (here : State → State) (one : Bool) : State :=
  if one then ((here s).respond m msDone []).journalCommand m else s.pendCmd i m

def State.doConfCreate (s : State) (i : Nat) (m : List Byte) : State :=
  match s.common i (!restZero m 8) [.ready] with
  | some st => s.respond m st []
  | none =>
    if s.sec.zeroized || i = 0 || s.sec.debug ≠ .locked then s.respond m msSecureHeld []
    else if (s.inst i).conf || (Tbl.get 0 s.act.xltRoot i).getLsbD 0 || s.ringsOn i then s.respond m msBusy []
    else if s.sec.carve = 0 then s.respond m msNoResource []
    else if s.lock.held then s.respond m msLocked []
    else s.carryConf i m (fun s => ((s.grantLock 4 s.dom.chipInc false).confCreateHere i).commitShadow.unlock.rehold) s.rootOthers.isEmpty

/-- A secure command on a confidential instance: reserved fields, chip set where it has one, then the zeroized state and the instance. -/
def State.confCommon (s : State) (i : Nat) (bad : Bool) : Option Nat :=
  match s.common i bad [.ready] with
  | some st => some st
  | none => if s.sec.zeroized then some msSecureHeld else if !(s.inst i).conf then some msBadInstance else none

/-- The command names this chip, and only it. -/
def State.namesHere (s : State) (m : List Byte) : Bool := (csetChips (mCset m)).contains s.dom.chipId
def State.namesOne (s : State) (m : List Byte) : Bool := csetChips (mCset m) == [s.dom.chipId]

/-- The pages named lie in DRAM data below the carve-out, or in Hall staging. -/
def State.pagesGood (s : State) (lpa n : Nat) : Bool := lpa % 0x10000 == 0 && decide (n ≤ 114816) && (s.inDram lpa (n * 0x10000) || inStaging lpa (n * 0x10000))

def State.doConfAssign (s : State) (i : Nat) (m : List Byte) : State :=
  match s.confCommon i (!(s.csetGood m && s.pagesGood (leAt m 16 8) (leAt m 24 4) && restZero m 28)) with
  | some st => s.respond m st []
  | none =>
    if s.namesHere m && s.sec.carve = 0 then s.respond m msNoResource []
    else s.carryConf i m (fun s => s.confAssignHere i m) (s.namesOne m)

def State.doConfMap (s : State) (i : Nat) (m : List Byte) : State :=
  let good := mDva m % 0x10000 == 0 && decide (mDva m + mMapCount m * 0x10000 ≤ 2 ^ 47) && s.pagesGood (mLpa m) (mMapCount m) && decide (leAt m 36 1 < 4)
  match s.confCommon i (!(s.csetGood m && good && restZero m 37)) with
  | some st => s.respond m st []
  | none =>
    if s.namesHere m && (s.confMapHere i m).isNone then s.respond m msNoResource []
    else s.carryConf i m (fun s => s.confPart 0x22 i m true) (s.namesOne m)

/-- The pages of a range of the instance's DVAs, as they translate for a write: LPA by piece; none where one is not assigned here. -/
def State.loadTargets (s : State) (i : Nat) : List (Nat × Nat) → Option (List (Nat × Nat)) × State
  | [] => (some [], s)
  | p :: ps =>
    match s.xlate i p.1 p.2 true with
    | (.mem chip lpa _, s1) =>
      if chip = s1.dom.chipId && s1.assigned i (lpa / 0x10000) then
        match s1.loadTargets i ps with
        | (some t, s2) => (some ((lpa, p.2) :: t), s2)
        | (none, s2) => (none, s2)
      else (none, s1)
    | (_, s1) => (none, s1)

/-- The Security Controller writes loaded bytes under the instance's key. -/
def State.writeLoaded (s : State) (i : Nat) : List (Nat × Nat) → List Byte → State
  | [], _ => s
  | p :: ps, bs => State.writeLoaded (s.writeMem (if p.1 < dramEnd then s.keyOf i else 0) p.1 (bs.take p.2)).2 i ps (bs.drop p.2)

def State.doConfLoad (host : List Byte) (s : State) (i : Nat) (m : List Byte) : State :=
  let src := leAt m 8 8
  let dst := leAt m 16 8
  let len := leAt m 24 4
  match s.confCommon i (!(restZero m 28 && decide (src < 2 ^ 48 ∧ dst < 2 ^ 48))) with
  | some st => s.respond m st []
  | none =>
    if (s.inst i).final then s.respond m msBusy []
    else
      match s.loadTargets i (piecesOf dst len) with
      | (none, s1) => s1.respond m msNoResource []
      | (some t, s1) =>
        let r := s1.loadPieces src host (piecesOf src len)
        let s2 := (r.2.writeLoaded i t r.1).measure i (sha384 (toLe 8 dst ++ toLe 4 len ++ sha384 r.1))
        (s2.respond m msDone []).journalCommand m

def State.doConfFinalize (s : State) (i : Nat) (m : List Byte) : State :=
  match s.confCommon i (!restZero m 8) with
  | some st => s.respond m st []
  | none =>
    if (s.inst i).final then s.respond m msBusy []
    else s.carryConf i m (fun s => s.confPart 0x24 i m true) s.rootOthers.isEmpty

def State.doConfRelease (s : State) (i : Nat) (m : List Byte) : State :=
  match s.confCommon i (!(s.csetGood m && s.pagesGood (leAt m 16 8) (leAt m 24 4) && restZero m 28)) with
  | some st => s.respond m st []
  | none => s.carryConf i m (fun s => s.confReleaseHere i m) (s.namesOne m)

def execConfCreate (s : State) : Host.Outcome State Fault Refusal := .next (s.runCmd 0x20 State.doConfCreate)
def execConfAssign (s : State) : Host.Outcome State Fault Refusal := .next (s.runCmd 0x21 State.doConfAssign)
def execConfMap (s : State) : Host.Outcome State Fault Refusal := .next (s.runCmd 0x22 State.doConfMap)
def execConfLoad (host : List Byte) (s : State) : Host.Outcome State Fault Refusal := .next (s.runCmd 0x23 (State.doConfLoad host))
def execConfFinalize (s : State) : Host.Outcome State Fault Refusal := .next (s.runCmd 0x24 State.doConfFinalize)
def execConfRelease (s : State) : Host.Outcome State Fault Refusal := .next (s.runCmd 0x25 State.doConfRelease)

/-! ## Attestation (R730, R731, R744) -/

/-- The running image of a TYPE. -/
def State.imageOfType (s : State) (t : Nat) : ImageInfo := Tbl.get ImageInfo.none_ s.boot.images t

/-- The rows of Table 16-7 that the chip's own state decides hold. -/
def State.evaluated (s : State) : Bool :=
  s.fuses.stepping == .B0 && (s.imageOfType 1).version == 0x021A && decide ((s.imageOfType 1).slot.toNat ≤ 1) && s.fuses.eval && !s.sec.nsSeen && !s.sec.sSeen

/-- Measurement register `n`. -/
def State.mr (s : State) (n : Nat) : List Byte := padTo 48 (Tbl.get (zeros 48) s.sec.mrs n)

/-- Bytes 0 to 575 of the report of instance `i` (Table 16-6). -/
def State.reportBody (s : State) (i : Nat) (data : List Byte) : List Byte :=
  let x := s.inst i
  let shown := x.conf && x.final
  let im := [1, 2, 4, 3].map s.imageOfType
  toLe 4 0x52505446 ++ toLe 2 1 ++ toLe 1 s.fuses.grade.code ++ toLe 1 s.fuses.stepping.code ++ toLe 1 s.boot.nlevel.toNat
    ++ toLe 1 (b2n s.sec.nsSeen + 2 * b2n s.sec.sSeen + 4 * b2n s.evaluated + 8 * b2n shown) ++ toLe 2 s.dom.chipId.toNat ++ toLe 1 i ++ zeros 3
    ++ toLe 4 s.dom.depoch.toNat ++ toLe 8 s.fuses.serial.toNat ++ toLe 8 s.now ++ im.flatMap (fun v => toLe 2 v.version.toNat)
    ++ im.flatMap (fun v => toLe 1 v.svn.toNat) ++ padTo 48 data ++ (List.range 8).flatMap s.mr
    ++ (if shown then padTo 48 x.meas else zeros 48) ++ sha384 s.sec.ak

def State.doAttest (s : State) (i : Nat) (m : List Byte) : State :=
  if 2 ^ 48 ≤ leAt m 8 8 then s.respond m msBadCommand []
  else if (s.inst i).pend.isSome then s.respond m msBusy []
  else if (s.inst i).state = .absent then s.respond m msBadInstance []
  else if s.sec.zeroized then s.respond m msSecureHeld []
  else
    let sig := s.drawBytes 96
    (sig.2.storeImage (leAt m 8 8) (s.reportBody i ((m.drop 16).take 48) ++ sig.1)).respond m msDone []

def execAttest (s : State) : Host.Outcome State Fault Refusal := .next (s.runCmd 0x28 State.doAttest)

/-! ## Zeroization (R735, R736) -/

/-- Private SRAM, keys, DRBG state and the ownership table are overwritten; held units follow. `told` writes the event now. -/
def State.zeroizeNow (s : State) (trigger : Nat) (told : Bool) : State :=
  let s1 := { s with sec := { s.sec with keys := [], owner := [], nextTable := 0, zeroized := true, dbgNonce := none, coNonce := none, dik := [], ak := [], akCert := none } }
  let s2 := if told then s1.event evZeroized 3 0 trigger 0 else s1
  s2.rehold

/-! ## The Crypto Officer (R711, 18 R799, 22 R940, R941) -/

/-- The serial as signatures cover it (log 63). -/
def State.serialBytes (s : State) : List Byte := toLe 8 s.fuses.serial.toNat

/-- The Security Controller serves: started, and not zeroized. -/
def State.secServes (s : State) : Bool := s.boot.served && !s.safest.inSafe && !s.sec.zeroized

/-- The Crypto Officer's token as written. -/
def State.coBytes (s : State) : List Byte := getTbl s.sec.coToken 0 200

/-- A token is the officer's: its key, its signature over the nonce last read, no reserved byte set (R941). -/
def State.coTokenOk (s : State) : Bool :=
  match s.sec.coNonce with
  | none => false
  | some n =>
    let t := s.coBytes
    let key := (t.drop 8).take 96
    allZero ((t.drop 3).take 5) && sha384 key == (s.boot.cfg.drop 72).take 48 && sigOk key (sha384 (n ++ s.serialBytes ++ t.take 8)) (t.drop 104)

/-- The outcome of a SUBMIT: 1 done, 2 refused. The nonce is used up. -/
def State.coEnd (s : State) (res : BitVec 2) : State := { s with sec := { s.sec with coNonce := none, coRes := res } }

/-- SVN_COMMIT: the minimum of a TYPE rises to a value that does not exceed the running SVN; refused without VPP_FUSE. -/
def State.svnTake (s : State) : State :=
  let t := s.coBytes
  let type := leAt t 1 1
  let new := leAt t 2 1
  if !s.coTokenOk || type < 1 || 4 < type || new < (Tbl.get 0 s.fuses.svnMin type).toNat || (s.imageOfType type).svn.toNat < new then s.coEnd 2
  else if !s.fuses.vppOk then { s.coEnd 2 with sec := { (s.coEnd 2).sec with fuseRefused := true } }
  else
    let s1 := { s.coEnd 1 with fuses := { s.fuses with svnMin := Tbl.set 0 s.fuses.svnMin type (BitVec.ofNat 8 new) } }
    s1.event evSvnCommitted 0 0 (type + 256 * new) 0

/-- ZEROIZE. -/
def State.zeroizeTake (s : State) : State := if s.coTokenOk then (s.coEnd 1).zeroizeNow 4 true else s.coEnd 2

/-- SUBMIT written to SEC_CO_CTL. -/
def State.coSubmit (s : State) : State :=
  if !s.secServes then { s with sec := { s.sec with coRes := 2 } }
  else match leAt s.coBytes 0 1 with
    | 1 => s.svnTake
    | 2 => s.zeroizeTake
    | _ => s.coEnd 2

def execSvnCommit (s : State) : Host.Outcome State Fault Refusal := .next (if leAt s.coBytes 0 1 = 1 then s.coSubmit else s)
def execZeroize (s : State) : Host.Outcome State Fault Refusal := .next (if leAt s.coBytes 0 1 = 2 then s.coSubmit else s)

/-! ## Debug unlocking (R732 to R734, 22 R945) -/

/-- The debugger's token as written. -/
def State.dbgBytes (s : State) : List Byte := getTbl s.sec.dbgResp 0 200

def DbgLevel.code : DbgLevel → Nat
  | .locked => 0 | .ns => 1 | .s => 2

/-- The fused key slot a token's key matches. -/
def State.dbgSlot (s : State) (t : List Byte) : Option Nat := [0, 1].find? (fun k => Tbl.get [] s.fuses.dbgDig k == sha384 ((t.drop 8).take 96))

/-- A debug token is good: nonce, level, key, signature, and for NS no confidential instance. -/
def State.dbgTokenOk (s : State) (t : List Byte) : Bool :=
  match s.sec.dbgNonce with
  | none => false
  | some n =>
    let level := leAt t 0 1
    (level == 1 || level == 2) && allZero ((t.drop 1).take 7) && (s.dbgSlot t).isSome
      && sigOk ((t.drop 8).take 96) (sha384 (n ++ s.serialBytes ++ t.take 1)) (t.drop 104) && (level == 2 || !s.insts.any (fun e => e.2.conf))

/-- SUBMIT written to DBG_CTL: granted, refused, or locked out after 8 refusals. -/
def State.dbgSubmit (s : State) : State :=
  let t := s.dbgBytes
  if 8 ≤ s.sec.refusals.toNat then { s with sec := { s.sec with dbgNonce := none, dbgRes := 3 } }
  else if !s.secServes || !s.dbgTokenOk t then
    { s with sec := { s.sec with dbgNonce := none, dbgRes := 2, refusals := satInc s.sec.refusals } }
  else
    let two := leAt t 0 1 == 2
    let s1 := if two then s.zeroizeNow 1 true else s
    let s2 := { s1 with sec := { s1.sec with dbgNonce := none, dbgRes := 1, debug := if two then .s else if s1.sec.debug = DbgLevel.s then .s else .ns,
                                             nsSeen := s1.sec.nsSeen || !two, sSeen := s1.sec.sSeen || two } }
    let s3 := (s2.extendMr 6 (sha384 t)).event evDebugUnlocked 0 0 (leAt t 0 1) ((s.dbgSlot t).getD 0)
    if s3.safe.armed then (s3.disarm 2).enterSafe 0x22 0 else s3

def execDebugUnlock (s : State) : Host.Outcome State Fault Refusal :=
  .next (if s.boot.served && !s.safest.inSafe then s.dbgSubmit else s)

end Sys2Proof.Machine
end

