-- ==== Sys2Proof/Machine/Power.lean ====
section
/-! DEFINITION. Power requests, hibernation, heat, the power limit and the time counter (18 R802, R804, 20; logs 3, 21, 61). -/

namespace Sys2Proof.Machine

/-! ## Requests to units (R867 to R870) -/

/-- The chip is in service: READY and not in its safe state. -/
def State.ready (s : State) : Bool := s.boot.state == .ready && !s.safest.inSafe

/-- UNUSED_PORTS of the configuration area (R809, 19 Table 19-5). -/
def State.unusedPorts (s : State) : Nat := fld (leAt s.boot.cfg 12 4) 0 24

/-- PARK of a port: DOWN blocks, then PARKED; AUTO lets it train again, unless the port is marked unused (R809, R870). -/
def State.portRequest (s : State) (p req : Nat) : State :=
  let s1 := s.inForce (unitPort p) req
  let st := (s.port p).st
  if req = reqPark then
    if st = .parked || st = .fenced then s1
    else
      let s2 := (s1.updPort p (fun q => { q.into .parked with backoff := false, attempts := 0, link := Link.reset })).emit (.downBlocks p)
      if st = .active then s2.portGone p true else s2
  else if st = .parked && !bit s.unusedPorts p && !s.boot.deadPorts.getLsbD p && s.fab.enabled then s1.trainIn p .lock
  else s1

/-- A write of PWR_UNIT_REQ. -/
def State.unitRequest (s : State) (u req : Nat) : State :=
  s.request u req (fun s => if isPort u then s.portRequest (u - 26) req else s.carryOut u req)

/-- PWR_AUTO. -/
def execPwrAuto (unit_ : Nat) (s : State) : Host.Outcome State Fault Refusal := .next (if s.ready then s.unitRequest unit_ reqAuto else s)

/-- PWR_NO_SLEEP. -/
def execPwrNoSleep (unit_ : Nat) (s : State) : Host.Outcome State Fault Refusal :=
  .next (if s.ready then s.unitRequest unit_ reqNoSleep else s)

/-- PWR_PARK. -/
def execPwrPark (unit_ : Nat) (s : State) : Host.Outcome State Fault Refusal := .next (if s.ready then s.unitRequest unit_ reqPark else s)

/-! ## Hibernation (R873 to R875) -/

/-- ENTER is refused: more than one chip in the domain, an admitted buffer, or an armed chip (R873). -/
def State.mayHibernate (s : State) : Bool := decide (s.memberList.length ≤ 1) && s.ownerCount == 0 && !s.safe.armed

/-- PWR_HIB_STATUS takes a value. -/
def State.hibStatus (s : State) (v : BitVec 2) : State := { s with pwr := { s.pwr with hibStatus := v } }

/-- HIBERNATE: every stand parked, the memory controller in SELF_REFRESH. -/
def State.hibernate (s : State) : State :=
  let s1 := (List.range s.fuses.grade.stands).foldl (fun s n => s.retain n true) (s.hibStatus 0)
  (({ s1 with mem := { s1.mem with selfRef := true } }).event evHibernateEntered 0 0 0 0).enter .hibernate

/-- A write of ENTER. -/
def State.hibernateEnter (s : State) : State :=
  if !s.ready then s else if s.mayHibernate then s.hibernate else s.hibStatus 3

/-- HIBERNATE_ENTER. -/
def execHibernateEnter (s : State) : Host.Outcome State Fault Refusal := .next s.hibernateEnter

/-- HIBERNATE_EXIT: a host write of an INSTANCE register, or EXIT. -/
def execHibernateExit (cause : BitVec 2) (s : State) : Host.Outcome State Fault Refusal :=
  .next (if cause = 2 then s.wake 2 else if cause = 3 then (if s.boot.state = .hibernate then (s.wake 3).hibStatus 0 else s) else s)

/-- WAKE_EDGE (18 R802). -/
def execWakeEdge (s : State) : Host.Outcome State Fault Refusal :=
  .next (if s.boot.state = .hibernate then s.wake 1 else { s with pwr := { s.pwr with wakeCnt := satInc s.pwr.wakeCnt } })

/-! ## What units do on their own (R855 to R857) -/

/-- A stand is reserved here to a real-time ring (05 R274). -/
def State.standReserved (s : State) (n : Nat) : Bool := s.tiles.reserved.any (fun e => e.2.2.getLsbD n)

/-- TILE_RETENTION_TIMER: the tile has been gated for 100 µs (Table 20-1, R857). -/
def execTileRetentionTimer (tile : Nat) (s : State) : Host.Outcome State Fault Refusal :=
  let n := tile / 4
  .next (if s.live && decide (tile < s.fuses.grade.tiles) && s.tileGated tile && !s.standReserved n
      && (s.punit (unitStand n)).mode != 2 then
    s.updUnit (unitTile (s.tile tile).phys.toNat) (fun u => { u with retention := true }) else s)

/-- SELF_REFRESH_TIMER: 50 µs without an access to DRAM (Table 20-1). -/
def execSelfRefreshTimer (s : State) : Host.Outcome State Fault Refusal :=
  .next (if s.live && (s.punit unitMemc).mode != 2 then { s with mem := { s.mem with selfRef := true } } else s)

/-! ## Heat (R860, R861, Table 20-2) -/

/-- The sensor of a unit: tiles by physical number, then the four bank groups, the CFE with the Gallery, the memory controller and the
fabric unit; 41 to 43 are voted (22 R944). -/
def sensorOf (u : Nat) : Option Nat :=
  if 64 ≤ u && u < 98 then some (u - 64)
  else if isBank u then some (34 + (u - 1) / 4)
  else if u = unitCfe || u = unitGallery then some 38
  else if u = unitMemc then some 39
  else if u = unitFabric then some 40
  else none

/-- The lowest duty of a unit, in sixteenths (Table 20-2). -/
def floorOf (u : Nat) : Nat := if isBank u || u = unitCfe || u = unitGallery then 8 else 4

/-- The units that throttle with `u`: the banks of a group together. -/
def throttleGroup (u : Nat) : List Nat :=
  if isBank u then (List.range 4).map (fun k => 1 + (u - 1) / 4 * 4 + k)
  else [u]

/-- An event whose time is kept plus one was written less than 100 ms ago (R885). -/
def State.lately (s : State) (mark : Nat) : Bool := decide (mark ≠ 0 ∧ s.now + 1 < mark + 100000000)

/-- A unit lowers its duty by a sixteenth, and a throttling episode that begins is reported once per 100 ms (Table 20-2, R885). -/
def State.slow (s : State) (u cause reading : Nat) : State :=
  let x := s.punit u
  let s1 := s.updUnit u (fun w => { w with throttling := true, cut := if 16 - w.cut.toNat ≤ floorOf u then w.cut else w.cut + 1 })
  if x.throttling || s.lately x.lastEvt then s1
  else (s1.updUnit u (fun w => { w with lastEvt := s.now + 1 })).event evThrottle 0 0 (u + 256 * cause) reading

/-- A unit gives a sixteenth back; at full duty its episode is over. -/
def State.quicken (s : State) (u : Nat) : State :=
  s.updUnit u (fun w => { w with cut := w.cut - (if w.cut = 0 then 0 else 1), throttling := decide (1 < w.cut.toNat) })

/-- THERMAL_THROTTLE_STEP: at or above the limit the unit slows, 3 °C below it restores itself (R860). The DRAM refresh rate follows the
devices' own readout, which the spec leaves to JESD209-5: a free value. -/
def execThermalThrottleStep (unit_ : Nat) (reading : BitVec 12) (s : State) : Host.Outcome State Fault Refusal :=
  .next (match sensorOf unit_ with
    | none => s
    | some k =>
      if !s.live then s
      else
        let s1 := { s with pwr := { s.pwr with sensors := Tbl.set 0 s.pwr.sensors k reading } }
        let lim : Int := 4 * s.pwr.tlimit.toNat
        let s2 := if unit_ = unitMemc then { (s1.draw 3).2 with mem := { (s1.draw 3).2.mem with refresh := (s1.draw 3).1 } } else s1
        if lim ≤ reading.toInt then (throttleGroup unit_).foldl (fun s u => s.slow u 1 reading.toNat) s2
        else if reading.toInt ≤ lim - 12 && !s2.pwr.powerThr then (throttleGroup unit_).foldl State.quicken s2
        else s2)

/-- JUNCTION_HOLD: the median of the voted sensors at 105 °C holds CCLK at 275 MHz, below 102 °C releases it; 110 °C is a dangerous
fault (R861, 17 Table 17-1). -/
def execJunctionHold (median : BitVec 12) (s : State) : Host.Outcome State Fault Refusal :=
  .next (if !s.live then s
    else
      let t := median.toInt
      let s1 := if 420 ≤ t && !s.pwr.junction then
          ({ s with pwr := { s.pwr with junction := true }, clk := { s.clk with cclk := 275 } }).event evJunctionLimit 2 0 median.toNat 0
        else if t < 408 then { s with pwr := { s.pwr with junction := false } }
        else s
      if 440 ≤ t then s1.enterSafe 0x16 0 else s1)

/-! ## The power limit (R863, R864, R871) -/

/-- Units Table 20-2 names that exist: banks, CFE, Gallery, memory controller, the fabric unit but on grade S (01 R33), the tiles by their physical
numbers. -/
def State.throttleUnits (s : State) : List Nat :=
  (List.range 16).map (· + 1) ++ [unitCfe, unitGallery, unitMemc] ++ (if s.fuses.grade = .S then [] else [unitFabric])
    ++ ((List.range s.fuses.grade.tiles).filter (fun t => !(s.tile t).lost)).map (fun t => unitTile (s.tile t).phys.toNat)

/-- The sample joins those of the last 1 ms. -/
def State.sampled (s : State) (milliwatts : Nat) : State := { s with pwr := { s.pwr with samples := (milliwatts :: s.pwr.samples).take 100 } }

/-- Chip power averaged over the last 1 ms (R872). -/
def Pwr.average (p : Pwr) : Nat := p.samples.foldl (· + ·) 0 / max 1 p.samples.length

/-- The sample exceeds PWR_LIMIT: CCLK falls by 25 MHz; at 275 MHz every unit throttles, a sixteenth each 100 µs, so at every tenth sample by the time
counter (R863, R864). -/
def State.overPower (s : State) (milliwatts : Nat) : State :=
  let low := decide (s.clk.cclk.toNat ≤ 275)
  let c := if low then s.clk.cclk else s.clk.cclk - 25
  let s1 := { s with clk := { s.clk with cclk := c }, pwr := { s.pwr with powerThr := low, limiting := true } }
  let s2 := if s.pwr.limiting || s.lately s.pwr.limitEvt then s1
    else ({ s1 with pwr := { s1.pwr with limitEvt := s.now + 1 } }).event evPowerLimited 0 0 c.toNat milliwatts
  if low && decide (s.now / 10000 % 10 = 0) then s2.throttleUnits.foldl (fun s u => s.slow u 2 0) s2 else s2

/-- The sample does not exceed PWR_LIMIT: below 95 % of it CCLK rises by 25 MHz per millisecond, so at every hundredth sample by the time counter, up to
the ceiling and unless the junction holds it (R861, R863). -/
def State.underPower (s : State) (milliwatts : Nat) : State :=
  let s1 := { s with pwr := { s.pwr with powerThr := false, limiting := false } }
  if milliwatts * 100 < s.pwr.limit.toNat * 125 * 95 && !s.pwr.junction && decide (s.clk.cclk.toNat + 25 ≤ s.clk.cclkMax.toNat)
      && decide (s.now / 10000 % 100 = 0)
  then { s1 with clk := { s1.clk with cclk := s1.clk.cclk + 25 } } else s1

/-- POWER_SAMPLE, every 10 µs. -/
def execPowerSample (milliwatts : Nat) (s : State) : Host.Outcome State Fault Refusal :=
  .next (if !s.live then s
    else if s.pwr.limit.toNat * 125 < milliwatts then (s.sampled milliwatts).overPower milliwatts
    else (s.sampled milliwatts).underPower milliwatts)

/-- A write of CLK_CCLK_MAX lowers CCLK to the new ceiling (R871). -/
def State.setCclkMax (s : State) (v : BitVec 11) : State :=
  { s with clk := { s.clk with cclkMax := v, cclk := if v.toNat < s.clk.cclk.toNat then v else s.clk.cclk } }

/-! ## The time counter (R878 to R881) -/

/-- TIME_RECALIBRATE: the increment per ACLK cycle that makes the counter track the crystal; ACLK lies within 10 % of 100 MHz. -/
def execTimeRecalibrate (inc : Nat) (s : State) : Host.Outcome State Fault Refusal :=
  .next (if 9 ≤ inc && inc ≤ 12 then { s with clk := { s.clk with inc := inc } } else s)

/-- GPIO1 is TSYNC (R804). -/
def State.tsyncOn (s : State) : Bool := s.pins.gpioFunc.getLsbD 1

/-- TSYNC_EDGE: the counter is loaded, or stands still until time has caught up (R881). -/
def execTsyncEdge (s : State) : Host.Outcome State Fault Refusal :=
  .next (if !s.tsyncOn then s
    else
      let v := s.clk.tsyncVal
      let step := v - s.clk.time
      let s1 := if s.clk.time ≤ v then { s with clk := { s.clk with time := v, hold := 0, tsyncStep := step } }
        else { s with clk := { s.clk with hold := (s.clk.time - v).toNat, tsyncStep := step } }
      s1.event evTsyncApplied 0 0 step.toNat s1.now)

end Sys2Proof.Machine
end

