-- ==== Sys2Proof/Machine/Safety.lean ====
section
/-! DEFINITION. Functional safety: arming, SAFE_N and FAULT_N, the blanking probe, dangerous faults (17, 22 Table 22-11, R937 to R939; log 68). -/

namespace Sys2Proof.Machine

/-! ## Arming (R764 to R766) -/

/-- Why ARM is refused: 1 MODE, 2 injection, 3 debug, 4 stands; 0 where it is accepted (R764, 22 R937). -/
def State.armRefusal (s : State) : Nat :=
  if !s.safe.mode then 1
  else if s.safest.inject ≠ 0 then 2
  else if s.sec.debug != DbgLevel.locked then 3
  else if s.safe.pStands &&& s.tiles.lostStands ≠ 0 || s.safe.pStands &&& Tbl.get 0 s.act.stands s.safe.pInst.toNat ≠ s.safe.pStands then 4
  else 0

/-- A write of ARM. Accepted while armed it changes nothing. -/
def State.arm (s : State) : State :=
  let r := s.armRefusal
  if r ≠ 0 then { s with safe := { s.safe with status := s.safe.status ||| 0x10, reason := BitVec.ofNat 3 r } }
  else if s.safe.armed then s
  else { s with safe := { s.safe with armed := true, safeN := false, pCount := 0, probe := .idle, trigSeen := false } }

/-- The registers of the Safety Monitor take writes. -/
def State.safeServes (s : State) : Bool := s.ready

/-- SAFE_ARM. -/
def execSafeArm (s : State) : Host.Outcome State Fault Refusal := .next (if s.safeServes then s.arm else s)

/-- SAFE_DISARM. -/
def execSafeDisarm (s : State) : Host.Outcome State Fault Refusal := .next (if s.safeServes then s.disarm 0 else s)

/-! ## SAFE_N and FAULT_N (R763, R767, R768) -/

/-- SAFE_N is driven high. -/
def State.safeNHigh (s : State) : Bool := s.safe.safeN && !s.safe.testing && s.boot.state != .reset

/-- A write of TEST: SAFE_N low for 1 ms. -/
def State.testPulse (s : State) : State := { s with safe := { s.safe with testing := true } }

/-- SAFE_TEST. -/
def execSafeTest (s : State) : Host.Outcome State Fault Refusal := .next (if s.safeServes then s.testPulse else s)

/-- SAFE_TEST_END: the pulse is over; the event tells the readback. -/
def execSafeTestEnd (readbackLow : Bool) (s : State) : Host.Outcome State Fault Refusal :=
  .next (if s.safe.testing && !s.safest.inSafe then
      ({ s with safe := { s.safe with testing := false } }).event evSafeNTest 0 0 (b2n readbackLow) 0
    else s)

/-- A write of SAFE_STATUS: bits written 1 clear; FAULT_N is released when no report bit is left (R767, 22 R937). -/
def State.statusClear (s : State) (v : Word32) : State :=
  let st := s.safe.status &&& ~~~(v.setWidth 5)
  { s with safe := { s.safe with status := st, faultN := st &&& 0xF != 0 } }

/-- SAFE_STATUS_CLEAR. -/
def execSafeStatusClear (value : Word32) (s : State) : Host.Outcome State Fault Refusal :=
  .next (if s.safeServes then s.statusClear value else s)

/-! ## The blanking probe (R757 to R762) -/

/-- Index of a flag named by an OREF register. -/
def orefFlag (v : Word32) : Nat := fld v.toNat 16 14

/-- A signal of the Safety Monitor to one of its flags, as an access of SAFE_PROBE_INST: KIND 0 sets, 1 clears (R757). -/
def State.probeSignal (s : State) (oref : Word32) (kind : BitVec 2) : State :=
  s.deviceSignal { kind := kind, obj := BitVec.ofNat 14 (orefFlag oref), amount := 0, inst := s.safe.pInst, chip := s.dom.chipId, notice := none,
                   origin := .device }

/-- One 64 KiB page of the probe frame is mapped as R758 step 2 asks, for reads and writes, and no page owner refuses it. -/
def State.framePage (s : State) (k : Nat) : Bool × State :=
  let i := s.safe.pInst.toNat
  let dva := s.safe.dva.toNat + 0x10000 * k
  let lpa := s.safe.lpa.toNat + 0x10000 * k
  let r := s.xlate i dva 0x10000 false
  let w := r.2.xlate i dva 0x10000 true
  let want := Target.mem s.dom.chipId lpa false
  (decide (r.1 = want) && decide (w.1 = want) && !w.2.confDenied i false lpa 0x10000, w.2)

/-- Every page of the frame is so mapped. -/
def State.frameOk (s : State) : List Nat → Bool × State
  | [] => (true, s)
  | k :: ks =>
    let r := s.framePage k
    if r.1 then r.2.frameOk ks else (false, r.2)

/-- First LPA among `as` of 8-byte words that is uncorrectable. -/
def State.badPattern (s : State) (ranges : List (Nat × Nat)) : Option Nat :=
  ((s.mem.flips.map (·.1)).find? (fun w => s.wordBad w && ranges.any (fun r => decide (r.1 ≤ 8 * w ∧ 8 * w < r.1 + r.2)))).map (8 * ·)

/-- PROBE_MISMATCH (R760). -/
def State.probeMismatch (s : State) (detail : Nat) : State := s.enterSafe 0x1A detail

/-- The wait on TRIG has passed for an access of SAFE_PROBE_INST. -/
def State.probeDue (s : State) : Bool :=
  let f := orefFlag s.safe.trig
  s.ready && s.safe.mode && s.safe.armed && s.safe.probe == .idle && s.permitted 0 f s.safe.pInst.toNat && (s.safe.trigSeen || s.flag f)

/-- PROBE_RUN: steps 1 to 3 of R758. -/
def execProbeRun (s : State) : Host.Outcome State Fault Refusal :=
  .next (if !s.probeDue then s
    else
      let s1 := ({ s with safe := { s.safe with trigSeen := false } }.probeSignal s.safe.trig 1).probeSignal s.safe.done 1
      let r := s1.frameOk [0, 1, 2, 3]
      if !r.1 then r.2.probeMismatch 0
      else match r.2.badPattern ((patternBlocks r.2.patternNo).map (fun o => (patternBase + o, 0x8000))) with
        | some a => (r.2.reportUe a).probeMismatch 0
        | none => r.2.injectPattern)

/-- PROBE_STAND_GRANT: a stand whose operation has ended goes to the probe (R758 steps 4 and 5). -/
def execProbeStandGrant (stand : Nat) (s : State) : Host.Outcome State Fault Refusal :=
  .next (match s.safe.probe with
    | .running g =>
      if s.live && decide (stand < 8) && s.safe.pStands.getLsbD stand && !g.getLsbD stand && Tbl.get 0 s.stands stand = 0 then
        { s with safe := { s.safe with probe := .running (g ||| BitVec.ofNat 8 (2 ^ stand)) } }.wakeStands (2 ^ stand)
      else s
    | .idle => s)

/-- A probe has passed: DONE is set, the counts rise, SAFE_N goes high on the first pass since arming (R758 step 7, R765, R772). -/
def State.probePass (s : State) : State :=
  let s1 := s.probeSignal s.safe.done 0
  let s2 := { s1 with safe := { s1.safe with probe := .idle, patterns := s1.safe.patterns + 1, pCount := s1.safe.pCount + 1 } }
  if s2.safe.safeN then s2
  else ({ s2 with safe := { s2.safe with safeN := true }, safest := { s2.safest with latched := false } }).event evArmed 0 0 s2.safe.pCount.toNat 0

/-- PROBE_COMPARE: every stand has run the reference sequence; the verdict is the comparators'. Which tile differs the command does not
say: a free value. -/
def execProbeCompare (v : Verdict) (s : State) : Host.Outcome State Fault Refusal :=
  .next (if !s.live || s.safe.probe != .running s.safe.pStands then s
    else match s.badPattern [(patternBase + 0x80000 + 2048 * s.patternNo, 2048)] with
      | some a => (s.reportUe a).probeMismatch 0
      | none =>
        match v with
        | .pass => s.probePass
        | .fail => (s.draw 8).2.probeMismatch (s.draw 8).1.toNat)

/-- PROBE_LATE: no probe has passed within SAFE_PROBE_PERIOD (R761). -/
def execProbeLate (s : State) : Host.Outcome State Fault Refusal :=
  .next (if s.ready && s.safe.mode && s.safe.armed then s.enterSafe 0x1A 0 else s)

/-! ## Dangerous faults (R748, R753, R769, R770) -/

/-- The Safety Monitor acts on its checkers: out of reset, not injecting, not stopped in RECOVERY or FAILED. -/
def State.monitored (s : State) : Bool :=
  !(s.boot.state == .reset || s.boot.state == .inject || s.boot.state == .recovery || s.boot.state == .failed)

/-- Checkers whose report is a dangerous fault whatever the mode (Table 17-1). -/
def dangerous (source : Nat) : Bool := [0x06, 0x07, 0x14, 0x16, 0x19, 0x1B].contains source

/-- SAFE_STATE_ENTER. -/
def execSafeStateEnter (source detail : BitVec 8) (s : State) : Host.Outcome State Fault Refusal :=
  .next (if s.monitored && dangerous source.toNat then s.enterSafe source.toNat detail.toNat else s)

/-- SAFETY_WATCHDOG: a Safety Monitor fault. -/
def execSafetyWatchdog (s : State) : Host.Outcome State Fault Refusal := .next (if s.monitored then s.enterSafe 0x19 0 else s)

/-- CLOCK_LOSS: clock 0 CCLK to 6 crystal is out of window (22 CLK_MON). -/
def execClockLoss (clock : Nat) (s : State) : Host.Outcome State Fault Refusal :=
  .next (if s.monitored && decide (clock < 7) then
      ({ s with clk := { s.clk with mon := s.clk.mon ||| BitVec.ofNat 7 (2 ^ clock) } }).enterSafe 0x14 0
    else s)

end Sys2Proof.Machine
end

