-- ==== Sys2Proof/Machine/Start.lean ====
section
/-! DEFINITION. Resets, supplies and the beginning of a start: power-up, SYS_RST_N, PCIE_PERST_N, warm restart (13 R590, 17 R773 to R777, 18 R795, R796, 19 R810 to R822, R852, 21 R893 to R895; log 64). -/

namespace Sys2Proof.Machine

/-! ## What a chip reset keeps (R590, R771, R774, R814; log 64) -/

/-- Memory after a reset: a warm restart keeps DRAM in self-refresh; the training results stay in the always-on domain (R829, R774). -/
def State.memAfter (s : State) (warm : Bool) : Mem :=
  let m := s.mem
  let m0 := { Mem.reset with trained := m.trained, trainTemp := m.trainTemp }
  if warm then { m0 with bytes := m.bytes.filter (fun c => decide (c.1 < dramEnd)), flips := m.flips.filter (fun c => decide (8 * c.1 < dramEnd)),
                         tagDiff := m.tagDiff, enc := m.enc, selfRef := true }
  else m0

/-- The endpoint after a reset: a warm restart keeps the link and resets every function as an FLR does (R774). -/
def State.pcieAfter (s : State) (warm : Bool) : Pcie :=
  if warm then { Pcie.reset with up := s.pcie.up, rate := s.pcie.rate, width := s.pcie.width, reversed := s.pcie.reversed,
                                 tags10 := s.pcie.tags10, l1 := s.pcie.l1, training := s.pcie.training, subIds := s.pcie.subIds }
  else Pcie.reset

/-- The boot record after a reset: straps, supplies and pins stand; a warm restart keeps the retained images. -/
def State.bootAfter (s : State) (warm : Bool) : Boot :=
  { Boot.reset with began := s.now, entered := s.now, mode := s.boot.mode, i2cAddr := s.boot.i2cAddr, testMode := s.boot.testMode,
                    railsOk := s.boot.railsOk, sysRst := s.boot.sysRst, perstLow := s.boot.perstLow, firstStart := s.boot.firstStart,
                    images := if warm then s.boot.images else [], hasRetained := warm && s.boot.hasRetained }

/-- A chip reset: everything but the always-on domain at its reset value (R814), and for a warm restart DRAM and the link kept (R774). -/
def State.chipReset (s : State) (warm : Bool) : State :=
  { State.reset with
    pending := s.pending, out := s.out, fresh := s.fresh, fuses := s.fuses, flash := s.flash, boot := s.bootAfter warm,
    clk := { Clk.reset with time := s.clk.time, inc := s.clk.inc, hold := s.clk.hold },
    pwr := { Pwr.reset with limit := if s.fuses.grade = Grade.L then 72 else 96, wakeCnt := s.pwr.wakeCnt },
    dom := { Dom.reset with chipInc := s.dom.chipInc },
    fab := { Fabric.reset with ports := Tbl.mapAll Port.reset s.fab.ports (fun _ p => { Port.reset with inc := p.inc }) },
    mem := s.memAfter warm,
    parts := { Parts.reset with cfeInc := s.parts.cfeInc, memcInc := s.parts.memcInc, bankInc := s.parts.bankInc },
    tiles := { Tiles.reset with map := Tbl.mapAll Tile.reset s.tiles.map (fun _ t => { Tile.reset with inc := t.inc }) },
    pcie := s.pcieAfter warm,
    sec := { Sec.reset with lastGen := s.sec.lastGen },
    safe := { Safe.reset with status := s.safe.status &&& 0xF, faultN := s.safe.faultN },
    safest := { SafeState.reset with last := s.safest.last, latched := s.safest.latched, restarts := s.safest.restarts, untold := s.safest.untold,
                                     collapsed := s.safest.collapsed } }

/-- Every incarnation of the chip changed: its own, tiles', CFE's, Hall banks', memory controller's and ports'. -/
def State.allIncs (s : State) (f : BitVec 8 → BitVec 8) : State :=
  { s with
    dom := { s.dom with chipInc := f s.dom.chipInc },
    parts := { s.parts with cfeInc := f s.parts.cfeInc, memcInc := f s.parts.memcInc,
                            bankInc := (List.range 16).foldl (fun t b => Tbl.upd 0 t b f) s.parts.bankInc },
    tiles := { s.tiles with map := (List.range s.fuses.grade.tiles).foldl (fun m t => Tbl.upd Tile.reset m t (fun x => { x with inc := f x.inc })) s.tiles.map },
    fab := { s.fab with ports := (List.range 24).foldl (fun m p => Tbl.upd Port.reset m p (fun x => { x with inc := f x.inc })) s.fab.ports } }

/-- The chip leaves reset: every incarnation advances, but not at the first start after power-up of the always-on domain (R590). -/
def State.leaveReset (s : State) : State :=
  if s.boot.firstStart then { s with boot := { s.boot with firstStart := false } } else s.allIncs (· + 1)

/-- A start begins in ROM: START_KIND 0 power-up, 1 SYS_RST_N, 2 PCIE_PERST_N, 3 warm restart (R819, R821). -/
def State.begin_ (s : State) (kind : BitVec 2) : State :=
  let k := if s.boot.firstStart then 0 else kind
  let s1 := s.leaveReset
  ({ s1 with boot := { s1.boot with kind := k, began := s.now } }).enter .rom

/-- Held in reset; the start begins once SYS_RST_N is high and every rail in range (R812, R814). -/
def State.coldIfFree (s : State) (kind : BitVec 2) : State := if s.boot.sysRst || !s.boot.railsOk then s else s.begin_ kind

/-! ## Stopped starts (R852, R853) -/

/-- Every port that is not down or powered off sends DOWN. -/
def State.allPortsDown (s : State) : State :=
  let up := (s.fab.ports.filter (fun e => e.2.st != .down && e.2.st != .parked)).map (·.1)
  { s with fab := { s.fab with enabled := false, ports := Tbl.mapAll Port.reset s.fab.ports (fun _ p =>
      if p.st = .parked then p else { p.into .down with link := Link.reset }) }, out := s.out ++ up.map Out.downBlocks }

/-- The endpoint holds its link down. -/
def State.linkDown (s : State) : State := { s with pcie := { s.pcie with up := false, training := false, rate := 0, width := 0 } }

/-- FAILED with a result code; the endpoint stays up where IMAGES has ended. -/
def State.stopFailed (s : State) (code detail : Nat) : State :=
  let s1 := (s.result code detail).allPortsDown
  (if s1.boot.served then s1 else s1.linkDown).enter .failed

/-- RECOVERY with a result code. -/
def State.stopRecovery (s : State) (code detail : Nat) : State := ((s.result code detail).allPortsDown.linkDown).enter .recovery

/-! ## The rows of resets and supplies -/

/-- POWER_UP_AON: the time counter is zero, and every incarnation takes one value drawn from entropy (R815, 20 R879). -/
def execPowerUpAon (s : State) : Host.Outcome State Fault Refusal :=
  let d := s.draw 8
  let s1 := { State.reset with pending := s.pending, out := s.out, fresh := d.2.fresh, fuses := s.fuses, flash := s.flash,
                               pwr := { Pwr.reset with limit := if s.fuses.grade = Grade.L then 72 else 96 },
                               safest := { SafeState.reset with collapsed := s.safest.collapsed } }
  .next (s1.allIncs (fun _ => d.1))

/-- SYS_RST_ASSERT (R814). -/
def execSysRstAssert (s : State) : Host.Outcome State Fault Refusal :=
  .next (s.chipReset false |> fun t => { t with boot := { t.boot with sysRst := true } })

/-- SYS_RST_RELEASE: the straps are sampled, and a cold start begins once the rails are in range (18 R795, R798). -/
def execSysRstRelease (mode : BitVec 2) (i2cAddr : BitVec 3) (testMode : BitVec 1) (s : State) : Host.Outcome State Fault Refusal :=
  if !s.boot.sysRst then .next s
  else if testMode = 1 then .refused .productionTest
  else
    let s1 := { s with boot := { s.boot with sysRst := false, mode := mode, i2cAddr := i2cAddr, testMode := testMode } }
    .next (s1.coldIfFree 1)

/-- Every function of the endpoint is reset and its configuration space too (04 R239, R816). -/
def State.endpointReset (s : State) : State :=
  let s1 := if s.pcie.up then s.flrPf else s
  { s1 with pcie := { Pcie.reset with crs := s1.pcie.crs, subIds := s1.pcie.subIds, fns := Tbl.mapAll FnCfg.reset s1.pcie.fns (fun _ f =>
      { FnCfg.reset with vecs := f.vecs, vecBase := f.vecBase, flr := f.flr }) } }

/-- PERST_ASSERT (R816). -/
def execPerstAssert (s : State) : Host.Outcome State Fault Refusal :=
  .next (if s.boot.perstLow then s
    else
      let s1 := s.endpointReset
      { s1 with boot := { s1.boot with perstLow := true } })

/-- PERST_SAFE_RESET: 100 µs low while the chip is held in its safe state (R817). -/
def execPerstSafeReset (s : State) : Host.Outcome State Fault Refusal :=
  .next (if s.boot.perstLow && s.safest.inSafe && s.safest.stuck then (s.chipReset false).coldIfFree 2 else s)

/-- The chip has entered MEMTRAIN, and its start has not stopped before IMAGES ended (R818, R852, R853). -/
def State.linkAllowed (s : State) : Bool :=
  match s.boot.state with
  | .reset => false | .rom => false | .recovery => false
  | .failed => s.boot.served
  | .safe => false
  | _ => true

/-- Link training begins once PCIE_PERST_N is high and the chip has entered MEMTRAIN (R818). -/
def State.beginLink (s : State) : State :=
  if s.boot.perstLow || !s.linkAllowed then s else { s with pcie := { s.pcie with training := true } }

/-- PERST_DEASSERT. -/
def execPerstDeassert (s : State) : Host.Outcome State Fault Refusal :=
  .next (State.beginLink { s with boot := { s.boot with perstLow := false } })

/-- SUPPLY_EXCURSION: the fault is latched with the rail, and the chip is held in reset (21 R893, R894, 18 R794). -/
def execSupplyExcursion (rail : Nat) (s : State) : Host.Outcome State Fault Refusal :=
  .next (if 10 < rail || (s.fuses.grade == .S && (rail == 5 || rail == 6)) then s
    else
      let s1 := (s.latchFault 0x15 rail).chipReset false
      { s1 with boot := { s1.boot with railsOk := false } })

/-- The rails whose collapse zeroizes, by their index in Table 21-3 (R895). -/
def collapseRail (v : BitVec 8) : Nat := if v.toNat % 3 = 0 then 1 else if v.toNat % 3 = 1 then 2 else 10

/-- SUPPLY_COLLAPSE: zeroization in addition; which rail collapsed the command does not say, where no excursion has named it: a free value
(R735, R895). -/
def execSupplyCollapse (s : State) : Host.Outcome State Fault Refusal :=
  let d := s.draw 8
  let s0 := if s.boot.railsOk then d.2.latchFault 0x15 (collapseRail d.1) else s
  let s1 := (s0.zeroizeNow 2 false).chipReset false
  .next { s1 with boot := { s1.boot with railsOk := false }, safest := { s1.safest with collapsed := true } }

/-- SUPPLY_RETURN: every rail in range for 1 ms; a cold start where SYS_RST_N is high (R894). -/
def execSupplyReturn (s : State) : Host.Outcome State Fault Refusal :=
  .next (if s.boot.railsOk then s else ({ s with boot := { s.boot with railsOk := true } }).coldIfFree 1)

/-- SAFE_HOLD_EXPIRY: SAFE_HOLD_MS after entry, a warm restart begins if AUTO_RESTART is set and nothing holds the chip (17 Table 17-4 step
5, R770, R776). -/
def execSafeHoldExpiry (s : State) : Host.Outcome State Fault Refusal :=
  .next (if s.safest.inSafe && !s.safest.stuck && s.safe.autoRestart && s.boot.state = .safe then
      let s1 := { s with safest := { s.safest with restarts := s.safest.restarts.filter (fun t => decide (s.now ≤ t + 60000000000)) ++ [s.now] } }
      (s1.chipReset true).begin_ 3
    else s)

end Sys2Proof.Machine
end

