-- ==== Sys2Proof/Machine/Rom.lean ====
section
/-! DEFINITION. The states of a start from ROM to READY, and the I2C management slave (16 R708 to R712, 17 R752 to R755, R777, 19 R823 to R854; logs 20, 46, 63, 65, 66, 69). -/

namespace Sys2Proof.Machine

/-! ## Boot flash (R824 to R827) -/

/-- `n` bytes of flash. -/
def State.flashAt (s : State) (off n : Nat) : List Byte := (addrs off n).map (Tbl.get 0xFF s.flash.bytes)

/-- A directory copy is valid: MAGIC, VERSION, CRC, and no reserved encoding (R826, R827). -/
def State.dirOk (s : State) (d : List Byte) : Bool :=
  let offs := [1, 2, 3, 4].flatMap (fun t => [0, 1].map (fun c => leAt d (16 + 16 * (t - 1) + 8 * c) 4))
  decide (leAt d 0 4 = 0x59444952) && decide (leAt d 4 1 = 1) && decide (leAt d 252 4 = (crc32c (d.take 252)).toNat) && decide (leAt d 5 1 ≤ 3)
    && decide (leAt d 6 1 ≤ 2) && s.flash.modes.getLsbD (leAt d 6 1) && (leAt d 80 4 :: offs).all (fun o => decide (o % 0x10000 = 0))

/-- The first usable directory copy. -/
def State.directory (s : State) : Option (List Byte) := ([s.flashAt 0 256, s.flashAt 0x10000 256]).find? s.dirOk

/-! ## Images (16 R708 to R710, 19 R827, R837, R839) -/

/-- Greatest payload of a TYPE. -/
def imageLimit (t : Nat) : Nat := if t = 1 then 0x70000 else if t = 2 then 0x200000 else if t = 3 then 0x100000 else 0x400000

/-- The first check of R709 that an image fails, from 1; 0 where it is accepted. LEN and NLEVEL are judged with MAGIC and TYPE (log 65). -/
def State.imageCheck (s : State) (t : Nat) (man payload key : List Byte) : Nat :=
  let slot := leAt man 5 1
  if leAt man 0 4 ≠ 0x4D4E4631 || leAt man 4 1 ≠ t || imageLimit t < leAt man 12 4 || (t == 4) == (leAt man 7 1 == 0) then 1
  else if 4 ≤ slot || Tbl.get [] s.fuses.rootDig slot ≠ sha384 key then 2
  else if s.fuses.revoked.getLsbD slot then 3
  else if !sigOk key (sha384 (man.take 64)) ((man.drop 64).take 96) then 4
  else if sha384 payload ≠ (man.drop 16).take 48 then 5
  else if 64 < leAt man 6 1 || leAt man 6 1 < (Tbl.get 0 s.fuses.svnMin t).toNat then 6
  else 0

/-- One copy of an image in flash: its manifest and the check it fails. A payload beyond its limit is not read. -/
def State.flashImage (s : State) (d : List Byte) (t c : Nat) (key : List Byte) : List Byte × Nat :=
  let at_ := leAt d (16 + 16 * (t - 1) + 8 * c) 4
  let man := s.flashAt at_ 256
  let len := leAt man 12 4
  (man, s.imageCheck t man (if imageLimit t < len then [] else s.flashAt (at_ + 256) len) key)

/-- The register that measures a TYPE (16 Table 16-2). -/
def mrOfType (t : Nat) : Nat := if t = 3 then 4 else if t = 4 then 3 else t

/-- An accepted image: measured, then in force (R712). -/
def State.takeImage (s : State) (t : Nat) (man : List Byte) : State :=
  let s1 := s.extendMr (mrOfType t) (sha384 man)
  let x : ImageInfo := { version := BitVec.ofNat 16 (leAt man 8 2), svn := BitVec.ofNat 8 (leAt man 6 1), slot := BitVec.ofNat 2 (leAt man 5 1),
                         manifest := man }
  { s1 with boot := { s1.boot with images := Tbl.set ImageInfo.none_ s1.boot.images t x } }

/-- DETAIL of COPY_REJECTED and IMAGE_REJECTED. -/
def rejectDetail (t check : Nat) : Nat := t + 256 * check

/-- An image from flash: the first accepted copy; RECOVERY, with the failing check of both copies, where neither is (R710, R839).
Answers whether the start goes on. -/
def State.loadImage (s : State) (d : List Byte) (t : Nat) (k0 k1 : List Byte) : Bool × State :=
  let a := s.flashImage d t 0 k0
  if a.2 = 0 then (true, s.takeImage t a.1)
  else
    let b := s.flashImage d t 1 k1
    if b.2 = 0 then
      (true, ((s.result resCopyRejected (rejectDetail t a.2)).event evImageRejected 2 0 (t + 65536 * a.2) 0).takeImage t b.1)
    else (false, (s.result resImageRejected (rejectDetail t a.2)).stopRecovery resImageRejected (rejectDetail t b.2))

/-- Key `k` of those carried beside the images. -/
def keyNo (keys : List (List Byte)) (k : Nat) : List Byte := keys.getD k []

/-! ## ROM (R823) -/

/-- The fuse configuration as MR0 covers it (16 Table 16-2; log 63). -/
def State.fuseBytes (s : State) : List Byte :=
  (List.range 4).flatMap (fun k => padTo 48 (Tbl.get [] s.fuses.rootDig k)) ++ toLe 1 s.fuses.revoked.toNat
    ++ [1, 2, 3, 4].map (Tbl.get 0 s.fuses.svnMin) ++ [0, 1].flatMap (fun k => padTo 48 (Tbl.get [] s.fuses.dbgDig k)) ++ toLe 1 (b2n s.fuses.eval)

/-- SCFW, started, derives the DIK from the serial and the AK from MR0 and MR1 (16 R713, Table 16-3). -/
def State.deriveKeys (s : State) : State :=
  { s with sec := { s.sec with dik := padTo 96 (Config.derivedKey 0 s.serialBytes), ak := padTo 96 (Config.derivedKey 1 (s.mr 0 ++ s.mr 1)) } }

/-- The DIK certificate as Norsil stored it in boot flash (16 R715, 19 Table 19-4). -/
def State.dikCert (s : State) : List Byte :=
  match s.directory with
  | some d => s.flashAt (leAt d 88 4) (leAt d 92 4)
  | none => []

/-- The AK certificate of this boot is issued (16 R715, 19 R848); after zeroization there is no key to sign it. -/
def State.issueAk (s : State) : State :=
  if s.sec.zeroized then s
  else
    let sig := s.drawBytes 96
    let c : AkCert := { ak := s.sec.ak, mr0 := s.mr 0, mr1 := s.mr 1, sig := sig.1 }
    ({ sig.2 with sec := { sig.2.sec with akCert := some c } }).emit (.akCertificate s.dikCert c)

/-- ROM after its self-tests: MR0, BOOT_MODE, the flash, SCFW. -/
def State.romBoot (s : State) (romDigest : List Byte) (keys : List (List Byte)) : State :=
  let s1 := (s.extendMr 0 romDigest).extendMr 0 s.fuseBytes
  if s.boot.mode ≠ 0 then s1.stopRecovery resRecoveryStrap s.boot.mode.toNat
  else if !s.flash.sfdp then s1.stopRecovery resFlashNotFound 1
  else match s1.directory with
    | none => s1.stopRecovery resFlashNotFound 2
    | some d =>
      let r := s1.loadImage d 1 (keyNo keys 0) (keyNo keys 1)
      if !r.1 then r.2
      else
        (State.enter r.2.deriveKeys .memtrain).beginLink

/-- BOOT_ROM: `selfTest` is the test that failed; `keys` are the public keys beside the two SCFW copies. -/
def execBootRom (selfTest : Option (BitVec 8)) (romDigest : List Byte) (keys : List (List Byte)) (s : State) : Host.Outcome State Fault Refusal :=
  .next (if s.boot.state ≠ .rom then s
    else match selfTest with
      | some t => ((s.event evSelftestFail 3 0 t.toNat 0).zeroizeNow 3 true).stopFailed resRomSelftest t.toNat
      | none => s.romBoot romDigest keys)

/-! ## Memory (R829 to R832) -/

/-- The channels are trained: the die temperature is measured, a free value. -/
def State.trainAll (s : State) : State :=
  let d := s.draw 8
  { d.2 with mem := { d.2.mem with trained := 0xF, trainTemp := d.1, selfRef := false } }

/-- A warm restart takes DRAM out of self-refresh with the retained results; whether a channel fails its confirmation and is trained again the command
does not say: a free value (R830). -/
def State.confirmAll (s : State) : State :=
  let d := s.draw 1
  if s.mem.trained = 0xF && d.1 = 0 then { d.2 with mem := { d.2.mem with selfRef := false } } else d.2.trainAll

/-- MEMTRAIN: a warm restart goes on to BIST. -/
def execMemtrain (failure : Option (BitVec 4 × BitVec 4)) (s : State) : Host.Outcome State Fault Refusal :=
  .next (if s.boot.state ≠ .memtrain then s
    else match failure with
      | some f => s.stopFailed resMemtrainFail (f.1.toNat + 256 * f.2.toNat)
      | none => if s.boot.kind = 3 then s.confirmAll.enter .bist else s.trainAll.enter .meminit)

/-- MEMINIT: every group of DRAM zero, with valid check bytes and tags. -/
def execMeminit (s : State) : Host.Outcome State Fault Refusal :=
  .next (if s.boot.state ≠ .meminit then s
    else State.enter { s with mem := { s.mem with bytes := s.mem.bytes.filter (fun c => decide (dramEnd ≤ c.1)), enc := [], tagDiff := [],
                                                  flips := s.mem.flips.filter (fun c => decide (dramEnd ≤ 8 * c.1)) } } .bist)

/-! ## Self-test and the tile map (R833 to R835) -/

/-- Powered physical tiles, ascending. -/
def State.powered (s : State) : List Nat := (List.range 34).filter (fun p => !s.fuses.fusedOff.getLsbD p)

/-- The tile map before repair: logical tile t on the t-th powered tile, the next two the spares. -/
def State.baseMap (s : State) (failed : List Nat) : State :=
  let ps := s.powered
  let n := s.fuses.grade.tiles
  let s1 := (List.range n).foldl (fun s t => s.updTile t (fun x => { x with phys := BitVec.ofNat 8 (ps.getD t 0), lost := false, beats := 0 })) s
  let a := ps.getD n 0
  let b := ps.getD (n + 1) 0
  { s1 with tiles := { s1.tiles with spare0 := BitVec.ofNat 8 a, spare1 := BitVec.ofNat 8 b, inServ := 0, lostStands := 0,
                                     failedS := BitVec.ofNat 2 (b2n (failed.contains a) + 2 * b2n (failed.contains b)),
                                     failed := BitVec.ofNat 34 ((failed.filter (fun p => decide (p < 34))).eraseDups.foldl (fun m p => m + 2 ^ p) 0) } }

/-- A failed logical tile at start: the lowest spare that passed, or the tile is lost (R835, R840). -/
def State.repairTile (s : State) (t : Nat) : State :=
  let old := (s.tile t).phys.toNat
  match s.freeSpare with
  | some k =>
    let new := if k = 0 then s.tiles.spare0 else s.tiles.spare1
    let s1 := { s with tiles := { s.tiles with inServ := s.tiles.inServ ||| BitVec.ofNat 2 (2 ^ k) } }
    ((s1.updTile t (fun x => { x with phys := new })).result resTileRepaired (t + 256 * new.toNat)).event evTileRemapped 0 0
      (t + 256 * old + 65536 * new.toNat) 0
  | none => (s.loseTile t).result resDegraded t

/-- BIST: `failedTiles` are physical tiles beyond repair, `repaired` blocks with rows remapped, `fatal` a block whose SRAM (false) or logic (true)
failed. It ends with every SRAM word zero. -/
def execBist (failedTiles : List Nat) (repaired : List Nat) (fatal : Option (Bool × Nat)) (s : State) : Host.Outcome State Fault Refusal :=
  .next (if s.boot.state ≠ .bist then s
    else
      let s1 := repaired.foldl (fun s b => s.result resSramRepaired b) s
      match fatal with
      | some f => s1.stopFailed (if f.1 then resLbistFail else resSramFail) f.2
      | none =>
        let s2 := s1.baseMap failedTiles
        let bad := (List.range s2.fuses.grade.tiles).filter (fun t => failedTiles.contains (s2.tile t).phys.toNat)
        let s3 := bad.foldl State.repairTile s2
        State.enter { s3 with mem := { s3.mem with bytes := s3.mem.bytes.filter (fun c => decide (c.1 < dramEnd)),
                                                   flips := s3.mem.flips.filter (fun c => decide (8 * c.1 < dramEnd)) } } .images)

/-! ## Images and configuration (R828, R836 to R838) -/

/-- GPIO word `i` of the configuration area. -/
def gpioWord (b : List Byte) (i : Nat) : Nat := leAt b (40 + 4 * i) 4

/-- Set bits of a number below 2^24. -/
def popCount24 (v : Nat) : Nat := ((List.range 24).filter (fun k => bit v k)).length

/-- Byte offset of the first bad field of the configuration area (Table 19-5, Table 19-6). -/
def configBad (b : List Byte) : Option Nat :=
  let max_ := leAt b 32 4
  if leAt b 0 4 ≠ 0x43464731 || leAt b 4092 4 ≠ (crc32c (b.take 4092)).toNat then some 0xFFFF
  else if bit (leAt b 6 1) 5 && !bit (leAt b 6 1) 3 then some 6
  else if 4 < popCount24 (leAt b 8 4) then some 8
  else if 32 < leAt b 16 1 then some 16
  else if 10000 < leAt b 26 2 then some 26
  else if 1000 < leAt b 28 2 then some 28
  else if max_ ≠ 0 && (max_ < 100 || 600000 < max_) then some 32
  else ((List.range 8).find? (fun i => (fld (gpioWord b i) 0 2 == 2 && i != 0) || (fld (gpioWord b i) 0 2 == 3 && i != 1))).map (fun i => 40 + 4 * i)

/-- A mask of the GPIOs a predicate holds of. -/
def gpioMask (f : Nat → Bool) : BitVec 8 := BitVec.ofNat 8 ((List.range 8).foldl (fun m i => m + b2n (f i) * 2 ^ i) 0)

/-- The configuration area applied (R836 step 4), the retained-image area with it (17 R773). -/
def State.applyConfig (s : State) (b : List Byte) : State :=
  let f := leAt b 6 1
  let k := fun i => fld (gpioWord b i) 0 2
  { s with
    boot := { s.boot with cfg := b, hasRetained := bit f 3 },
    sec := { s.sec with carve := BitVec.ofNat 6 (leAt b 16 1), retained := bit f 3 },
    safe := { s.safe with mode := bit f 4, autoRestart := bit f 5 },
    pins := { s.pins with gpioDir := gpioMask (fun i => k i == 1 || k i == 2), gpioOut := gpioMask (fun i => bit (gpioWord b i) 2),
                          gpioFunc := gpioMask (fun i => k i == 2 || k i == 3) } }

/-- A word of the retained-image area is uncorrectable (log 66). -/
def State.retainedBad (s : State) (carve : Nat) : Bool :=
  let hi := dramEnd - carve * 0x1000000
  s.mem.flips.any (fun e => decide (2 ≤ ones e.2 ∧ hi - 0x1000000 ≤ 8 * e.1 ∧ 8 * e.1 < hi))
    || s.mem.tagDiff.any (fun e => decide (2 ≤ ones e.2 ∧ hi - 0x1000000 < e.1 * 448 + 448 ∧ e.1 * 448 < hi))

/-- One image of IMAGES: retained on a warm restart, from flash else (R836, R774). -/
def State.startImage (s : State) (d : List Byte) (keys : List (List Byte)) (t : Nat) : Bool × State :=
  let man := (s.imageOfType t).manifest
  if s.boot.kind = 3 && s.boot.hasRetained && !man.isEmpty then
    if s.retainedBad (leAt (s.flashAt (leAt d 80 4) 4096) 16 1) then
      (s.result resRetainedRejected t).loadImage d t (keyNo keys (2 * (t - 2))) (keyNo keys (2 * (t - 2) + 1))
    else (true, s.takeImage t man)
  else s.loadImage d t (keyNo keys (2 * (t - 2))) (keyNo keys (2 * (t - 2) + 1))

/-- The images in order, as long as the start goes on. -/
def State.startImages (s : State) (d : List Byte) (keys : List (List Byte)) : List Nat → Bool × State
  | [] => (true, s)
  | t :: ts =>
    let r := s.startImage d keys t
    if r.1 then r.2.startImages d keys ts else r

/-- IMAGES after the three images: configuration, golden signatures, numerics level; MGMT reads and configuration space are served from
here on. -/
def State.imagesRest (s : State) (d : List Byte) (golden : Bool) : State :=
  let b := s.flashAt (leAt d 80 4) 4096
  match configBad b with
  | some off => s.stopRecovery resConfigBad off
  | none =>
    let level := leAt (s.imageOfType 4).manifest 7 1
    let s1 := (s.extendMr 5 (sha384 b)).applyConfig b
    if !golden then s1.stopRecovery resNoGolden level
    else State.enter { s1 with boot := { s1.boot with nlevel := BitVec.ofNat 8 level, served := true }, pcie := { s1.pcie with crs := false } } .inject

/-- IMAGES: `keys` are the public keys beside FEFW, SMFW and TMC, two copies each; `golden` says whether SMFW has signatures for the level. -/
def execImages (keys : List (List Byte)) (golden : Bool) (s : State) : Host.Outcome State Fault Refusal :=
  .next (if s.boot.state ≠ .images then s
    else match s.directory with
      | none => s.stopRecovery resFlashNotFound 2
      | some d =>
        let r := s.startImages d keys [2, 4, 3]
        if r.1 then r.2.imagesRest d golden else r.2)

/-! ## Proving the checkers (17 R752 to R755, R840) -/

/-- Per-tile checkers (17 Table 17-2). -/
def perTile (c : Nat) : Bool := c = 1 || (8 ≤ c && c ≤ 0x10) || c = 0x17 || c = 0x1C

/-- A failed injection is recorded, reported by FAULT_N and by its event (17 R767, 22 SAFE_INJECT). -/
def State.injectFail (s : State) (c n : Nat) : State :=
  (({ s with safest := { s.safest with inject := s.safest.inject ||| BitVec.ofNat 32 (2 ^ c) } }).safeReport 2).event evInjectionFail 2 0 (c + 256 * n) 0

/-- A physical tile fails an injection: out of service, its logical tile on a spare; a spare never mapped in (R754). -/
def State.injectTile (s : State) (p : Nat) : State :=
  if s.tiles.failed.getLsbD p then s
  else
    let hit := (List.range s.fuses.grade.tiles).find? (fun t => (s.tile t).phys.toNat == p && !(s.tile t).lost)
    let f : BitVec 2 := BitVec.ofNat 2 (b2n (decide (s.tiles.spare0.toNat = p)) + 2 * b2n (decide (s.tiles.spare1.toNat = p)))
    let s1 := { s with tiles := { s.tiles with failed := s.tiles.failed ||| BitVec.ofNat 34 (2 ^ p), failedS := s.tiles.failedS ||| f } }
    match hit with
    | some t => s1.repairTile t
    | none => s1

/-- The failures in order; one that is neither per tile nor of a port's CRC stops the start. -/
def State.injections (s : State) : List (Nat × Nat) → State
  | [] => s.enter .fabric
  | (c, n) :: t =>
    if c = 0 || 0x1C < c || c = 5 then s.injections t
    else
      let s1 := s.injectFail c n
      if perTile c then (s1.injectTile n).injections t
      else if c = 0x11 then
        State.injections { s1 with boot := { s1.boot with deadPorts := s1.boot.deadPorts ||| BitVec.ofNat 24 (2 ^ n) } } t
      else s1.stopFailed resInjectionFail (c + 256 * n)

/-- INJECT: `failures` lists the checkers that failed, each with its physical tile, bank, port or channel. -/
def execInject (failures : List (Nat × Nat)) (s : State) : Host.Outcome State Fault Refusal :=
  .next (if s.boot.state ≠ .inject then s
    else s.injections (failures.filter (fun f => !(s.fuses.grade == .S && f.1 == 0x11))))

/-! ## FABRIC and FRONTEND (R841, R848, 17 R777) -/

/-- Ports that may train. -/
def State.usablePorts (s : State) : List Nat := (List.range 24).filter (fun p => !bit s.unusedPorts p && !s.boot.deadPorts.getLsbD p)

/-- FABRIC: the fabric unit is enabled and every usable port trains; grade S and a chip without ports form a domain of one. -/
def execFabric (s : State) : Host.Outcome State Fault Refusal :=
  .next (if s.boot.state ≠ .fabric || s.safest.inSafe || s.fab.enabled || s.dom.formed then s
    else
      let s1 := { s with fab := { s.fab with ports := (List.range 24).foldl (fun m p =>
        if bit s.unusedPorts p then Tbl.upd Port.reset m p (fun x => { x with st := .parked }) else m) s.fab.ports } }
      if s.fuses.grade = .S || popCount24 s.unusedPorts = 24 then s1.formOne 1 resDomainOfOne
      else s.usablePorts.foldl (fun s p => s.trainIn p .lock) { s1 with fab := { s1.fab with enabled := true } })

/-- After a restart, once the endpoint is up, SAFE_ENTERED tells SAFE_LAST_FAULT (17 R777). -/
def State.tellSafe (s : State) : State :=
  if s.safest.untold && s.pcie.up && s.boot.served then
    ({ s with safest := { s.safest with untold := false } }).event evSafeEntered 3 0 (fld s.safest.last.toNat 0 64) (fld s.safest.last.toNat 64 48)
  else s

/-- ZEROIZED of a supply collapse is written at the next boot (16 Table 16-8). -/
def State.tellCollapse (s : State) : State :=
  if s.safest.collapsed then ({ s with safest := { s.safest with collapsed := false } }).event evZeroized 3 0 2 0 else s

/-- Contexts, operations, objects and function registers before the first instance runs; context generations stand. -/
def State.frontClear (s : State) : State :=
  { s with ctxs := Tbl.mapAll Ctx.reset s.ctxs (fun _ c => { Ctx.reset with gen := c.gen }), ops := [], slots := [], stands := [], colls := [],
           gal := Gallery.reset, act := { s.act with sgrp := [] }, shd := { s.shd with sgrp := [] }, fns := [] }

/-- FRONTEND: on a cold start the Subsystem IDs loaded, dispatch state and the Gallery cleared, key slots filled, functions reset, then READY, where waiting commands run (R848, R849;
log 62 for the slots above 0). -/
def State.frontEnd (s : State) : State :=
  let s1 := if s.boot.kind = 3 then s else { s with pcie := { s.pcie with subIds := BitVec.ofNat 32 (leAt s.boot.cfg 18 4) } }
  let s2 := ((List.range 64).foldl State.fillKey s1.frontClear).issueAk
  let s3 := ((s2.enter .ready).tellCollapse).tellSafe
  if s3.isFe then s3.settleQueue 8 else s3.refuseQueue 8

/-- FRONTEND. -/
def execFrontend (s : State) : Host.Outcome State Fault Refusal :=
  .next (if s.boot.state = .frontend && !s.safest.inSafe && s.dom.formed then s.frontEnd else s)

/-- PCIE_LINK_UP: the key rises in an election; after formation a member becomes a data portal (01 R43, 19 "Corners"). -/
def execPcieLinkUp (rate width : BitVec 3) (s : State) : Host.Outcome State Fault Refusal :=
  .next (if !s.pcie.training || s.boot.perstLow || s.pcie.up then s
    else
      let s1 := { s with pcie := { s.pcie with up := true, training := false, rate := rate, width := width } }
      let s2 := if s1.dom.formed then
          (if s1.dom.role = .member then { s1 with dom := { s1.dom with role := .dataPortal } } else s1)
        else s1.keyRaised
      if s2.safest.inSafe then s2 else s2.tellSafe)

/-- EVENT_RING_ROOM: OVERFLOW is written first (13 R603). -/
def execEventRingRoom (s : State) : Host.Outcome State Fault Refusal :=
  .next (if s.act.evqSize ≠ 0 && s.evq.drop ≠ 0 && decide (s.evqDepth < s.evqN) && !s.safest.inSafe then
      let n := s.evq.drop.toNat
      ({ s with evq := { s.evq with drop := 0 } }).pushEvent (eventBytes evOverflow 0 0 s.dom.chipId.toNat s.now n 0)
    else s)

/-! ## The I2C management slave (Table 19-7, R854, 21 R899) -/

/-- A transfer that this slave answers: to 0x58 + I2C_ADDR, from ROM on; any other passes it by (18 R797). -/
def State.onI2c (s : State) (addr : BitVec 7) (f : State → State) : State :=
  if s.boot.state ≠ .reset && decide (addr.toNat = 0x58 + s.boot.i2cAddr.toNat) then f s else s

/-- I2C_BOOT_REPORT: served from ROM on. -/
def execI2cBootReport (addr : BitVec 7) (s : State) : Host.Outcome State Fault Refusal :=
  .next (s.onI2c addr (fun s => s.emit (.i2c s.bootReport)))

/-- A recovery-only command; in any other state it is not acknowledged. -/
def State.inRecovery (s : State) (addr : BitVec 7) (f : State → State) : State :=
  s.onI2c addr (fun s => if s.boot.state = .recovery then f s else s.emit .i2cNack)

/-- FLASH_ADDR. -/
def execFlashAddr (addr : BitVec 7) (value : Word32) (s : State) : Host.Outcome State Fault Refusal :=
  .next (s.inRecovery addr (fun s => { s with flash := { s.flash with offset := value, err := false } }))

/-- FLASH_READ: up to 32 bytes. -/
def execFlashRead (addr : BitVec 7) (count : Nat) (s : State) : Host.Outcome State Fault Refusal :=
  .next (s.inRecovery addr (fun s =>
    let n := min count 32
    ({ s with flash := { s.flash with offset := s.flash.offset + BitVec.ofNat 32 n, err := false } }).emit (.i2c (s.flashAt s.flash.offset.toNat n))))

/-- Flash bytes written; a NOR cell only goes from 1 to 0 (log 20). -/
def State.program (s : State) (bytes : List Byte) : State :=
  let off := s.flash.offset.toNat
  let t := (indexed off bytes).foldl (fun (t : Tbl Byte) e => Tbl.upd 0xFF t e.1 (· &&& e.2)) s.flash.bytes
  { s with flash := { s.flash with bytes := t, offset := s.flash.offset + BitVec.ofNat 32 bytes.length, busy := true, err := false } }

/-- FLASH_PROGRAM: up to 32 bytes; a byte beyond is not acknowledged (21 R899). -/
def execFlashProgram (addr : BitVec 7) (bytes : List Byte) (s : State) : Host.Outcome State Fault Refusal :=
  .next (s.inRecovery addr (fun s =>
    let s1 := s.program (bytes.take 32)
    if 32 < bytes.length then s1.emit .i2cNack else s1))

/-- FLASH_ERASE: the 64 KiB sector that holds the offset; another code is an error. -/
def execFlashErase (addr : BitVec 7) (code : Byte) (s : State) : Host.Outcome State Fault Refusal :=
  .next (s.inRecovery addr (fun s =>
    if code ≠ 1 then { s with flash := { s.flash with err := true } }
    else
      let lo := s.flash.offset.toNat / 0x10000 * 0x10000
      { s with flash := { s.flash with bytes := s.flash.bytes.filter (fun e => !decide (lo ≤ e.1 ∧ e.1 < lo + 0x10000)), busy := true, err := false } }))

/-- FLASH_STATUS: how long a write keeps the flash busy the spec does not say: a free bit until it reads 0. -/
def execFlashStatus (addr : BitVec 7) (s : State) : Host.Outcome State Fault Refusal :=
  .next (s.inRecovery addr (fun s =>
    let d := s.draw 1
    let b := s.flash.busy && d.1 == 1
    let s1 := if s.flash.busy then d.2 else s
    ({ s1 with flash := { s1.flash with busy := b } }).emit (.i2c [BitVec.ofNat 8 (b2n b + 2 * b2n s.flash.err)])))

/-- RESTART: with 0xA5, in RECOVERY and FAILED, the chip resets as on SYS_RST_N. -/
def execI2cRestart (addr : BitVec 7) (code : Byte) (s : State) : Host.Outcome State Fault Refusal :=
  .next (s.onI2c addr (fun s =>
    if s.boot.state ≠ .recovery && s.boot.state ≠ .failed then s.emit .i2cNack
    else if code ≠ 0xA5 then s
    else (s.chipReset false).coldIfFree 1))

/-- I2C_BUS_TIMEOUT: the slave releases SDA and the transfer has ended; a command is taken whole or not at all, so nothing else changes. -/
def execI2cBusTimeout (s : State) : Host.Outcome State Fault Refusal := .next s

end Sys2Proof.Machine
end

