-- ==== Sys2Proof/Machine/RegRead.lean ====
section
/-! DEFINITION. The values the registers of the MGMT window hold (22). `reg64` gives the 8-byte registers and `reg32` the 4-byte ones, by block
and offset; none names no register. The configuration set they are read from is a parameter, for the shadow and the active copies. -/

namespace Sys2Proof.Machine

/-! ## Arrays of registers -/

/-- Index and rest of an offset in an array of `n` elements of `stride` bytes from `base` on. -/
def slotAt (base stride n o : Nat) : Option (Nat × Nat) :=
  if base ≤ o ∧ o < base + stride * n then some ((o - base) / stride, (o - base) % stride) else none

/-- The value of an array element whose rest is `r`. -/
def elem (base stride n r o : Nat) (f : Nat → Nat) : Option Nat :=
  match slotAt base stride n o with
  | some (k, q) => if q = r then some (f k) else none
  | none => none

/-- The first of several register arrays that holds the offset. -/
def firstOf (xs : List (Option Nat)) : Option Nat := xs.findSome? (fun x => x)

/-! ## FE_ and MBX_ (Tables 22-4, 22-5) -/

/-- Contexts used as shares of buffers admitted elsewhere. -/
def State.shareCount (s : State) : Nat := (s.ctxs.filter (fun e => match e.2.use with | .share _ => true | _ => false)).length

def Role.code : Role → Nat
  | .member => 0 | .frontEnd => 1 | .standby => 2 | .dataPortal => 3

/-- The level at each GPIO ball: the one the chip drives where it is an output, high on GPIO0 as THROTTLE while any block throttles, else what
the board holds it at (18 R803, R804, Table 18-4; log 113). -/
def State.gpioLevels (s : State) : BitVec 8 :=
  let drives := if s.pins.gpioFunc.getLsbD 0 then (s.pins.gpioOut &&& 0xFE) ||| (if s.pwr.units.any (fun e => e.2.throttling) then 1 else 0)
    else s.pins.gpioOut
  (s.pins.gpioDir &&& drives) ||| (~~~s.pins.gpioDir &&& s.pins.gpioIn)

/-- FE_SEQLOCK (15 R677). -/
def State.lockWord (s : State) : Nat := b2n s.lock.held + 2 * s.lock.agent.toNat + 256 * s.lock.inc.toNat + 2 ^ 16 * s.lock.gen.toNat

def State.fe64 (s : State) (g : CfgSet) (o : Nat) : Option Nat :=
  match o with
  | 0x10 => some s.fuses.serial.toNat
  | 0x30 => some (leAt s.bootReport 0 8)
  | 0x38 => some (leAt s.bootReport 8 8)
  | 0x40 => some (s.ownerCount + 2 ^ 11 * s.shareCount + 2 ^ 22 * (s.ops.filter (fun e => e.2.isSome)).length + 2 ^ 35 * s.slots.length)
  | 0x100 => some g.evqBase.toNat
  | 0x200 => some s.dlog.base.toNat
  | 0x408 => some s.mgr.rmtData.toNat
  | _ => none

def State.fe32 (s : State) (g : CfgSet) (o : Nat) : Option Nat :=
  match o with
  | 0x08 => some (s.fuses.stepping.code + 256 * s.fuses.grade.code + 2 ^ 16 * (if s.boot.served then s.boot.nlevel.toNat else 0))
  | 0x18 => some (s.dom.chipId.toNat + 2 ^ 16 * s.dom.chipInc.toNat)
  | 0x1C => some s.dom.depoch.toNat
  | 0x20 => some (s.dom.role.code + 4 * b2n s.dom.root)
  | 0x24 => some (s.boot.mode.toNat + 4 * s.boot.i2cAddr.toNat + 32 * s.boot.testMode.toNat)
  | 0x28 => some (fld (leAt s.boot.cfg 8 4) 0 24)
  | 0x2C => some s.unusedPorts
  | 0x48 => some s.lockWord
  | 0x108 => some g.evqSize.toNat
  | 0x10C => some g.evqThresh.toNat
  | 0x110 => some g.evqCons.toNat
  | 0x114 => some g.evqNotify.toNat
  | 0x118 => some s.evq.prod.toNat
  | 0x11C => some s.evq.drop.toNat
  | 0x208 => some s.dlog.size.toNat
  | 0x20C => some s.dlog.cons.toNat
  | 0x210 => some s.dlog.prod.toNat
  | 0x300 => some s.pins.gpioDir.toNat
  | 0x304 => some s.pins.gpioOut.toNat
  | 0x308 => some s.gpioLevels.toNat
  | 0x30C => some (s.pins.gpioFunc.toNat % 4)
  | 0x400 => some s.mgr.rmtChip.toNat
  | 0x404 => some s.mgr.rmtOff.toNat
  | 0x410 => some (2 * b2n s.mgr.rmtWrite + 4 * b2n s.mgr.rmtWide + 8 * b2n s.mgr.rmtBusy + 16 * s.mgr.rmtRes.toNat)
  | 0x420 => some (4 * b2n s.mgr.epBusy + 16 * s.mgr.epRes.toNat)
  | _ => none

/-- The function mailboxes are held on the active front end; elsewhere they read zero (15 R672, R676). -/
def State.mbxHere (s : State) (v : Nat) : Nat := if s.isFe then v else 0

def State.mbx64 (s : State) (o : Nat) : Option Nat :=
  let slot := fun (base fn q : Nat) => s.mbxHere (ofLe (getTbl (s.fn fn).mbx (base + q / 8 * 8) 8))
  firstOf [
    elem 0x100 8 64 0 o (fun k => ofLe (getTbl s.mgr.cmd (8 * k) 8)),
    elem 0x400 8 128 0 o (fun k => ofLe (getTbl s.mgr.rsp (8 * k) 8)),
    (match slotAt 0x10100 256 63 o with | some (n, q) => some (slot 0 (n + 1) q) | none => none),
    (match slotAt 0x20100 256 63 o with | some (n, q) => some (slot 256 (n + 1) q) | none => none),
    elem 0x30010 16 63 0 o (fun n => s.mbxHere ((s.fn (n + 1)).outPi.toNat + 2 ^ 32 * (s.fn (n + 1)).outCi.toNat)),
    elem 0x30010 16 63 8 o (fun n => s.mbxHere ((s.fn (n + 1)).inPi.toNat + 2 ^ 32 * (s.fn (n + 1)).inCons.toNat))]

def State.mbx32 (s : State) (o : Nat) : Option Nat :=
  match o with
  | 0x300 => some s.mgr.cmdPi.toNat
  | 0x304 => some s.mgr.cmdCi.toNat
  | 0x800 => some s.mgr.rspPi.toNat
  | 0x804 => some s.mgr.rspCons.toNat
  | _ => none

/-! ## HALL_, TILE_, GAL_ (Tables 22-6, 22-7) -/

/-- Correctable counter `n` and its threshold, at 0x08 and 0x0C of its block (R913). -/
def State.ce32 (s : State) (n o : Nat) : Option Nat :=
  match o with
  | 0x08 => some (Tbl.get 0 s.mem.ceCnt n).toNat
  | 0x0C => some (Tbl.get 0 s.mem.ceThr n).toNat
  | _ => none

/-- Incarnations of eight Hall banks from `b` on. -/
def State.bankIncs (s : State) (b : Nat) : Nat := ofLe ((List.range 8).map (fun k => Tbl.get 0 s.parts.bankInc (b + k)))

def State.hall64 (s : State) (o : Nat) : Option Nat :=
  match o with
  | 0x18 => some s.mem.hallUeLpa.toNat
  | 0x20 => some (s.bankIncs 0)
  | 0x28 => some (s.bankIncs 8)
  | _ => none

def State.hall32 (s : State) (o : Nat) : Option Nat := if o = 0x10 then some s.mem.hallUeCnt.toNat else s.ce32 1 o

/-- TILE_MAP of a logical tile; entries beyond the grade's tiles read zero (R928). -/
def State.tileWord (s : State) (t : Nat) : Nat :=
  let x := s.tile t
  if s.fuses.grade.tiles ≤ t then 0
  else x.phys.toNat + 2 ^ 8 * x.inc.toNat + 2 ^ 16 * s.tileState t + 2 ^ 19 * b2n x.lost + 2 ^ 20 * x.beats.toNat

def State.tile64 (s : State) (o : Nat) : Option Nat :=
  match o with
  | 0x10 => some s.fuses.fusedOff.toNat
  | 0x18 => some s.tiles.failed.toNat
  | _ => elem 0x100 8 32 0 o s.tileWord

def State.tile32 (s : State) (o : Nat) : Option Nat :=
  match o with
  | 0x20 => some (s.tiles.spare0.toNat + 2 ^ 8 * s.tiles.spare1.toNat + 2 ^ 16 * s.tiles.inServ.toNat + 2 ^ 18 * s.tiles.failedS.toNat)
  | 0x24 => some s.tiles.lostStands.toNat
  | _ => s.ce32 2 o

def gal64 (g : CfgSet) (o : Nat) : Option Nat :=
  firstOf [elem 0x30000 32 1024 8 o (fun k => (Tbl.get 0 g.barLo k).toNat), elem 0x40000 8 32 0 o (fun k => (Tbl.get 0 g.sgrp k).toNat)]

def State.gal32 (s : State) (g : CfgSet) (o : Nat) : Option Nat :=
  match o with
  | 0x10 => some (min 0xFFFF (s.gal.poisoned.filter (fun e => e.2)).length)
  | 0x14 => some (s.gal.fifo.length + 2 ^ 7 * (s.gal.slots.filter (fun e => e.2.isSome)).length)
  | _ => firstOf [s.ce32 3 o,
      elem 0x10000 4 16384 0 o (fun k => (Tbl.get 0 g.flagOwn k).toNat),
      elem 0x20000 4 4096 0 o (fun k => (Tbl.get 0 g.tallyOwn k).toNat),
      elem 0x30000 32 1024 0 o (fun k => (Tbl.get 0 g.barOwn k).toNat),
      elem 0x30000 32 1024 16 o (fun k => (Tbl.get 0 g.barHi k).toNat)]

/-! ## XLT_, MEM_, FAB_ (Tables 22-8 to 22-10) -/

/-- The host slot at 32k: instance and slot. -/
def xlt64 (s : State) (g : CfgSet) (o : Nat) : Option Nat :=
  match o with
  | 0x100 => some s.xlt.cset.toNat
  | 0x108 => some s.xlt.base.toNat
  | _ => firstOf [elem 0x1000 8 64 0 o (fun i => (Tbl.get 0 g.xltRoot i).toNat), elem 0x2000 32 512 8 o (fun k => (Tbl.get 0 g.slotBase k).toNat)]

def xlt32 (s : State) (g : CfgSet) (o : Nat) : Option Nat :=
  match o with
  | 0x08 => some s.xlt.misses.toNat
  | 0x0C => some s.xlt.cache.length
  | 0x110 => some s.xlt.len.toNat
  | 0x118 => some (s.xlt.inst.toNat + 2 ^ 6 * b2n s.xlt.all + 2 ^ 9 * b2n s.xlt.busy + 2 ^ 10 * s.xlt.result.toNat + 2 ^ 16 * s.xlt.gen.toNat)
  | _ => firstOf [elem 0x2000 32 512 0 o (fun k => (Tbl.get 0 g.slotCtl k).toNat), elem 0x2000 32 512 16 o (fun k => (Tbl.get 0 g.slotLimit k).toNat)]

def State.mem32 (s : State) (o : Nat) : Option Nat :=
  match o with
  | 0x10 => some s.mem.memUeCnt.toNat
  | 0x20 => some s.mem.scrub.toNat
  | 0x24 => some s.mem.scrubPos.toNat
  | 0x28 => some (s.mem.trained.toNat + 2 ^ 8 * s.mem.trainTemp.toNat + 2 ^ 16 * s.mem.retrains.toNat)
  | 0x2C => some (b2n s.mem.selfRef + 2 ^ 8 * s.parts.memcInc.toNat + 2 ^ 16 * s.mem.refresh.toNat)
  | _ => s.ce32 0 o

def PortState.code : PortState → Nat
  | .down => 0 | .training => 1 | .incompatible => 2 | .held => 3 | .active => 4 | .fenced => 5 | .parked => 6

/-- FAB_PORT. -/
def Port.word (p : Port) : Nat :=
  p.st.code + 2 ^ 3 * p.mismatch.toNat + 2 ^ 6 * p.preset.toNat + 2 ^ 16 * p.inc.toNat + 2 ^ 24 * p.partnerPort.toNat + 2 ^ 32 * p.partnerChip.toNat
    + 2 ^ 48 * p.resends.toNat

/-- On grade S every FAB_ register reads its reset value (01 R33): the set and the fabric unit as at reset. -/
def State.fabView (s : State) (g : CfgSet) : Fabric × CfgSet := if s.fuses.grade = Grade.S then (Fabric.reset, CfgSet.reset) else (s.fab, g)

def State.fab64 (s : State) (g : CfgSet) (o : Nat) : Option Nat :=
  let v := s.fabView g
  firstOf [elem 0x100 8 24 0 o (fun p => (Tbl.get Port.reset v.1.ports p).word),
           elem 0x10000 8 256 0 o (fun k => (Tbl.get 0 v.2.grp k).toNat), elem 0x10800 8 256 0 o (fun k => (Tbl.get 0 v.2.mbr k).toNat)]

def State.fab32 (s : State) (g : CfgSet) (o : Nat) : Option Nat :=
  let v := s.fabView g
  match o with
  | 0x08 => some v.1.replayCnt.toNat
  | 0x0C => some v.1.replayThr.toNat
  | 0x10 => some v.1.pcrcCnt.toNat
  | 0x14 => some v.1.pcrcThr.toNat
  | 0x18 => some v.1.dropCnt.toNat
  | 0x1C => some (v.1.trackers.length + 2 ^ 12 * v.1.windows.length)
  | 0x20 => some v.2.limits.toNat
  | _ => elem 0x11000 4 4096 0 o (fun k => (Tbl.get 0 v.2.mc k).toNat)

/-! ## SAFE_, SEC_ (Tables 22-11, 22-12) -/

def State.safe64 (s : State) (o : Nat) : Option Nat :=
  match o with
  | 0x28 => some s.safe.dva.toNat
  | 0x30 => some s.safe.lpa.toNat
  | 0x40 => some (fld s.safest.last.toNat 0 64)
  | 0x48 => some (fld s.safest.last.toNat 64 64)
  | _ => none

/-- SAFE_STATUS (R937). -/
def State.safeStatus (s : State) : Nat :=
  s.safe.status.toNat + 2 ^ 5 * s.safe.reason.toNat + 2 ^ 8 * b2n s.safe.armed + 2 ^ 9 * b2n s.safeNHigh + 2 ^ 10 * b2n (s.safe.probe != .idle)

def State.safe32 (s : State) (o : Nat) : Option Nat :=
  match o with
  | 0x08 => some (b2n s.safe.mode + 8 * b2n s.safe.autoRestart + 32 * s.safe.restartLimit.toNat)
  | 0x0C => some s.safe.crit.toNat
  | 0x10 => some s.safe.pStands.toNat
  | 0x14 => some s.safe.pPeriod.toNat
  | 0x18 => some s.safe.pInst.toNat
  | 0x1C => some s.safe.holdMs.toNat
  | 0x20 => some s.safe.trig.toNat
  | 0x24 => some s.safe.done.toNat
  | 0x38 => some s.safeStatus
  | 0x50 => some s.safest.inject.toNat
  | 0x54 => some s.safe.pCount.toNat
  | _ => none

/-- A nonce register as it stands; its first 8 bytes draw a new nonce when read. -/
def nonceWord (n : Option (List Byte)) (k : Nat) : Nat := leAt (n.getD []) (8 * k) 8

def State.sec64 (s : State) (o : Nat) : Option Nat :=
  firstOf [
    (match slotAt 0x100 64 8 o with | some (n, q) => if q < 48 then some (leAt (padTo 48 (Tbl.get (zeros 48) s.sec.mrs n)) (q / 8 * 8) 8) else none | none => none),
    elem 0x1000 8 6 0 o (nonceWord s.sec.coNonce),
    elem 0x1040 8 25 0 o (fun _ => 0)]

def State.sec32 (s : State) (o : Nat) : Option Nat :=
  match o with
  | 0x08 => some ((s.sec.debug).code + 4 * b2n s.fuses.eval + 8 * b2n s.sec.zeroized + 16 * b2n s.sec.fuseRefused + 32 * b2n (decide (8 ≤ s.sec.refusals.toNat))
      + 256 * s.sec.refusals.toNat + 2 ^ 12 * b2n s.evaluated)
  | 0x0C => some s.sec.carve.toNat
  | 0x10 => some s.hold.units.toNat
  | 0x18 => some (ofLe ((List.range 4).map (fun t => Tbl.get 0 s.fuses.svnMin (t + 1))))
  | 0x1140 => some (4 * s.sec.coRes.toNat)
  | _ => none

/-! ## PWR_, CLK_, DBG_, PCI_ (Tables 22-13, 22-14) -/

/-- The logical tile on a physical tile that serves. -/
def State.tileOn (s : State) (phys : Nat) : Option Nat := (s.tiles.map.find? (fun e => e.2.phys.toNat == phys && !e.2.lost)).map (·.1)

/-- State of a unit in PWR_UNIT_STATE (20 Table 20-1). Gating by the cycle, which the model's commands do not show, reads as RUN for the
Hall banks, the CFE and the Gallery; so does the fabric unit, to which the table gives no states, on grade S too, where it is power-gated (01 R33; log 94,
DESIGN CHOICE). A stand is GATED while no operation holds it. -/
def State.unitState (s : State) (u : Nat) : Nat :=
  if u = unitMemc then (if s.mem.selfRef then 4 else 0)
  else if isPort u then (if (s.port (u - 26)).st = .parked then 5 else 0)
  else if u = unitEndpoint then (if (s.fc 0).d3hot then 6 else 0)
  else if isStand u then
    (if (s.punit u).retention then 2 else if Tbl.get 0 s.stands (u - 17) = 0 then 1 else 0)
  else if 64 ≤ u then
    match s.tileOn (u - 64) with
    | none => 3
    | some t => if (s.punit u).retention then 2 else if s.tileGated t then 1 else 0
  else 0

/-- PWR_UNIT_STATE. -/
def State.unitWord (s : State) (u : Nat) : Nat :=
  let x := s.punit u
  x.status.toNat + 4 * x.req.toNat + 2 ^ 8 * s.unitState u + 2 ^ 12 * (16 - x.cut.toNat)

/-- A unit exists and can be observed (R943). -/
def unitSeen (u : Nat) : Bool := decide (u ≤ 52) || decide (64 ≤ u ∧ u ≤ 97)

/-- A residency counter: µs, saturating (R872). -/
def State.residency (s : State) (u k : Nat) : Nat :=
  let r := Tbl.get Residency.reset s.pwr.resid u
  min 0xFFFFFFFF ((match k with | 0 => r.run | 1 => r.low | 2 => r.slow | _ => r.wait) / 1000)

def State.pwr32 (s : State) (o : Nat) : Option Nat :=
  match o with
  | 0x08 => some s.pwr.limit.toNat
  | 0x0C => some s.pwr.tlimit.toNat
  | 0x10 => some 0
  | 0x14 => some (s.pwr.hibStatus.toNat + 4 * b2n (s.boot.state == .hibernate))
  | 0x18 => some s.pwr.average
  | 0x1C => some s.pwr.wakeCnt.toNat
  | 0x20 => some (b2n (s.pwr.units.any (fun e => e.2.throttling)) + 2 * b2n s.pwr.junction + 4 * b2n s.pwr.powerThr)
  | _ => firstOf [
      (match slotAt 0x1000 8 98 o with | some (u, q) => if q = 0 && unitSeen u then some (s.unitWord u) else none | none => none),
      (match slotAt 0x2000 16 98 o with | some (u, q) => if q % 4 = 0 && unitSeen u then some (s.residency u (q / 4)) else none | none => none),
      elem 0x3000 4 44 0 o (fun k => (Tbl.get 0 s.pwr.sensors k).toNat)]

def State.clk64 (s : State) (o : Nat) : Option Nat :=
  match o with
  | 0x10 => some s.clk.time.toNat
  | 0x18 => some s.clk.tsyncVal.toNat
  | 0x20 => some s.clk.tsyncStep.toNat
  | _ => none

def State.clk32 (s : State) (o : Nat) : Option Nat :=
  match o with
  | 0x08 => some s.clk.cclkMax.toNat
  | 0x0C => some s.clk.cclk.toNat
  | 0x28 => some s.clk.mon.toNat
  | _ => none

def State.dbg64 (s : State) (o : Nat) : Option Nat := firstOf [elem 0x08 8 6 0 o (nonceWord s.sec.dbgNonce), elem 0x40 8 25 0 o (fun _ => 0)]

def State.pci32 (s : State) (o : Nat) : Option Nat :=
  if o = 0x08 then
    some (s.pcie.rate.toNat + 2 ^ 4 * s.pcie.width.toNat + 2 ^ 7 * b2n s.pcie.reversed + 2 ^ 8 * b2n s.pcie.tags10 + 2 ^ 9 * b2n s.pcie.l1)
  else elem 0x100 4 64 0 o (fun f => (s.fc f).vecs.toNat + 2 ^ 16 * (s.fc f).vecBase.toNat)

/-! ## The window -/

/-- The error-status register of a block (Table 22-3). -/
def State.errWord (s : State) (b : Nat) : Nat :=
  let e := Tbl.get BlkErr.reset s.blkErr b
  e.bits.toNat + 2 ^ 16 * e.count.toNat

/-- The 8-byte register at an offset of a block. -/
def State.reg64 (s : State) (g : CfgSet) (b o : Nat) : Option Nat :=
  match b with
  | 0 => s.fe64 g o
  | 1 => s.mbx64 o
  | 2 => s.hall64 o
  | 3 => s.tile64 o
  | 4 => gal64 g o
  | 5 => xlt64 s g o
  | 6 => if o = 0x18 then some s.mem.memUeLpa.toNat else none
  | 7 => s.fab64 g o
  | 8 => s.safe64 o
  | 9 => s.sec64 o
  | 11 => s.clk64 o
  | 12 => s.dbg64 o
  | _ => none

/-- The 4-byte register at an offset of a block. -/
def State.reg32 (s : State) (g : CfgSet) (b o : Nat) : Option Nat :=
  if o = 0 && b < 14 then some (if b = blkFab && s.fuses.grade = Grade.S then 0 else s.errWord b)
  else match b with
  | 0 => s.fe32 g o
  | 1 => s.mbx32 o
  | 2 => s.hall32 o
  | 3 => s.tile32 o
  | 4 => s.gal32 g o
  | 5 => xlt32 s g o
  | 6 => s.mem32 o
  | 7 => s.fab32 g o
  | 8 => s.safe32 o
  | 9 => s.sec32 o
  | 10 => s.pwr32 o
  | 11 => s.clk32 o
  | 12 => if o = 0x140 then some (4 * s.sec.dbgRes.toNat + 16 * (s.sec.debug).code) else none
  | 13 => s.pci32 o
  | _ => none

/-- A shadow-set register lies at the offset (mark H). -/
def isShadow (b o : Nat) : Bool :=
  match b with
  | 0 => decide (0x100 ≤ o ∧ o < 0x118)
  | 4 => decide (0x10000 ≤ o ∧ o < 0x48000)
  | 5 => decide (0x1000 ≤ o ∧ o < 0x6000)
  | 7 => decide (0x20 ≤ o ∧ o < 0x24) || decide (0x10000 ≤ o ∧ o < 0x15000)
  | _ => false

/-- Block, offset in it, and the set an offset of the window is read from: the active copy at the listed offset plus 0x8_0000. -/
def State.regAt (s : State) (off : Nat) : Nat × Nat × CfgSet :=
  let b := off / 0x100000
  let o := off % 0x100000
  if decide (0x80000 ≤ o) && isShadow b (o - 0x80000) then (b, o - 0x80000, s.act) else (b, o, s.shd)

/-- One 4-byte word of the window: a 4-byte register, half of an 8-byte one, or zero where it is reserved (R909, R910). -/
def State.word32 (s : State) (off : Nat) : Nat :=
  let r := s.regAt off
  match s.reg64 r.2.2 r.1 (r.2.1 / 8 * 8) with
  | some v => if r.2.1 % 8 = 0 then v % 2 ^ 32 else v / 2 ^ 32 % 2 ^ 32
  | none => (s.reg32 r.2.2 r.1 r.2.1).getD 0

/-- The value a read returns. -/
def State.peekReg (s : State) (off : Nat) (wide : Bool) : Nat :=
  if wide then s.word32 off + 2 ^ 32 * s.word32 (off + 4) else s.word32 off

/-- The read takes in the first 8 bytes of a nonce register. -/
def drawsNonce (off : Nat) : Option Bool :=
  if off / 8 * 8 = 0x901000 then some true else if off / 8 * 8 = 0xC00008 then some false else none

/-- A read of the MGMT window of 4 bytes, or 8 where `wide`. -/
def State.mgmtRead (s : State) (off : Nat) (wide : Bool) : Nat × State :=
  match drawsNonce off with
  | some co =>
    if !s.secServes then (s.peekReg off wide, s)
    else
      let r := s.drawBytes 48
      let s1 := if co then { r.2 with sec := { r.2.sec with coNonce := some r.1 } } else { r.2 with sec := { r.2.sec with dbgNonce := some r.1 } }
      (s1.peekReg off wide, s1)
  | none => (s.peekReg off wide, s)

end Sys2Proof.Machine
end

