-- ==== Sys2Proof/Machine/Mailbox.lean ====
section
/-! DEFINITION. The mailboxes of functions and manager, and the response queue (15 R655, R672 to R676, 22 Table 22-5, 23 R965, R966). -/

namespace Sys2Proof.Machine

/-! ## Indices (05 R250, 15 R673) -/

/-- What a write of an absolute index does. -/
inductive IndexTake where
  | stale | overrun | taken
  deriving DecidableEq, Repr

/-- A producer index of a queue of `n` slots. -/
def produceIndex (v pi ci : Word32) (n : Nat) : IndexTake :=
  let d := (v - pi).toNat
  if d = 0 ∨ 2 ^ 31 ≤ d then .stale else if n < (v - ci).toNat then .overrun else .taken

/-- A consumer index: at most the producer's. -/
def consumeIndex (v pi ci : Word32) : IndexTake :=
  let d := (v - ci).toNat
  if d = 0 ∨ 2 ^ 31 ≤ d then .stale else if (pi - ci).toNat < d then .overrun else .taken

/-- A slot of a queue of `n` holds a message made visible and not yet consumed (22 R927, 23 R966). -/
def slotHeld (pi ci : Word32) (n k : Nat) : Bool := decide ((k + n - ci.toNat % n) % n < (pi - ci).toNat)

/-- A queue of `n` goes from full to not full as its consumer index moves to `v`. -/
def leavesFull (v pi ci : Word32) (n : Nat) : Bool := decide ((pi - ci).toNat = n ∧ (pi - v).toNat < n)

/-- A cause fires `k` times, once for each message. -/
def State.causes (s : State) (fn c : Nat) : Nat → State
  | 0 => s
  | k + 1 => (s.cause fn c).causes fn c k

/-! ## The function's side -/

/-- Byte 2 of an OUT message as it becomes visible: INST the function's, KIND REQUEST where it was 2 (R674). -/
def outHead (fn : Nat) (b : Byte) : Byte := BitVec.ofNat 8 ((if fld b.toNat 0 2 = 2 then 0 else fld b.toNat 0 2) + 4 * fn)

/-- The OUT messages from index `i` on, `k` of them, become visible. -/
def showOut (fn : Nat) (t : Tbl Byte) (i : Nat) : Nat → Tbl Byte
  | 0 => t
  | k + 1 => showOut fn (Tbl.upd 0 t (64 * (i % 4) + 2) (outHead fn)) (i + 1) k

/-- INST_MBX_OUT_PI. -/
def State.outDoorbell (s : State) (fn : Nat) (v : Word32) : State :=
  let f := s.fn fn
  match produceIndex v f.outPi f.outCi 4 with
  | .stale => s
  | .overrun => s.fnError fn esDbOverrun
  | .taken =>
    let k := (v - f.outPi).toNat
    (s.updFn fn (fun f => { f with outPi := v, mbx := showOut fn f.mbx f.outPi.toNat k })).causes 0 causeMbxIn k

/-- INST_MBX_IN_CONS. -/
def State.inConsume (s : State) (fn : Nat) (v : Word32) : State :=
  let f := s.fn fn
  match consumeIndex v f.inPi f.inCons with
  | .stale => s
  | .overrun => s.fnError fn esDbOverrun
  | .taken =>
    let s1 := s.updFn fn (fun f => { f with inCons := v })
    if leavesFull v f.inPi f.inCons 4 then s1.cause 0 causeMbxSpace else s1

/-- A function's mailbox registers act: it is a virtual function on the active front end; elsewhere a write is discarded with BAD_ACCESS
(R676), and function 0 has none. -/
def State.mailboxWrite (s : State) (fn : Nat) (f : State → State) : State :=
  s.hostWrite fn true (fun s => if s.isFe && fn ≠ 0 then f s else s.fnError fn esBadAccess)

/-- MBX_OUT_DOORBELL. -/
def execMbxOutDoorbell (fn : Nat) (value : Word32) (s : State) : Host.Outcome State Fault Refusal :=
  .next (s.mailboxWrite fn (fun s => s.outDoorbell fn value))

/-- MBX_IN_CONSUME. -/
def execMbxInConsume (fn : Nat) (value : Word32) (s : State) : Host.Outcome State Fault Refusal :=
  .next (s.mailboxWrite fn (fun s => s.inConsume fn value))

/-! ## The manager's side -/

/-- The manager's side of a function's mailbox acts on the active front end alone (R676). -/
def State.vfMailbox (s : State) (f : State → State) : State := if s.isFe then f s else s.fnError 0 esBadAccess

/-- The producer index of MBX_VF_IN_IDX. -/
def State.vfInProduce (s : State) (fn : Nat) (v : Word32) : State :=
  let f := s.fn fn
  match produceIndex v f.inPi f.inCons 4 with
  | .stale => s
  | .overrun => s.fnError 0 esDbOverrun
  | .taken => (s.updFn fn (fun f => { f with inPi := v })).causes fn causeMbxIn (v - f.inPi).toNat

/-- The consumer index of MBX_VF_OUT_IDX. -/
def State.vfOutConsume (s : State) (fn : Nat) (v : Word32) : State :=
  let f := s.fn fn
  match consumeIndex v f.outPi f.outCi with
  | .stale => s
  | .overrun => s.fnError 0 esDbOverrun
  | .taken =>
    let s1 := s.updFn fn (fun f => { f with outCi := v })
    if leavesFull v f.outPi f.outCi 4 then s1.cause fn causeMbxSpace else s1

/-- MBX_RSP_CONS: responses that waited for a slot take it. -/
def State.rspConsume (s : State) (v : Word32) : State :=
  match consumeIndex v s.mgr.rspPi s.mgr.rspCons with
  | .stale => s
  | .overrun => s.fnError 0 esDbOverrun
  | .taken =>
    let s1 := { s with mgr := { s.mgr with rspCons := v } }
    s1.flushRsp s1.mgr.rspWait.length

/-- A function that has a mailbox. -/
def mailFn (fn : Nat) : Bool := decide (1 ≤ fn ∧ fn ≤ 63)

/-- The MGMT window takes the manager's writes: READY or HIBERNATE, function 0 reachable. -/
def State.mgmtTakes (s : State) : Bool := s.gate 0 == .open_ && (s.boot.state == .ready || s.boot.state == .hibernate)

/-- MBX_VF_IN_PRODUCE. -/
def execMbxVfInProduce (fn : Nat) (value : Word32) (s : State) : Host.Outcome State Fault Refusal :=
  .next (if s.mgmtTakes && mailFn fn then s.vfMailbox (fun s => s.vfInProduce fn value) else s)

/-- MBX_VF_OUT_CONSUME. -/
def execMbxVfOutConsume (fn : Nat) (value : Word32) (s : State) : Host.Outcome State Fault Refusal :=
  .next (if s.mgmtTakes && mailFn fn then s.vfMailbox (fun s => s.vfOutConsume fn value) else s)

/-- MBX_RSP_CONSUME: part of the command mailbox, so taken from the end of IMAGES on (19 R849). -/
def execMbxRspConsume (value : Word32) (s : State) : Host.Outcome State Fault Refusal :=
  .next (if s.gate 0 = .open_ && s.boot.served && s.boot.state ≠ .failed then s.rspConsume value else s)

end Sys2Proof.Machine
end

