-- ==== Sys2Proof/Machine/RegWrite.lean ====
section
/-! DEFINITION. Writes of the MGMT window (22): by the manager, by the root through MGMT packets, by a remote access on the manager's behalf. `put64`
and `put32` take a whole register; the writer is an agent of 15 R677 and whether it acts on the manager's behalf. -/

namespace Sys2Proof.Machine

/-! ## Marks (R911) -/

/-- A C-marked register lies at the offset. -/
def isCommandOnly (b o : Nat) : Bool :=
  match b with
  | 4 => decide (0x10000 ≤ o ∧ o < 0x24000) || (decide (0x30000 ≤ o ∧ o < 0x38000) && o % 32 < 4) || decide (0x40000 ≤ o ∧ o < 0x40100)
  | 5 => decide (0x1000 ≤ o ∧ o < 0x6000)
  | 7 => decide (0x10000 ≤ o ∧ o < 0x11004)
  | _ => false

/-- A writer that carries out a command or a formation, or is the Security Controller. -/
def mayCommand (agent : BitVec 3) (behalf : Bool) : Bool := !(agent == 1 || behalf)

/-- The root writes the routing tables it computes without a lock (02 R131). -/
def tableWrite (agent : BitVec 3) (behalf : Bool) (b o : Nat) : Bool := agent == 3 && !behalf && b == blkFab && decide (0x10000 ≤ o ∧ o < 0x11004)

/-- A write of a shadow-set register: C mark, then the sequence lock (15 R679). -/
def State.shadowWrite (s : State) (agent : BitVec 3) (behalf : Bool) (b o : Nat) (f : CfgSet → CfgSet) : State :=
  if isCommandOnly b o && !mayCommand agent behalf then s.blkError b beCommandOnly
  else if s.holds agent behalf || tableWrite agent behalf b o then { s with shd := f s.shd }
  else s.blkError blkFe beUnlocked

/-- As `shadowWrite`, refusing a reserved encoding; the other fields of the write take effect by `f` (00 R17). -/
def State.shadowField (s : State) (agent : BitVec 3) (behalf : Bool) (b o : Nat) (ok : Bool) (f : CfgSet → CfgSet) : State :=
  if ok then s.shadowWrite agent behalf b o f
  else
    let s1 := s.shadowWrite agent behalf b o f
    if s.holds agent behalf then s1.blkError b beReserved else s1

/-- A field written with a value that is not reserved, or a reserved encoding recorded in the block. -/
def State.orReserved (s : State) (b : Nat) (ok : Bool) (f : State → State) : State := if ok then f s else s.blkError b beReserved

/-! ## Error status and counters (R912, R913) -/

/-- W1C of a block error-status register; COUNT clears with any bit. -/
def State.errClear (s : State) (b : Nat) (v : Word32) : State :=
  let e := Tbl.get BlkErr.reset s.blkErr b
  let left := e.bits &&& ~~~(v.setWidth 7)
  let new : BlkErr := { bits := left, count := if left = e.bits then e.count else 0 }
  { s with blkErr := Tbl.set BlkErr.reset s.blkErr b new }

/-- Counter number of a block with one, of MEM, HALL, TILE, GAL. -/
def ceOfBlock (b : Nat) : Option Nat := match b with | 6 => some 0 | 2 => some 1 | 3 => some 2 | 4 => some 3 | _ => none

/-- A counter or threshold of blocks MEM, HALL, TILE, GAL. -/
def State.cePut (s : State) (b n o : Nat) (v : Word32) : State :=
  if o = 0x0C then { s with mem := { s.mem with ceThr := Tbl.set 0 s.mem.ceThr n v } }
  else s.orReserved b (v == 0) (fun s => { s with mem := { s.mem with ceCnt := Tbl.set 0 s.mem.ceCnt n 0 } })

/-! ## FE_ -/

/-- The dirty log's registers are locked while it is on (R917). -/
def State.dlogBusy (s : State) : Bool := s.dlog.size != 0 || s.insts.any (fun e => e.2.dlog)

/-- A SIZE of the event ring or dirty log. -/
def ringSizeOk (v hi : Nat) : Bool := v == 0 || decide (4 ≤ v ∧ v ≤ hi)

/-- Bits of an OREF register that hold an index. -/
def orefMask (v : Word32) : Word32 := v &&& 0x3FFF0000

/-- A tally index that names a tally (06 R316). -/
def tallyOk (v : Word32) : Bool := decide (fld v.toNat 16 14 < 4096)

/-- The field of a register that holds a tally index: a reserved index keeps the field (00 R17). -/
def tallyPut (old v : Word32) : Word32 := if tallyOk v then orefMask v else old

/-- A write to FE_RMT_ while BUSY (R921), else `f`. -/
def State.rmtWrite_ (s : State) (f : Mgr → Mgr) : State :=
  if s.mgr.rmtBusy then s.blkError blkFe beBusy else { s with mgr := f s.mgr }

/-- A GPIO register keeps the bits of GPIOs that have a function (R918). -/
def State.gpioPut (s : State) (old : BitVec 8) (v : Word32) : BitVec 8 := (old &&& s.pins.gpioFunc) ||| (v.setWidth 8 &&& ~~~s.pins.gpioFunc)

def State.fePut64 (s : State) (agent : BitVec 3) (behalf : Bool) (o : Nat) (v : Word64) : State :=
  match o with
  | 0x100 => s.shadowWrite agent behalf blkFe o (fun g => { g with evqBase := v &&& 0xFFFFFFFFF000 })
  | 0x200 => if s.dlogBusy then s.blkError blkFe beBusy else { s with dlog := { s.dlog with base := v &&& 0xFFFFFFFFF000 } }
  | 0x408 => s.rmtWrite_ (fun m => { m with rmtData := v })
  | _ => s

def State.fePut32 (s : State) (agent : BitVec 3) (behalf : Bool) (o : Nat) (v : Word32) : State :=
  match o with
  | 0x48 => s.orReserved blkFe (fld v.toNat 0 2 != 0) (fun s => s.lockOp agent behalf (fld v.toNat 0 2))
  | 0x108 =>
    let n := fld v.toNat 0 5
    s.shadowField agent behalf blkFe o (ringSizeOk n 16) (fun g => if ringSizeOk n 16 then { g with evqSize := BitVec.ofNat 5 n } else g)
  | 0x10C => s.shadowWrite agent behalf blkFe o (fun g => { g with evqThresh := v.setWidth 17 })
  | 0x110 => s.shadowField agent behalf blkFe o (tallyOk v) (fun g => { g with evqCons := tallyPut g.evqCons v })
  | 0x114 => s.shadowField agent behalf blkFe o (tallyOk v) (fun g => { g with evqNotify := tallyPut g.evqNotify v })
  | 0x208 =>
    let n := fld v.toNat 0 5
    if s.dlogBusy then s.blkError blkFe beBusy
    else s.orReserved blkFe (ringSizeOk n 20) (fun s =>
      { s with dlog := { s.dlog with size := BitVec.ofNat 5 n, prod := if n = 0 then s.dlog.prod else s.tallyOfReg s.dlog.cons } })
  | 0x20C =>
    if s.dlogBusy then s.blkError blkFe beBusy
    else s.orReserved blkFe (tallyOk v) (fun s => { s with dlog := { s.dlog with cons := orefMask v } })
  | 0x300 => { s with pins := { s.pins with gpioDir := s.gpioPut s.pins.gpioDir v } }
  | 0x304 => { s with pins := { s.pins with gpioOut := s.gpioPut s.pins.gpioOut v } }
  | 0x400 => s.rmtWrite_ (fun m => { m with rmtChip := v.setWidth 16 })
  | 0x404 => s.rmtWrite_ (fun m => { m with rmtOff := v.setWidth 24 })
  | 0x410 => s.rmtWrite_ (fun m => { m with rmtWrite := v.getLsbD 1, rmtWide := v.getLsbD 2 })
  | _ => s

/-! ## MBX_ (R926, R927) -/

def State.mbxPut64 (s : State) (o : Nat) (v : Word64) : State :=
  match slotAt 0x100 8 64 o, slotAt 0x20100 256 63 o, slotAt 0x30010 16 63 o with
  | some (k, _), _, _ =>
    if slotHeld s.mgr.cmdPi s.mgr.cmdCi 8 (k / 8) then s.blkError blkMbx beBusy
    else { s with mgr := { s.mgr with cmd := putTbl s.mgr.cmd (8 * k) (toLe 8 v.toNat) } }
  | _, some (n, q), _ =>
    s.vfMailbox (fun s =>
      if slotHeld (s.fn (n + 1)).inPi (s.fn (n + 1)).inCons 4 (q / 64) then s.blkError blkMbx beBusy
      else s.updFn (n + 1) (fun f => { f with mbx := putTbl f.mbx (256 + q) (toLe 8 v.toNat) }))
  | _, _, some (n, q) =>
    s.vfMailbox (fun s => if q = 0 then s.vfOutConsume (n + 1) (v.extractLsb' 32 32) else s.vfInProduce (n + 1) (v.setWidth 32))
  | _, _, _ => s

def State.mbxPut32 (s : State) (o : Nat) (v : Word32) : State :=
  match o with
  | 0x300 => s.commandDb v
  | 0x804 => s.rspConsume v
  | _ => s

/-! ## GAL_, XLT_, MEM_, FAB_ -/

/-- An OREF that names no barrier: a reserved chip ID or index (06 R315, R316). -/
def barOrefBad (w : Nat) : Bool := fld w 0 16 == 0xFFFF || decide (1024 ≤ fld w 16 14)

/-- The fields of BAR_CFG_LO that a value gives: PCOUNT, PARENT and the chip of ROOT, each kept where the value is reserved (08 R428,
00 R17); reserved bits are dropped. -/
def barLoPut (g : CfgSet) (k : Nat) (v : Word64) : CfgSet :=
  let n := v.toNat
  let old := (Tbl.get 0 g.barLo k).toNat
  let count := if fld n 0 16 = 0 then fld old 0 16 else fld n 0 16
  let parent := if barOrefBad (fld n 16 32) then fld old 16 30 else fld n 16 30
  let root := if fld n 48 16 = 0xFFFF then fld old 48 16 else fld n 48 16
  { g with barLo := Tbl.set 0 g.barLo k (BitVec.ofNat 64 (count + 2 ^ 16 * parent + 2 ^ 48 * root)) }

/-- A value of BAR_CFG_LO without a reserved encoding; `lo`: its lower half is written. -/
def barLoOk (v : Word64) (lo : Bool) : Bool :=
  !(lo && fld v.toNat 0 16 == 0) && !barOrefBad (fld v.toNat 16 32) && fld v.toNat 48 16 != 0xFFFF

/-- BAR_CFG_HI: the index of ROOT, kept where it names no barrier, MCID and MCV. -/
def barHiPut (g : CfgSet) (k : Nat) (v : Word32) : CfgSet :=
  let idx := if fld v.toNat 0 14 < 1024 then fld v.toNat 0 14 else fld (Tbl.get 0 g.barHi k).toNat 0 14
  { g with barHi := Tbl.set 0 g.barHi k (BitVec.ofNat 29 (idx + 2 ^ 16 * fld v.toNat 16 13)) }

def State.galPut64 (s : State) (agent : BitVec 3) (behalf lo : Bool) (o : Nat) (v : Word64) : State :=
  match slotAt 0x30000 32 1024 o, slotAt 0x40000 8 32 o with
  | some (k, _), _ => s.shadowField agent behalf blkGal o (barLoOk v lo) (fun g => barLoPut g k v)
  | _, some (k, _) => s.shadowWrite agent behalf blkGal o (fun g => { g with sgrp := Tbl.set 0 g.sgrp k v })
  | _, _ => s

def State.galPut32 (s : State) (agent : BitVec 3) (behalf : Bool) (o : Nat) (v : Word32) : State :=
  match slotAt 0x10000 4 16384 o, slotAt 0x20000 4 4096 o, slotAt 0x30000 32 1024 o with
  | some (k, _), _, _ => s.shadowWrite agent behalf blkGal o (fun g => { g with flagOwn := Tbl.set 0 g.flagOwn k (v.setWidth 12) })
  | _, some (k, _), _ => s.shadowWrite agent behalf blkGal o (fun g => { g with tallyOwn := Tbl.set 0 g.tallyOwn k (v.setWidth 12) })
  | _, _, some (k, q) =>
    if q = 0 then s.shadowWrite agent behalf blkGal o (fun g => { g with barOwn := Tbl.set 0 g.barOwn k (v.setWidth 12) })
    else s.shadowField agent behalf blkGal o (decide (fld v.toNat 0 14 < 1024)) (fun g => barHiPut g k v)
  | _, _, _ => s

/-- A write to the registers of an invalidation while it runs (R933), else `f`. -/
def State.invalPut (s : State) (f : Xlt → Xlt) : State := if s.xlt.busy then s.blkError blkXlt beBusy else { s with xlt := f s.xlt }

/-- XLT_INVAL_CSET: FORM keeps its value where it is not RECT, FIRST and LAST are set, reserved bits dropped (06 Table 6-2, 15 R659). -/
def csetPut (old v : Word64) : Word64 :=
  BitVec.ofNat 64 ((if fld v.toNat 0 4 = 1 then 1 else fld old.toNat 0 4) + 2 ^ 16 * fld v.toNat 16 32)

/-- A write of XLT_INVAL_CSET; `lo`: FORM is among what is written. -/
def State.invalCset (s : State) (lo : Bool) (v : Word64) : State :=
  let s1 := s.invalPut (fun x => { x with cset := csetPut x.cset v })
  if lo && fld v.toNat 0 4 != 1 && !s.xlt.busy then s1.blkError blkXlt beReserved else s1

def State.xltPut64 (s : State) (agent : BitVec 3) (behalf lo : Bool) (o : Nat) (v : Word64) : State :=
  match o with
  | 0x100 => s.invalCset lo v
  | 0x108 => s.invalPut (fun x => { x with base := v &&& 0xFFFFFFFF0000 })
  | _ =>
    match slotAt 0x1000 8 64 o, slotAt 0x2000 32 512 o with
    | some (i, _), _ => s.shadowWrite agent behalf blkXlt o (fun g => { g with xltRoot := Tbl.set 0 g.xltRoot i (v &&& 0xFFFFFFFFF001) })
    | _, some (k, _) => s.shadowWrite agent behalf blkXlt o (fun g => { g with slotBase := Tbl.set 0 g.slotBase k (v &&& 0xFFFFFFFFFFFF0000) })
    | _, _ => s

def State.xltPut32 (s : State) (agent : BitVec 3) (behalf : Bool) (o : Nat) (v : Word32) : State :=
  match o with
  | 0x110 => s.invalPut (fun x => { x with len := v })
  | 0x118 => s.invalCtl (v.setWidth 64)
  | _ =>
    match slotAt 0x2000 32 512 o with
    | some (k, q) =>
      if q = 0 then s.shadowWrite agent behalf blkXlt o (fun g => { g with slotCtl := Tbl.set 0 g.slotCtl k (v &&& 0xFFFF0007) })
      else s.shadowWrite agent behalf blkXlt o (fun g => { g with slotLimit := Tbl.set 0 g.slotLimit k v })
    | none => s

def State.memPut32 (s : State) (o : Nat) (v : Word32) : State :=
  if o = 0x20 then s.orReserved blkMem (decide (fld v.toNat 0 8 ≤ 168)) (fun s => { s with mem := { s.mem with scrub := v.setWidth 8 } }) else s

/-- FAB_LIMITS judged whole (R935). -/
def limitsOk (v : Word32) : Bool :=
  let ack := fld v.toNat 0 16
  let xfer := fld v.toNat 16 16
  decide (2 ≤ ack ∧ ack ≤ 100 ∧ 100 ≤ xfer ∧ xfer ≤ 50000 ∧ xfer < 1000 * ack)

def State.fabPut64 (s : State) (agent : BitVec 3) (behalf : Bool) (o : Nat) (v : Word64) : State :=
  match slotAt 0x10000 8 256 o, slotAt 0x10800 8 256 o with
  | some (k, _), _ => s.shadowWrite agent behalf blkFab o (fun g => { g with grp := Tbl.set 0 g.grp k (v &&& 0x3FFFFFFFFFFFF) })
  | _, some (k, _) => s.shadowWrite agent behalf blkFab o (fun g => { g with mbr := Tbl.set 0 g.mbr k (v &&& 0x2FFFFFFFFFFFF) })
  | _, _ => s

def State.fabPut32 (s : State) (agent : BitVec 3) (behalf : Bool) (o : Nat) (v : Word32) : State :=
  match o with
  | 0x08 => s.orReserved blkFab (v == 0) (fun s => { s with fab := { s.fab with replayCnt := 0 } })
  | 0x0C => { s with fab := { s.fab with replayThr := v } }
  | 0x10 => s.orReserved blkFab (v == 0) (fun s => { s with fab := { s.fab with pcrcCnt := 0 } })
  | 0x14 => { s with fab := { s.fab with pcrcThr := v } }
  | 0x20 => s.shadowField agent behalf blkFab o (limitsOk v) (fun g => if limitsOk v then { g with limits := v } else g)
  | _ =>
    match slotAt 0x11000 4 4096 o with
    | some (k, _) => s.shadowWrite agent behalf blkFab o (fun g => { g with mc := Tbl.set 0 g.mc k (v &&& 0x3FFFFFF) })
    | none => s

/-! ## SAFE_ (R937 to R939, 17 R756) -/

/-- A register that is locked while armed. -/
def State.unarmed (s : State) (f : Safe → Safe) : State := if s.safe.armed then s.blkError blkSafe beSetup else { s with safe := f s.safe }

/-- SAFE_CTL: MODE is setup-only from READY; AUTO_RESTART and RESTART_LIMIT while armed; a write that would leave them as they are is no
attempt on them (log 72). -/
def State.safeCtl (s : State) (v : Word32) : State :=
  let s1 := if v.getLsbD 0 != s.safe.mode then s.blkError blkSafe beSetup else s
  let new := { s1.safe with autoRestart := v.getLsbD 3, restartLimit := v.extractLsb' 5 3 }
  let s2 := if new = s1.safe then s1 else s1.unarmed (fun _ => new)
  let s3 := if v.getLsbD 2 then s2.disarm 0 else if v.getLsbD 1 then s2.arm else s2
  if v.getLsbD 4 then s3.testPulse else s3

def State.safePut64 (s : State) (o : Nat) (v : Word64) : State :=
  match o with
  | 0x28 => s.unarmed (fun x => { x with dva := (v &&& 0xFFFFFFFC0000).setWidth 48 })
  | 0x30 => s.unarmed (fun x => { x with lpa := (v &&& 0xFFFFFFFC0000).setWidth 48 })
  | _ => s

def State.safePut32 (s : State) (o : Nat) (v : Word32) : State :=
  match o with
  | 0x08 => s.safeCtl v
  | 0x0C => s.unarmed (fun x => { x with crit := v.setWidth 16 })
  | 0x10 => s.unarmed (fun x => { x with pStands := v.setWidth 8 })
  | 0x14 =>
    let p := fld v.toNat 0 24
    if s.safe.armed then s.blkError blkSafe beSetup
    else s.orReserved blkSafe (decide (1000 ≤ p ∧ p ≤ 1000000)) (fun s => { s with safe := { s.safe with pPeriod := BitVec.ofNat 24 p } })
  | 0x18 => s.unarmed (fun x => { x with pInst := v.setWidth 6 })
  | 0x1C =>
    let h := fld v.toNat 0 10
    if s.safe.armed then s.blkError blkSafe beSetup
    else s.orReserved blkSafe (decide (h ≤ 1000)) (fun s => { s with safe := { s.safe with holdMs := BitVec.ofNat 10 h } })
  | 0x20 => s.unarmed (fun x => { x with trig := orefMask v })
  | 0x24 => s.unarmed (fun x => { x with done := orefMask v })
  | 0x38 => s.statusClear v
  | _ => s

/-! ## SEC_, PWR_, CLK_, DBG_ -/

def State.secPut64 (s : State) (o : Nat) (v : Word64) : State :=
  match slotAt 0x1040 8 25 o with
  | some (k, _) => { s with sec := { s.sec with coToken := putTbl s.sec.coToken (8 * k) (toLe 8 v.toNat) } }
  | none => s

def State.secPut32 (s : State) (o : Nat) (v : Word32) : State := if o = 0x1140 && v.getLsbD 0 then s.coSubmit else s

/-- Highest PWR_LIMIT of the grade (20 Table 20-3). -/
def limitMax (g : Grade) : Nat := match g with | .L => 72 | _ => 96

/-- PWR_HIBERNATE: 1 ENTER, 2 EXIT. -/
def State.hibernateOp (s : State) (op : Nat) : State :=
  match op with
  | 1 => s.hibernateEnter
  | 2 => if s.boot.state = .hibernate then (s.wake 3).hibStatus 0 else s
  | _ => s.blkError blkPwr beReserved

def State.pwrPut32 (s : State) (o : Nat) (v : Word32) : State :=
  match o with
  | 0x08 =>
    let w := fld v.toNat 0 8
    s.orReserved blkPwr (decide (32 ≤ w ∧ w ≤ limitMax s.fuses.grade)) (fun s => { s with pwr := { s.pwr with limit := BitVec.ofNat 8 w } })
  | 0x0C =>
    let t := fld v.toNat 0 8
    s.orReserved blkPwr (decide (85 ≤ t ∧ t ≤ 100)) (fun s => { s with pwr := { s.pwr with tlimit := BitVec.ofNat 8 t } })
  | 0x10 => s.unitRequest (fld v.toNat 0 8) (fld v.toNat 8 4)
  | 0x14 => s.hibernateOp (fld v.toNat 0 2)
  | 0x1C => s.orReserved blkPwr (v == 0) (fun s => { s with pwr := { s.pwr with wakeCnt := 0 } })
  | _ => s

/-- A CCLK ceiling (20 R871). -/
def cclkOk (m : Nat) : Bool := decide (275 ≤ m ∧ m ≤ 1100) && m % 25 == 0

def State.clkPut32 (s : State) (o : Nat) (v : Word32) : State :=
  if o = 0x08 then s.orReserved blkClk (cclkOk (fld v.toNat 0 11)) (fun s => s.setCclkMax (v.setWidth 11)) else s

def State.clkPut64 (s : State) (o : Nat) (v : Word64) : State := if o = 0x18 then { s with clk := { s.clk with tsyncVal := v } } else s

def State.dbgPut64 (s : State) (o : Nat) (v : Word64) : State :=
  match slotAt 0x40 8 25 o with
  | some (k, _) => { s with sec := { s.sec with dbgResp := putTbl s.sec.dbgResp (8 * k) (toLe 8 v.toNat) } }
  | none => s

def State.dbgPut32 (s : State) (o : Nat) (v : Word32) : State := if o = 0x140 && v.getLsbD 0 then s.dbgSubmit else s

/-! ## The window -/

/-- An 8-byte register of block `b` takes a value, `lo` where the write includes its lower half; a read-only one ignores it. -/
def State.put64 (s : State) (agent : BitVec 3) (behalf lo : Bool) (b o : Nat) (v : Word64) : State :=
  match b with
  | 0 => s.fePut64 agent behalf o v
  | 1 => s.mbxPut64 o v
  | 4 => s.galPut64 agent behalf lo o v
  | 5 => s.xltPut64 agent behalf lo o v
  | 7 => s.fabPut64 agent behalf o v
  | 8 => s.safePut64 o v
  | 9 => s.secPut64 o v
  | 11 => s.clkPut64 o v
  | 12 => s.dbgPut64 o v
  | _ => s

/-- A 4-byte register of block `b` takes a value. -/
def State.put32 (s : State) (agent : BitVec 3) (behalf : Bool) (b o : Nat) (v : Word32) : State :=
  if o = 0 then s.errClear b v
  else match ceOfBlock b with
    | some n => if o = 0x08 || o = 0x0C then s.cePut b n o v else (if b = blkMem then s.memPut32 o v else if b = blkGal then s.galPut32 agent behalf o v else s)
    | none =>
      match b with
      | 0 => s.fePut32 agent behalf o v
      | 1 => s.mbxPut32 o v
      | 5 => s.xltPut32 agent behalf o v
      | 7 => s.fabPut32 agent behalf o v
      | 8 => s.safePut32 o v
      | 9 => s.secPut32 o v
      | 10 => s.pwrPut32 o v
      | 11 => s.clkPut32 o v
      | 12 => s.dbgPut32 o v
      | _ => s

/-- What an 8-byte register holds, its write-only bytes included: the base a 4-byte write of one half builds on (R910). -/
def State.held64 (s : State) (b o : Nat) : Nat :=
  match b, slotAt 0x1040 8 25 o, slotAt 0x40 8 25 o with
  | 9, some (k, _), _ => ofLe (getTbl s.sec.coToken (8 * k) 8)
  | 12, _, some (k, _) => ofLe (getTbl s.sec.dbgResp (8 * k) 8)
  | _, _, _ => (s.reg64 s.shd b o).getD 0

/-- One half of an 8-byte value replaced. -/
def halfPut (old : Nat) (hi : Bool) (v : Word32) : Word64 :=
  if hi then BitVec.ofNat 64 (old % 2 ^ 32 + 2 ^ 32 * v.toNat) else BitVec.ofNat 64 (old / 2 ^ 32 * 2 ^ 32 + v.toNat)

/-- An offset at which a write does nothing and records nothing: the active copies (R911), the secure-only part (R942), the FAB_ block of
grade S (01 R33). -/
def State.silent (s : State) (off : Nat) : Bool :=
  let b := off / 0x100000
  let o := off % 0x100000
  (decide (0x80000 ≤ o) && isShadow b (o - 0x80000)) || (b == blkSec && decide (0x40000 ≤ o ∧ o < 0x80000)) || (b == blkFab && s.fuses.grade == Grade.S)

/-- The block whose error status records a reserved offset (R909). -/
def errBlock (off : Nat) : Nat := if off / 0x100000 < 14 then off / 0x100000 else blkFe

/-- A 4-byte write. -/
def State.mgmtWrite4 (s : State) (agent : BitVec 3) (behalf : Bool) (off : Nat) (v : Word32) : State :=
  let b := off / 0x100000
  let o := off % 0x100000
  if s.silent off then s
  else if (s.reg64 s.shd b (o / 8 * 8)).isSome then s.put64 agent behalf (o % 8 != 4) b (o / 8 * 8) (halfPut (s.held64 b (o / 8 * 8)) (o % 8 == 4) v)
  else if (s.reg32 s.shd b o).isSome then s.put32 agent behalf b o v
  else s.blkError (errBlock off) beOffset

/-- A write of the MGMT window: 8 bytes go to an 8-byte register whole, or as one write to a pair of 4-byte ones, the upper taken first, but
for an error status, whose clearing does not clear what the same write sets (04 R209; log 71). -/
def State.mgmtWrite (s : State) (agent : BitVec 3) (behalf : Bool) (off : Nat) (wide : Bool) (v : Word64) : State :=
  if !wide then s.mgmtWrite4 agent behalf off (v.setWidth 32)
  else if s.silent off then s
  else if (s.reg64 s.shd (off / 0x100000) (off % 0x100000)).isSome then s.put64 agent behalf true (off / 0x100000) (off % 0x100000) v
  else if off % 0x100000 = 0 then (s.mgmtWrite4 agent behalf off (v.setWidth 32)).mgmtWrite4 agent behalf (off + 4) (v.extractLsb' 32 32)
  else (s.mgmtWrite4 agent behalf (off + 4) (v.extractLsb' 32 32)).mgmtWrite4 agent behalf off (v.setWidth 32)

end Sys2Proof.Machine
end

