-- ==== Sys2Proof/Machine/Remote.lean ====
section
/-! DEFINITION. Remote register access and the manager's domain commit (22 R919 to R925). -/

namespace Sys2Proof.Machine

/-! ## FE_EPOCH_CTL (R919, R924, R925) -/

/-- The locks the root holds on the manager's behalf are abandoned. -/
def State.dropMgrLocks (s : State) : State :=
  ({ s with rootw := { s.rootw with mgrLocks := [] } }).ctls s.rootw.mgrLocks (.mgmt 3 true 0x48 false (some 3))

/-- OP written to FE_EPOCH_CTL: 1 COMMIT, at once or when the root is free; 2 ABANDON. -/
def State.epochCtl (s : State) (op : Nat) : State :=
  if op = 0 || 2 < op then s.blkError blkFe beReserved
  else if !s.isFe then s.blkError blkFe beNotFe
  else if s.mgr.epBusy then s.blkError blkFe beBusy
  else if op = 1 then ({ s with mgr := { s.mgr with epBusy := true } }).rootGo
  else { s.dropMgrLocks with mgr := { s.mgr with epRes := 0 } }

/-! ## Writes of the MGMT window, FE_EPOCH_CTL and GO included -/

/-- A write by an agent. GO acts through `managerWrite` alone; off the active front end it is recorded (R919). -/
def State.mgmtPut (s : State) (agent : BitVec 3) (behalf : Bool) (off : Nat) (wide : Bool) (v : Word64) : State :=
  let s1 := s.mgmtWrite agent behalf off wide v
  if off = 0x420 then s1.epochCtl (fld v.toNat 0 2)
  else if off = 0x410 && v.getLsbD 0 && !s1.isFe then s1.blkError blkFe beNotFe
  else s1

/-- The outcome of a write, and whether the chip ignored it or a part of it and recorded that in an error status (R920). -/
def State.tried (s : State) (agent : BitVec 3) (behalf : Bool) (off : Nat) (wide : Bool) (v : Word64) : Bool × State :=
  let clean := { s with blkErr := [] }.updFn 0 (fun f => { f with err := 0 })
  let t := clean.mgmtPut agent behalf off wide v
  (t.blkErr != [] || (t.fn 0).err != 0, s.mgmtPut agent behalf off wide v)

/-- RESULT of a remote access. -/
def State.rmtEnd (s : State) (res : BitVec 3) : State := { s with mgr := { s.mgr with rmtBusy := false, rmtRes := res } }

/-- An access of FE_RMT_ is aligned to its width. -/
def State.rmtAligned (s : State) : Bool := s.mgr.rmtOff.toNat % (if s.mgr.rmtWide then 8 else 4) == 0

/-- GO on the active front end: to itself at once, to another member by a MGMT packet on the manager's behalf (R920, R922). A misaligned
FE_RMT_OFF is met as 04 R207 meets a misaligned access (log 73). -/
def State.rmtGo (s : State) : State :=
  let m := s.mgr
  let off := m.rmtOff.toNat
  let s1 := { s with mgr := { m with rmtBusy := true } }
  if !s.rmtAligned then
    let s2 := s1.fnError 0 esBadAccess
    if m.rmtWrite then s2.rmtEnd 4 else ({ s2 with mgr := { s2.mgr with rmtData := BitVec.allOnes 64 } }).rmtEnd 0
  else if m.rmtChip = s.dom.chipId then
    if m.rmtWrite then
      let r := s1.tried 1 false off m.rmtWide m.rmtData
      r.2.rmtEnd (if r.1 then 4 else 0)
    else
      let r := s1.mgmtRead off m.rmtWide
      ({ r.2 with mgr := { r.2.mgr with rmtData := BitVec.ofNat 64 r.1 } }).rmtEnd 0
  else if s.isLost m.rmtChip then s1.rmtEnd 2
  else if !s.memberList.contains m.rmtChip then s1.rmtEnd 1
  else s1.ctl m.rmtChip (.mgmt 3 true m.rmtOff m.rmtWide (if m.rmtWrite then some m.rmtData else none))

/-- A write by the manager. -/
def State.managerWrite (s : State) (off : Nat) (wide : Bool) (v : Word64) : State :=
  let s1 := s.mgmtPut 1 false off wide v
  if off = 0x410 && v.getLsbD 0 && s.isFe && !s.mgr.rmtBusy then s1.rmtGo else s1

/-- A write of FE_RMT_CTL with GO. -/
def State.rmtCtl (s : State) (write wide : Bool) : State :=
  if s.mgmtTakes then s.managerWrite 0x410 false (BitVec.ofNat 64 (1 + 2 * b2n write + 4 * b2n wide)) else s

/-- RMT_READ. -/
def execRmtRead (wide : Bool) (s : State) : Host.Outcome State Fault Refusal := .next (s.rmtCtl false wide)

/-- RMT_WRITE. -/
def execRmtWrite (wide : Bool) (s : State) : Host.Outcome State Fault Refusal := .next (s.rmtCtl true wide)

/-- The manager's lock of a member after a remote write of OP: held, as the lock word in the answer shows, or given up (R923). -/
def State.noteMgrLock (s : State) (chip : ChipId) (op : Nat) (word : Nat) : State :=
  let left := s.rootw.mgrLocks.filter (· ≠ chip)
  let gained := decide (fld word 0 4 = 7) && !s.rootw.locked.contains chip
  if op = 1 then { s with rootw := { s.rootw with mgrLocks := if gained then left ++ [chip] else s.rootw.mgrLocks } }
  else if op = 2 || op = 3 then { s with rootw := { s.rootw with mgrLocks := left } }
  else s

/-- The answer to the running remote access. -/
def State.rmtDone (s : State) (value : Word64) (ok : Bool) : State :=
  let m := s.mgr
  if m.rmtWrite then
    let s1 := if m.rmtOff = 0x48 then s.noteMgrLock m.rmtChip (fld m.rmtData.toNat 0 2) value.toNat else s
    s1.rmtEnd (if ok then 0 else 4)
  else ({ s with mgr := { m with rmtData := value } }).rmtEnd 0

/-- The answer of a chip to a MGMT packet: to the root's request for a lock (15 R682), or to the manager's remote access (R920). -/
def State.takeMgmtAnswer (s : State) (src : ChipId) (off : BitVec 24) (value : Word64) (ok : Bool) : State :=
  if s.rootw.asking.head? = some src && off = 0x48 then (s.lockAnswer src ok).rootGo
  else if s.mgr.rmtBusy && s.mgr.rmtChip = src && s.mgr.rmtOff = off then s.rmtDone value ok
  else s

/-- EPOCH_CTL_COMMIT. -/
def execEpochCtlCommit (s : State) : Host.Outcome State Fault Refusal := .next (if s.mgmtTakes then s.epochCtl 1 else s)

/-- EPOCH_CTL_ABANDON. -/
def execEpochCtlAbandon (s : State) : Host.Outcome State Fault Refusal := .next (if s.mgmtTakes then s.epochCtl 2 else s)

end Sys2Proof.Machine
end

