-- ==== Sys2Proof/Machine/InstRead.lean ====
section
/-! DEFINITION. The values the registers of an INSTANCE window hold (23): `inst64` the 8-byte registers, `inst32` the 4-byte ones; none names no
register. The device-resident rings of this chip have theirs in `drPeek`. -/

namespace Sys2Proof.Machine

/-! ## Capability registers (23 Table 23-3, R958 to R960) -/

/-- Members, lowest chip ID first. -/
def State.sortedMembers (s : State) : List ChipId := s.memberList.mergeSort (fun a b => decide (a.toNat ≤ b.toNat))

/-- The member INST_CAP_SEL names. -/
def State.capMember (s : State) (fn : Nat) : Option ChipId := s.sortedMembers[(s.fn fn).capSel.toNat]?

/-- Objects of one kind the instance owns on a chip, ascending. -/
def State.owned (s : State) (c : ChipId) (kind i : Nat) : List Nat :=
  (List.range (objCount kind)).filter (fun k => decide (fld ((s.cfgAt c).own kind k).toNat 0 6 = i))

/-- LOW, HIGH and COUNT (R959). -/
def capObjects (ks : List Nat) : Nat := ks.headD 0 + 2 ^ 16 * ks.getLastD 0 + 2 ^ 32 * ks.length

/-- INST_CAP_CHIP. -/
def State.capChip (s : State) (fn : Nat) (c : ChipId) : Nat :=
  let lost := if c = s.dom.chipId then s.tiles.lostStands.toNat else Config.lostStands c.toNat % 256
  c.toNat + 2 ^ 16 * (Tbl.get 0 (s.cfgAt c).stands fn).toNat + 2 ^ 24 * lost + 2 ^ 32 * fld (Tbl.get 0 (s.cfgAt c).drRings fn).toNat 8 8

/-- The instance's guilty device-resident rings on all chips: chip and instance-local ring (R952). -/
def State.drGuilts (s : State) (fn : Nat) : List (ChipId × Nat) :=
  (if s.isFe then (s.guiltyDrs.filter (fun g => g.1 == fn)).map (fun g => (s.dom.chipId, g.2)) else []) ++ (s.fn fn).drGuilty

/-- The lowest of them, or none. -/
def State.drGuiltFirst (s : State) (fn : Nat) : Option (ChipId × Nat) :=
  (s.drGuilts fn).foldl (fun (a : Option (ChipId × Nat)) g =>
    match a with
    | none => some g
    | some b => if g.1.toNat < b.1.toNat ∨ (g.1 = b.1 ∧ g.2 < b.2) then some g else a) none

/-- INST_DR_GUILTY_FIRST. -/
def State.drFirstWord (s : State) (fn : Nat) : Nat :=
  match s.drGuiltFirst fn with
  | some g => g.1.toNat + 2 ^ 16 * g.2 + 2 ^ 31
  | none => 0

/-! ## Rings (23 Table 23-4, Table 23-5) -/

/-- Submission rings whose registers the window names: those the instance holds; elsewhere than on the active front end the whole range is
read as its role gives it (Table 23-7). -/
def State.sqSeen (s : State) (fn : Nat) : Nat := if s.isFe then (s.inst fn).sqCount else 256
def State.cqSeen (s : State) (fn : Nat) : Nat := if s.isFe then (s.inst fn).cqCount else 256

/-- A ring's register: zero on a data portal, and for a ring the instance does not hold. -/
def State.sqVal (s : State) (fn r : Nat) (f : Nat → Sq → Nat) : Nat :=
  match s.dom.role, s.sqRing fn r with
  | .dataPortal, _ => 0
  | .member, _ => 0
  | _, some n => f n (s.sq n)
  | _, none => 0

def State.cqVal (s : State) (fn r : Nat) (f : Cq → Nat) : Nat :=
  match s.dom.role, s.cqRing fn r with
  | .dataPortal, _ => 0
  | .member, _ => 0
  | _, some n => f (s.cq n)
  | _, none => 0

/-- SQ_CFG. -/
def SqCfg.word (c : SqCfg) : Nat := c.cq.toNat + 2 ^ 8 * b2n c.realTime + 2 ^ 12 * c.rtSlot.toNat + 2 ^ 16 * c.reserve.toNat

/-- SQ_RUN. -/
def SqCfg.run (c : SqCfg) : Nat := c.pollUs.toNat + 2 ^ 16 * c.weight.toNat + 2 ^ 24 * c.burst.toNat + 2 ^ 32 * c.hangMs.toNat

/-- Why the front entry of a ring waits: completion space, contexts, SERIAL, each alone (R962). -/
def State.sqWaits (s : State) (n : Nat) : Bool × Bool × Bool :=
  let q := s.sq n
  match s.sqInst n, q.cache.head? with
  | some i, some e =>
    let rest := s.instRuns i && q.cfg.size != 0 && q.guilty.isNone && !q.halted
    let cq := s.cqRoom (s.ringCq n)
    let cx := decide (s.ownerCount < 512) && s.freeContext.isSome
    let se := !eSerial e || q.w + 1 == eSeq e
    (rest && !cq && cx && se, rest && cq && !cx && se, rest && cq && cx && !se)
  | _, _ => (false, false, false)

/-- WAIT_MIRROR: a hold of 14 R643 delays the ring. -/
def State.sqMirror (s : State) (n : Nat) : Bool :=
  (s.sq n).waitEpoch.isSome || (s.sq n).unreleased.any (fun e => e != 0) || (s.ownersOf (.host n)).any (fun o => o.2.waitEpoch.isSome)

/-- Capture slot and its VALID of a guilty ring. -/
def guiltSlot (g : Option Guilt) : Nat × Bool := match g with | some x => (x.slot.getD 0, x.slot.isSome) | none => (0, false)

/-- SQ_STATE. -/
def State.sqState (s : State) (n : Nat) (q : Sq) : Nat :=
  let w := s.sqWaits n
  let g := guiltSlot q.guilty
  b2n (q.cfg.size != 0) + 2 * b2n q.guilty.isSome + 4 * b2n q.halted + 8 * b2n w.1 + 16 * b2n w.2.1 + 32 * b2n w.2.2 + 64 * b2n (s.sqMirror n)
    + 2 ^ 8 * g.1 + 2 ^ 11 * b2n g.2 + 2 ^ 16 * (q.admitted % 2 ^ 16)

/-- SQ_HANG: the hang timer in milliseconds. -/
def Sq.hangWord (q : Sq) : Nat := min 0xFFFFFFFF (q.hangNs / 1000000)

/-- E and W as a disabled ring reads them (R961). -/
def Sq.eWord (q : Sq) : Nat := if q.cfg.size = 0 then q.cfg.tagBase.toNat else q.e
def Sq.wWord (q : Sq) : Nat := if q.cfg.size = 0 then (q.cfg.tagBase - 1).toNat else q.w

def State.sq64 (s : State) (fn o : Nat) : Option Nat :=
  match slotAt 0x2000 64 (s.sqSeen fn) o, slotAt 0x6000 32 (s.sqSeen fn) o with
  | some (r, q), _ =>
    match q with
    | 0x00 => some (s.sqVal fn r (fun _ x => x.cfg.base.toNat))
    | 0x10 => some (s.sqVal fn r (fun _ x => x.cfg.tagBase.toNat))
    | 0x18 => some (s.sqVal fn r (fun _ x => x.cfg.shadowPi.toNat))
    | 0x20 => some (s.sqVal fn r (fun _ x => x.cfg.run))
    | 0x28 => some (s.sqVal fn r (fun _ x => x.k.toNat + 2 ^ 32 * x.release.toNat))
    | 0x30 => some (s.sqVal fn r (fun _ x => x.eWord))
    | 0x38 => some (s.sqVal fn r (fun _ x => x.wWord))
    | _ => none
  | _, some (r, q) =>
    match q with
    | 0x00 => some (s.sqVal fn r (fun _ x => x.fetch.toNat + 2 ^ 32 * x.cache.length))
    | 0x08 => some (s.sqVal fn r (fun _ x => x.redeliv.toNat + 2 ^ 16 * x.stale.toNat + 2 ^ 32 * x.faults.toNat))
    | _ => none
  | _, _ => none

def State.sq32 (s : State) (fn o : Nat) : Option Nat :=
  match slotAt 0x2000 64 (s.sqSeen fn) o, slotAt 0x6000 32 (s.sqSeen fn) o, slotAt 0x1000 4 (s.sqSeen fn) o with
  | some (r, q), _, _ =>
    match q with
    | 0x08 => some (s.sqVal fn r (fun _ x => x.cfg.word))
    | 0x0C => some (s.sqVal fn r (fun _ x => x.cfg.size.toNat))
    | _ => none
  | _, some (r, q), _ =>
    match q with
    | 0x10 => some (s.sqVal fn r s.sqState)
    | 0x18 => some (s.sqVal fn r (fun _ x => x.hangWord))
    | _ => none
  | _, _, some (_, 0) => some 0
  | _, _, _ => none

def State.cq64 (s : State) (fn o : Nat) : Option Nat :=
  match slotAt 0xD000 32 (s.cqSeen fn) o with
  | some (r, q) =>
    match q with
    | 0x00 => some (s.cqVal fn r (fun x => x.base.toNat))
    | 0x18 => some (s.cqVal fn r (fun x => x.wr.toNat + 2 ^ 32 * x.h.toNat))
    | _ => none
  | none => elem 0xF000 8 4 0 o (fun m => ((s.fn fn).cqCause.extractLsb' (64 * m) 64).toNat)

def State.cq32 (s : State) (fn o : Nat) : Option Nat :=
  match slotAt 0xD000 32 (s.cqSeen fn) o, slotAt 0x1400 4 (s.cqSeen fn) o with
  | some (r, q), _ =>
    match q with
    | 0x08 => some (s.cqVal fn r (fun x => x.size.toNat))
    | 0x0C => some (s.cqVal fn r (fun x => x.vecsel.toNat + 2 ^ 16 * x.coalCount.toNat))
    | 0x10 => some (s.cqVal fn r (fun x => x.coalTime.toNat))
    | _ => none
  | _, some (_, 0) => some 0
  | _, _ => none

/-! ## Mailboxes, captures, vectors -/

/-- A mailbox register of a virtual function; zero elsewhere than on the active front end (15 R676). -/
def State.mbxReg (s : State) (fn v : Nat) : Option Nat := if fn = 0 then none else some (if s.isFe then v else 0)

/-- An IN slot without a visible message reads zero (R966). -/
def State.inSlot (s : State) (fn q : Nat) : Nat :=
  let f := s.fn fn
  if slotHeld f.inPi f.inCons 4 (q / 64) then ofLe (getTbl f.mbx (256 + q) 8) else 0

/-- A capture slot of the function on this portal (R967); a data portal has none. -/
def State.capByte8 (s : State) (fn q : Nat) : Nat :=
  if s.dom.role = .dataPortal then 0
  else match Tbl.get none (s.fn fn).caps (q / 128) with
    | some bs => leAt bs (q % 128) 8
    | none => 0

/-- A word of the MSI-X table: address, data, vector control (04 R221). -/
def State.vecWord (s : State) (fn v q : Nat) : Nat :=
  let e := s.vec fn v
  match q with
  | 0 => e.addr.toNat % 2 ^ 32
  | 4 => e.addr.toNat / 2 ^ 32
  | 8 => e.data.toNat
  | _ => b2n e.mask

/-- 32 pending bits from vector `v` on. -/
def State.pbaWord (s : State) (fn v : Nat) : Nat := (List.range 32).foldl (fun a k => a + b2n (s.vec fn (v + k)).pending * 2 ^ k) 0

/-! ## The window (Table 23-1) -/

/-- The DATA window exists (04 R206). -/
def State.hasData (s : State) : Bool := bit (leAt s.boot.cfg 6 1) 2

def State.inst64 (s : State) (fn o : Nat) : Option Nat :=
  let f := s.fn fn
  match o with
  | 0x38 => some f.vecsel0.toNat
  | 0x40 => some f.vecsel1.toNat
  | 0x50 => some f.halt.toNat
  | 0x60 => some 0
  | 0x68 => some 0
  | 0x70 => some (if s.hasData then f.dataCtl.toNat else 0)
  | 0x120 => some (match s.capMember fn with | some c => s.capChip fn c | none => 0)
  | 0x128 => some (match s.capMember fn with | some c => capObjects (s.owned c 0 fn) | none => 0)
  | 0x130 => some (match s.capMember fn with | some c => capObjects (s.owned c 1 fn) | none => 0)
  | 0x138 => some (match s.capMember fn with | some c => capObjects (s.owned c 2 fn) | none => 0)
  | _ => firstOf [
      elem 0x08 8 4 0 o (fun m => ofLe ((List.range 4).flatMap (fun k => toLe 2 (Tbl.get 0 f.errCnt (4 * m + k)).toNat))),
      (match slotAt 0x400 8 32 o with | some (k, 0) => s.mbxReg fn (ofLe (getTbl f.mbx (8 * k) 8)) | _ => none),
      (match slotAt 0x500 8 32 o with | some (k, 0) => s.mbxReg fn (s.inSlot fn (8 * k)) | _ => none),
      elem 0x800 8 128 0 o (fun k => s.capByte8 fn (8 * k)),
      elem 0xC08 8 4 0 o (fun k => leAt f.objLatch (8 * k) 8),
      s.sq64 fn o, s.cq64 fn o]

def State.inst32 (s : State) (fn o : Nat) : Option Nat :=
  let f := s.fn fn
  let x := s.inst fn
  match o with
  | 0x00 => some f.err.toNat
  | 0x30 => some f.cause.toNat
  | 0x48 => some 0
  | 0x58 => some (s.drFirstWord fn)
  | 0x100 => some (fn + 2 ^ 8 * x.state.code + 2 ^ 16 * s.boot.nlevel.toNat + 2 ^ 24 * s.fuses.grade.stands)
  | 0x104 => some (if s.dom.role = .dataPortal then 0 else x.sqCount + 2 ^ 16 * x.cqCount)
  | 0x108 => some ((s.fc fn).vecs.toNat + 2 ^ 16 * x.rtMax)
  | 0x10C => some s.memberList.length
  | 0x110 => some s.dom.depoch.toNat
  | 0x114 => some x.capGen.toNat
  | 0x118 => some f.capSel.toNat
  | 0x200 => s.mbxReg fn f.outPi.toNat
  | 0x204 => s.mbxReg fn f.outCi.toNat
  | 0x208 => s.mbxReg fn f.inPi.toNat
  | 0x20C => s.mbxReg fn f.inCons.toNat
  | 0xC00 => some f.objSel.toNat
  | 0xD00 => some f.drSel.toNat
  | _ => firstOf [
      (match slotAt 0x8000 16 1024 o with | some (v, q) => some (if v < (s.fc fn).vecs.toNat then s.vecWord fn v q else 0) | none => none),
      elem 0xC000 4 32 0 o (fun k => s.pbaWord fn (32 * k)),
      s.sq32 fn o, s.cq32 fn o]

/-- The value a read of 4 bytes returns. -/
def State.instWord (s : State) (fn o : Nat) : Nat :=
  match s.inst64 fn (o / 8 * 8) with
  | some v => if o % 8 = 0 then v % 2 ^ 32 else v / 2 ^ 32 % 2 ^ 32
  | none => (s.inst32 fn o).getD 0

/-! ## Device-resident rings of this chip (Table 23-6) -/

/-- INST_DR_GUILTY. -/
def State.drGuiltMask (s : State) (fn : Nat) : Nat :=
  (List.range (s.drCount fn)).foldl (fun a k => a + b2n (s.dr (s.drFirst fn + k)).guilty.isSome * 2 ^ k) 0

/-- A word of Table 23-6 for ring `n`, `cslot` the capture slot selected. -/
def State.drWord (s : State) (fn n cslot o : Nat) : Nat :=
  let d := s.dr n
  let g := guiltSlot d.guilty
  let hi := fun (v : Nat) => v / 2 ^ 32 % 2 ^ 32
  match o with
  | 0xD08 => s.drGuiltMask fn % 2 ^ 32
  | 0xD0C => hi (s.drGuiltMask fn)
  | 0xD10 => d.size.toNat
  | 0xD18 => d.recBase.toNat % 2 ^ 32
  | 0xD1C => hi d.recBase.toNat
  | 0xD20 => d.done.toNat
  | 0xD24 => d.weight.toNat + 2 ^ 8 * d.burst.toNat + 2 ^ 16 * d.hangMs.toNat
  | 0xD28 => d.push.toNat
  | 0xD2C => d.release.toNat
  | 0xD30 => b2n (d.size != 0) + 2 * b2n d.guilty.isSome + 4 * g.1 + 32 * b2n g.2 + 2 ^ 16 * (d.admitted % 2 ^ 16)
  | _ =>
    if 0xE00 ≤ o ∧ o < 0xE80 then (match Tbl.get none (s.fn fn).caps cslot with | some bs => leAt bs (o - 0xE00) 4 | none => 0)
    else 0

/-- An offset names a register of Table 23-6. -/
def drNamed (o : Nat) : Bool := [0xD08, 0xD0C, 0xD10, 0xD18, 0xD1C, 0xD20, 0xD24, 0xD28, 0xD2C, 0xD30].contains o || decide (0xE00 ≤ o ∧ o < 0xE80)

/-- A read of Table 23-6. -/
def State.drPeek (s : State) (fn n cslot o : Nat) (wide : Bool) : Nat :=
  s.drWord fn n cslot o + (if wide then 2 ^ 32 * s.drWord fn n cslot (o + 4) else 0)

end Sys2Proof.Machine
end

