-- ==== Sys2Proof/Machine/InstWin.lean ====
section
/-! DEFINITION. Writes of the INSTANCE window (23), host signals and their fence, object records, device-resident rings by selection. -/

namespace Sys2Proof.Machine

/-! ## Common registers (23 Table 23-2) -/

/-- An 11-bit vector select at bit `lo` of a register: a value at or above the allotted count keeps the field (04 R225). -/
def selPut (vecs old new lo : Nat) : Nat := (if fld new lo 11 < vecs then fld new lo 11 else fld old lo 11) * 2 ^ lo

/-- INST_VECSEL0, INST_VECSEL1; EVENT and SAFETY are reserved in a virtual function. -/
def State.vecselPut (s : State) (fn : Nat) (second : Bool) (v : Word64) : State :=
  let n := (s.fc fn).vecs.toNat
  let make := fun (old : Nat) (fields : List Nat) => BitVec.ofNat 64 (fields.foldl (fun a lo => a + selPut n old v.toNat lo) 0)
  if second then s.updFn fn (fun f => { f with vecsel1 := make f.vecsel1.toNat (if fn = 0 then [0, 16, 32] else [0]) })
  else s.updFn fn (fun f => { f with vecsel0 := make f.vecsel0.toNat [0, 16, 32, 48] })

/-- W1C of INST_ERR_STATUS; a bit's count clears with it (13 R572). DR_GUILTY stays while a device-resident ring is guilty (R952). -/
def State.errStatusClear (s : State) (fn : Nat) (v : Word32) : State :=
  let keep : BitVec 14 := if (s.drGuiltFirst fn).isSome then 0x400 else 0
  let gone := (s.fn fn).err &&& v.setWidth 14 &&& ~~~keep
  s.updFn fn (fun f => { f with err := f.err &&& ~~~gone, errCnt := (List.range 14).foldl (fun t b => if gone.getLsbD b then Tbl.set 0 t b 0 else t) f.errCnt })

/-- W1C of INST_CAUSE, or of INST_CQ_CAUSE register `reg` - 1. A cause that fires in the same cycle stays set (R950). -/
def State.causeClear (s : State) (fn reg : Nat) (v firing : Word64) : State :=
  let gone := v &&& ~~~firing
  if reg = 0 then s.updFn fn (fun f => { f with cause := f.cause &&& ~~~(gone.setWidth 7) })
  else s.updFn fn (fun f => { f with cqCause := f.cqCause &&& ~~~((gone.setWidth 256) <<< (64 * (reg - 1))) })

/-! ## Host signals (R953, R954, 09 R462, R463, R465) -/

/-- Fields of INST_SIGNAL. -/
def sigChip (v : Word64) : ChipId := BitVec.ofNat 16 (fld v.toNat 0 16)
def sigObj (v : Word64) : Nat := fld v.toNat 16 14
def sigKind (v : Word64) : Nat := fld v.toNat 30 2
def sigAmount (v : Word64) : Nat := fld v.toNat 32 16

/-- Objects of the kind a signal acts on. -/
def sigCount (kind : Nat) : Nat := objCount (kind - 1)

/-- A host signal is not discarded (R954). CHIP 0x0000 names this portal. -/
def State.signalGood (s : State) (v : Word64) : Bool :=
  let c := sigChip v
  (c == 0 || (c != 0xFFFF && s.memberList.contains c)) && ((sigKind v < 2) == (sigAmount v == 0)) && decide (sigObj v < sigCount (sigKind v))

/-- The function's posted writes go in the order they arrive: a signal to this chip enters the pending-signal FIFO, one to another chip leaves,
each behind the function's earlier signals and once its DATA writes have committed. -/
def State.signalPost (s : State) (fn : Nat) (v : Word64) : State :=
  let home := if sigChip v = 0 then s.dom.chipId else sigChip v
  let g : Sig := { kind := BitVec.ofNat 2 (sigKind v), obj := BitVec.ofNat 14 (sigObj v), amount := BitVec.ofNat 16 (sigAmount v), inst := BitVec.ofNat 6 fn,
                   chip := s.dom.chipId, notice := none, origin := .host fn }
  let s1 := { s with pcie := { s.pcie with posted := s.pcie.posted ++ [(fn, home, g)] } }
  State.sendPosted s1.pcie.posted.length s1.refillOne.1

/-- An 8-byte write of INST_SIGNAL. -/
def State.instSignal (s : State) (fn : Nat) (v : Word64) : State := if s.signalGood v then s.signalPost fn v else s.fnError fn esBadAccess

/-- INST_SIGNAL. -/
def execInstSignal (fn : Nat) (value : Word64) (s : State) : Host.Outcome State Fault Refusal :=
  .next (s.hostWrite fn true (fun s => s.instSignal fn value))

/-! ## INST_FENCE (09 R466) -/

/-- Every signal write and DATA window write of the function has been applied, committed, acknowledged. -/
def State.fenceQuiet (s : State) (fn : Nat) : Bool :=
  let mine := fun (x : Xfer) => x.purpose == .hostSignal fn || x.purpose == .hostData fn
  !s.pcie.posted.any (fun e => e.1 == fn) && !s.fab.xfers.any mine && !s.fab.queued.any mine && !s.gal.fifo.any (fun g => g.origin == .host fn)

/-- INST_FENCE: the read waits until the function's earlier writes are in place; here later ones may hold it longer (log 75). -/
def execInstFence (fn : Nat) (s : State) : Host.Outcome State Fault Refusal :=
  .next (s.hostLoad fn 4 (fun s =>
    if s.fenceQuiet fn then s.emit (.completion fn (zeros 4)) else { s with pcie := { s.pcie with fences := s.pcie.fences ++ [fn] } }))

/-- INST_FENCE_DONE: a waiting read of INST_FENCE completes with zero. -/
def execInstFenceDone (fn : Nat) (s : State) : Host.Outcome State Fault Refusal :=
  .next (if s.pcie.fences.contains fn && s.fenceQuiet fn then
      ({ s with pcie := { s.pcie with fences := s.pcie.fences.erase fn } }).emit (.completion fn (zeros 4))
    else s)

/-! ## Object records (R968 to R970, 08 R446) -/

/-- INST_OBJ_SEL: a KIND of 3 keeps the field; the latch clears (R968, R969). -/
def State.objSel (s : State) (fn : Nat) (v : Word32) : State :=
  let kind := if fld v.toNat 14 2 = 3 then fld (s.fn fn).objSel.toNat 14 2 else fld v.toNat 14 2
  s.updFn fn (fun f => { f with objSel := BitVec.ofNat 16 (fld v.toNat 0 14 + 2 ^ 14 * kind), objLatch := [] })

/-- OBJ_SEL_WRITE. -/
def execObjSelWrite (fn : Nat) (value : Word32) (s : State) : Host.Outcome State Fault Refusal :=
  .next (s.hostWrite fn true (fun s => s.objSel fn value))

/-- Waiters registered at an object, in order. -/
def State.waitersAt (s : State) (kind idx : Nat) : List Waiter :=
  s.gal.waiters.filter (fun w => match w.cond with
    | .flagIs f _ => kind == 0 && f == idx
    | .tallyGe t _ => kind == 1 && t == idx
    | .space p _ _ => kind == 1 && p == idx
    | .phasePast b _ => kind == 2 && b == idx)

/-- VALUE of Table 8-6. -/
def State.recValue (s : State) (kind idx : Nat) : Nat :=
  if kind = 0 then b2n (s.flag idx)
  else if kind = 1 then (s.tally idx).toNat
  else (s.bar idx).count.toNat + 2 ^ 16 * b2n (s.bar idx).sense + 2 ^ 17 * b2n (s.bar idx).forwarded

/-- The 32 bytes of a debug record (08 Table 8-6). -/
def State.objRecord (s : State) (kind idx : Nat) : List Byte :=
  let ws := s.waitersAt kind idx
  let l := Tbl.get Last.reset s.gal.last (objKey kind idx)
  let o := s.objOwn kind idx
  padTo 32 (toLe 4 (s.recValue kind idx) ++ toLe 2 ws.length ++ toLe 2 (match ws.head? with | some w => w.holder.toNat | none => 0xFFFF)
    ++ toLe 2 l.chip.toNat ++ toLe 1 (l.inst.toNat + 64 * l.kind.toNat) ++ toLe 1 (fld o.toNat 0 7) ++ toLe 1 (fld o.toNat 7 5) ++ zeros 1
    ++ toLe 2 (if kind = 2 then (s.bar idx).phase.toNat else 0) ++ toLe 8 l.time.toNat)

/-- The record is sampled behind every change ahead of it, and latched; zero where the instance may not access the object, or there is no
object with the index. -/
def State.sampleObj (s : State) (fn : Nat) : State :=
  let sel := (s.fn fn).objSel.toNat
  let kind := fld sel 14 2
  let idx := fld sel 0 14
  let s1 := s.observe
  let seen := decide (idx < objCount kind) && s1.permitted kind idx fn
  let s2 := if seen then s1.touchObj kind idx else s1
  s2.updFn fn (fun f => { f with objLatch := if seen then s2.objRecord kind idx else zeros 32 })

/-! ## Submission and completion rings (23 Table 23-4, Table 23-5, 05 R243 to R247, R272 to R275, 07 R401) -/

/-- SQ_CFG of ring `n`; a reserved encoding keeps its field (00 R17), CLASS 1 on a held RT_SLOT keeps both fields (05 R272), and a WRR ring has
no RESERVE (05 R274). -/
def State.sqCfgPut (s : State) (fn n : Nat) (v : Word32) : State :=
  let old := (s.sq n).cfg
  let slot : BitVec 4 := BitVec.ofNat 4 (fld v.toNat 12 4)
  let held := v.getLsbD 8 && s.rtHeld n slot
  let rt := if held then old.realTime else v.getLsbD 8
  let res : BitVec 8 := BitVec.ofNat 8 (fld v.toNat 16 8)
  let new := { old with cq := if fld v.toNat 0 8 < (s.inst fn).cqCount then BitVec.ofNat 8 (fld v.toNat 0 8) else old.cq, realTime := rt,
                        rtSlot := if held then old.rtSlot else slot,
                        reserve := if !rt then 0 else if s.reserveOk fn n rt res then res else old.reserve }
  s.updSq n (fun q => { q with cfg := new })

/-- A hang interval that is no reserved encoding (07 R401). -/
def hangOk (ms : Nat) : Bool := ms == 0 || decide (10 ≤ ms ∧ ms ≤ 60000)

/-- SQ_RUN of ring `n`; on an enabled ring the change is journaled. -/
def State.sqRunPut (s : State) (n : Nat) (v : Word64) : State :=
  let h := fld v.toNat 32 16
  let s1 := s.updSq n (fun q => { q with cfg := { q.cfg with pollUs := BitVec.ofNat 16 (fld v.toNat 0 16), weight := BitVec.ofNat 8 (fld v.toNat 16 8),
                                                             burst := BitVec.ofNat 6 (fld v.toNat 24 6), hangMs := if hangOk h then BitVec.ofNat 16 h else q.cfg.hangMs } })
  if (s.sq n).cfg.size ≠ 0 then s1.journal (s1.sqCfgRec n) else s1

/-- A setup-only register of a submission ring (R245). -/
def State.sqSetup (s : State) (fn n : Nat) (f : State → State) : State := if (s.sq n).cfg.size ≠ 0 then s.fnError fn esSetup else f s

def State.sqPut64 (s : State) (fn n q : Nat) (v : Word64) : State :=
  match q with
  | 0x00 => s.sqSetup fn n (fun s => s.updSq n (fun x => { x with cfg := { x.cfg with base := (v &&& 0xFFFFFFFFF000).setWidth 48 } }))
  | 0x10 => s.sqSetup fn n (fun s =>
      if fld v.toNat 0 48 = 0 then s else s.updSq n (fun x => { x with cfg := { x.cfg with tagBase := v.setWidth 48 } }))
  | 0x18 => s.sqSetup fn n (fun s => s.updSq n (fun x => { x with cfg := { x.cfg with shadowPi := (v &&& 0xFFFFFFFFFFFC).setWidth 48 } }))
  | 0x20 => s.sqRunPut n v
  | _ => s

/-- SQ_CFG and SQ_SIZE in one 8-byte write: on an enabled ring one write refused (04 R209, 05 R245). -/
def State.sqPair (s : State) (fn n : Nat) (v : Word64) : State :=
  if (s.sq n).cfg.size ≠ 0 then s.fnError fn esSetup else (s.sqCfgPut fn n (v.setWidth 32)).enableSq fn n (v.extractLsb' 32 5)

def State.sqPut32 (s : State) (fn n q : Nat) (v : Word32) : State :=
  match q with
  | 0x08 => s.sqSetup fn n (fun s => s.sqCfgPut fn n v)
  | 0x0C => s.enableSq fn n (v.setWidth 5)
  | _ => s

def State.cqPut64 (s : State) (fn c q : Nat) (v : Word64) : State :=
  if q = 0 then
    (if (s.cq c).size ≠ 0 then s.fnError fn esSetup else s.updCq c (fun x => { x with base := (v &&& 0xFFFFFFFFF000).setWidth 48 }))
  else s

/-- CQ_IRQ, CQ_COAL_TIME: on an enabled ring the change is journaled. -/
def State.cqRun (s : State) (c : Nat) (f : Cq → Cq) : State :=
  let s1 := s.updCq c f
  if (s.cq c).size ≠ 0 then s1.journal (s1.cqCfgRec c) else s1

def State.cqPut32 (s : State) (fn c q : Nat) (v : Word32) : State :=
  let sel := fld v.toNat 0 11
  match q with
  | 0x08 => s.enableCq fn c (v.setWidth 5)
  | 0x0C => s.cqRun c (fun x => { x with vecsel := if sel < (s.fc fn).vecs.toNat then BitVec.ofNat 11 sel else x.vecsel,
                                         coalCount := BitVec.ofNat 8 (fld v.toNat 16 8) })
  | 0x10 => s.cqRun c (fun x => { x with coalTime := v.setWidth 16 })
  | _ => s

/-- A ring register: on the active front end alone (Table 23-7). -/
def State.onSq (s : State) (fn r : Nat) (f : State → Nat → State) : State :=
  if !s.isFe then s else match s.sqRing fn r with | some n => f s n | none => s
def State.onCq (s : State) (fn r : Nat) (f : State → Nat → State) : State :=
  if !s.isFe then s else match s.cqRing fn r with | some n => f s n | none => s

/-! ## The MSI-X table (04 R221, R227, R228) -/

/-- A pending vector whose mask is lifted sends its message. -/
def State.unmask (s : State) (fn v : Nat) : State :=
  if (s.vec fn v).pending && !(s.vec fn v).mask && !(s.fc fn).fnMask && (s.fc fn).msixEn then
    (s.updVec fn v (fun e => { e with pending := false })).message fn v
  else s

/-- One word of an entry; beyond the function's vectors nothing is there (23 "Corners"). -/
def State.vecPut (s : State) (fn v q : Nat) (x : Word32) : State :=
  if (s.fc fn).vecs.toNat ≤ v then s
  else match q with
    | 0 => s.updVec fn v (fun e => { e with addr := BitVec.ofNat 64 (e.addr.toNat / 2 ^ 32 * 2 ^ 32 + x.toNat) })
    | 4 => s.updVec fn v (fun e => { e with addr := BitVec.ofNat 64 (e.addr.toNat % 2 ^ 32 + 2 ^ 32 * x.toNat) })
    | 8 => s.updVec fn v (fun e => { e with data := x })
    | _ => (s.updVec fn v (fun e => { e with mask := x.getLsbD 0 })).unmask fn v

/-- MSIX_UNMASK: a write lifts the mask of a vector, or Function Mask (no vector named). -/
def execMsixUnmask (fn : Nat) (vec : Option Nat) (s : State) : Host.Outcome State Fault Refusal :=
  .next (match vec with
    | some v => s.hostWrite fn true (fun s => s.vecPut fn v 12 0)
    | none =>
      if s.fnHere fn && !(s.fc fn).flr && !s.safest.inSafe then
        (List.range (s.fc fn).vecs.toNat).foldl (fun s v => s.unmask fn v) (s.updFc fn (fun f => { f with fnMask := false }))
      else s)

/-! ## Device-resident rings (23 R971, R972, Table 23-6) -/

/-- DONE names no object: the tally of another chip, of none, or beyond the last (07 Table 7-3, 00 R17). -/
def State.doneBad (s : State) (v : Word32) : Bool :=
  let c : ChipId := BitVec.ofNat 16 (fld v.toNat 0 16)
  v &&& 0x3FFFFFFF != 0 && ((c != s.dom.chipId && c != 0) || decide (objCount 1 ≤ fld v.toNat 16 14))

/-- A setup-only register of a device-resident ring (R389). -/
def State.drSetup (s : State) (fn n : Nat) (f : Dr → Dr) : State := if (s.dr n).size ≠ 0 then s.instError fn esSetup else s.updDr n f

/-- A write to a register of Table 23-6 of ring `n` of this chip, 4 bytes; read-only registers ignore it. -/
def State.drPut4 (s : State) (fn n o : Nat) (v : Word32) : State :=
  match o with
  | 0xD10 => s.enableDr fn n (v.setWidth 5)
  | 0xD18 => s.drSetup fn n (fun d => { d with recBase := BitVec.ofNat 48 (d.recBase.toNat / 2 ^ 32 * 2 ^ 32 + v.toNat / 32 * 32) })
  | 0xD1C => s.drSetup fn n (fun d => { d with recBase := BitVec.ofNat 48 (d.recBase.toNat % 2 ^ 32 + 2 ^ 32 * v.toNat) })
  | 0xD20 => s.drSetup fn n (fun d => { d with done := if s.doneBad v then d.done else v &&& 0x3FFFFFFF })
  | 0xD24 =>
    s.updDr n (fun d => { d with weight := BitVec.ofNat 8 (fld v.toNat 0 8), burst := BitVec.ofNat 6 (fld v.toNat 8 6),
                                 hangMs := if hangOk (fld v.toNat 16 16) then BitVec.ofNat 16 (fld v.toNat 16 16) else d.hangMs })
  | _ => s

/-- A write, of 8 bytes to the one 8-byte register whole, else as one to both halves (04 R209). -/
def State.drPut (s : State) (fn n o : Nat) (wide : Bool) (v : Word64) : State :=
  if !wide then s.drPut4 fn n o (v.setWidth 32)
  else if o = 0xD18 then s.drSetup fn n (fun d => { d with recBase := (v &&& 0xFFFFFFFFFFE0).setWidth 48 })
  else (s.drPut4 fn n o (v.setWidth 32)).drPut4 fn n (o + 4) (v.extractLsb' 32 32)

/-- Fields of INST_DR_SEL. -/
def drChip (sel : Word32) : ChipId := BitVec.ofNat 16 (fld sel.toNat 0 16)
def drIndex (sel : Word32) : Nat := fld sel.toNat 16 6
def drSlot (sel : Word32) : Nat := fld sel.toNat 24 3

/-- An access that is discarded, or reads all ones, with BAD_ACCESS (R949, R972). -/
def State.drRefused (s : State) (fn : Nat) (wide read : Bool) : State :=
  let s1 := s.fnError fn esBadAccess
  if read then s1.emit (.completion fn (List.replicate (if wide then 8 else 4) 0xFF)) else s1

/-- An access to Table 23-6 through the active front end. -/
def State.drAccess (s : State) (fn off : Nat) (wide : Bool) (write : Option Word64) : State :=
  let sel := (s.fn fn).drSel
  let c := drChip sel
  let gone := !(s.memberList.contains c) || decide (fld (Tbl.get 0 (s.cfgAt c).drRings fn).toNat 8 8 ≤ drIndex sel)
  if gone || !drNamed off then s.drRefused fn wide write.isNone
  else
    let s := if wide && write.isSome && !drNamed (off + 4) then s.fnError fn esBadAccess else s
    if c = s.dom.chipId then
    match write with
    | some v => s.drPut fn (s.drFirst fn + drIndex sel) off wide v
    | none => s.emit (.completion fn (toLe (if wide then 8 else 4) (s.drPeek fn (s.drFirst fn + drIndex sel) (drSlot sel) off wide)))
    else
    (s.updFn fn (fun f => { f with drAccess := f.drAccess ++ [(off, wide, write.isSome)] })).ctl c
      (.ring (BitVec.ofNat 6 fn) sel (BitVec.ofNat 16 off) wide write)

/-! ## Reads (R946, R948, R949, 04 R207, R209, 09 R464) -/

/-- A read may not reach its target yet: posted writes of the function wait, or for INST_FENCE are not yet in place (09 R464, R466). -/
def State.readHeld (s : State) (fn o : Nat) : Bool := if o = 0x48 then !s.fenceQuiet fn else s.pcie.posted.any (fun e => e.1 == fn)

/-- A read of the window is answered: INST_FENCE with zero, INST_OBJ_REC bytes 0 to 7 after a sample, a device-resident ring by its chip, any
other offset with what its registers hold, a reserved one with zero. -/
def State.serveRead (s : State) (fn o : Nat) (wide : Bool) : State :=
  let w := if wide then 8 else 4
  if drNamed o then (if s.isFe then s.drAccess fn o wide none else s.emit (.completion fn (zeros w)))
  else if 0xC08 ≤ o ∧ o < 0xC10 then
    let s1 := s.sampleObj fn
    s1.emit (.completion fn (((s1.fn fn).objLatch.drop (o - 0xC08)).take w))
  else s.emit (.completion fn (toLe w (s.instWord fn o + (if wide then 2 ^ 32 * s.instWord fn (o + 4) else 0))))

/-- A misaligned read, or one of another size, completes with all ones and is recorded. -/
def State.badRead (s : State) (fn width : Nat) : State := (s.fnError fn esBadAccess).emit (.completion fn (List.replicate width 0xFF))

/-- A host read of the INSTANCE window. -/
def State.instLoad (s : State) (fn o width : Nat) : State :=
  s.hostLoad fn width (fun s =>
    if !naturally o width || 0x10000 ≤ o then s.badRead fn width
    else if s.readHeld fn o then { s with pcie := { s.pcie with heldReads := s.pcie.heldReads ++ [(fn, o, width == 8)] } }
    else s.serveRead fn o (width == 8))

/-- The first read that waits no longer is answered (09 R464). -/
def State.serveHeld (s : State) : State :=
  match s.pcie.heldReads.find? (fun h => !s.readHeld h.1 h.2.1) with
  | some h => ({ s with pcie := { s.pcie with heldReads := s.pcie.heldReads.erase h } }).serveRead h.1 h.2.1 h.2.2
  | none => s

/-- OBJ_RECORD_READ: the read of INST_OBJ_REC bytes 0 to 7. -/
def execObjRecordRead (fn : Nat) (s : State) : Host.Outcome State Fault Refusal := .next (s.instLoad fn 0xC08 8)

/-- DR_REGISTER_ACCESS. Elsewhere than on the active front end the registers read zero and discard writes (Table 23-7). -/
def execDrRegisterAccess (fn off : Nat) (wide : Bool) (write : Option Word64) (s : State) : Host.Outcome State Fault Refusal :=
  let w := if wide then 8 else 4
  .next (match write with
    | some v => s.hostWrite fn true (fun s =>
        if !naturally off w then s.fnError fn esBadAccess else if s.isFe then s.drAccess fn off wide (some v) else s)
    | none => if drNamed off then s.instLoad fn off w else s.hostLoad fn w (fun s => s.badRead fn w))

/-- The oldest access to a device-resident ring of another chip ends: with the reply's value, or with none within 500 µs or for the chip's loss. -/
def State.drReplied (s : State) (fn : Nat) (reply : Option Word64) : State :=
  match (s.fn fn).drAccess with
  | [] => s
  | a :: t =>
    let s1 := s.updFn fn (fun f => { f with drAccess := t })
    match reply with
    | some v => if a.2.2 then s1 else s1.emit (.completion fn (toLe (if a.2.1 then 8 else 4) v.toNat))
    | none => s1.drRefused fn a.2.1 (!a.2.2)

/-! ## The window -/

/-- Mailbox registers and slots: 0x200 to 0x20F, 0x400 to 0x5FF. -/
def isMailbox (o : Nat) : Bool := decide (0x200 ≤ o ∧ o < 0x210) || decide (0x400 ≤ o ∧ o < 0x600)

/-- An OUT slot that holds a visible message refuses a write (R966). -/
def State.outSlotPut (s : State) (fn k : Nat) (v : Word64) : State :=
  if slotHeld (s.fn fn).outPi (s.fn fn).outCi 4 (k / 8) then s.fnError fn esBadAccess
  else s.updFn fn (fun f => { f with mbx := putTbl f.mbx (8 * k) (toLe 8 v.toNat) })

/-- INST_DATA_CTL (R955, R957). -/
def State.dataCtl (s : State) (fn : Nat) (v : Word64) : State :=
  if s.hasData then s.updFn fn (fun f => { f with dataCtl := v &&& 0x7FFFFFFF0001 }) else s

/-- DATA_CTL_WRITE. -/
def execDataCtlWrite (fn : Nat) (value : Word64) (s : State) : Host.Outcome State Fault Refusal :=
  .next (s.hostWrite fn true (fun s => s.dataCtl fn value))

/-- An 8-byte register takes a value; `whole` is an 8-byte write. -/
def State.instPut64 (s : State) (fn o : Nat) (whole : Bool) (v : Word64) : State :=
  match o with
  | 0x38 => s.vecselPut fn false v
  | 0x40 => s.vecselPut fn true v
  | 0x60 => if whole then s.guiltyAck fn v else s.fnError fn esBadAccess
  | 0x68 => if whole then s.instSignal fn v else s.fnError fn esBadAccess
  | 0x70 => s.dataCtl fn v
  | _ =>
    match slotAt 0x400 8 32 o, slotAt 0x2000 64 256 o, slotAt 0xD000 32 256 o, slotAt 0xF000 8 4 o with
    | some (k, _), _, _, _ => s.outSlotPut fn k v
    | _, some (r, q), _, _ => s.onSq fn r (fun s n => s.sqPut64 fn n q v)
    | _, _, some (r, q), _ => s.onCq fn r (fun s n => s.cqPut64 fn n q v)
    | _, _, _, some (m, _) => s.causeClear fn (m + 1) v 0
    | _, _, _, _ => s

/-- A 4-byte register takes a value; a read-only one ignores it. -/
def State.instPut32 (s : State) (fn o : Nat) (v : Word32) : State :=
  match o with
  | 0x00 => s.errStatusClear fn v
  | 0x30 => s.causeClear fn 0 (v.setWidth 64) 0
  | 0x118 => s.updFn fn (fun f => { f with capSel := v.setWidth 16 })
  | 0x200 => s.outDoorbell fn v
  | 0x20C => s.inConsume fn v
  | 0xC00 => s.objSel fn v
  | 0xD00 => s.updFn fn (fun f => { f with drSel := v &&& 0x073FFFFF })
  | _ =>
    match slotAt 0x1000 4 256 o, slotAt 0x1400 4 256 o, slotAt 0x2000 64 256 o, slotAt 0xD000 32 256 o, slotAt 0x8000 16 1024 o with
    | some (r, _), _, _, _, _ => s.sqDb fn r v
    | _, some (r, _), _, _, _ => s.cqDb fn r v
    | _, _, some (r, q), _, _ => s.onSq fn r (fun s n => s.sqPut32 fn n q v)
    | _, _, _, some (r, q), _ => s.onCq fn r (fun s n => s.cqPut32 fn n q v)
    | _, _, _, _, some (k, q) => s.vecPut fn k q v
    | _, _, _, _, _ => s

/-- A 4-byte write, half of an 8-byte register where it lies in one (the other half of a W1C register is written zero); a reserved offset discards it with BAD_ACCESS (R946), as a mailbox off the active front end does (15 R676). -/
def State.instPut4 (s : State) (fn o : Nat) (v : Word32) : State :=
  if isMailbox o && !s.isFe then s.fnError fn esBadAccess
  else if drNamed o then (if s.isFe then s.drAccess fn o false (some (v.setWidth 64)) else s)
  else match s.inst64 fn (o / 8 * 8) with
    | some old => s.instPut64 fn (o / 8 * 8) false (halfPut (if 0xF000 ≤ o then 0 else old) (o % 8 == 4) v)
    | none => if (s.inst32 fn o).isSome then s.instPut32 fn o v else s.fnError fn esBadAccess

/-- An offset names a register of the window. -/
def State.instNamed (s : State) (fn o : Nat) : Bool := (s.inst64 fn (o / 8 * 8)).isSome || (s.inst32 fn o).isSome

/-- An 8-byte write to a pair of 4-byte registers: one write to both (04 R209). Each acts on what the other half brings: SQ_SIZE and vector
control on the half below them, CQ_SIZE on the half above. -/
def State.instPair (s : State) (fn o : Nat) (v : Word64) : State :=
  let lo := fun (s : State) => s.instPut4 fn o (v.setWidth 32)
  let hi := fun (s : State) => s.instPut4 fn (o + 4) (v.extractLsb' 32 32)
  if !s.instNamed fn o && !s.instNamed fn (o + 4) then s.fnError fn esBadAccess
  else
    match slotAt 0x2000 64 (s.sqSeen fn) o, slotAt 0xD000 32 (s.cqSeen fn) o with
    | some (r, 0x08), _ => s.onSq fn r (fun s n => s.sqPair fn n v)
    | _, some (_, 0x08) => lo (hi s)
    | _, _ => hi (lo s)

/-- A write of the INSTANCE window; 8 bytes go to an 8-byte register whole, or to a pair (R948). -/
def State.instPut (s : State) (fn o : Nat) (wide : Bool) (v : Word64) : State :=
  if !wide then s.instPut4 fn o (v.setWidth 32)
  else if isMailbox o && !s.isFe then s.fnError fn esBadAccess
  else if drNamed o then (if s.isFe then s.drAccess fn o true (some v) else s)
  else if (s.inst64 fn o).isSome then s.instPut64 fn o true v
  else s.instPair fn o v

/-- INST_CAUSE_CLEAR. -/
def execInstCauseClear (fn reg : Nat) (value firing : Word64) (s : State) : Host.Outcome State Fault Refusal :=
  .next (s.hostWrite fn true (fun s => if reg ≤ 4 then s.causeClear fn reg value firing else s))

/-- ERROR_STATUS_CLEAR. -/
def execErrorStatusClear (fn : Nat) (value : Word32) (s : State) : Host.Outcome State Fault Refusal :=
  .next (s.hostWrite fn true (fun s => s.errStatusClear fn value))

end Sys2Proof.Machine
end

