-- ==== Sys2Proof/Machine/Mgmt.lean ====
section
/-! DEFINITION. Register writes of the host, and MGMT packets as the chip they reach carries them out (02 Table 2-6, 04 R207, 19 R849, 22 R920, 23 R971;
log 17). -/

namespace Sys2Proof.Machine

/-! ## REGISTER_WRITE -/

/-- MGMT registers that take a write before READY (19 R849); in FAILED the command mailbox does not (19 Table 19-2). -/
def State.earlyOk (s : State) (off : Nat) : Bool :=
  s.boot.served && (off == 0x48 || decide (0x100 ≤ off ∧ off < 0x118)
    || (s.boot.state != .failed && (decide (0x100100 ≤ off ∧ off < 0x100304) || off == 0x100804)))

/-- A write of the MGMT window. -/
def State.mgmtHostWrite (s : State) (off width : Nat) (v : Word64) : State :=
  match s.gate 0 with
  | .gone => s
  | .unsupported => s.refuseUr 0 false
  | .closed => s
  | .open_ =>
    if !naturally off width then s.fnError 0 esBadAccess
    else if s.boot.state = .ready || s.boot.state = .hibernate || s.earlyOk off then s.managerWrite off (width == 8) v
    else s

/-- A read of the MGMT window: misaligned or of another size it completes with all ones and is recorded (04 R207). -/
def State.mgmtLoad (s : State) (off width : Nat) : State :=
  s.hostLoad 0 width (fun s =>
    if !naturally off width then s.badRead 0 width
    else
      let r := s.mgmtRead off (width == 8)
      r.2.emit (.completion 0 (toLe width r.1)))

/-- CO_NONCE_READ: the first 8 bytes of SEC_CO_NONCE (22 R941). -/
def execCoNonceRead (s : State) : Host.Outcome State Fault Refusal := .next (s.mgmtLoad 0x901000 8)

/-- DBG_CHALLENGE_READ: the first 8 bytes of DBG_CHALLENGE (22 R945). -/
def execDbgChallengeRead (s : State) : Host.Outcome State Fault Refusal := .next (s.mgmtLoad 0xC00008 8)

/-- BLOCK_ERR_CLEAR. -/
def execBlockErrClear (block : Nat) (value : Word32) (s : State) : Host.Outcome State Fault Refusal :=
  .next (if s.mgmtTakes && decide (block < 14) && !(block = blkFab && s.fuses.grade = Grade.S) then s.errClear block value else s)

/-! ## MGMT packets -/

/-- A chip that has its ID and now its tables answers the root with READY (02 R128): FAB_MC 0 is the last entry the root writes. -/
def State.tablesDone (s : State) (off : Nat) : State :=
  match s.disc.parent with
  | some p => if off = 0x711000 && s.electing && s.dom.chipId ≠ 0 then s.sendDisc p (.ready s.fuses.serial) else s
  | none => s

/-- A register access by another agent. The answer to a read holds its value, one to a lock request the lock word (R923). -/
def State.mgmtAccess (s : State) (src : ChipId) (agent : BitVec 3) (behalf : Bool) (off : Nat) (wide : Bool) (write : Option Word64) : State :=
  let o : BitVec 24 := BitVec.ofNat 24 off
  match write with
  | none =>
    let r := s.mgmtRead off wide
    r.2.ctl src (.mgmtAnswer o (BitVec.ofNat 64 r.1) true)
  | some v =>
    let r := s.tried agent behalf off wide v
    let s1 := r.2.tablesDone off
    let granted := !s.lock.held && s1.lock.held && s1.lock.agent == agent
    if off = 0x48 then
      s1.ctl src (.mgmtAnswer o (BitVec.ofNat 64 s1.lockWord) (if behalf then !r.1 else granted || fld v.toNat 0 2 != 1))
    else if behalf then s1.ctl src (.mgmtAnswer o 0 (!r.1))
    else s1

/-- An access to a device-resident ring of this chip that the active front end carries here (23 R971); INST_GUILTY_ACK is at 0x60. -/
def State.ringAccess (s : State) (src : ChipId) (inst : BitVec 6) (sel : Word32) (off : Nat) (wide : Bool) (write : Option Word64) : State :=
  let i := inst.toNat
  if off = 0x60 then (match write with | some v => s.guiltyWrite i v | none => s)
  else match s.drRing i (drIndex sel) with
    | none => s
    | some n =>
      match write with
      | some v => (s.drPut i n off wide v).ctl src (.ringAnswer inst 0)
      | none => s.ctl src (.ringAnswer inst (BitVec.ofNat 64 (s.drPeek i n (drSlot sel) off wide)))

/-- A device-resident ring of another chip has become guilty, or been acknowledged (23 R952). -/
def State.heardGuilt (s : State) (src : ChipId) (fn ring : Nat) (guilty : Bool) : State :=
  let left := (s.fn fn).drGuilty.filter (fun g => g != (src, ring))
  let s1 := s.updFn fn (fun f => { f with drGuilty := if guilty then left ++ [(src, ring)] else left })
  if guilty then s1.drGuiltyError fn else s1

/-- The incarnation this chip holds for another, or its own. -/
def State.incOf (s : State) (c : ChipId) : BitVec 8 := if c = s.dom.chipId then s.dom.chipInc else Tbl.get 0 s.dom.incs c.toNat

/-- A member's share of a buffer admitted here has moved, or waits (07 R400, R403). -/
def State.heardProgress (s : State) (src : ChipId) (ctx : BitVec 10) (gen : BitVec 16) (moved waits : Bool) : State :=
  let c := ctx.toNat
  match s.owner c with
  | some o =>
    if (s.ctx c).gen ≠ gen then s
    else
      let left := o.waits.filter (· ≠ src)
      let s1 := s.updOwner c (fun w => { w with waits := if waits then left ++ [src] else left })
      if moved then s1.progress o.ring else s1
  | none => s

/-- What a MGMT packet asks of this chip or tells it (02 Table 2-6). -/
def State.mgmtTake (s : State) (src : ChipId) (m : CtlMsg) : State :=
  match m with
  | .mgmt agent behalf off wide write =>
    if (agent = 3 || agent = 4) && off.toNat % (if wide then 8 else 4) = 0 then s.mgmtAccess src agent behalf off.toNat wide write else s
  | .ring inst sel off wide write => s.ringAccess src inst sel off.toNat wide write
  | .refused inst b => if s.isFe then s.fnError inst.toNat b.toNat else s
  | .guilt inst ring guilty => if s.isFe then s.heardGuilt src inst.toNat ring.toNat guilty else s
  | .inval inst all base pages => s.invalHere inst.toNat all base.toNat (pages.toNat * 0x10000)
  | .incRequest chip => s.ctl src (.incAnswer chip (s.incOf chip))
  | .incAnswer chip inc =>
    if src = s.dom.rootId && chip ≠ s.dom.chipId then { s with dom := { s.dom with incs := Tbl.set 0 s.dom.incs chip.toNat inc } } else s
  | .lockBroken agent gen => if s.isFe then s.notify (mboxMsg 0x81 0 2 0 msDone (toLe 2 src.toNat ++ toLe 1 agent.toNat ++ zeros 1 ++ toLe 4 gen.toNat)) else s
  | .mgmtAnswer off value ok => s.takeMgmtAnswer src off value ok
  | .ringAnswer inst value => s.drReplied inst.toNat (some value)
  | .invalDone => s.takeInvalDone src
  | .declare chip => s.heardDeclare src chip
  | .reserve inst slot mask => s.setReserve inst slot mask
  | .progress ctx gen moved waits => s.heardProgress src ctx gen moved waits
  | .flr inst => (s.takeFlr src inst.toNat).pfNext
  | _ => s

/-- What an EPOCH, FENCE_NOTICE or MGMT packet says, at the chip it is for. -/
def State.takeCtl (s : State) (src : ChipId) (m : CtlMsg) : State :=
  match m with
  | .prepare depoch lost part => s.takePrepare src depoch lost part
  | .prepareAck depoch status => s.takePrepareAck src depoch status.toNat
  | .commit depoch routing roster part => s.takeCommit src depoch routing roster part
  | .portLeft port => s.takePortLeft src port
  | .fence chip => s.takeFence src chip
  | _ => s.mgmtTake src m

end Sys2Proof.Machine
end

