-- ==== Sys2Proof/Machine/Debug.lean ====
section
/-! DEFINITION. The local map as a debugger reaches it, and REGISTER_WRITE through each of its windows (03 R145 to R148, 08 R445, R446, 16 R723, R732,
22 R945; log 98). -/

namespace Sys2Proof.Machine

/-! ## The Gallery region (08 Tables 8-5 to 8-7) -/

/-- Packets committed of the transfer whose tail is parked. -/
def State.parkedDone (s : State) (x : Slot) : Nat :=
  if x.ready then x.pktcnt.toNat
  else match s.fab.trackers.find? (fun t => t.src == x.src && t.tid == x.tid) with
    | some t => t.done.length
    | none => 0

/-- The record of pending-signal slot `k` (Table 8-7); a free slot is all zero. -/
def State.slotRecord (s : State) (k : Nat) : List Byte :=
  match Tbl.get none s.gal.slots k with
  | none => zeros 32
  | some x =>
    toLe 2 x.src.toNat ++ toLe 3 x.tid.toNat ++ toLe 1 (x.sig.inst.toNat + 128) ++ toLe 2 (x.sig.obj.toNat + 2 ^ 14 * x.sig.kind.toNat)
      ++ toLe 2 x.sig.amount.toNat ++ toLe 2 x.pktcnt.toNat ++ toLe 2 (s.parkedDone x) ++ zeros 2 ++ toLe 8 x.time.toNat ++ zeros 8

/-- A record of an object is sampled behind every change ahead of it (08 R446). -/
def State.galleryObj (s : State) (kind idx at_ width : Nat) : Nat × State :=
  let s1 := s.observe.touchObj kind idx
  (leAt (s1.objRecord kind idx) at_ width, s1)

/-- A read at an offset of the Gallery region, within one record (Table 8-5); reserved offsets read zero. -/
def State.galleryRead (s : State) (o width : Nat) : Nat × State :=
  if o < 0x80000 then s.galleryObj 0 (o / 32) (o % 32) width
  else if o < 0xA0000 then s.galleryObj 1 ((o - 0x80000) / 32) (o % 32) width
  else if o < 0xA8000 then s.galleryObj 2 ((o - 0xA0000) / 32) (o % 32) width
  else if o < 0xAC000 then (leAt (s.observe.slotRecord ((o - 0xA8000) / 32)) (o % 32) width, s.observe)
  else if o < 0xAC100 then (leAt (toLe 8 (Tbl.get 0 s.act.sgrp ((o - 0xAC000) / 8)).toNat) (o % 8) width, s)
  else (0, s)

/-! ## The local map (03 Tables 3-1, 3-2) -/

/-- The regions a debugger reaches, with the offset in them. -/
inductive Region where
  | memory
  /-- the Hall parts whose layout is the CFE's own -/
  | cfeHall
  | gallery (o : Nat)
  | register (o : Nat)
  | reserved
  deriving DecidableEq, Repr

/-- Where an LPA lies (R145, R146, R148); the carve-out is the Security Controller's, and so is staging until FRONTEND is over (19 R836, R848). -/
def State.regionOf (s : State) (lpa len : Nat) : Region :=
  if lpa + len ≤ dramEnd then (if s.inDram lpa len || s.sec.debug = DbgLevel.s then .memory else .reserved)
  else if hallBase ≤ lpa ∧ lpa < hallBase + 0x700000 then .cfeHall
  else if stagingBase ≤ lpa ∧ lpa < hallEnd then (if s.boot.state = .ready || s.boot.state = .hibernate then .memory else .reserved)
  else if hallBase ≤ lpa ∧ lpa < hallEnd then .memory
  else if tileBase ≤ lpa ∧ lpa < tileBase + tileBytes * s.fuses.grade.tiles then .memory
  else if galleryBase ≤ lpa ∧ lpa < galleryBase + 0x100000 then .gallery (lpa - galleryBase)
  else if regBase ≤ lpa ∧ lpa < regBase + 0x1000000 then .register (lpa - regBase)
  else .reserved

/-- A debugger reaches the LPA at the present level: the DBG_ registers at each, the rest from NS on. -/
def State.debugOpen (s : State) (lpa : Nat) : Bool :=
  s.sec.debug != .locked || decide (regBase + 0x100000 * blkDbg ≤ lpa ∧ lpa < regBase + 0x100000 * (blkDbg + 1))

/-- What a debugger's read returns: of a confidential page zero (16 R723). -/
def State.debugGet (s : State) (lpa width : Nat) : Nat × State :=
  match s.regionOf lpa width with
  | .memory =>
    if s.confDenied 64 false lpa width then (0, s.confRefused 0 s.dom.chipId lpa)
    else match s.readMem 0 lpa width with
      | (.inl bs, s1) => (leAt bs 0 width, s1)
      | (.inr _, s1) => (0, s1)
  | .cfeHall =>
    let d := s.draw (8 * width)
    (d.1.toNat, d.2)
  | .gallery o => s.galleryRead o width
  | .register o => s.mgmtRead o (width == 8)
  | .reserved => (0, s)

/-- A debugger's write. It holds no sequence lock and takes none; the Gallery region discards it (08 R445). -/
def State.debugPut (s : State) (lpa width : Nat) (v : Word64) : State :=
  match s.regionOf lpa width with
  | .memory => if s.confDenied 64 false lpa width then s.confRefused 0 s.dom.chipId lpa else (s.writeMem 0 lpa (toLe width v.toNat)).2
  | .register o => if o = 0x48 then s else s.mgmtPut 0 false o (width == 8) v
  | .cfeHall => s
  | .gallery _ => s
  | .reserved => s

/-- An access of a debugger, of 4 or 8 bytes, aligned. -/
def State.debugAccess (s : State) (lpa width : Nat) (value : Option Word64) : State :=
  if !s.debugOpen lpa || !naturally lpa width || !s.boot.served then s
  else
    match value with
    | some v => s.debugPut lpa width v
    | none =>
      let r := s.debugGet lpa width
      r.2.emit (.debugData (toLe width r.1))

/-! ## REGISTER_WRITE -/

/-- REGISTER_WRITE, and a read of a register where no value is given (log 94). Only function 0 has a MGMT window (04 Table 4-4). -/
def execRegisterWrite (win : Window) (fn off width : Nat) (value : Option Word64) (s : State) : Host.Outcome State Fault Refusal :=
  .next (match win, value with
    | .mgmt, some v => if fn = 0 then s.mgmtHostWrite off width v else s
    | .mgmt, none => if fn = 0 then s.mgmtLoad off width else s
    | .instance_, some v => s.hostWrite fn true (fun s =>
        if naturally off width && off < 0x10000 then s.instPut fn off (width == 8) v else s.fnError fn esBadAccess)
    | .instance_, none => s.instLoad fn off width
    | .debug, v => s.debugAccess off width v)

end Sys2Proof.Machine
end

