-- ==== Sys2Proof/Machine/DataWin.lean ====
section
/-! DEFINITION. The DATA window (03 R190, 04 R206, R208, 16 R718, R723, R726, 23 R955, R956). -/

namespace Sys2Proof.Machine

/-- The window answers with Completer Abort while the instance is under construction (16 R726, 04 R236). -/
def State.dataAbort (s : State) (fn : Nat) : State := s.aer fn aerAbort

/-- The same for a read, which is answered with it. -/
def State.dataAbortRead (s : State) (fn : Nat) : State := (s.aerAnswered fn aerAbort).emit (.completerAbort fn)

/-- The DVA a DATA window offset reaches. -/
def State.dataDva (s : State) (fn off : Nat) : Nat := fld (s.fn fn).dataCtl.toNat 16 31 * 0x10000 + off

/-- Where the bytes of one piece of an access lie. -/
inductive DataAt where
  | here (lpa : Nat) (enc : Bool)
  | away (chip : ChipId) (lpa : Nat) (enc : Bool)
  deriving DecidableEq, Repr

/-- The pieces of an access, each with its DVA, length and place; none where a byte of it faults. -/
def State.dataPieces (s : State) (fn : Nat) (write : Bool) : List (Nat × Nat) → Option (List (Nat × Nat × DataAt)) × State
  | [] => (some [], s)
  | p :: ps =>
    match s.xlate fn p.1 p.2 write with
    | (.mem c lpa enc, s1) =>
      if c = s1.dom.chipId && s1.confDenied fn enc lpa p.2 then (none, s1.confRefused fn s1.dom.chipId lpa)
      else
        let r := s1.dataPieces fn write ps
        (r.1.map (fun t => (p.1, p.2, if c = s1.dom.chipId then DataAt.here lpa enc else DataAt.away c lpa enc) :: t), r.2)
    | (_, s1) => (none, s1)

/-- The places of an access of `len` bytes: ENABLE set, below 0x8000_0000_0000, every page mapped. -/
def State.dataRange (s : State) (fn off len : Nat) (write : Bool) : Option (List (Nat × Nat × DataAt)) × State :=
  let dva := s.dataDva fn off
  if !(s.fn fn).dataCtl.getLsbD 0 || 2 ^ 47 < dva + len then (none, s) else s.dataPieces fn write (piecesOf dva len)

/-- Runs of enabled bytes with their offsets (04 R208). -/
def byteRuns : Nat → List (Option Byte) → List (Nat × List Byte)
  | _, [] => []
  | k, none :: t => byteRuns (k + 1) t
  | k, some b :: t =>
    match byteRuns (k + 1) t with
    | (j, bs) :: r => if j = k + 1 then (k, b :: bs) :: r else (k, [b]) :: (j, bs) :: r
    | [] => [(k, [b])]

/-- One run written: on this chip, where a refused word is a fault too, or by a transfer to another chip. -/
def State.dataPut (s : State) (fn : Nat) (w : DataAt) (k : Nat) (bs : List Byte) : State :=
  match w with
  | .here lpa enc =>
    match s.writeMem (if enc then s.keyOf fn else 0) (lpa + k) bs with
    | (none, s1) => s1
    | (some _, s1) => s1.fnError fn esDataFault
  | .away c lpa enc => s.newXfer c (.hostData fn) ((writePkts (BitVec.ofNat 6 fn) (lpa + k) bs true none).map (fun p => { p with enc := enc }))

/-- DATA_WINDOW_WRITE: a write that faults is discarded whole. -/
def State.dataWrite (s : State) (fn off : Nat) (bytes : List (Option Byte)) : State :=
  if s.enableHeld fn then s.dataAbort fn
  else
    match s.dataRange fn off bytes.length true with
    | (none, s1) => s1.fnError fn esDataFault
    | (some ps, s1) =>
      let dva := s.dataDva fn off
      ps.foldl (fun s p => (byteRuns 0 ((bytes.drop (p.1 - dva)).take p.2.1)).foldl (fun s r => s.dataPut fn p.2.2 r.1 r.2) s) s1

/-- One piece read: its bytes complete now, or when the other chip answers. A word that is uncorrectable gives all ones and a fault (log 76). -/
def State.dataGet (s : State) (fn len : Nat) (w : DataAt) : State :=
  match w with
  | .here lpa enc =>
    match s.readMem (if enc then s.keyOf fn else 0) lpa len with
    | (.inl bs, s1) => s1.emit (.completion fn bs)
    | (.inr _, s1) => (s1.fnError fn esDataFault).emit (.completion fn (List.replicate len 0xFF))
  | .away c lpa enc =>
    (cut256 len 0 len).foldl (fun s p =>
      s.newXfer c (.hostRead fn 0 p.2) [{ readPkt (BitVec.ofNat 6 fn) (lpa + p.1) p.2 true with enc := enc }]) s

/-- DATA_WINDOW_READ: a read that faults returns all ones. -/
def State.dataRead (s : State) (fn off len : Nat) : State :=
  if s.enableHeld fn then s.dataAbortRead fn
  else
    match s.dataRange fn off len false with
    | (none, s1) => (s1.fnError fn esDataFault).emit (.completion fn (List.replicate len 0xFF))
    | (some ps, s1) => ps.foldl (fun s p => s.dataGet fn p.2.1 p.2.2) s1

/-- DATA_WINDOW_WRITE. A write or read longer than the Max Payload Size, of which R208 says nothing, is served whole (DESIGN CHOICE, log 94). -/
def execDataWindowWrite (fn off : Nat) (bytes : List (Option Byte)) (s : State) : Host.Outcome State Fault Refusal :=
  .next (if s.hasData && off < 0x10000000 then s.hostWrite fn false (fun s => s.dataWrite fn off bytes) else if s.pcie.up then s.refuseUr fn false else s)

/-- DATA_WINDOW_READ. -/
def execDataWindowRead (fn off len : Nat) (s : State) : Host.Outcome State Fault Refusal :=
  .next (if s.hasData && off < 0x10000000 then s.hostLoad fn len (fun s => s.dataRead fn off len) else if s.pcie.up then s.refuseUr fn true else s)

end Sys2Proof.Machine
end

