-- ==== Sys2Proof/Machine/Endpoint.lean ====
section
/-! DEFINITION. Configuration space, bus mastering, poisoned writes and the answers to the host reads the device issued (04 R198 to R206, R210 to R216, R233
to R238, R980). The layout inside the capabilities is that of PCIe 5.0 (log 70). -/

namespace Sys2Proof.Machine

/-! ## Bus mastering (R212) and VF count (R200) -/

/-- BUS_MASTER_SET. -/
def execBusMasterSet (fn : Nat) (s : State) : Host.Outcome State Fault Refusal :=
  .next (if s.fnHere fn then s.updFc fn (fun f => { f with bme := true }) else s)

/-- NumVFs takes 0 to 63 while VF Enable is clear. -/
def State.setNumVfs (s : State) (v : BitVec 16) : State :=
  if s.pcie.vfEn || 63 < v.toNat then s else { s with pcie := { s.pcie with numVfs := v } }

/-- NUMVFS_WRITE. -/
def execNumvfsWrite (value : BitVec 16) (s : State) : Host.Outcome State Fault Refusal := .next (if s.pcie.up then s.setNumVfs value else s)

/-! ## Poisoned writes (R235) -/

/-- A poisoned write to a window of a function. -/
def State.poisoned (s : State) (fn : Nat) : State :=
  match s.gate fn with
  | .open_ => (s.fnError fn esPoisoned).aer fn aerPoisoned
  | .gone => s
  | .closed => s
  | .unsupported => s.refuseUr fn false

/-- POISONED_WRITE: a write the endpoint receives and finds poisoned, or what else of Table 4-6 it finds on its link or in its buffers, for which
the table has no command of its own (log 96). -/
def execPoisonedWrite (fn : Nat) (err : TlpError) (s : State) : Host.Outcome State Fault Refusal :=
  .next (if err = .poisoned then s.poisoned fn else if s.pcie.up then s.tlpError fn err else s)

/-! ## Host reads (R216, R980, 03 R188) -/

/-- The bytes a reply brings; none where the read fails. -/
def HostReply.bytes (r : HostReply) (len : Nat) : Option (List Byte) := match r with | .data bs => some (padTo len bs) | _ => none

/-- An XLT_FAULT of a host read. -/
def hostErr (dva access : Nat) : Err := { status := stXltFault, addr := dva, access := access }

/-- A read is a piece of a forwarded read. -/
def HostFor.forRequest (req : Packet) : HostFor → Bool
  | .remote q => q.src == req.src && q.tid == req.tid
  | _ => false

/-- A forwarded read is answered in full once none of its pieces is outstanding. -/
def State.remoteDone (s : State) (req : Packet) : State :=
  if s.pcie.reads.any (fun r => r.use.forRequest req) || s.pcie.readWait.any (fun w => w.2.2.use.forRequest req) then s
  else s.commitTid req.src req.tid 0

/-- What is outstanding of a forwarded read that has failed brings nothing any more. -/
def State.dropReads (s : State) (req : Packet) : State := s.forgetReads (fun u => u.forRequest req)

/-- A host read ends: its bytes reach what asked for them, or what asked fails. A read for another chip that fails is abandoned
(log 77). -/
def State.readEnd (s : State) (use : HostFor) (reply : Option (List Byte)) : State :=
  match use, reply with
  | .dropped, _ => s
  | .ring n idx cnt, some bs => s.ringArrive n idx cnt bs
  | .ring n idx cnt, none =>
    (s.updSq n (fun q => { q with asked := q.asked - cnt })).fetchFail n ((s.sq n).cfg.base.toNat + 64 * (idx.toNat % (s.sq n).n))
  | .buffer c dva _, some bs => s.ctxStage c dva bs
  | .buffer c dva _, none => s.updCtx c (fun k => { k with readErr := some (k.readErr.getD (hostErr dva 4)) })
  | .operand e dva _, some bs => s.opStage e dva bs
  | .operand e dva _, none => s.failOp e (hostErr dva 1)
  | .fence e, some _ => s.opAck e
  | .fence e, none => s.failOp e (hostErr 0 1)
  | .shadow n, some bs => s.producer n (BitVec.ofNat 32 (leAt bs 0 4))
  | .shadow _, none => s
  | .again n tag, some bs => s.refetched n tag bs
  | .again n tag, none =>
    if (s.sq n).again.contains tag then
      (s.dropCached n tag).fetchFail n ((s.sq n).cfg.base.toNat + 64 * ((s.entrySlot n tag).toNat % (s.sq n).n)) else s
  | .remote q, some bs => (s.sendRsp q q.pktidx.toNat q.pktcnt.toNat q.addr.toNat bs).remoteDone q
  | .remote q, none => (s.dropReads q).abandonRead q
  | .remoteFence q, some _ => (s.sendRsp q 0 1 q.addr.toNat []).remoteDone q
  | .remoteFence q, none => (s.dropReads q).abandonRead q

/-- The read with a tag ends, and one that waited takes its tag. -/
def State.endRead (s : State) (r : HostRd) (f : State → State) : State :=
  let s1 := f { s with pcie := { s.pcie with reads := s.pcie.reads.filter (fun x => x.tag ≠ r.tag) } }
  s1.sendWaiting s1.pcie.readWait.length

/-- The outstanding read with a tag. -/
def State.readOf (s : State) (tag : Nat) : Option HostRd := s.pcie.reads.find? (fun r => r.tag == tag)

/-- HOST_READ_COMPLETE: a completion whose tag names no outstanding read is an Unexpected Completion (Table 4-6). -/
def execHostReadComplete (tag : Nat) (reply : HostReply) (s : State) : Host.Outcome State Fault Refusal :=
  .next (match s.readOf tag with
    | none => if s.pcie.up then s.aer 0 aerUnexpected else s
    | some r => s.endRead r (fun s =>
        let s1 := if reply = .poisoned then s.aer r.fn aerPoisoned else s
        s1.readEnd r.use (reply.bytes r.len)))

/-- COMPLETION_TIMEOUT. -/
def execCompletionTimeout (tag : Nat) (s : State) : Host.Outcome State Fault Refusal :=
  .next (match s.readOf tag with
    | none => s
    | some r => s.endRead r (fun s => (s.aer r.fn aerTimeout).readEnd r.use none))

/-! ## Bus Master Enable cleared (R212) -/

/-- Reads of a function that wait for a tag fail at once. -/
def State.failWaiting (s : State) (fn : Nat) : State :=
  let ws := s.pcie.readWait.filter (fun w => w.2.2.fn == fn)
  ws.foldl (fun s w => s.readEnd w.2.2.use none) { s with pcie := { s.pcie with readWait := s.pcie.readWait.filter (fun w => w.2.2.fn != fn) } }

/-- The function stops issuing requests; the condition is reported. -/
def State.stopMaster (s : State) (fn : Nat) (d3hot : Bool) : State :=
  let on := (s.fc fn).bme && !(s.fc fn).d3hot
  let s1 := (s.updFc fn (fun f => if d3hot then { f with d3hot := true } else { f with bme := false })).failWaiting fn
  if on then s1.event evBusMasterOff 0 fn fn 0 else s1

/-- BUS_MASTER_CLEAR: Bus Master Enable cleared, or the function put into D3hot. -/
def execBusMasterClear (fn : Nat) (d3hot : Bool) (s : State) : Host.Outcome State Fault Refusal :=
  .next (if s.fnHere fn then s.stopMaster fn d3hot else s)

/-! ## Configuration space: reads -/

/-- A base address register as written. -/
def State.cfgReg (s : State) (off : Nat) : Nat := (Tbl.get 0 s.pcie.bars off).toNat
def State.setCfgReg (s : State) (off : Nat) (v : Word32) : State :=
  { s with pcie := { s.pcie with bars := Tbl.set 0 s.pcie.bars off v } }

/-- Size and flag bits of a base address register, by its offset in the physical function (Table 4-4); none where there is none. -/
def State.barShape (s : State) (off : Nat) : Option (Nat × Nat) :=
  match off with
  | 0x10 => some (0x1000000, 0x4)
  | 0x18 => some (0x10000, 0x4)
  | 0x184 => some (0x10000, 0x4)
  | 0x20 => if s.hasData then some (0x10000000, 0xC) else none
  | 0x18C => if s.hasData then some (0x10000000, 0xC) else none
  | _ => none

/-- The lower half of a 64-bit base address register, or the upper half above it. -/
def State.barWord (s : State) (off : Nat) : Nat :=
  match s.barShape off with
  | some b => s.cfgReg off / b.1 * b.1 + b.2
  | none => if (s.barShape (off - 4)).isSome then s.cfgReg off else 0

/-- Headers of the capabilities (Table 4-3): ID, version and the next offset. -/
def extCap (id version next : Nat) : Nat := id + version * 2 ^ 16 + next * 2 ^ 20

/-- Registers of the physical function alone. -/
def State.pfRegs (s : State) : List (Nat × Nat) :=
  [(0x00, Config.vendorId.toNat + 0x3A30 * 2 ^ 16),
   (0x2C, s.pcie.subIds.toNat),
   (0x34, 0x40),
   (0x40, 0x00035001),
   (0x44, if (s.fc 0).d3hot then 3 else 0),
   (0x100, extCap 1 2 0x148),
   (0x148, extCap 3 1 0x160),
   (0x14C, s.fuses.serial.toNat % 2 ^ 32),
   (0x150, s.fuses.serial.toNat / 2 ^ 32),
   (0x160, extCap 0x10 1 0x1A0),
   (0x168, b2n s.pcie.vfEn + 8 * b2n (s.fc 1).mse),
   (0x16C, 63 + 63 * 2 ^ 16),
   (0x170, s.pcie.numVfs.toNat),
   (0x174, 1 + 2 ^ 16),
   (0x178, 0x3A31 * 2 ^ 16),
   (0x1A0, extCap 0x19 1 0x1C0),
   (0x1C0, extCap 0x26 1 0x200),
   (0x200, extCap 0x2A 1 0x240),
   (0x240, extCap 0x27 1 0x280),
   (0x280, extCap 0x25 1 0)]

/-- A register of the physical function alone, its base address registers among them. -/
def State.pfConfig (s : State) (off : Nat) : Option Nat :=
  match s.pfRegs.lookup off with
  | some v => some v
  | none => if (s.barShape off).isSome || (0x10 ≤ off && off < 0x28) || (0x184 ≤ off && off < 0x19C) then some (s.barWord off) else none

/-- A register of a virtual function alone. -/
def vfConfig (off : Nat) : Option Nat :=
  match off with
  | 0x00 => some (Config.vendorId.toNat + 0xFFFF * 2 ^ 16)
  | 0x34 => some 0x50
  | 0x100 => some (extCap 1 2 0)
  | _ => if 0x10 ≤ off ∧ off < 0x28 then some 0 else none

/-- Registers every function has. -/
def State.bothRegs (s : State) (fn : Nat) : List (Nat × Nat) :=
  let f := s.fc fn
  let bir := if fn = 0 then 2 else 0
  [(0x04, 2 * b2n (f.mse && fn == 0) + 4 * b2n f.bme + 0x10 * 2 ^ 16),
   (0x08, s.fuses.stepping.code + 0x120000 * 2 ^ 8),
   (0x0C, 0),
   (0x2C, s.pcie.subIds.toNat),
   (0x50, 0x00029010),
   (0x54, 2 + 2 ^ 5 + 2 ^ 15 + 2 ^ 28),
   (0x58, f.errEn.toNat + 2 ^ 4 * b2n f.relaxed + 2 ^ 5 * f.mps.toNat + 2 ^ 8 + 2 ^ 12 * f.mrrs.toNat),
   (0x5C, 5 + 2 ^ 4 * 4 + 2 ^ 10 * 2 + 2 ^ 15 * 3 + 2 ^ 22),
   (0x60, 2 ^ 16 * (s.pcie.rate.toNat + 2 ^ 4 * s.pcie.width.toNat)),
   (0x74, 0x1F + 2 ^ 16 * 3),
   (0x78, f.cplTo.toNat + 2 ^ 12 * b2n (fn == 0 && s.pcie.tags10)),
   (0x7C, 2 * 0x1F),
   (0x90, 0x11 + 2 ^ 16 * (f.vecs.toNat - 1) + 2 ^ 30 * b2n f.fnMask + 2 ^ 31 * b2n f.msixEn),
   (0x94, 0x8000 + bir),
   (0x98, 0xC000 + bir),
   (0x104, f.aerUnc.toNat),
   (0x108, f.aerMask.toNat),
   (0x10C, f.aerSev.toNat),
   (0x110, f.aerCor.toNat),
   (0x114, f.aerCorM.toNat),
   (0x118, f.aerFirst.toNat + 2 ^ 5 * (1 + 4) + 2 ^ 6 * fld f.ecrc.toNat 0 1 + 2 ^ 8 * fld f.ecrc.toNat 1 1)]

/-- A register every function has. -/
def State.bothConfig (s : State) (fn off : Nat) : Option Nat := (s.bothRegs fn).lookup off

/-- Registers inside the capabilities of Table 4-3 whose contents neither the spec nor Table 4-1 gives: the AER header log, the link capabilities
from 0x1A0 on, Link Control and Link Control 2. -/
def cfgOpen (fn off : Nat) : Bool :=
  decide (0x11C ≤ off ∧ off < 0x12C) || (decide (fn = 0) && decide (0x1A0 ≤ off ∧ off < 0x290)) || off == 0x80

/-- The value of a register: a free value where PCIe puts one whose contents the spec does not give, zero where there is none. -/
def State.configRead (s : State) (fn off : Nat) : BitVec 32 × State :=
  match (if fn = 0 then s.pfConfig off else vfConfig off), s.bothConfig fn off with
  | some v, _ => (BitVec.ofNat 32 v, s)
  | none, some v => (BitVec.ofNat 32 v, s)
  | none, none => if cfgOpen fn off then s.draw 32 else (0, s)

/-! ## Configuration space: writes -/

/-- Command: Memory Space Enable (of the physical function; virtual ones take it from SR-IOV control) and Bus Master Enable. -/
def State.putCommand (s : State) (fn : Nat) (v : Word32) : State :=
  let s1 := if fn = 0 then s.updFc 0 (fun f => { f with mse := v.getLsbD 1 }) else s
  if v.getLsbD 2 then s1.updFc fn (fun f => { f with bme := true }) else s1.stopMaster fn false

/-- PMCSR: D0 or D3hot; other states are not supported. -/
def State.putPower (s : State) (v : Word32) : State :=
  match fld v.toNat 0 2 with
  | 0 => s.updFc 0 (fun f => { f with d3hot := false })
  | 3 => s.stopMaster 0 true
  | _ => s

/-- Device Control: error reporting, Relaxed Ordering, payload and read request sizes, Initiate Function Level Reset. -/
def State.putDevice (s : State) (fn : Nat) (v : Word32) : State :=
  let s1 := s.updFc fn (fun f => { f with errEn := v.setWidth 4, relaxed := v.getLsbD 4, mps := if fld v.toNat 5 3 ≤ 2 then BitVec.ofNat 3 (fld v.toNat 5 3) else f.mps,
                                          mrrs := if fld v.toNat 12 3 ≤ 5 then BitVec.ofNat 3 (fld v.toNat 12 3) else f.mrrs })
  if v.getLsbD 15 then (if fn = 0 then s1.flrPf else (s1.flrFn fn).pfNext) else s1

/-- The errors of Table 4-6, as bits of the uncorrectable and correctable registers. -/
def aerUncBits : Word32 := 0x005FF010
def aerCorBits : Word32 := 0x000071C1

/-- Device Control 2: the completion timeout, and in the physical function 10-bit tags; a reserved timeout keeps the field (00 R17). -/
def State.putDevice2 (s : State) (fn : Nat) (v : Word32) : State :=
  let t := fld v.toNat 0 4
  let ok := [0, 1, 2, 5, 6, 9, 10, 13, 14].contains t
  let s1 := s.updFc fn (fun f => { f with cplTo := if ok then BitVec.ofNat 4 t else f.cplTo })
  let s2 := if fn = 0 then { s1 with pcie := { s1.pcie with tags10 := v.getLsbD 12 } } else s1
  s2.sendWaiting s2.pcie.readWait.length

/-- MSI-X control: Enable stays clear in a function without vectors (R220); a lifted mask sends what is pending (R227). -/
def State.putMsix (s : State) (fn : Nat) (v : Word32) : State :=
  let s1 := s.updFc fn (fun f => { f with fnMask := v.getLsbD 30, msixEn := v.getLsbD 31 && f.vecs != 0 })
  (List.range (s1.fc fn).vecs.toNat).foldl (fun s k => s.unmask fn k) s1

/-- SR-IOV control: VF Enable and VF Memory Space Enable. -/
def State.putSriov (s : State) (v : Word32) : State :=
  let s1 := if s.pcie.vfEn && !v.getLsbD 0 then s.disableVfs.pfNext else { s with pcie := { s.pcie with vfEn := v.getLsbD 0 } }
  ((List.range 63).map (· + 1)).foldl (fun s n => s.updFc n (fun f => { f with mse := v.getLsbD 3 })) s1

/-- A write of a register of the physical function alone; whether it is one. -/
def State.pfPut (s : State) (off : Nat) (v : Word32) : Option State :=
  match off with
  | 0x44 => some (s.putPower v)
  | 0x168 => some (s.putSriov v)
  | 0x170 => some (s.setNumVfs (v.setWidth 16))
  | _ => if (s.barShape off).isSome || (s.barShape (off - 4)).isSome then some (s.setCfgReg off v) else none

/-- A write of a register every function has; a read-only one ignores it. -/
def State.configPut (s : State) (fn off : Nat) (v : Word32) : State :=
  match off with
  | 0x04 => s.putCommand fn v
  | 0x58 => s.putDevice fn v
  | 0x78 => s.putDevice2 fn v
  | 0x90 => s.putMsix fn v
  | 0x104 => s.updFc fn (fun f => { f with aerUnc := f.aerUnc &&& ~~~v })
  | 0x108 => s.updFc fn (fun f => { f with aerMask := v &&& aerUncBits })
  | 0x10C => s.updFc fn (fun f => { f with aerSev := v &&& aerUncBits })
  | 0x110 => s.updFc fn (fun f => { f with aerCor := f.aerCor &&& ~~~v })
  | 0x114 => s.updFc fn (fun f => { f with aerCorM := v &&& aerCorBits })
  | 0x118 => s.updFc fn (fun f => { f with ecrc := BitVec.ofNat 2 (fld v.toNat 6 1 + 2 * fld v.toNat 8 1) })
  | _ => s

/-- A configuration write. -/
def State.configWrite (s : State) (fn off : Nat) (v : Word32) : State :=
  match (if fn = 0 then s.pfPut off v else none) with
  | some t => t
  | none => s.configPut fn off v

/-- CONFIG_REQUEST: Retry Status until IMAGES has passed the endpoint's settings (19 R818), Unsupported Request where there is no such function. -/
def execConfigRequest (fn off : Nat) (write : Option Word32) (s : State) : Host.Outcome State Fault Refusal :=
  .next (if !s.pcie.up then s
    else if s.pcie.crs then s.emit (.retryStatus fn)
    else if !s.fnHere fn then s.refuseUr fn true
    else match write with
      | some v => (s.configWrite fn (off / 4 * 4) v).emit (.completion fn [])
      | none =>
        let r := s.configRead fn (off / 4 * 4)
        r.2.emit (.completion fn (toLe 4 r.1.toNat)))

end Sys2Proof.Machine
end

