-- ==== Sys2Proof/Machine/Deliver.lean ====
section
/-! DEFINITION. Packets as they arrive: routing at a port, delivery at the destination by type, multicast copies, holds for resetting parts, abandoned transfers
(02 R87 to R96, R107 to R120, R136 to R140, R985, R988, 08 R441, R442, 13 R590 to R593, 14, 15 R687). One packet for this chip is two commands: PACKET_RECEIVE at
its port, then the row of its type. -/

namespace Sys2Proof.Machine

/-! ## By type -/

/-- INST_CTL (15 R687): STOP and PURGE come from the root, the answers go to it. -/
def State.takeInst (s : State) (p : Packet) : State :=
  let i := leAt p.data 1 1 % 64
  match leAt p.data 0 1 with
  | 1 => if p.src = s.dom.rootId then s.takeStop i else s
  | 2 => if s.dom.root then s.stopAnswered i p.src else s
  | 3 => if p.src = s.dom.rootId then s.takePurge p.src i (BitVec.ofNat 7 (leAt p.data 2 1)) else s
  | 4 => if s.dom.root then s.purgeAnswered i p.src else s
  | _ => s

/-- HEARTBEAT by subtype (14 Table 14-2); `via` is the pair port a BEAT came by, `found` what a winning standby reads of the completion rings. -/
def State.takeHeartbeat (via : Option Nat) (found : List (Nat × List (List Byte))) (s : State) (p : Packet) : State :=
  match hbSub p with
  | 1 => s.takeBeat via p
  | 2 => s.takeEcho p
  | 3 => s.takeClaim p
  | 4 => s.takeGrant p found
  | 5 => s.takeDeny p
  | _ => s

/-- JOURNAL: an epoch at the standby, or, with JEPOCH 0, a write forwarded to the active front end (14 R637, R644). -/
def State.takeRecords (s : State) (p : Packet) : State :=
  if leAt p.data 0 4 = 0 then s.takeForward p else s.takeJournal p

/-- The content of a packet of any type whose answer is the transfer layer's. -/
def takeWith (via : Option Nat) (found : List (Nat × List (List Byte))) : Taker := fun s p =>
  if p.type = tyWrite then (match p.msg with | some m => (.done 0, s.takeColl p m) | none => s.takeWrite p)
  else if p.type = tyReadReq then s.takeRead p
  else if p.type = tyLaunch then s.takeLaunch p
  else if p.type = tyHeartbeat then (.done 0, State.takeHeartbeat via found s p)
  else if p.type = tyJournal then (.done 0, s.takeRecords p)
  else if p.type = tyInstCtl then (.done 0, s.takeInst p)
  else if p.type = tyEpoch || p.type = tyFence || p.type = tyMgmt then
    (.done 0, match p.msg with | some m => if m.type = p.type then s.takeCtl p.src m else s | none => s)
  else (.done 0, s)

/-- The same for packets that were held. -/
def takeAny : Taker := takeWith none []

/-- A packet for this chip whose type matches is delivered; a stop or a reset that waited for it goes on. -/
def State.receive (s : State) (take : Taker) (p : Packet) (ok : Bool) : State :=
  if s.mine p && ok then (s.deliver take p).afterAnswer else s

/-- WRITE_PACKET. -/
def execWritePacket (p : Packet) (s : State) : Host.Outcome State Fault Refusal :=
  .next (s.receive takeAny p (p.type == tyWrite && !p.isVoid && p.msg.isNone))

/-- VOID_RECEIVE (R985). -/
def execVoidReceive (p : Packet) (s : State) : Host.Outcome State Fault Refusal := .next (s.receive takeAny p p.isVoid)

/-- READ_REQ. -/
def execReadReq (p : Packet) (s : State) : Host.Outcome State Fault Refusal := .next (s.receive takeAny p (p.type == tyReadReq))

/-- REMOTE_LAUNCH OPERATION; one of a reserved KIND is acknowledged and does nothing. -/
def execRemoteLaunchOperation (p : Packet) (s : State) : Host.Outcome State Fault Refusal :=
  .next (s.receive takeAny p (p.type == tyLaunch && lKind p.data != 2 && lKind p.data != 3))

/-- REMOTE_LAUNCH ABORT. -/
def execAbortReceived (p : Packet) (s : State) : Host.Outcome State Fault Refusal :=
  .next (s.receive takeAny p (p.type == tyLaunch && lKind p.data == 2))

/-- REMOTE_LAUNCH FAULT_REPORT. -/
def execFaultReportReceived (p : Packet) (s : State) : Host.Outcome State Fault Refusal :=
  .next (s.receive takeAny p (p.type == tyLaunch && lKind p.data == 3))

/-- BEAT. -/
def execBeat (via : Option Nat) (p : Packet) (s : State) : Host.Outcome State Fault Refusal :=
  .next (s.receive (takeWith via []) p (p.type == tyHeartbeat && hbSub p == 1))

/-- ECHO. -/
def execEcho (p : Packet) (s : State) : Host.Outcome State Fault Refusal := .next (s.receive takeAny p (p.type == tyHeartbeat && hbSub p == 2))

/-- CLAIM. -/
def execClaim (p : Packet) (s : State) : Host.Outcome State Fault Refusal := .next (s.receive takeAny p (p.type == tyHeartbeat && hbSub p == 3))

/-- GRANT. -/
def execGrant (p : Packet) (found : List (Nat × List (List Byte))) (s : State) : Host.Outcome State Fault Refusal :=
  .next (s.receive (takeWith none found) p (p.type == tyHeartbeat && hbSub p == 4))

/-- DENY. -/
def execDeny (p : Packet) (s : State) : Host.Outcome State Fault Refusal := .next (s.receive takeAny p (p.type == tyHeartbeat && hbSub p == 5))

/-- JOURNAL. -/
def execJournal (p : Packet) (s : State) : Host.Outcome State Fault Refusal :=
  .next (s.receive takeAny p (p.type == tyJournal && leAt p.data 0 4 != 0))

/-- JOURNAL_FORWARD. -/
def execJournalForward (p : Packet) (s : State) : Host.Outcome State Fault Refusal :=
  .next (s.receive takeAny p (p.type == tyJournal && leAt p.data 0 4 == 0))

/-- INST_CTL of one subtype. -/
def isInst (sub : Nat) (p : Packet) : Bool := p.type == tyInstCtl && leAt p.data 0 1 == sub

/-- STOP. -/
def execInstStop (p : Packet) (s : State) : Host.Outcome State Fault Refusal := .next (s.receive takeAny p (isInst 1 p))

/-- STOPPED. -/
def execInstStopped (p : Packet) (s : State) : Host.Outcome State Fault Refusal := .next (s.receive takeAny p (isInst 2 p))

/-- PURGE. -/
def execInstPurge (p : Packet) (s : State) : Host.Outcome State Fault Refusal := .next (s.receive takeAny p (isInst 3 p))

/-- PURGED. -/
def execInstPurged (p : Packet) (s : State) : Host.Outcome State Fault Refusal := .next (s.receive takeAny p (isInst 4 p))

/-! ## EPOCH, FENCE_NOTICE, MGMT and the transfers of collectives -/

/-- The packet carries a message of its type that a row is for. -/
def Packet.says (p : Packet) (ok : CtlMsg → Bool) : Bool := match p.msg with | some m => m.type == p.type && ok m | none => false

/-- EPOCH_PREPARE. -/
def execEpochPrepare (p : Packet) (s : State) : Host.Outcome State Fault Refusal :=
  .next (s.receive takeAny p (p.says (fun m => match m with | .prepare _ _ _ => true | _ => false)))

/-- EPOCH_COMMIT. -/
def execEpochCommit (p : Packet) (s : State) : Host.Outcome State Fault Refusal :=
  .next (s.receive takeAny p (p.says (fun m => match m with | .commit _ _ _ _ => true | _ => false)))

/-- EPOCH_PREPARE_ACK. -/
def execEpochPrepareAck (p : Packet) (s : State) : Host.Outcome State Fault Refusal :=
  .next (s.receive takeAny p (p.says (fun m => match m with | .prepareAck _ _ => true | _ => false)))

/-- PORT_LEFT_ACTIVE. -/
def execPortLeftActive (p : Packet) (s : State) : Host.Outcome State Fault Refusal :=
  .next (s.receive takeAny p (p.says (fun m => match m with | .portLeft _ => true | _ => false)))

/-- FENCE_NOTICE. -/
def execFenceNotice (p : Packet) (s : State) : Host.Outcome State Fault Refusal :=
  .next (s.receive takeAny p (p.says (fun m => match m with | .fence _ => true | _ => false)))

/-- CHIP_LOSS_DECLARE: a source's declaration, or the root's own finding that no ACTIVE port leads to the chip (R142, R617). -/
def execChipLossDeclare (chip : ChipId) (by_ : Option Packet) (s : State) : Host.Outcome State Fault Refusal :=
  .next (match by_ with
    | some p => s.receive takeAny p (s.dom.root && p.says (fun m => m == .declare chip))
    | none => if s.live then s.lossAtRoot chip false else s)

/-- DECLARATION_TO_STANDBY: a source has found the root unresponsive (R984). -/
def execDeclarationToStandby (p : Packet) (s : State) : Host.Outcome State Fault Refusal :=
  .next (s.receive takeAny p (s.dom.role == .standby && p.says (fun m => match m with | .declare _ => true | _ => false)))

/-- COLLECTIVE_ANNOUNCE: a peer's rank and the end of its check. -/
def execCollectiveAnnounce (p : Packet) (s : State) : Host.Outcome State Fault Refusal :=
  .next (s.receive takeAny p (p.says (fun m => match m with | .announce _ _ _ => true | _ => false)))

/-- COLLECTIVE_CONTRIBUTION. -/
def execCollectiveContribution (p : Packet) (s : State) : Host.Outcome State Fault Refusal :=
  .next (s.receive takeAny p (p.says (fun m => match m with | .contribute _ _ _ _ => true | _ => false)))

/-- REPLAY_CONTRIBUTION_REQUEST. -/
def execReplayContributionRequest (p : Packet) (s : State) : Host.Outcome State Fault Refusal :=
  .next (s.receive takeAny p (p.says (fun m => match m with | .replayAsk _ => true | _ => false)))

/-- REPLAY_FAILURE_NOTICE. -/
def execReplayFailureNotice (p : Packet) (s : State) : Host.Outcome State Fault Refusal :=
  .next (s.receive takeAny p (p.says (fun m => match m with | .replayFail _ _ => true | _ => false)))

/-- A MGMT message that asks or tells; answers have rows of their own. -/
def CtlMsg.isRequest : CtlMsg → Bool
  | .mgmt _ _ _ _ _ => true | .ring _ _ _ _ _ => true | .refused _ _ => true | .guilt _ _ _ => true | .inval _ _ _ _ => true
  | .incRequest _ => true | .incAnswer _ _ => true | .lockBroken _ _ => true | .progress _ _ _ _ => true | .flr _ => true | .reserve _ _ _ => true
  | _ => false

/-- MGMT_PACKET. -/
def execMgmtPacket (p : Packet) (s : State) : Host.Outcome State Fault Refusal := .next (s.receive takeAny p (p.says CtlMsg.isRequest))

/-- MGMT_ANSWER. -/
def execMgmtAnswer (p : Packet) (s : State) : Host.Outcome State Fault Refusal :=
  .next (s.receive takeAny p (p.says (fun m => match m with | .mgmtAnswer _ _ _ => true | _ => false)))

/-- RMT_REPLY: the answer, CHIP_LOST, or NO_REPLY after 500 µs. -/
def execRmtReply (e : RmtEnd) (s : State) : Host.Outcome State Fault Refusal :=
  .next (match e with
    | .answer p => s.receive takeAny p (s.mgr.rmtBusy && p.says (fun m => match m with | .mgmtAnswer _ _ _ => true | _ => false))
    | .lost => if s.mgr.rmtBusy then s.rmtEnd 2 else s
    | .noReply => if s.mgr.rmtBusy then s.rmtEnd 3 else s)

/-- DR_ACCESS_REPLY: the reply of the selected chip to the oldest access under way; none within 500 µs, or the chip is lost. -/
def execDrAccessReply (fn : Nat) (reply : Option Packet) (s : State) : Host.Outcome State Fault Refusal :=
  .next (match reply with
    | some p => s.receive takeAny p (p.says (fun m => match m with | .ringAnswer i _ => i.toNat == fn | _ => false))
    | none => s.drReplied fn none)

/-- INVAL_REPORT. -/
def execInvalReport (p : Packet) (s : State) : Host.Outcome State Fault Refusal :=
  .next (s.receive takeAny p (p.says (fun m => m == .invalDone)))

/-! ## At a port -/

/-- A packet has left the receive buffer of port `n`: its flits go, their credit is owed (R90, R104). -/
def State.consumed (s : State) (n : Nat) (p : Packet) : State :=
  s.updPort n (fun q => { q with link := { q.link with rx := q.link.rx.diff p.flits, owed := Tbl.upd 0 q.link.owed p.vc (· + p.flitCount) } })

/-- Port `n` takes packets: any while ACTIVE, DISC alone while HELD (R130). -/
def State.portTakes (s : State) (n : Nat) (p : Packet) : Bool :=
  s.fabricRuns && decide (n < 24) && ((s.port n).st == .active || ((s.port n).st == .held && p.type == tyDisc))

/-- Multicast ID of a packet; none for a unicast one (R118, R120). -/
def Packet.mcid (p : Packet) : Option Nat := if p.mc then some (p.dst.toNat % 4096) else if p.dst = 0xFFFF then some 0 else none

/-- The packet as it is sent on: one hop level up (R88). -/
def Packet.hop (p : Packet) : Packet := { p with vl := p.vl + 1 }

/-- PACKET_RECEIVE: dropped, sent on, or left to the row of its type (R88, R89, R96, R113 to R115). -/
def execPacketReceive (port : Nat) (p : Packet) (s : State) : Host.Outcome State Fault Refusal :=
  .next (if !s.portTakes port p || p.mcid.isSome then s
    else
      let s1 := s.consumed port p
      if p.malformed then s1.dropPacket p 2
      else if p.dst = s.dom.chipId || p.type = tyDisc then s1
      else if 6 ≤ p.vl.toNat then s1.dropPacket p 1
      else s1.forward p.hop (some port))

/-! ## DISC (R121, R845) -/

/-- A DISC packet at a port: its check, then what it says (R95). -/
def State.discAt (s : State) (port : Nat) (p : Packet) (act : CtlMsg → State) : State :=
  if !s.portTakes port p || p.type ≠ tyDisc || p.malformed then s
  else if p.crc ≠ p.pcrc then s.bumpPcrc
  else match p.msg with
    | some m => act m
    | none => s

/-- ELECT. -/
def execElect (port : Nat) (p : Packet) (s : State) : Host.Outcome State Fault Refusal :=
  .next (s.discAt port p (fun m => match m with | .elect key => s.takeElect port key | _ => s))

/-- PARENT. -/
def execParent (port : Nat) (p : Packet) (s : State) : Host.Outcome State Fault Refusal :=
  .next (s.discAt port p (fun m => match m with | .parent => s.takeParent port | _ => s))

/-- REPORT. -/
def execReport (port : Nat) (p : Packet) (s : State) : Host.Outcome State Fault Refusal :=
  .next (s.discAt port p (fun m => match m with | .report r => s.takeDiscReport port r | _ => s))

/-- ASSIGN. -/
def execAssign (port : Nat) (p : Packet) (s : State) : Host.Outcome State Fault Refusal :=
  .next (s.discAt port p (fun m => match m with | .assign serial id depoch => s.takeAssign port serial id depoch | _ => s))

/-- REJECT. -/
def execReject (port : Nat) (p : Packet) (s : State) : Host.Outcome State Fault Refusal :=
  .next (s.discAt port p (fun m => match m with | .reject serial reason => s.takeReject port serial reason | _ => s))

/-- READY. -/
def execDiscReady (port : Nat) (p : Packet) (s : State) : Host.Outcome State Fault Refusal :=
  .next (s.discAt port p (fun m => match m with | .ready serial => s.takeReady port serial | _ => s))

/-! ## Multicast (R117 to R120, R988) -/

/-- A landing notice (08 R431). -/
def Packet.isNotice (p : Packet) : Bool := p.mc && p.sig && p.tail && p.kind == 3 && p.len == 0 && p.addr.getLsbD 0

/-- The signal of a multicast WRITE enters the FIFO, else waits in a slot, else at the unit; a refused one does nothing (08 R411, R416, R432). -/
def State.copySignal (s : State) (p : Packet) : State :=
  let g := if p.isNotice then { p.toSig with notice := some (BitVec.ofNat 16 (fld p.addr.toNat 16 16)) } else p.toSig
  let kind := sigObjKind p.kind.toNat
  let v := if p.isNotice then 0 else s.objVerdict kind p.obj.toNat p.inst.toNat
  if v ≠ 0 then (if v = 0x10 then s.crossTenant kind p.obj.toNat p.inst.toNat p.src else s)
  else if s.fifoHasRoom && !s.slotWaits then s.fifoPush 1 g
  else match s.freeSlot with
    | some k => s.setSlot k (some { s.slotFor p true with sig := g })
    | none => { s with gal := { s.gal with stalled := s.gal.stalled ++ [g] } }

/-- A copy delivered here: checked, never answered (R95, R119, 15 R688). -/
def State.takeCopy (s : State) (p : Packet) : State :=
  if s.isLost p.src || p.type ≠ tyWrite then s
  else if p.iepoch ≠ (s.inst p.inst.toNat).epoch then s
  else
    let r := s.commitData p
    if r.1 ≠ 0 || !p.sig then r.2 else r.2.copySignal p

/-- A copy for this chip: its check, then its parts, one of which may be resetting (R988). -/
def State.localCopy (s : State) (p : Packet) : State :=
  if p.crc ≠ p.pcrc then s.bumpPcrc
  else match s.resettingPart p with
    | some x =>
      let h : HeldPacket := { part := x.key, packet := p }
      { s with fab := { s.fab with mcHeld := s.fab.mcHeld ++ [h] } }
    | none => s.takeCopy p

/-- Copies sent on by the entry, but to the port of arrival; none at the last hop level (R89, R118). -/
def State.copies (s : State) (e : Word32) (port : Nat) (p : Packet) : State :=
  let out := (portsOf (Nat.land (fld e.toNat 0 24) s.activeMask)).filter (· ≠ port)
  if out.isEmpty then s
  else if 6 ≤ p.vl.toNat then s.dropPacket p 1
  else out.foldl (fun s n => s.sendOn n p.hop) s

/-- MULTICAST_RECEIVE. -/
def execMulticastReceive (port : Nat) (p : Packet) (s : State) : Host.Outcome State Fault Refusal :=
  .next (match p.mcid with
    | none => s
    | some m =>
      if !s.portTakes port p then s
      else
        let s1 := s.consumed port p
        let e : Word32 := Tbl.get 0 s.act.mc m
        if p.malformed then s1.dropPacket p 2
        else if !e.getLsbD 25 then s1.dropPacket p 4
        else
          let s2 := s1.copies e port p
          if e.getLsbD 24 then s2.localCopy p else s2)

/-- MULTICAST_HOLD_EXPIRY: the copy held for a resetting part is dropped (R988). -/
def execMulticastHoldExpiry (index : Nat) (s : State) : Host.Outcome State Fault Refusal :=
  .next (match s.fab.mcHeld[index]? with
    | some h => ({ s with fab := { s.fab with mcHeld := s.fab.mcHeld.eraseIdx index } }).dropPacket h.packet 5
    | none => s)

/-! ## Holds, windows, abandoned transfers -/

/-- PART_RESET_HOLD_EXPIRY: the packet held is answered RETRY_LATER (R140). -/
def execPartResetHoldExpiry (index : Nat) (s : State) : Host.Outcome State Fault Refusal :=
  .next (match s.fab.held[index]? with
    | some h => ({ s with fab := { s.fab with held := s.fab.held.eraseIdx index } }).settle h.packet .later
    | none => s)

/-- WINDOW_RECLAIM: the window of a source idle for four acknowledgement limits is given up (R137). -/
def execWindowReclaim (src : ChipId) (s : State) : Host.Outcome State Fault Refusal :=
  .next (({ s with fab := { s.fab with windows := s.fab.windows.filter (fun w => w.src ≠ src) } }).dropDue (fun e => e.1 == src))

/-- A tracked transfer is abandoned: tracker and parked signal go, its source is told, the manager hears of it (08 R442). -/
def State.abandon (s : State) (t : Tracker) : State :=
  let k := s.slotOf t.src t.tid
  let sig := k.bind (fun n => Tbl.get none s.gal.slots n)
  let arg1 := match sig with | some x => s.objArg (sigObjKind x.sig.kind.toNat) x.sig.obj.toNat | none => 0
  let s1 := (s.dropTracker t.src t.tid).dropDue (fun e => e.1 == t.src && e.2.1 == t.tid)
  let s2 := match k with | some n => s1.setSlot n none | none => s1
  let s3 := s2.event evXferAbandoned 3 t.inst.toNat (t.src.toNat + t.tid.toNat * 2 ^ 16 + t.inst.toNat * 2 ^ 40) arg1
  let q : Packet := { Packet.zero with src := t.src, tid := t.tid, inst := t.inst, pktcnt := t.pktcnt,
                                       sinc := match s.window t.src with | some w => w.sinc | none => Tbl.get 0 s.dom.incs t.src.toNat }
  let s4 := s3.sendNak q 4
  State.releaseOrd takeAny (s4.fab.ordHeld.length + 1) s4

/-- TRANSFER_ABANDON: the transfer-completion limit has passed without a further packet (08 R441). -/
def execTransferAbandon (src : ChipId) (tid : BitVec 24) (s : State) : Host.Outcome State Fault Refusal :=
  .next (match s.tracker src tid with
    | some t => if s.live then (s.abandon t).afterAnswer else s
    | none => s)

/-! ## Operations on tiles -/

/-- What may follow once an operation has stopped: ordered transfers behind its ABORT, a stop, a reset. -/
def State.goOn (s : State) : State := (State.releaseOrd takeAny (s.fab.ordHeld.length + 1) s).afterAnswer

/-- OP_COMPLETE. -/
def execOpComplete (entry : Nat) (check : Check) (s : State) : Host.Outcome State Fault Refusal := .next (s.opComplete entry check).goOn

/-- PROGRESS_BEAT. -/
def execProgressBeat (tile : Nat) (s : State) : Host.Outcome State Fault Refusal := .next (if s.live then (s.beat tile).goOn else s)

/-- Two missed beats in a row while the tile executes an operation: a tile fault (14 R606). -/
def execBeatMissed (tile : Nat) (s : State) : Host.Outcome State Fault Refusal :=
  .next (match s.opOnTile tile with
    | some _ => if s.live then (s.faultTile tile 0x17).goOn else s
    | none => s)

/-- A tile fault found otherwise (14 R606); the command does not say by which checker: a free value. -/
def execTileFault (tile : Nat) (s : State) : Host.Outcome State Fault Refusal :=
  .next (if s.live && decide (tile < s.fuses.grade.tiles) && !(s.tile tile).lost then ((s.draw 8).2.faultTile tile (s.draw 8).1.toNat).goOn else s)

/-! ## A part leaves reset (13 R590, R592) -/

/-- The part's incarnation advances. -/
def State.nextInc (s : State) (x : Part) : State :=
  match x with
  | .tile t => s.updTile t (fun q => { q with inc := q.inc + 1 })
  | .cfe => { s with parts := { s.parts with cfeInc := s.parts.cfeInc + 1 } }
  | .bank b => { s with parts := { s.parts with bankInc := Tbl.upd 0 s.parts.bankInc b (· + 1) } }
  | .memc => { s with parts := { s.parts with memcInc := s.parts.memcInc + 1 } }
  | .port n => s.updPort n (fun q => { q with inc := q.inc + 1 })

/-- Requests held at the part: served where they carry its new incarnation, else refused (R592, R593). -/
def State.meetReqs (s : State) (x : Part) : State :=
  let inc := s.partInc x
  { s with parts := { s.parts with reqs := (s.parts.reqs.filter (fun q => !(q.part == x && !q.waiting && q.inc == inc))).map (fun q =>
      if q.part = x && !q.waiting then { q with waiting := true, refusals := q.refusals + 1 } else q) } }

/-- PART_LEAVES_RESET. The spec has no command for the moment a part's own reset begins: it is the same row with `begins` (log 93, DESIGN CHOICE). -/
def execPartLeavesReset (part : Part) (begins : Bool) (s : State) : Host.Outcome State Fault Refusal :=
  .next (if !s.live then s
    else if begins then
      { s with parts := { s.parts with resetting := if s.parts.resetting.contains part then s.parts.resetting else s.parts.resetting ++ [part] } }
    else
      let s1 := { s with parts := { s.parts with resetting := s.parts.resetting.filter (· ≠ part) } }
      let s2 := (s1.nextInc part).meetReqs part
      let uni := s2.fab.held.filter (fun h => h.part = part.key)
      let multi := s2.fab.mcHeld.filter (fun h => h.part = part.key)
      let s3 := { s2 with fab := { s2.fab with held := s2.fab.held.filter (fun h => h.part ≠ part.key),
                                               mcHeld := s2.fab.mcHeld.filter (fun h => h.part ≠ part.key) } }
      let s4 := uni.foldl (fun s h => State.passOn takeAny s h.packet) s3
      (multi.foldl (fun s h => s.localCopy h.packet) s4).afterAnswer)

end Sys2Proof.Machine
end

