-- ==== Sys2Proof/Machine/Dispatch.lean ====
section
/-! DEFINITION. The meaning of each command: one arm per constructor of Instr, each one direct call. -/

namespace Sys2Proof.Machine

/-- The effect of a command on everything but the queue. -/
def exec (i : Instr) (s : State) : Host.Outcome State Fault Refusal :=
  match i with
  | .sqDoorbell fn ring value => Sys2Proof.Machine.execSqDoorbell fn ring value s
  | .shadowPiPoll ring => Sys2Proof.Machine.execShadowPiPoll ring s
  | .cqDoorbell fn ring value => Sys2Proof.Machine.execCqDoorbell fn ring value s
  | .ringEnable kind fn ring size => Sys2Proof.Machine.execRingEnable kind fn ring size s
  | .registerWrite win fn off width value => Sys2Proof.Machine.execRegisterWrite win fn off width value s
  | .guiltyAck fn value => Sys2Proof.Machine.execGuiltyAck fn value s
  | .instSignal fn value => Sys2Proof.Machine.execInstSignal fn value s
  | .instFence fn => Sys2Proof.Machine.execInstFence fn s
  | .instFenceDone fn => Sys2Proof.Machine.execInstFenceDone fn s
  | .dataWindowWrite fn off bytes => Sys2Proof.Machine.execDataWindowWrite fn off bytes s
  | .dataWindowRead fn off len => Sys2Proof.Machine.execDataWindowRead fn off len s
  | .dataCtlWrite fn value => Sys2Proof.Machine.execDataCtlWrite fn value s
  | .objSelWrite fn value => Sys2Proof.Machine.execObjSelWrite fn value s
  | .objRecordRead fn => Sys2Proof.Machine.execObjRecordRead fn s
  | .drRegisterAccess fn off wide write => Sys2Proof.Machine.execDrRegisterAccess fn off wide write s
  | .drAccessReply fn reply => Sys2Proof.Machine.execDrAccessReply fn reply s
  | .mbxOutDoorbell fn value => Sys2Proof.Machine.execMbxOutDoorbell fn value s
  | .mbxInConsume fn value => Sys2Proof.Machine.execMbxInConsume fn value s
  | .mbxVfInProduce fn value => Sys2Proof.Machine.execMbxVfInProduce fn value s
  | .mbxVfOutConsume fn value => Sys2Proof.Machine.execMbxVfOutConsume fn value s
  | .mbxRspConsume value => Sys2Proof.Machine.execMbxRspConsume value s
  | .instCauseClear fn reg value firing => Sys2Proof.Machine.execInstCauseClear fn reg value firing s
  | .errorStatusClear fn value => Sys2Proof.Machine.execErrorStatusClear fn value s
  | .blockErrClear block value => Sys2Proof.Machine.execBlockErrClear block value s
  | .msixUnmask fn vec => Sys2Proof.Machine.execMsixUnmask fn vec s
  | .coalTimerExpiry ring => Sys2Proof.Machine.execCoalTimerExpiry ring s
  | .functionLevelReset fn => Sys2Proof.Machine.execFunctionLevelReset fn s
  | .vfDisable => Sys2Proof.Machine.execVfDisable s
  | .pfFlr => Sys2Proof.Machine.execPfFlr s
  | .hotReset linkLoss => Sys2Proof.Machine.execHotReset linkLoss s
  | .perstAssert => Sys2Proof.Machine.execPerstAssert s
  | .perstSafeReset => Sys2Proof.Machine.execPerstSafeReset s
  | .perstDeassert => Sys2Proof.Machine.execPerstDeassert s
  | .configRequest fn off write => Sys2Proof.Machine.execConfigRequest fn off write s
  | .busMasterClear fn d3hot => Sys2Proof.Machine.execBusMasterClear fn d3hot s
  | .busMasterSet fn => Sys2Proof.Machine.execBusMasterSet fn s
  | .numvfsWrite value => Sys2Proof.Machine.execNumvfsWrite value s
  | .poisonedWrite fn err => Sys2Proof.Machine.execPoisonedWrite fn err s
  | .hostReadComplete tag reply => Sys2Proof.Machine.execHostReadComplete tag reply s
  | .completionTimeout tag => Sys2Proof.Machine.execCompletionTimeout tag s
  | .ringFetch ring => Sys2Proof.Machine.execRingFetch ring s
  | .entryJudge ring => Sys2Proof.Machine.execEntryJudge ring s
  | .admission => Sys2Proof.Machine.execAdmission s
  | .checkPass ctx => Sys2Proof.Machine.execCheckPass ctx s
  | .dispatchRead ctx => Sys2Proof.Machine.execDispatchRead ctx s
  | .remoteLaunchOperation p => Sys2Proof.Machine.execRemoteLaunchOperation p s
  | .bodyReadDone entry => Sys2Proof.Machine.execBodyReadDone entry s
  | .abortReceived p => Sys2Proof.Machine.execAbortReceived p s
  | .faultReportReceived p => Sys2Proof.Machine.execFaultReportReceived p s
  | .abortAck p => Sys2Proof.Machine.execAbortAck p s
  | .tableEntry ctx => Sys2Proof.Machine.execTableEntry ctx s
  | .standGrant => Sys2Proof.Machine.execStandGrant s
  | .opComplete entry check => Sys2Proof.Machine.execOpComplete entry check s
  | .completionIncrement ctx gen ovf replayed => Sys2Proof.Machine.execCompletionIncrement ctx gen ovf replayed s
  | .hangTimeout ring => Sys2Proof.Machine.execHangTimeout ring s
  | .nop entry => Sys2Proof.Machine.execNop entry s
  | .end_ ctx => Sys2Proof.Machine.execEnd ctx s
  | .copy entry => Sys2Proof.Machine.execCopy entry s
  | .setFlag entry => Sys2Proof.Machine.execSetFlag entry s
  | .clearFlag entry => Sys2Proof.Machine.execClearFlag entry s
  | .test entry => Sys2Proof.Machine.execTest entry s
  | .wait entry => Sys2Proof.Machine.execWait entry s
  | .tallyAdd entry => Sys2Proof.Machine.execTallyAdd entry s
  | .tallyWait entry => Sys2Proof.Machine.execTallyWait entry s
  | .tallyWaitSpace entry => Sys2Proof.Machine.execTallyWaitSpace entry s
  | .barrierArrive entry => Sys2Proof.Machine.execBarrierArrive entry s
  | .fenceGlobal entry => Sys2Proof.Machine.execFenceGlobal entry s
  | .chain entry => Sys2Proof.Machine.execChain entry s
  | .condEnqueue entry => Sys2Proof.Machine.execCondEnqueue entry s
  | .condEnqueuePush entry => Sys2Proof.Machine.execCondEnqueuePush entry s
  | .signalPeer entry => Sys2Proof.Machine.execSignalPeer entry s
  | .timestamp entry => Sys2Proof.Machine.execTimestamp entry s
  | .matmul entry => Sys2Proof.Machine.execMatmul entry s
  | .conv entry => Sys2Proof.Machine.execConv entry s
  | .quantize entry => Sys2Proof.Machine.execQuantize entry s
  | .dequantize entry => Sys2Proof.Machine.execDequantize entry s
  | .attention entry => Sys2Proof.Machine.execAttention entry s
  | .norm entry => Sys2Proof.Machine.execNorm entry s
  | .softmax entry => Sys2Proof.Machine.execSoftmax entry s
  | .elementwise entry => Sys2Proof.Machine.execElementwise entry s
  | .reduce entry => Sys2Proof.Machine.execReduce entry s
  | .gather entry => Sys2Proof.Machine.execGather entry s
  | .scatter entry => Sys2Proof.Machine.execScatter entry s
  | .sample entry => Sys2Proof.Machine.execSample entry s
  | .copyTransform entry => Sys2Proof.Machine.execCopyTransform entry s
  | .allReduce entry => Sys2Proof.Machine.execAllReduce entry s
  | .reduceScatter entry => Sys2Proof.Machine.execReduceScatter entry s
  | .allGather entry => Sys2Proof.Machine.execAllGather entry s
  | .collectiveAnnounce p => Sys2Proof.Machine.execCollectiveAnnounce p s
  | .collectiveContribution p => Sys2Proof.Machine.execCollectiveContribution p s
  | .replayContributionRequest p => Sys2Proof.Machine.execReplayContributionRequest p s
  | .replayFailureNotice p => Sys2Proof.Machine.execReplayFailureNotice p s
  | .waitTimeout entry => Sys2Proof.Machine.execWaitTimeout entry s
  | .galleryApply => Sys2Proof.Machine.execGalleryApply s
  | .fifoRoom => Sys2Proof.Machine.execFifoRoom s
  | .blockLockLoss port => Sys2Proof.Machine.execBlockLockLoss port s
  | .laneLoss port => Sys2Proof.Machine.execLaneLoss port s
  | .trainingAdvance port b0 b1 => Sys2Proof.Machine.execTrainingAdvance port b0 b1 s
  | .trainingTimeout port => Sys2Proof.Machine.execTrainingTimeout port s
  | .trainingBackoff port => Sys2Proof.Machine.execTrainingBackoff port s
  | .downReceived port => Sys2Proof.Machine.execDownReceived port s
  | .flitGroup port pairs => Sys2Proof.Machine.execFlitGroup port pairs s
  | .replayTimeout port => Sys2Proof.Machine.execReplayTimeout port s
  | .resendLimit port retrained => Sys2Proof.Machine.execResendLimit port retrained s
  | .ackDeadline port => Sys2Proof.Machine.execAckDeadline port s
  | .packetReceive port p => Sys2Proof.Machine.execPacketReceive port p s
  | .writePacket p => Sys2Proof.Machine.execWritePacket p s
  | .readReq p => Sys2Proof.Machine.execReadReq p s
  | .readRsp p => Sys2Proof.Machine.execReadRsp p s
  | .xferAck p => Sys2Proof.Machine.execXferAck p s
  | .e2eNakCrc p => Sys2Proof.Machine.execE2eNakCrc p s
  | .e2eNakStale p inc => Sys2Proof.Machine.execE2eNakStale p inc s
  | .e2eNakRetryLater p => Sys2Proof.Machine.execE2eNakRetryLater p s
  | .retryLaterResend dst tid => Sys2Proof.Machine.execRetryLaterResend dst tid s
  | .e2eNakAbandoned p => Sys2Proof.Machine.execE2eNakAbandoned p s
  | .xferAckTimeout dst tid => Sys2Proof.Machine.execXferAckTimeout dst tid s
  | .voidReceive p => Sys2Proof.Machine.execVoidReceive p s
  | .multicastReceive port p => Sys2Proof.Machine.execMulticastReceive port p s
  | .multicastHoldExpiry index => Sys2Proof.Machine.execMulticastHoldExpiry index s
  | .partResetHoldExpiry index => Sys2Proof.Machine.execPartResetHoldExpiry index s
  | .windowReclaim src => Sys2Proof.Machine.execWindowReclaim src s
  | .transferAbandon src tid => Sys2Proof.Machine.execTransferAbandon src tid s
  | .fenceNotice p => Sys2Proof.Machine.execFenceNotice p s
  | .fenceReceived ports => Sys2Proof.Machine.execFenceReceived ports s
  | .elect port p => Sys2Proof.Machine.execElect port p s
  | .rootTimer => Sys2Proof.Machine.execRootTimer s
  | .parent port p => Sys2Proof.Machine.execParent port p s
  | .report port p => Sys2Proof.Machine.execReport port p s
  | .assign port p => Sys2Proof.Machine.execAssign port p s
  | .reject port p => Sys2Proof.Machine.execReject port p s
  | .discReady port p => Sys2Proof.Machine.execDiscReady port p s
  | .collectionClose sinceFabric sinceReport => Sys2Proof.Machine.execCollectionClose sinceFabric sinceReport s
  | .formationWaitExpiry => Sys2Proof.Machine.execFormationWaitExpiry s
  | .assignTimeout => Sys2Proof.Machine.execAssignTimeout s
  | .mgmtPacket p => Sys2Proof.Machine.execMgmtPacket p s
  | .epochPrepare p => Sys2Proof.Machine.execEpochPrepare p s
  | .epochCommit p => Sys2Proof.Machine.execEpochCommit p s
  | .portLeftActive p => Sys2Proof.Machine.execPortLeftActive p s
  | .chipLossDeclare chip by_ => Sys2Proof.Machine.execChipLossDeclare chip by_ s
  | .beatTimer => Sys2Proof.Machine.execBeatTimer s
  | .beat via p => Sys2Proof.Machine.execBeat via p s
  | .echo p => Sys2Proof.Machine.execEcho p s
  | .leaseLapse => Sys2Proof.Machine.execLeaseLapse s
  | .heartbeatLoss => Sys2Proof.Machine.execHeartbeatLoss s
  | .claim p => Sys2Proof.Machine.execClaim p s
  | .grant p found => Sys2Proof.Machine.execGrant p found s
  | .deny p => Sys2Proof.Machine.execDeny p s
  | .claimTimeout => Sys2Proof.Machine.execClaimTimeout s
  | .journalEpochClose => Sys2Proof.Machine.execJournalEpochClose s
  | .journal p => Sys2Proof.Machine.execJournal p s
  | .journalForward p => Sys2Proof.Machine.execJournalForward p s
  | .instStop p => Sys2Proof.Machine.execInstStop p s
  | .instStopped p => Sys2Proof.Machine.execInstStopped p s
  | .instPurge p => Sys2Proof.Machine.execInstPurge p s
  | .instPurged p => Sys2Proof.Machine.execInstPurged p s
  | .scrubPass => Sys2Proof.Machine.execScrubPass s
  | .sramScrub persist => Sys2Proof.Machine.execSramScrub persist s
  | .wckRetrain temp => Sys2Proof.Machine.execWckRetrain temp s
  | .beatMissed tile => Sys2Proof.Machine.execBeatMissed tile s
  | .tileFault tile => Sys2Proof.Machine.execTileFault tile s
  | .partHoldExpiry index => Sys2Proof.Machine.execPartHoldExpiry index s
  | .localRetry index => Sys2Proof.Machine.execLocalRetry index s
  | .partTimeout entry part held => Sys2Proof.Machine.execPartTimeout entry part held s
  | .xltInvalGo value => Sys2Proof.Machine.execXltInvalGo value s
  | .invalReport p => Sys2Proof.Machine.execInvalReport p s
  | .create => Sys2Proof.Machine.execCreate s
  | .destroy => Sys2Proof.Machine.execDestroy s
  | .setStands => Sys2Proof.Machine.execSetStands s
  | .setVectors => Sys2Proof.Machine.execSetVectors s
  | .setDrrings => Sys2Proof.Machine.execSetDrrings s
  | .objAssign => Sys2Proof.Machine.execObjAssign s
  | .shareGroup => Sys2Proof.Machine.execShareGroup s
  | .objReset => Sys2Proof.Machine.execObjReset s
  | .xltRoot => Sys2Proof.Machine.execXltRoot s
  | .hostSlot => Sys2Proof.Machine.execHostSlot s
  | .query => Sys2Proof.Machine.execQuery s
  | .quiesce => Sys2Proof.Machine.execQuiesce s
  | .quiesceComplete inst => Sys2Proof.Machine.execQuiesceComplete inst s
  | .resume => Sys2Proof.Machine.execResume s
  | .save => Sys2Proof.Machine.execSave s
  | .restore host => Sys2Proof.Machine.execRestore host s
  | .dlogEnable => Sys2Proof.Machine.execDlogEnable s
  | .dlogClear => Sys2Proof.Machine.execDlogClear s
  | .dlogFlush => Sys2Proof.Machine.execDlogFlush s
  | .dlogDisable => Sys2Proof.Machine.execDlogDisable s
  | .dlogRoom => Sys2Proof.Machine.execDlogRoom s
  | .confCreate => Sys2Proof.Machine.execConfCreate s
  | .confAssign => Sys2Proof.Machine.execConfAssign s
  | .confMap => Sys2Proof.Machine.execConfMap s
  | .confLoad host => Sys2Proof.Machine.execConfLoad host s
  | .confFinalize => Sys2Proof.Machine.execConfFinalize s
  | .confRelease => Sys2Proof.Machine.execConfRelease s
  | .attest => Sys2Proof.Machine.execAttest s
  | .svnCommit => Sys2Proof.Machine.execSvnCommit s
  | .zeroize => Sys2Proof.Machine.execZeroize s
  | .coNonceRead => Sys2Proof.Machine.execCoNonceRead s
  | .dbgChallengeRead => Sys2Proof.Machine.execDbgChallengeRead s
  | .debugUnlock => Sys2Proof.Machine.execDebugUnlock s
  | .seqlockAcquire agent => Sys2Proof.Machine.execSeqlockAcquire agent s
  | .seqlockCommit agent => Sys2Proof.Machine.execSeqlockCommit agent s
  | .seqlockAbandon agent => Sys2Proof.Machine.execSeqlockAbandon agent s
  | .rmtRead wide => Sys2Proof.Machine.execRmtRead wide s
  | .rmtWrite wide => Sys2Proof.Machine.execRmtWrite wide s
  | .rmtReply e => Sys2Proof.Machine.execRmtReply e s
  | .epochCtlCommit => Sys2Proof.Machine.execEpochCtlCommit s
  | .epochCtlAbandon => Sys2Proof.Machine.execEpochCtlAbandon s
  | .pwrAuto unit_ => Sys2Proof.Machine.execPwrAuto unit_ s
  | .pwrNoSleep unit_ => Sys2Proof.Machine.execPwrNoSleep unit_ s
  | .pwrPark unit_ => Sys2Proof.Machine.execPwrPark unit_ s
  | .hibernateEnter => Sys2Proof.Machine.execHibernateEnter s
  | .hibernateExit cause => Sys2Proof.Machine.execHibernateExit cause s
  | .wakeEdge => Sys2Proof.Machine.execWakeEdge s
  | .tileRetentionTimer tile => Sys2Proof.Machine.execTileRetentionTimer tile s
  | .selfRefreshTimer => Sys2Proof.Machine.execSelfRefreshTimer s
  | .thermalThrottleStep unit_ reading => Sys2Proof.Machine.execThermalThrottleStep unit_ reading s
  | .junctionHold median => Sys2Proof.Machine.execJunctionHold median s
  | .powerSample milliwatts => Sys2Proof.Machine.execPowerSample milliwatts s
  | .timeRecalibrate inc => Sys2Proof.Machine.execTimeRecalibrate inc s
  | .tsyncEdge => Sys2Proof.Machine.execTsyncEdge s
  | .safeArm => Sys2Proof.Machine.execSafeArm s
  | .safeDisarm => Sys2Proof.Machine.execSafeDisarm s
  | .safeTest => Sys2Proof.Machine.execSafeTest s
  | .safeTestEnd readbackLow => Sys2Proof.Machine.execSafeTestEnd readbackLow s
  | .safeStatusClear value => Sys2Proof.Machine.execSafeStatusClear value s
  | .probeRun => Sys2Proof.Machine.execProbeRun s
  | .probeStandGrant stand => Sys2Proof.Machine.execProbeStandGrant stand s
  | .probeCompare v => Sys2Proof.Machine.execProbeCompare v s
  | .probeLate => Sys2Proof.Machine.execProbeLate s
  | .safeStateEnter source detail => Sys2Proof.Machine.execSafeStateEnter source detail s
  | .safeHoldExpiry => Sys2Proof.Machine.execSafeHoldExpiry s
  | .safetyWatchdog => Sys2Proof.Machine.execSafetyWatchdog s
  | .clockLoss clock => Sys2Proof.Machine.execClockLoss clock s
  | .supplyExcursion rail => Sys2Proof.Machine.execSupplyExcursion rail s
  | .supplyCollapse => Sys2Proof.Machine.execSupplyCollapse s
  | .powerUpAon => Sys2Proof.Machine.execPowerUpAon s
  | .sysRstAssert => Sys2Proof.Machine.execSysRstAssert s
  | .sysRstRelease mode i2cAddr testMode => Sys2Proof.Machine.execSysRstRelease mode i2cAddr testMode s
  | .bootRom selfTest romDigest keys => Sys2Proof.Machine.execBootRom selfTest romDigest keys s
  | .memtrain failure => Sys2Proof.Machine.execMemtrain failure s
  | .meminit => Sys2Proof.Machine.execMeminit s
  | .bist failedTiles repaired fatal => Sys2Proof.Machine.execBist failedTiles repaired fatal s
  | .images keys golden => Sys2Proof.Machine.execImages keys golden s
  | .inject failures => Sys2Proof.Machine.execInject failures s
  | .fabric => Sys2Proof.Machine.execFabric s
  | .frontend => Sys2Proof.Machine.execFrontend s
  | .eventRingRoom => Sys2Proof.Machine.execEventRingRoom s
  | .i2cBootReport addr => Sys2Proof.Machine.execI2cBootReport addr s
  | .flashAddr addr value => Sys2Proof.Machine.execFlashAddr addr value s
  | .flashRead addr count => Sys2Proof.Machine.execFlashRead addr count s
  | .flashProgram addr bytes => Sys2Proof.Machine.execFlashProgram addr bytes s
  | .flashErase addr code => Sys2Proof.Machine.execFlashErase addr code s
  | .flashStatus addr => Sys2Proof.Machine.execFlashStatus addr s
  | .i2cRestart addr code => Sys2Proof.Machine.execI2cRestart addr code s
  | .i2cBusTimeout => Sys2Proof.Machine.execI2cBusTimeout s
  | .epochPrepareAck p => Sys2Proof.Machine.execEpochPrepareAck p s
  | .mgmtAnswer p => Sys2Proof.Machine.execMgmtAnswer p s
  | .declarationToStandby p => Sys2Proof.Machine.execDeclarationToStandby p s
  | .progressBeat tile => Sys2Proof.Machine.execProgressBeat tile s
  | .commandDoorbell value => Sys2Proof.Machine.execCommandDoorbell value s
  | .partLeavesReset part begins => Sys2Proof.Machine.execPartLeavesReset part begins s
  | .pcieLinkUp rate width => Sys2Proof.Machine.execPcieLinkUp rate width s
  | .supplyReturn => Sys2Proof.Machine.execSupplyReturn s

end Sys2Proof.Machine
end

