-- ==== Sys2Proof/Machine/Idle.lean ====
section
/-! DEFINITION. What passes in one ACLK cycle in which no command comes: the time counter, the hang timers, reads that wait (07 R403, 09 R464, 20 R878;
log 3). -/

namespace Sys2Proof.Machine

/-- The hang timers that run go on by one cycle (07 R403). -/
def State.tickHangs (s : State) : State :=
  { s with sqs := Tbl.mapAll Sq.reset s.sqs (fun n q => if q.cfg.size != 0 && s.hangRuns (.host n) then { q with hangNs := q.hangNs + s.clk.inc } else q),
           drs := Tbl.mapAll Dr.reset s.drs (fun n d => if d.size != 0 && s.hangRuns (.dr n) then { d with hangNs := d.hangNs + s.clk.inc } else d) }

/-- A unit's residency after one more cycle in the state it is in. -/
def State.dwell (s : State) (u : Nat) (r : Residency) : Residency :=
  let x := s.punit u
  let ns := s.clk.inc
  let low := s.unitState u ≠ 0
  { run := if low then r.run else r.run + ns, low := if low then r.low + ns else r.low,
    slow := if x.throttling then r.slow + ns else r.slow, wait := if x.status = 1 || x.status = 2 then r.wait + ns else r.wait }

/-- Every unit's residency goes on by one cycle (20 R872; log 61). -/
def State.tickUnits (s : State) : State :=
  { s with pwr := { s.pwr with resid := ((List.range 98).filter unitSeen).foldl (fun t u => Tbl.upd Residency.reset t u (s.dwell u)) s.pwr.resid } }

/-- What a step does on an empty queue: the block idles for one ACLK cycle (log 3). -/
def idle (s : State) : State := s.tick.tickHangs.tickUnits.serveHeld.invalCheck

end Sys2Proof.Machine
end

