-- ==== Sys2Proof/Safety.lean ====
section
/-! DEFINITION. What counts as a safe run of the block, in the terms the claims use. -/

namespace Sys2Proof.Machine

/-- A step that goes on: a next state, no fault and no refusal. -/
def Continues (s : State) : Prop := ∃ t, step s = .next t

/-- A write of the host to the INSTANCE window of function `fn` reaches its registers: the function answers, and the chip is READY
(04 R201, R210, R211, 19 R849). -/
def Reaches (s : State) (fn : Nat) : Prop := s.gate fn = .open_ ∧ s.boot.state = .ready

/-- The manager's write of the MGMT window reaches its registers (19 R849, 20 R874). -/
def ManagerReaches (s : State) : Prop := s.gate 0 = .open_ ∧ (s.boot.state = .ready ∨ s.boot.state = .hibernate)

/-- The commands by which a token of the Crypto Officer can reach the Security Controller, so the only ones that may change the fuse bank
(16 R711): its own submission, the register writes, and the commands at which packets are taken, among them a MGMT packet that has waited. -/
def fuseCommand : Instr → Bool
  | .registerWrite _ _ _ _ _ => true
  | .drAccessReply _ _ => true
  | .remoteLaunchOperation _ => true
  | .abortReceived _ => true
  | .faultReportReceived _ => true
  | .opComplete _ _ => true
  | .collectiveAnnounce _ => true
  | .collectiveContribution _ => true
  | .replayContributionRequest _ => true
  | .replayFailureNotice _ => true
  | .writePacket _ => true
  | .readReq _ => true
  | .voidReceive _ => true
  | .transferAbandon _ _ => true
  | .fenceNotice _ => true
  | .mgmtPacket _ => true
  | .epochPrepare _ => true
  | .epochCommit _ => true
  | .portLeftActive _ => true
  | .chipLossDeclare _ _ => true
  | .beat _ _ => true
  | .echo _ => true
  | .claim _ => true
  | .grant _ _ => true
  | .deny _ => true
  | .journal _ => true
  | .journalForward _ => true
  | .instStop _ => true
  | .instStopped _ => true
  | .instPurge _ => true
  | .instPurged _ => true
  | .beatMissed _ => true
  | .tileFault _ => true
  | .invalReport _ => true
  | .svnCommit => true
  | .zeroize => true
  | .rmtRead _ => true
  | .rmtWrite _ => true
  | .rmtReply _ => true
  | .epochPrepareAck _ => true
  | .mgmtAnswer _ => true
  | .declarationToStandby _ => true
  | .progressBeat _ => true
  | .partLeavesReset _ _ => true
  | _ => false

/-- The sparse tables whose canonical form every step keeps: device memory, and the bits of words and of group tags that are wrong. -/
def Mem.wf (m : Mem) : Bool := Tbl.wf 0 m.bytes && (Tbl.wf 0 m.flips && Tbl.wf 0 m.tagDiff)

/-- Every Gallery table is canonical: no object is listed that holds its reset value (08 R405, R994). -/
def Gallery.wf (g : Gallery) : Bool :=
  Tbl.wf false g.flags && Tbl.wf 0 g.tallies && Tbl.wf Bar.reset g.bars && Tbl.wf Last.reset g.last && Tbl.wf false g.poisoned

end Sys2Proof.Machine
end

