-- ==== Sys2Proof/Certificates/Slice0/Obligations.lean ====
section
/-! DEFINITION. The statements about the model, one definition each; OBLIGATIONS.json lists them with the rules they rest on. -/

open Sys2Proof Sys2Proof.Machine


/-- A step with the command c at the front of its queue is exec of c on the state with the rest of the queue: the queue is the model's own (log 1). With
no command waiting the chip lets one ACLK cycle pass: the time counter advances by the increment, or, while it holds for TSYNC, stands still and the hold
falls by the increment; then the hang timers that run and every unit's residency go on, reads that wait are served where they may be, and an
invalidation that is through ends. That an idle step is one ACLK cycle is the model's choice (log 3). -/
def Obligations.StepRunsFront : Prop :=
  (∀ (s : State) (c : Instr) (q : List Instr), s.pending = c :: q → step s = exec c { s with pending := q }) ∧
  (∀ s : State, s.pending = [] →
    (s.clk.hold = 0 → step s =
      .next (({ s with clk := { s.clk with time := s.clk.time + BitVec.ofNat 64 s.clk.inc } }).tickHangs.tickUnits.serveHeld.invalCheck)) ∧
    (0 < s.clk.hold → step s = .next (({ s with clk := { s.clk with hold := s.clk.hold - s.clk.inc } }).tickHangs.tickUnits.serveHeld.invalCheck)))

/-- After reset no command waits and nothing has been sent; the start state is RESET; SAFE_N is low and not armed; every GPIO is an input; TAG_BASE of
every submission ring is 1 and every ring is disabled; FAB_LIMITS is 0x03E80004 in both sets; every Gallery object reads zero; every port is DOWN;
memory lists nothing (the value an unlisted byte reads as is the choice of log 6). -/
def Obligations.ResetValues : Prop :=
  State.reset.pending = [] ∧ State.reset.out = [] ∧ State.reset.boot.state = .reset ∧ State.reset.safe.safeN = false ∧
  State.reset.safe.armed = false ∧ State.reset.pins.gpioDir = 0 ∧
  (∀ n, (State.reset.sq n).cfg.tagBase = 1 ∧ (State.reset.sq n).cfg.size = 0 ∧ (State.reset.cq n).size = 0 ∧ (State.reset.dr n).size = 0) ∧
  State.reset.act.limits = 0x03E80004 ∧ State.reset.shd.limits = 0x03E80004 ∧
  (∀ n, State.reset.flag n = false ∧ State.reset.tally n = 0 ∧ State.reset.bar n = Bar.reset) ∧
  (∀ n, (State.reset.port n).st = .down) ∧ State.reset.mem.bytes = []

/-- For every state s in which each fused minimum SVN is at least m and the rest of the fuse bank is f: if a step answers next t, then the same holds of
t, so no minimum ever falls and nothing else of the fuse bank moves. Every command beside those at which a token of the Crypto Officer can be submitted
(its own, the register writes, and the commands at which packets are taken) leaves the whole fuse bank as it was; so boot never raises a minimum. -/
def Obligations.FusesOnlyRise : Prop :=
  (∀ (s t : State) (m : Nat → Nat) (f : Fuses), (∀ k, m k ≤ (Tbl.get 0 s.fuses.svnMin k).toNat) → { s.fuses with svnMin := [] } = f →
    step s = .next t → (∀ k, m k ≤ (Tbl.get 0 t.fuses.svnMin k).toNat) ∧ { t.fuses with svnMin := [] } = f) ∧
  (∀ (c : Instr) (s t : State), exec c s = .next t → Sys2Proof.Machine.fuseCommand c = false → t.fuses = s.fuses)

/-- At reset each fused minimum SVN is at least zero and the rest of the fuse bank is that of the part modelled (its fused values are log 5); memory and
the boot flash are in canonical form (log 6, log 20). -/
def Obligations.InvariantsAtReset : Prop :=
  (∀ k, 0 ≤ (Tbl.get 0 State.reset.fuses.svnMin k).toNat) ∧ { State.reset.fuses with svnMin := [] } = Fuses.part ∧
  Mem.wf State.reset.mem = true ∧ Tbl.wf 0xFF State.reset.flash.bytes = true

/-- Every command answers a next state, on every state and operands, but a SYS_RST_RELEASE with TEST_MODE high while SYS_RST_N is low, and in that next
state the commands that wait are those that waited before, in their order: the queue is the model's own (log 1). -/
def Obligations.CommandsLeaveTheQueue : Prop :=
  (∀ (c : Instr) (s : State), (∀ m a, s.boot.sysRst = true → c ≠ .sysRstRelease m a 1) → ∃ t, exec c s = .next t ∧ t.pending = s.pending) ∧
  (∀ (s : State) m a, s.boot.sysRst = true → exec (.sysRstRelease m a 1) s = .refused .productionTest)

/-- Memory and the boot flash are lists of cells in rising order of address, none holding the value an unlisted address reads as, and the wrong bits of
words and of group tags are kept in the same form (log 6, log 20, log 104): the invariant the statements on reading back after a write take as their
premise. It is kept by a write and a read of device memory (which corrects), by a change of key, by zeroing ranges, by clearing a tile, by a reset cold or
warm, and by programming and erasing the flash. -/
def Obligations.MemoryStaysCanonical : Prop :=
  (∀ (s : State) (key a n : Nat) (bs : List Byte) (blocks : List Nat) (rs : List (Nat × Nat)) (tile : Nat) (warm : Bool), Mem.wf s.mem = true →
    Mem.wf (s.writeMem key a bs).2.mem = true ∧ Mem.wf (s.readMem key a n).2.mem = true ∧ Mem.wf (s.rekey key blocks).mem = true ∧
    Mem.wf (s.zeroRanges rs).mem = true ∧ Mem.wf (s.clearTile tile).mem = true ∧ Mem.wf (s.chipReset warm).mem = true) ∧
  (∀ (s t : State) (bs : List Byte) (addr : BitVec 7) (code : Byte), Tbl.wf 0xFF s.flash.bytes = true →
    Tbl.wf 0xFF (s.program bs).flash.bytes = true ∧ (exec (.flashErase addr code) s = .next t → Tbl.wf 0xFF t.flash.bytes = true))

/-- A write of P to INST_SQ_DB of a ring held by the function, on the active front end: an enabled ring with K the last accepted and C the release index
takes P when P - K is 1 to 2^31 - 1 and P - C at most the ring's size (K becomes P, and the index is journaled); P = K changes nothing; P - K of 2^31
or more is counted as stale; P - C above the size is refused with DB_OVERRUN. A disabled ring refuses with DB_DISABLED, a ring the function does not
hold with BAD_ACCESS. Elsewhere the standby forwards the write to the active front end in a JOURNAL packet, a data portal reports it, any other chip
discards it. -/
def Obligations.SubmissionDoorbell : Prop :=
  ∀ (s : State) (fn ring n : Nat) (p : Word32), Reaches s fn →
    (s.isFe = true → s.sqRing fn ring = none → exec (.sqDoorbell fn ring p) s = .next (s.fnError fn esBadAccess)) ∧
    (s.isFe = false →
      (s.dom.role = .standby → exec (.sqDoorbell fn ring p) s = .next
        (s.newXfer s.dom.frontEnd .ctl [ctlPkt tyJournal (BitVec.ofNat 6 fn) (zeros 8 ++ indexRec fn ring 0 p)])) ∧
      (s.dom.role = .dataPortal → exec (.sqDoorbell fn ring p) s = .next (s.event evDataPortalDoorbell 0 fn fn (0x1000 + 4 * ring))) ∧
      (s.dom.role = .member ∨ s.dom.role = .frontEnd → exec (.sqDoorbell fn ring p) s = .next s)) ∧
    (s.isFe = true → s.sqRing fn ring = some n → (s.sq n).cfg.size = 0 →
      exec (.sqDoorbell fn ring p) s = .next (s.fnError (s.ringInst (.host n)) esDbDisabled)) ∧
    (s.isFe = true → s.sqRing fn ring = some n → (s.sq n).cfg.size ≠ 0 →
      (p = (s.sq n).k → exec (.sqDoorbell fn ring p) s = .next s) ∧
      (2 ^ 31 ≤ (p - (s.sq n).k).toNat →
        exec (.sqDoorbell fn ring p) s = .next (s.updSq n (fun q => { q with stale := satInc q.stale }))) ∧
      (p ≠ (s.sq n).k → (p - (s.sq n).k).toNat < 2 ^ 31 → 2 ^ (s.sq n).cfg.size.toNat < (p - (s.sq n).release).toNat →
        exec (.sqDoorbell fn ring p) s = .next (s.fnError (s.ringInst (.host n)) esDbOverrun)) ∧
      (p ≠ (s.sq n).k → (p - (s.sq n).k).toNat < 2 ^ 31 → (p - (s.sq n).release).toNat ≤ 2 ^ (s.sq n).cfg.size.toNat →
        exec (.sqDoorbell fn ring p) s = .next ((s.updSq n (fun q => { q with k := p })).journal
          (indexRec (s.ringInst (.host n)) (s.ringLocal (.host n)) 0 p))))

/-- A write of INST_SQ_DB that reaches a disabled ring held by the function answers a next state in which no ring has changed and DB_DISABLED is set, and
has been counted, in the error status of the ring's function. (R251) -/
def Obligations.DisabledRingDoorbell : Prop :=
  ∀ (s : State) (fn ring n : Nat) (p : Word32), Reaches s fn → s.isFe = true → s.sqRing fn ring = some n → (s.sq n).cfg.size = 0 →
    ∃ t, exec (.sqDoorbell fn ring p) s = .next t ∧ t.sqs = s.sqs ∧ t.cqs = s.cqs ∧ t.drs = s.drs ∧
      (t.fn (s.ringInst (.host n))).err.getLsbD esDbDisabled = true ∧
      Tbl.get 0 (t.fn (s.ringInst (.host n))).errCnt esDbDisabled = satInc (Tbl.get 0 (s.fn (s.ringInst (.host n))).errCnt esDbDisabled)

/-- When POLL_US, not zero, passes on a ring that may read the host, the chip reads the 4 bytes at SHADOW_PI: bytes on this chip are a doorbell at once;
through host slot 0 to 7 of this portal that permits the read, a host read of 4 bytes is issued whose data, when they come, are a doorbell; a read that is refused
brings nothing (log 36). A doorbell of P at an enabled ring with K the last accepted and C the release index makes K be P, journaled, where P - K is 1 to
2^31 - 1 and P - C at most the ring's size. Where the ring may not read, or POLL_US is zero, nothing happens. -/
def Obligations.ShadowIndexPoll : Prop :=
  ∀ (s : State) (n : Nat),
    (s.ringReads n = true → (s.sq n).cfg.pollUs ≠ 0 →
      (∀ bs s1, s.gatherPiece (s.ringInst (.host n)) [] 4 (s.sq n).cfg.shadowPi.toNat (s.sq n).cfg.shadowPi.toNat 4 = (.bytes bs, s1) →
        exec (.shadowPiPoll n) s = .next (s1.producer n (BitVec.ofNat 32 (leAt bs 0 4)))) ∧
      (∀ asks s1, s.gatherPiece (s.ringInst (.host n)) [] 4 (s.sq n).cfg.shadowPi.toNat (s.sq n).cfg.shadowPi.toNat 4 = (.need asks, s1) →
        exec (.shadowPiPoll n) s = .next (asks.foldl (fun s a => s.ask (s.ringInst (.host n)) true false a (fun _ _ => .shadow n) (fun _ _ => .shadow n)) s1)) ∧
      (∀ x s1, s.gatherPiece (s.ringInst (.host n)) [] 4 (s.sq n).cfg.shadowPi.toNat (s.sq n).cfg.shadowPi.toNat 4 = (.bad x, s1) →
        exec (.shadowPiPoll n) s = .next s1)) ∧
    (s.ringReads n = false ∨ (s.sq n).cfg.pollUs = 0 → exec (.shadowPiPoll n) s = .next s) ∧
    (∀ p : Word32, (s.sq n).cfg.size ≠ 0 → p ≠ (s.sq n).k → (p - (s.sq n).k).toNat < 2 ^ 31 → (p - (s.sq n).release).toNat ≤ 2 ^ (s.sq n).cfg.size.toNat →
      s.producer n p = (s.updSq n (fun q => { q with k := p })).journal (indexRec (s.ringInst (.host n)) (s.ringLocal (.host n)) 0 p)) ∧
    (∀ bs, s.readEnd (.shadow n) (some bs) = s.producer n (BitVec.ofNat 32 (leAt bs 0 4)) ∧ s.readEnd (.shadow n) none = s)

/-- A write of H to INST_CQ_DB of a completion ring held by the function, on the active front end: a value between the last accepted and the write index
becomes H, is journaled, and lets waiting records out; one beyond is refused with CQ_DB_BAD and no ring changes. A ring the function does not hold
gives BAD_ACCESS. Off the active front end the ring is not touched. -/
def Obligations.CompletionDoorbell : Prop :=
  ∀ (s : State) (fn ring c : Nat) (v : Word32), Reaches s fn →
    (s.isFe = true → s.cqRing fn ring = none → exec (.cqDoorbell fn ring v) s = .next (s.fnError fn esBadAccess)) ∧
    (s.isFe = false → exec (.cqDoorbell fn ring v) s = .next (s.ringElsewhere fn (0x1400 + 4 * ring) (indexRec fn ring 1 v))) ∧
    (s.isFe = true → s.cqRing fn ring = some c →
      ((v - (s.cq c).h).toNat ≤ ((s.cq c).wr - (s.cq c).h).toNat →
        exec (.cqDoorbell fn ring v) s = .next (((s.updCq c (fun q => { q with h := v })).journal
          (indexRec ((s.cqInst c).getD 0) (c - (s.inst ((s.cqInst c).getD 0)).cqFirst) 1 v)).flushCq c)) ∧
      (((s.cq c).wr - (s.cq c).h).toNat < (v - (s.cq c).h).toNat →
        exec (.cqDoorbell fn ring v) s = .next (s.fnError ((s.cqInst c).getD 0) esCqDbBad)))

/-- A write of INST_CQ_DB that reaches a ring of the function with a value ahead of the device's write index or behind the last value accepted, modulo
2^32, leaves every completion ring as it was and sets CQ_DB_BAD in the function's error status. (R283) -/
def Obligations.ConsumerAheadRefused : Prop :=
  ∀ (s : State) (fn ring c : Nat) (v : Word32), Reaches s fn → s.isFe = true → s.cqRing fn ring = some c →
    ((s.cq c).wr - (s.cq c).h).toNat < (v - (s.cq c).h).toNat →
    ∃ t, exec (.cqDoorbell fn ring v) s = .next t ∧ t.cqs = s.cqs ∧ t.sqs = s.sqs ∧
      (t.fn ((s.cqInst c).getD 0)).err.getLsbD esCqDbBad = true

/-- A SIZE of 4 to 16 (4 to 14 on a device-resident ring) written to a disabled ring held by the function, on the active front end, outside the
construction of a confidential instance, enables it with the ring's other fields: a completion ring starts with write index and H zero; a submission
ring starts afresh, its RESERVE kept where its instance may reserve those stands; both journal their configuration and a real-time ring tells every
member what it reserves. A CLASS 1 ring beyond RT_MAX, or whose RT_SLOT another enabled ring holds, is enabled as a WRR ring with BAD_ACCESS. A
device-resident ring is not enabled past 32,768 entries of the chip. On an enabled ring of any kind the write is ignored with SETUP. A SIZE out of
range, or 0, changes nothing. A ring the function does not hold gives BAD_ACCESS, off the active front end the write is discarded. -/
def Obligations.RingEnabling : Prop :=
  ∀ (s : State) (fn ring n : Nat) (z : BitVec 5), Reaches s fn →
    (∀ k, s.isFe = false → exec (.ringEnable k fn ring z) s = .next s) ∧
    (s.isFe = true →
      (s.sqRing fn ring = none → exec (.ringEnable .sq fn ring z) s = .next (s.fnError fn esBadAccess)) ∧
      (s.cqRing fn ring = none → exec (.ringEnable .cq fn ring z) s = .next (s.fnError fn esBadAccess)) ∧
      (s.drRing fn ring = none → exec (.ringEnable .dr fn ring z) s = .next (s.fnError fn esBadAccess)) ∧
      (s.sqRing fn ring = some n → (s.sq n).cfg.size ≠ 0 ∨ s.enableHeld fn = true → exec (.ringEnable .sq fn ring z) s = .next (s.fnError fn esSetup)) ∧
      (s.cqRing fn ring = some n → (s.cq n).size ≠ 0 ∨ s.enableHeld fn = true → exec (.ringEnable .cq fn ring z) s = .next (s.fnError fn esSetup)) ∧
      (s.drRing fn ring = some n → (s.dr n).size ≠ 0 ∨ s.enableHeld fn = true → exec (.ringEnable .dr fn ring z) s = .next (s.fnError fn esSetup)) ∧
      (s.enableHeld fn = false → (z < 4 ∨ 16 < z) →
        (s.sqRing fn ring = some n → (s.sq n).cfg.size = 0 → exec (.ringEnable .sq fn ring z) s = .next s) ∧
        (s.cqRing fn ring = some n → (s.cq n).size = 0 → exec (.ringEnable .cq fn ring z) s = .next s)) ∧
      (s.enableHeld fn = false → (z < 4 ∨ 14 < z ∨ 32768 < s.drEntries + 2 ^ z.toNat) → s.drRing fn ring = some n → (s.dr n).size = 0 →
        exec (.ringEnable .dr fn ring z) s = .next s) ∧
      (s.enableHeld fn = false → ¬ z < 4 → ¬ 16 < z → s.cqRing fn ring = some n → (s.cq n).size = 0 →
        exec (.ringEnable .cq fn ring z) s = .next (let t := s.updCq n (fun q => { q with size := z, wr := 0, h := 0, hApp := 0, reserved := 0, fresh := 0 })
          t.journal (t.cqCfgRec n))) ∧
      (s.enableHeld fn = false → ¬ z < 4 → ¬ 16 < z → s.sqRing fn ring = some n → (s.sq n).cfg.size = 0 →
        ((s.sq n).cfg.realTime = false ∨ (s.rtRings fn < (s.inst fn).rtMax ∧ s.rtHeld n (s.sq n).cfg.rtSlot = false) →
          exec (.ringEnable .sq fn ring z) s = .next (let t := s.updSq n (fun q => { Sq.reset with
              cfg := { (s.sq n).cfg with size := z, reserve := if s.reserveOk fn n (s.sq n).cfg.realTime (s.sq n).cfg.reserve then (s.sq n).cfg.reserve else 0 },
              e := (s.sq n).cfg.tagBase.toNat, w := (s.sq n).cfg.tagBase.toNat - 1, stale := q.stale, redeliv := q.redeliv,
              faults := q.faults, halted := (s.fn fn).halt != 0, waitEpoch := s.openEpoch })
            (t.journal (t.sqCfgRec n)).tellReserve fn n)) ∧
        ((s.sq n).cfg.realTime = true → ((s.inst fn).rtMax ≤ s.rtRings fn ∨ s.rtHeld n (s.sq n).cfg.rtSlot = true) →
          exec (.ringEnable .sq fn ring z) s = .next (let t := s.updSq n (fun q => { Sq.reset with
              cfg := { (s.sq n).cfg with realTime := false, rtSlot := 0, reserve := 0, size := z },
              e := (s.sq n).cfg.tagBase.toNat, w := (s.sq n).cfg.tagBase.toNat - 1, stale := q.stale, redeliv := q.redeliv,
              faults := q.faults, halted := (s.fn fn).halt != 0, waitEpoch := s.openEpoch })
            ((t.journal (t.sqCfgRec n)).tellReserve fn n).fnError fn esBadAccess))) ∧
      (s.enableHeld fn = false → ¬ z < 4 → ¬ 14 < z → s.drEntries + 2 ^ z.toNat ≤ 32768 → s.drRing fn ring = some n → (s.dr n).size = 0 →
        exec (.ringEnable .dr fn ring z) s = .next (s.updDr n (fun d => { Dr.reset with
          size := z, recBase := d.recBase, done := d.done, weight := d.weight, burst := d.burst, hangMs := d.hangMs }))))

/-- When error bit b of a function occurs, the bit is set in its error status and, for every error but BME_DISCARD (whose own message may be discarded
too), the bit's count rises by one, saturating; where the bit was clear the ERROR cause is set as well. Nothing changes but the function's registers,
pending bits of the MSI-X table, the messages that wait behind writes held by the dirty log, and what has been sent. -/
def Obligations.FunctionErrorRecords : Prop :=
  ∀ (s : State) (n b : Nat), b < 14 →
    ((s.fnError n b).fn n).err.getLsbD b = true ∧
    (b ≠ esBme → Tbl.get 0 ((s.fnError n b).fn n).errCnt b = satInc (Tbl.get 0 (s.fn n).errCnt b)) ∧
    ((s.fn n).err.getLsbD b = false → ((s.fnError n b).fn n).cause.getLsbD causeError = true) ∧
    ∃ f v h o, s.fnError n b = { s with fns := f, out := o, pcie := { s.pcie with vecs := v, dlogHeld := h } }

/-- A write that reaches the window: INST_ERR_STATUS clears the bits written as one, with their counts, but DR_GUILTY while a device-resident ring is
guilty; INST_CAUSE and INST_CQ_CAUSE clear the bits written as one that do not fire in the same cycle; INST_OBJ_SEL takes the index and a KIND other
than 3 and clears the latch; INST_DATA_CTL takes BASE and ENABLE where the chip has a DATA window. Nothing else changes. -/
def Obligations.InstanceRegisters : Prop :=
  ∀ (s : State) (fn : Nat), Reaches s fn →
    (∀ v : Word32, (s.drGuiltFirst fn).isSome = false → exec (.errorStatusClear fn v) s = .next (s.updFn fn (fun f =>
      { f with err := f.err &&& ~~~((s.fn fn).err &&& v.setWidth 14 &&& ~~~0),
               errCnt := (List.range 14).foldl (fun t b => if ((s.fn fn).err &&& v.setWidth 14 &&& ~~~0).getLsbD b then Tbl.set 0 t b 0 else t) f.errCnt }))) ∧
    (∀ v : Word32, (s.drGuiltFirst fn).isSome = true → exec (.errorStatusClear fn v) s = .next (s.updFn fn (fun f =>
      { f with err := f.err &&& ~~~((s.fn fn).err &&& v.setWidth 14 &&& ~~~0x400),
               errCnt := (List.range 14).foldl (fun t b => if ((s.fn fn).err &&& v.setWidth 14 &&& ~~~0x400).getLsbD b then Tbl.set 0 t b 0 else t) f.errCnt }))) ∧
    (∀ v firing : Word64, exec (.instCauseClear fn 0 v firing) s = .next (s.updFn fn (fun f => { f with cause := f.cause &&& ~~~((v &&& ~~~firing).setWidth 7) }))) ∧
    (∀ (r : Nat) (v firing : Word64), 1 ≤ r → r ≤ 4 → exec (.instCauseClear fn r v firing) s = .next (s.updFn fn (fun f =>
      { f with cqCause := f.cqCause &&& ~~~(((v &&& ~~~firing).setWidth 256) <<< (64 * (r - 1))) }))) ∧
    (∀ v : Word32, fld v.toNat 14 2 ≠ 3 → exec (.objSelWrite fn v) s = .next (s.updFn fn (fun f =>
      { f with objSel := BitVec.ofNat 16 (fld v.toNat 0 14 + 2 ^ 14 * fld v.toNat 14 2), objLatch := [] }))) ∧
    (∀ v : Word32, fld v.toNat 14 2 = 3 → exec (.objSelWrite fn v) s = .next (s.updFn fn (fun f =>
      { f with objSel := BitVec.ofNat 16 (fld v.toNat 0 14 + 2 ^ 14 * fld (s.fn fn).objSel.toNat 14 2), objLatch := [] }))) ∧
    (∀ v : Word64, s.hasData = true → exec (.dataCtlWrite fn v) s = .next (s.updFn fn (fun f => { f with dataCtl := v &&& 0x7FFFFFFF0001 }))) ∧
    (∀ v : Word64, s.hasData = false → exec (.dataCtlWrite fn v) s = .next s)

/-- An 8-byte write of INST_SIGNAL that names a member (or this portal, as chip 0), an object that exists, and an amount that goes with its kind joins the
function's posted signals behind those that wait, and what may enter the pending-signal FIFO or leave does so; any other is discarded with BAD_ACCESS.
A read of INST_FENCE completes with zero where every earlier signal and DATA write of the function is in place; else it waits, and INST_FENCE_DONE
completes it once they are. -/
def Obligations.HostSignals : Prop :=
  ∀ (s : State) (fn : Nat),
    (Reaches s fn → ∀ v : Word64,
      (s.signalGood v = false → exec (.instSignal fn v) s = .next (s.fnError fn esBadAccess)) ∧
      (s.signalGood v = true → exec (.instSignal fn v) s = .next
        (let home := if sigChip v = 0 then s.dom.chipId else sigChip v
         let g : Sig := { kind := BitVec.ofNat 2 (sigKind v), obj := BitVec.ofNat 14 (sigObj v), amount := BitVec.ofNat 16 (sigAmount v),
                          inst := BitVec.ofNat 6 fn, chip := s.dom.chipId, notice := none, origin := .host fn }
         let t := { s with pcie := { s.pcie with posted := s.pcie.posted ++ [(fn, home, g)] } }
         State.sendPosted t.pcie.posted.length t.refillOne.1))) ∧
    (s.gate fn = .open_ →
      (s.fenceQuiet fn = true → exec (.instFence fn) s = .next (s.emit (.completion fn (zeros 4)))) ∧
      (s.fenceQuiet fn = false → exec (.instFence fn) s = .next { s with pcie := { s.pcie with fences := s.pcie.fences ++ [fn] } })) ∧
    (s.pcie.fences.contains fn = true → s.fenceQuiet fn = true →
      exec (.instFenceDone fn) s = .next (({ s with pcie := { s.pcie with fences := s.pcie.fences.erase fn } }).emit (.completion fn (zeros 4)))) ∧
    (s.fenceQuiet fn = false → exec (.instFenceDone fn) s = .next s)

/-- A read of bytes 0 to 7 of the object record, where no host signal of the function waits to leave, samples the selected object, latches its 32 bytes
and completes with the first eight; otherwise the read waits, in its turn, and nothing else changes. The sample is zero for an object the instance may
not access, and for one that does not exist; else it is the record of the object as it stands, whose VALUE is the flag, the tally's count, or the
barrier's arrivals, sense and forward bit. -/
def Obligations.ObjectRecordRead : Prop :=
  ∀ (s : State) (fn : Nat) (kind idx : Nat), kind = fld (s.fn fn).objSel.toNat 14 2 → idx = fld (s.fn fn).objSel.toNat 0 14 →
    (s.gate fn = .open_ →
      (s.pcie.posted.any (fun e => e.1 == fn) = false →
        exec (.objRecordRead fn) s = .next ((s.sampleObj fn).emit (.completion fn (((s.sampleObj fn).fn fn).objLatch.take 8)))) ∧
      (s.pcie.posted.any (fun e => e.1 == fn) = true →
        exec (.objRecordRead fn) s = .next { s with pcie := { s.pcie with heldReads := s.pcie.heldReads ++ [(fn, 0xC08, true)] } })) ∧
    (objCount kind ≤ idx → s.sampleObj fn = s.observe.updFn fn (fun f => { f with objLatch := zeros 32 })) ∧
    (s.observe.permitted kind idx fn = false → s.sampleObj fn = s.observe.updFn fn (fun f => { f with objLatch := zeros 32 })) ∧
    (idx < objCount kind → s.observe.permitted kind idx fn = true →
      s.sampleObj fn = (s.observe.touchObj kind idx).updFn fn (fun f => { f with objLatch := (s.observe.touchObj kind idx).objRecord kind idx })) ∧
    s.recValue 0 idx = b2n (s.flag idx) ∧ s.recValue 1 idx = (s.tally idx).toNat ∧
    s.recValue 2 idx = (s.bar idx).count.toNat + 2 ^ 16 * b2n (s.bar idx).sense + 2 ^ 17 * b2n (s.bar idx).forwarded

/-- On the active front end an aligned access to a register of Table 23-6 that names a ring of this chip acts on it at once: a write changes that ring's
registers (8 bytes at a pair of registers as one write to both, with BAD_ACCESS where the table has no second one), a read completes with their value.
One that names a ring of another member travels there in a MGMT packet, whose layout is the model's (log 17), and is kept until its reply. One that
names no ring of the instance, or an offset the table does not have, is discarded, or reads all ones, with BAD_ACCESS. A reply completes the oldest
waiting read and ends the oldest write; where none comes, the read gives all ones, with BAD_ACCESS. Off the active front end the registers read zero
and discard writes. -/
def Obligations.DeviceRingAccess : Prop :=
  ∀ (s : State) (fn off : Nat) (wide : Bool),
    (naturally off (if wide then 8 else 4) = true →
      (∀ (sel : Word32) (v : Word64), Reaches s fn → s.isFe = true → sel = (s.fn fn).drSel →
        (drIndex sel < fld (Tbl.get 0 (s.cfgAt (drChip sel)).drRings fn).toNat 8 8 → s.memberList.contains (drChip sel) = true → drNamed off = true →
          wide = false ∨ drNamed (off + 4) = true →
          (drChip sel = s.dom.chipId → exec (.drRegisterAccess fn off wide (some v)) s = .next (s.drPut fn (s.drFirst fn + drIndex sel) off wide v)) ∧
          (drChip sel ≠ s.dom.chipId → exec (.drRegisterAccess fn off wide (some v)) s = .next
            ((s.updFn fn (fun f => { f with drAccess := f.drAccess ++ [(off, wide, true)] })).ctl (drChip sel)
              (.ring (BitVec.ofNat 6 fn) sel (BitVec.ofNat 16 off) wide (some v))))) ∧
        (s.memberList.contains (drChip sel) = false ∨ fld (Tbl.get 0 (s.cfgAt (drChip sel)).drRings fn).toNat 8 8 ≤ drIndex sel ∨ drNamed off = false →
          exec (.drRegisterAccess fn off wide (some v)) s = .next (s.fnError fn esBadAccess))) ∧
      (∀ sel : Word32, s.gate fn = .open_ → s.isFe = true → sel = (s.fn fn).drSel → s.pcie.posted.any (fun e => e.1 == fn) = false →
        (drIndex sel < fld (Tbl.get 0 (s.cfgAt (drChip sel)).drRings fn).toNat 8 8 → s.memberList.contains (drChip sel) = true → drNamed off = true →
          (drChip sel = s.dom.chipId → exec (.drRegisterAccess fn off wide none) s = .next (s.emit (.completion fn
            (toLe (if wide then 8 else 4) (s.drPeek fn (s.drFirst fn + drIndex sel) (drSlot sel) off wide))))) ∧
          (drChip sel ≠ s.dom.chipId → exec (.drRegisterAccess fn off wide none) s = .next
            ((s.updFn fn (fun f => { f with drAccess := f.drAccess ++ [(off, wide, false)] })).ctl (drChip sel)
              (.ring (BitVec.ofNat 6 fn) sel (BitVec.ofNat 16 off) wide none)))) ∧
        (s.memberList.contains (drChip sel) = false ∨ fld (Tbl.get 0 (s.cfgAt (drChip sel)).drRings fn).toNat 8 8 ≤ drIndex sel ∨ drNamed off = false →
          exec (.drRegisterAccess fn off wide none) s =
            .next ((s.fnError fn esBadAccess).emit (.completion fn (List.replicate (if wide then 8 else 4) 0xFF))))) ∧
      (s.isFe = false → drNamed off = true → s.pcie.posted.any (fun e => e.1 == fn) = false →
        (s.gate fn = .open_ → exec (.drRegisterAccess fn off wide none) s = .next (s.emit (.completion fn (zeros (if wide then 8 else 4))))) ∧
        (Reaches s fn → ∀ v, exec (.drRegisterAccess fn off wide (some v)) s = .next s))) ∧
    (naturally off (if wide then 8 else 4) = false →
      (Reaches s fn → ∀ v, exec (.drRegisterAccess fn off wide (some v)) s = .next (s.fnError fn esBadAccess)) ∧
      (s.gate fn = .open_ → exec (.drRegisterAccess fn off wide none) s =
        .next ((s.fnError fn esBadAccess).emit (.completion fn (List.replicate (if wide then 8 else 4) 0xFF))))) ∧
    (∀ o w t v, (s.fn fn).drAccess = (o, w, false) :: t → s.drReplied fn (some v) =
      (s.updFn fn (fun f => { f with drAccess := t })).emit (.completion fn (toLe (if w then 8 else 4) v.toNat))) ∧
    (∀ o w t v, (s.fn fn).drAccess = (o, w, true) :: t → s.drReplied fn (some v) = s.updFn fn (fun f => { f with drAccess := t })) ∧
    (∀ o w t, (s.fn fn).drAccess = (o, w, false) :: t → exec (.drAccessReply fn none) s =
      .next (((s.updFn fn (fun f => { f with drAccess := t })).fnError fn esBadAccess).emit (.completion fn (List.replicate (if w then 8 else 4) 0xFF)))) ∧
    (∀ o w t, (s.fn fn).drAccess = (o, w, true) :: t → exec (.drAccessReply fn none) s =
      .next ((s.updFn fn (fun f => { f with drAccess := t })).fnError fn esBadAccess)) ∧
    ((s.fn fn).drAccess = [] → exec (.drAccessReply fn none) s = .next s ∧ ∀ v, s.drReplied fn (some v) = s) ∧
    (∀ (p : Packet) (i : BitVec 6) (v : Word64), s.mine p = true → p.type = tyMgmt → p.msg = some (.ringAnswer i v) → i.toNat = fn →
      exec (.drAccessReply fn (some p)) s = .next ((s.deliver takeAny p).afterAnswer) ∧ takeAny s p = (.done 0, s.drReplied fn (some v)))

/-- Through an open DATA window, below its size, of an instance that is not under construction: an access to a DVA that is enabled, below 2^47 and mapped
throughout writes the enabled bytes of every piece at its place, or returns the bytes of each; any other access is discarded whole with DATA_FAULT, a
read returning all ones. While the instance is under construction every access is answered with Completer Abort. On a chip without the window, or
beyond its size, it is an Unsupported Request. An access longer than the Max Payload Size is served whole: the model's choice (log 94). -/
def Obligations.DataWindow : Prop :=
  ∀ (s : State) (fn off len dva : Nat) (bs : List (Option Byte)), dva = s.dataDva fn off →
    (s.hasData = true → off < 0x10000000 → s.enableHeld fn = false →
      (Reaches s fn →
        (∀ t, s.dataRange fn off bs.length true = (none, t) → exec (.dataWindowWrite fn off bs) s = .next (t.fnError fn esDataFault)) ∧
        (∀ ps t, s.dataRange fn off bs.length true = (some ps, t) → exec (.dataWindowWrite fn off bs) s = .next
          (ps.foldl (fun s p => (byteRuns 0 ((bs.drop (p.1 - dva)).take p.2.1)).foldl (fun s r => s.dataPut fn p.2.2 r.1 r.2) s) t))) ∧
      (s.gate fn = .open_ →
        (∀ t, s.dataRange fn off len false = (none, t) → exec (.dataWindowRead fn off len) s =
          .next ((t.fnError fn esDataFault).emit (.completion fn (List.replicate len 0xFF)))) ∧
        (∀ ps t, s.dataRange fn off len false = (some ps, t) → exec (.dataWindowRead fn off len) s =
          .next (ps.foldl (fun s p => s.dataGet fn p.2.1 p.2.2) t)))) ∧
    (s.hasData = true → off < 0x10000000 → s.enableHeld fn = true →
      (Reaches s fn → exec (.dataWindowWrite fn off bs) s = .next (s.aer fn aerAbort)) ∧
      (s.gate fn = .open_ → exec (.dataWindowRead fn off len) s = .next ((s.aerAnswered fn aerAbort).emit (.completerAbort fn)))) ∧
    (s.hasData = false ∨ 0x10000000 ≤ off → s.pcie.up = true →
      exec (.dataWindowWrite fn off bs) s = .next (s.refuseUr fn false) ∧ exec (.dataWindowRead fn off len) s = .next (s.refuseUr fn true))

/-- A write of INST_GUILTY_ACK on the active front end that names a ring of the function whose GUILTY record is written, by its capture slot, frees the
slot, ends the guilt and journals it; on any other ring, or with another slot, it is refused with ACK_BAD and no ring changes. A ring of another
member is acknowledged there, by a MGMT packet whose layout is the model's (log 17). -/
def Obligations.GuiltyAcknowledgement : Prop :=
  ∀ (s : State) (fn n : Nat) (v : Word64), Reaches s fn → s.isFe = true →
    (v.getLsbD 8 = false → s.sqRing fn (fld v.toNat 0 8) = some n →
      (∀ g k, (s.sq n).guilty = some g → g.written = true → g.slot = some k → k = fld v.toNat 32 32 →
        exec (.guiltyAck fn v) s = .next (((s.updFn fn (fun f => { f with caps := Tbl.set none f.caps k none })).setGuilt (.host n) none).journal
          (jrec 0x07 fn (s.ringLocal (.host n)) (toLe 4 k ++ zeros 4)))) ∧
      (∀ g, (s.sq n).guilty = some g → g.written = false → exec (.guiltyAck fn v) s = .next (s.fnError fn esAckBad)) ∧
      (∀ g, (s.sq n).guilty = some g → g.slot.getD 0xFFFFFFFF ≠ fld v.toNat 32 32 → exec (.guiltyAck fn v) s = .next (s.fnError fn esAckBad)) ∧
      ((s.sq n).guilty = none → exec (.guiltyAck fn v) s = .next (s.fnError fn esAckBad))) ∧
    (v.getLsbD 8 = false → s.sqRing fn (fld v.toNat 0 8) = none → exec (.guiltyAck fn v) s = .next (s.fnError fn esAckBad)) ∧
    (v.getLsbD 8 = true → BitVec.ofNat 16 (fld v.toNat 16 16) ≠ s.dom.chipId → s.dom.members.contains (BitVec.ofNat 16 (fld v.toNat 16 16)) = true →
      exec (.guiltyAck fn v) s = .next (s.ctl (BitVec.ofNat 16 (fld v.toNat 16 16))
        (.ring (BitVec.ofNat 6 fn) (BitVec.ofNat 32 ((BitVec.ofNat 16 (fld v.toNat 16 16) : BitVec 16).toNat + 2 ^ 16 * fld v.toNat 0 8)) 0x0060 true (some v)))) ∧
    (v.getLsbD 8 = true → BitVec.ofNat 16 (fld v.toNat 16 16) = s.dom.chipId → s.drRing fn (fld v.toNat 0 8) = some n →
      (∀ g k, (s.dr n).guilty = some g → g.written = true → g.slot = some k → k = fld v.toNat 32 32 →
        exec (.guiltyAck fn v) s = .next (((s.updFn fn (fun f => { f with caps := Tbl.set none f.caps k none })).setGuilt (.dr n) none).journal
          (jrec 0x07 fn (s.ringLocal (.dr n)) (toLe 4 k ++ zeros 4)))) ∧
      ((s.dr n).guilty = none → exec (.guiltyAck fn v) s = .next (s.instError fn esAckBad)))

/-- A write that lifts the mask of a vector the function has clears it and, where the vector is pending, MSI-X is on and the function not masked, sends
its message; a vector the function has not is not there. Lifting Function Mask does so for each vector in order. When COAL_TIME passes on an enabled
completion ring with records unannounced, the ring's vector fires and the count starts again; otherwise nothing happens. -/
def Obligations.VectorsAndCoalescing : Prop :=
  ∀ (s : State) (fn : Nat),
    (Reaches s fn → ∀ v,
      (v < (s.fc fn).vecs.toNat → exec (.msixUnmask fn (some v)) s = .next ((s.updVec fn v (fun e => { e with mask := false })).unmask fn v)) ∧
      ((s.fc fn).vecs.toNat ≤ v → exec (.msixUnmask fn (some v)) s = .next s)) ∧
    (s.fnHere fn = true → (s.fc fn).flr = false → s.safest.inSafe = false → exec (.msixUnmask fn none) s =
      .next ((List.range (s.fc fn).vecs.toNat).foldl (fun s v => s.unmask fn v) (s.updFc fn (fun f => { f with fnMask := false })))) ∧
    (∀ v, (s.vec fn v).pending = true → (s.vec fn v).mask = false → (s.fc fn).fnMask = false → (s.fc fn).msixEn = true →
      s.unmask fn v = (s.updVec fn v (fun e => { e with pending := false })).message fn v) ∧
    (∀ c i, (s.cq c).size ≠ 0 → (s.cq c).coalTime ≠ 0 → (s.cq c).fresh ≠ 0 → (s.paired && !s.pair.lease) = false → s.cqInst c = some i →
      exec (.coalTimerExpiry c) s = .next (((s.updCq c (fun q => { q with fresh := 0 })).updFn i
        (fun f => { f with cqCause := f.cqCause ||| BitVec.ofNat 256 (2 ^ (c - (s.inst i).cqFirst)) })).message i (s.cq c).vecsel.toNat)) ∧
    (∀ c, (s.cq c).coalTime = 0 ∨ (s.cq c).fresh = 0 → exec (.coalTimerExpiry c) s = .next s)

/-- A register write of the MGMT window of function 0, naturally aligned, of 4 or 8 bytes, while the chip is READY or in HIBERNATE, is the manager's write
of that offset; misaligned, it is discarded with BAD_ACCESS; before READY it is discarded but where the register takes writes earlier. A write of the
INSTANCE window, aligned and below 64 KiB, is the function's write of that offset; misaligned, BAD_ACCESS. A read (the same row without a value, the
model's choice, log 94) completes with what the register holds, and waits where a host signal of the function waits; misaligned, with all ones and
BAD_ACCESS. A debugger's access does nothing while debug is locked, but to the block of the debug registers (log 98). A write of a block's error status
clears the bits written as one, and the count once a bit has cleared. -/
def Obligations.RegisterWrites : Prop :=
  ∀ (s : State) (fn off width : Nat) (v : Word64),
    (s.gate 0 = .open_ → naturally off width = true → s.boot.state = .ready ∨ s.boot.state = .hibernate →
      exec (.registerWrite .mgmt 0 off width (some v)) s = .next (s.managerWrite off (width == 8) v)) ∧
    (s.gate 0 = .open_ → naturally off width = false → exec (.registerWrite .mgmt 0 off width (some v)) s = .next (s.fnError 0 esBadAccess)) ∧
    (s.gate 0 = .open_ → naturally off width = true → s.boot.state ≠ .ready → s.boot.state ≠ .hibernate → s.earlyOk off = false →
      exec (.registerWrite .mgmt 0 off width (some v)) s = .next s) ∧
    (fn ≠ 0 → ∀ w, exec (.registerWrite .mgmt fn off width w) s = .next s) ∧
    (Reaches s fn → naturally off width = true → off < 0x10000 →
      exec (.registerWrite .instance_ fn off width (some v)) s = .next (s.instPut fn off (width == 8) v)) ∧
    (Reaches s fn → naturally off width = false → exec (.registerWrite .instance_ fn off width (some v)) s = .next (s.fnError fn esBadAccess)) ∧
    (s.gate 0 = .open_ → naturally off width = true → exec (.registerWrite .mgmt 0 off width none) s =
      .next ((s.mgmtRead off (width == 8)).2.emit (.completion 0 (toLe width (s.mgmtRead off (width == 8)).1)))) ∧
    (s.gate 0 = .open_ → naturally off width = false → exec (.registerWrite .mgmt 0 off width none) s =
      .next ((s.fnError 0 esBadAccess).emit (.completion 0 (List.replicate width 0xFF)))) ∧
    (s.gate fn = .open_ → naturally off width = true → off < 0x10000 →
      (s.readHeld fn off = false → exec (.registerWrite .instance_ fn off width none) s = .next (s.serveRead fn off (width == 8))) ∧
      (s.readHeld fn off = true → exec (.registerWrite .instance_ fn off width none) s =
        .next { s with pcie := { s.pcie with heldReads := s.pcie.heldReads ++ [(fn, off, width == 8)] } })) ∧
    (s.gate fn = .open_ → naturally off width = false → exec (.registerWrite .instance_ fn off width none) s =
      .next ((s.fnError fn esBadAccess).emit (.completion fn (List.replicate width 0xFF)))) ∧
    (s.sec.debug = .locked → off < regBase + 0x100000 * blkDbg → ∀ w, exec (.registerWrite .debug fn off width w) s = .next s) ∧
    (∀ (b : Nat) (c : Word32), s.mgmtTakes = true → b < 14 → ¬(b = blkFab ∧ s.fuses.grade = .S) →
      exec (.blockErrClear b c) s = .next { s with blkErr := Tbl.set BlkErr.reset s.blkErr b (
        { bits := (Tbl.get BlkErr.reset s.blkErr b).bits &&& ~~~(c.setWidth 7),
          count := if (Tbl.get BlkErr.reset s.blkErr b).bits &&& ~~~(c.setWidth 7) = (Tbl.get BlkErr.reset s.blkErr b).bits
            then (Tbl.get BlkErr.reset s.blkErr b).count else 0 } : BlkErr) })

/-- On the active front end, an index written to a mailbox register is stale, an overrun or taken by the rule of R250: taken, OUT messages become visible
and MBX_IN fires at the manager once for each, an IN consumer index becomes current; the manager's IN producer index fires MBX_IN at the function, its
OUT consumer index is kept, and its response consumer index lets waiting responses out. A stale index changes nothing; an overrun is recorded with
DB_OVERRUN. Off the active front end a function's write is discarded with BAD_ACCESS. -/
def Obligations.MailboxIndices : Prop :=
  ∀ (s : State) (fn : Nat) (v : Word32), 1 ≤ fn → fn ≤ 63 →
    (Reaches s fn → s.isFe = false → exec (.mbxOutDoorbell fn v) s = .next (s.fnError fn esBadAccess) ∧ exec (.mbxInConsume fn v) s = .next (s.fnError fn esBadAccess)) ∧
    (Reaches s fn → s.isFe = true →
      (produceIndex v (s.fn fn).outPi (s.fn fn).outCi 4 = .stale → exec (.mbxOutDoorbell fn v) s = .next s) ∧
      (produceIndex v (s.fn fn).outPi (s.fn fn).outCi 4 = .overrun → exec (.mbxOutDoorbell fn v) s = .next (s.fnError fn esDbOverrun)) ∧
      (produceIndex v (s.fn fn).outPi (s.fn fn).outCi 4 = .taken → exec (.mbxOutDoorbell fn v) s =
        .next ((s.updFn fn (fun f => { f with outPi := v, mbx := showOut fn f.mbx f.outPi.toNat (v - (s.fn fn).outPi).toNat })).causes 0 causeMbxIn (v - (s.fn fn).outPi).toNat)) ∧
      (consumeIndex v (s.fn fn).inPi (s.fn fn).inCons = .stale → exec (.mbxInConsume fn v) s = .next s) ∧
      (consumeIndex v (s.fn fn).inPi (s.fn fn).inCons = .overrun → exec (.mbxInConsume fn v) s = .next (s.fnError fn esDbOverrun)) ∧
      (consumeIndex v (s.fn fn).inPi (s.fn fn).inCons = .taken → leavesFull v (s.fn fn).inPi (s.fn fn).inCons 4 = false → exec (.mbxInConsume fn v) s =
        .next (s.updFn fn (fun f => { f with inCons := v })))) ∧
    (s.mgmtTakes = true → s.isFe = true →
      (produceIndex v (s.fn fn).inPi (s.fn fn).inCons 4 = .taken → exec (.mbxVfInProduce fn v) s =
        .next ((s.updFn fn (fun f => { f with inPi := v })).causes fn causeMbxIn (v - (s.fn fn).inPi).toNat)) ∧
      (produceIndex v (s.fn fn).inPi (s.fn fn).inCons 4 = .overrun → exec (.mbxVfInProduce fn v) s = .next (s.fnError 0 esDbOverrun)) ∧
      (consumeIndex v (s.fn fn).outPi (s.fn fn).outCi = .taken → leavesFull v (s.fn fn).outPi (s.fn fn).outCi 4 = false → exec (.mbxVfOutConsume fn v) s =
        .next (s.updFn fn (fun f => { f with outCi := v }))) ∧
      (consumeIndex v (s.fn fn).outPi (s.fn fn).outCi = .overrun → exec (.mbxVfOutConsume fn v) s = .next (s.fnError 0 esDbOverrun))) ∧
    (s.gate 0 = .open_ → s.boot.served = true → s.boot.state ≠ .failed →
      (consumeIndex v s.mgr.rspPi s.mgr.rspCons = .taken → exec (.mbxRspConsume v) s =
        .next (State.flushRsp { s with mgr := { s.mgr with rspCons := v } } s.mgr.rspWait.length)) ∧
      (consumeIndex v s.mgr.rspPi s.mgr.rspCons = .overrun → exec (.mbxRspConsume v) s = .next (s.fnError 0 esDbOverrun)) ∧
      (consumeIndex v s.mgr.rspPi s.mgr.rspCons = .stale → exec (.mbxRspConsume v) s = .next s))

/-- While the link is up: an FLR of the physical function, PF_FLR and a hot reset are one and the same reset of function 0 with every virtual function,
and the loss of the link does the same and takes the link down; an FLR of a virtual function that exists resets that function, and the physical
function's own reset goes on when it waited for it; VF_DISABLE resets every virtual function and clears VF Enable. A function that does not exist, or a
link that is down, changes nothing. Where no formed domain serves the reset, the function alone is cleared, at once; on a portal that is not the active
front end the function closes and the active front end is asked, in a message that is the model's own, to disable its instance (log 50); on the active
front end a function without an instance is cleared at once, one being reset stays so, and the instance of any other is disabled: its windows close, no
write it has not issued leaves, its state is RESETTING and the members are told to stop it. -/
def Obligations.FunctionResets : Prop :=
  ∀ (s : State) (fn : Nat),
    (s.pcie.up = true → exec .pfFlr s = .next s.flrPf ∧ exec (.hotReset false) s = .next s.flrPf ∧ exec .vfDisable s = .next s.disableVfs.pfNext ∧
      exec (.hotReset true) s = .next { s.flrPf with pcie := { s.flrPf.pcie with up := false, rate := 0, width := 0, l1 := false, training := !s.flrPf.boot.perstLow } }) ∧
    (s.fnHere 0 = true → exec (.functionLevelReset 0) s = .next s.flrPf) ∧
    (fn ≠ 0 → s.fnHere fn = true → exec (.functionLevelReset fn) s = .next (s.flrFn fn).pfNext) ∧
    (s.fnHere fn = false → exec (.functionLevelReset fn) s = .next s) ∧
    (s.pcie.up = false → exec .pfFlr s = .next s ∧ (∀ l, exec (.hotReset l) s = .next s) ∧ exec .vfDisable s = .next s) ∧
    (s.flrServed = false → s.flrFn fn = s.resetFn fn) ∧
    (s.flrServed = true → s.isFe = false → s.flrFn fn = s.flrAway fn) ∧
    (s.flrServed = true → s.isFe = true →
      ((s.inst fn).state = .absent → s.flrFn fn = s.resetFn fn) ∧
      ((s.inst fn).state = .resetting → s.flrFn fn = s) ∧
      ((s.inst fn).state ≠ .absent → (s.inst fn).state ≠ .resetting → s.criticalRing fn = none →
        s.flrFn fn = (((s.endPending fn msBusy []).closeFn fn).updInst fn (fun x => { x with state := .resetting, stopped := true })).beginStop fn)) ∧
    ((s.closeFn fn).fc fn).flr = true ∧ (∀ h ∈ (s.closeFn fn).pcie.dlogHeld, h.1 ≠ fn) ∧ s.disableVfs.pcie.vfEn = false

/-- PERST asserted resets the endpoint and nothing else; asserted already it does nothing. Deasserted, training begins where the start allows it. Held low
for 100 microseconds while the chip is held in its safe state, it resets the chip and a cold start begins. When training ends, the link is up at its
rate and width; a formed chip that was a member becomes a data portal. -/
def Obligations.FundamentalReset : Prop :=
  ∀ (s : State),
    (s.boot.perstLow = false → exec .perstAssert s = .next { s.endpointReset with boot := { s.endpointReset.boot with perstLow := true } }) ∧
    (s.boot.perstLow = true → exec .perstAssert s = .next s) ∧
    (s.linkAllowed = true → exec .perstDeassert s =
      .next { s with boot := { s.boot with perstLow := false }, pcie := { s.pcie with training := true } }) ∧
    (s.linkAllowed = false → exec .perstDeassert s = .next { s with boot := { s.boot with perstLow := false } }) ∧
    (s.boot.perstLow = true → s.safest.inSafe = true → s.safest.stuck = true → exec .perstSafeReset s = .next ((s.chipReset false).coldIfFree 2)) ∧
    (s.boot.perstLow = false ∨ s.safest.inSafe = false ∨ s.safest.stuck = false → exec .perstSafeReset s = .next s) ∧
    (∀ r w, s.pcie.training = true → s.boot.perstLow = false → s.pcie.up = false → s.safest.inSafe = true → s.dom.formed = true → s.dom.role = .member →
      exec (.pcieLinkUp r w) s =
        .next { s with pcie := { s.pcie with up := true, training := false, rate := r, width := w }, dom := { s.dom with role := .dataPortal } }) ∧
    (∀ r w, s.pcie.training = false → exec (.pcieLinkUp r w) s = .next s)

/-- While the link is up a configuration request meets Retry Status until IMAGES has passed the endpoint's settings, then Unsupported Request where the
function does not exist, else it completes, a read with the register's four bytes. Clearing Bus Master Enable, or D3hot, stops the function's requests,
fails those that wait for a tag, and reports it where it was mastering; setting it lets requests go again. NumVFs takes 0 to 63 while VF Enable is
clear and keeps its value otherwise. -/
def Obligations.ConfigurationSpace : Prop :=
  ∀ (s : State) (fn off : Nat),
    (s.pcie.up = true → s.pcie.crs = true → ∀ w, exec (.configRequest fn off w) s = .next (s.emit (.retryStatus fn))) ∧
    (s.pcie.up = true → s.pcie.crs = false → s.fnHere fn = false → ∀ w, exec (.configRequest fn off w) s = .next (s.refuseUr fn true)) ∧
    (s.pcie.up = true → s.pcie.crs = false → s.fnHere fn = true →
      (∀ v, exec (.configRequest fn off (some v)) s = .next ((s.configWrite fn (off / 4 * 4) v).emit (.completion fn []))) ∧
      exec (.configRequest fn off none) s = .next ((s.configRead fn (off / 4 * 4)).2.emit (.completion fn (toLe 4 (s.configRead fn (off / 4 * 4)).1.toNat)))) ∧
    (s.fnHere fn = true →
      exec (.busMasterSet fn) s = .next (s.updFc fn (fun f => { f with bme := true })) ∧
      ((s.fc fn).bme = true → (s.fc fn).d3hot = false →
        exec (.busMasterClear fn false) s = .next (((s.updFc fn (fun f => { f with bme := false })).failWaiting fn).event evBusMasterOff 0 fn fn 0) ∧
        exec (.busMasterClear fn true) s = .next (((s.updFc fn (fun f => { f with d3hot := true })).failWaiting fn).event evBusMasterOff 0 fn fn 0)) ∧
      ((s.fc fn).bme = false ∨ (s.fc fn).d3hot = true →
        exec (.busMasterClear fn false) s = .next ((s.updFc fn (fun f => { f with bme := false })).failWaiting fn) ∧
        exec (.busMasterClear fn true) s = .next ((s.updFc fn (fun f => { f with d3hot := true })).failWaiting fn))) ∧
    (s.fnHere fn = false → exec (.busMasterSet fn) s = .next s ∧ ∀ d, exec (.busMasterClear fn d) s = .next s) ∧
    (∀ v : BitVec 16, s.pcie.up = true → s.pcie.vfEn = false → v.toNat ≤ 63 → exec (.numvfsWrite v) s = .next { s with pcie := { s.pcie with numVfs := v } }) ∧
    (∀ v : BitVec 16, s.pcie.vfEn = true ∨ 63 < v.toNat → exec (.numvfsWrite v) s = .next s)

/-- A reply to a read in flight takes it off the list and hands its bytes, cut or filled to the length asked, to what asked for them, and the reads that
wait for a tag follow; one refused, aborted or poisoned, and one that times out, fails what asked, the last two logged in AER. A timeout for no read in
flight changes nothing, and a reply to none is logged as an Unexpected Completion. A poisoned write to an open window is discarded, sets POISONED in the
error status and is logged in AER; another error of Table 4-6, which the same row carries (the model's choice, log 96), is logged in AER alone. -/
def Obligations.HostReadsEnd : Prop :=
  ∀ (s : State) (tag fn : Nat) (r : HostRd),
    (s.readOf tag = some r → ∀ (t : State) (go : State → State), t = { s with pcie := { s.pcie with reads := s.pcie.reads.filter (fun x => x.tag ≠ r.tag) } } →
      (∀ u : State, go u = u.sendWaiting u.pcie.readWait.length) →
      (∀ bs, exec (.hostReadComplete tag (.data bs)) s = .next (go (t.readEnd r.use (some (padTo r.len bs))))) ∧
      exec (.hostReadComplete tag .unsupported) s = .next (go (t.readEnd r.use none)) ∧
      exec (.hostReadComplete tag .abort) s = .next (go (t.readEnd r.use none)) ∧
      exec (.hostReadComplete tag .poisoned) s = .next (go ((t.aer r.fn aerPoisoned).readEnd r.use none)) ∧
      exec (.completionTimeout tag) s = .next (go ((t.aer r.fn aerTimeout).readEnd r.use none))) ∧
    (s.readOf tag = none → exec (.completionTimeout tag) s = .next s ∧
      (s.pcie.up = true → ∀ p, exec (.hostReadComplete tag p) s = .next (s.aer 0 aerUnexpected)) ∧
      (s.pcie.up = false → ∀ p, exec (.hostReadComplete tag p) s = .next s)) ∧
    (s.gate fn = .open_ → exec (.poisonedWrite fn .poisoned) s = .next ((s.fnError fn esPoisoned).aer fn aerPoisoned)) ∧
    (s.gate fn = .unsupported → exec (.poisonedWrite fn .poisoned) s = .next (s.refuseUr fn false)) ∧
    (s.gate fn = .gone ∨ s.gate fn = .closed → exec (.poisonedWrite fn .poisoned) s = .next s) ∧
    (∀ e, e ≠ .poisoned → s.pcie.up = true → exec (.poisonedWrite fn e) s = .next (s.tlpError fn e))

/-- On an enabled ring that may read, is not halted, whose completion ring is enabled and whose configuration epoch is applied: with accepted entries not
asked for and room among the 256, RING_FETCH asks the host, from the next index on, for between one and eight of them, never past the accepted index,
the ring's end or a 4 KiB boundary, where slot 0 permits the read; where it does not, the ring becomes guilty as of a failed fetch. With no such entry,
or where the ring may not read or is halted, nothing changes. That a ring lies in slot 0 is the model's reading (log 95). -/
def Obligations.RingFetchReads : Prop :=
  ∀ (s : State) (n : Nat),
    (s.ringReads n = false ∨ (s.sq n).halted = true → exec (.ringFetch n) s = .next s) ∧
    (let q := s.sq n
     let ahead := q.asked + q.arrived.length
     let idx := q.fetch + BitVec.ofNat 32 ahead
     let i := s.ringInst (.host n)
     let dva := q.cfg.base.toNat + 64 * (idx.toNat % q.n)
     (q.k = idx → exec (.ringFetch n) s = .next s) ∧
     (s.ringReads n = true → q.halted = false → (s.cq (s.ringCq n)).size ≠ 0 → s.epochApplied q.waitEpoch = true → q.k ≠ idx →
       q.cache.length + ahead < 256 →
       ∃ m, 1 ≤ m ∧ m ≤ 8 ∧ m ≤ (q.k - idx).toNat ∧ idx.toNat % q.n + m ≤ q.n ∧ (64 * (idx.toNat % q.n)) % 4096 + 64 * m ≤ 4096 ∧
         (s.ringOk i dva (64 * m) false = true → exec (.ringFetch n) s =
           .next ((s.updSq n (fun q => { q with asked := q.asked + m })).hostRead i (s.busAddr i dva) (64 * m) false (.ring n idx m))) ∧
         (s.ringOk i dva (64 * m) false = false → exec (.ringFetch n) s = .next (s.fetchFail n dva))))

/-- ENTRY_JUDGE on the active front end judges the arrived entries of a ring that is not halted, oldest first. A malformed entry halts the rings of its
function; a tag below the expected one is counted as re-delivered and its slot passes; any other well-formed entry joins the cache, with the index it
came from, the expected tag rises by one and ACCEPT is journaled. With nothing arrived, on a halted ring or off the active front end nothing changes. -/
def Obligations.EntryJudgement : Prop :=
  ∀ (s : State) (n : Nat),
    (s.isFe = false ∨ s.live = false ∨ (s.sq n).halted = true ∨ (s.sq n).arrived = [] → exec (.entryJudge n) s = .next s) ∧
    (∀ idx e, s.live = true → s.isFe = true → (s.sq n).halted = false → (s.sq n).arrived = [(idx, e)] →
      (let t := s.updSq n (fun q => { q with arrived := [] })
       (∀ r, entryMalformed (t.sq n).e e = some r → exec (.entryJudge n) s = .next (t.haltFn n idx e r)) ∧
       (entryMalformed (t.sq n).e e = none → eSeq e < (t.sq n).e → (t.sq n).unreleased = [] →
         exec (.entryJudge n) s = .next ((t.updSq n (fun q => { q with redeliv := satInc q.redeliv })).slotDone n none)) ∧
       (entryMalformed (t.sq n).e e = none → (t.sq n).e ≤ eSeq e →
         (let u := (((t.updSq n (fun q => { q with cache := q.cache ++ [e], slots := q.slots ++ [(eSeq e, idx)], e := q.e + 1 })).hallWritten
            (cacheWords n (eSeq e))).journal (jrec 0x01 (t.ringInst (.host n)) (t.ringLocal (.host n)) e)).slotDone n t.openEpoch
          (u.sq n).guilty = none → exec (.entryJudge n) s = .next u))))

/-- Where the chip is live and the pair not paused: an eligible real-time ring is served first, the one chosen, for its BURST; with no ring eligible,
nothing changes. While the chip is not live nothing is admitted. An entry admitted reserves a slot of its completion ring; an empty DIRECT one gets its
record at once with OK_EMPTY and takes no context; any other takes the lowest free context with the next generation, and restarts the ring's progress
timer. A ring is eligible only with a slot left to reserve, beside its unconsumed records and those reserved. -/
def Obligations.Admission : Prop :=
  ∀ (s : State) (n c : Nat) (e : List Byte),
    (s.live = false → exec .admission s = .next s) ∧
    (s.live = true → s.pairPaused = false → s.rtChoice = some n → exec .admission s = .next (s.admitBurst (.host n) (burstOf (s.sq n).cfg.burst)).1) ∧
    (s.rtChoice = none → s.wrrRings.any (fun x => s.eligible x.2) = false → exec .admission s = .next s) ∧
    (s.eligible (.host n) = true →
      ((s.cq (s.ringCq n)).wr - (s.cq (s.ringCq n)).h).toNat + (s.cq (s.ringCq n)).reserved + 1 < (s.cq (s.ringCq n)).n ∧
      (s.sq n).guilty = none ∧ (s.sq n).halted = false ∧ (s.sq n).cache ≠ []) ∧
    (∀ r, eDirect e = true → eLen8 e = 0 →
      s.admitEntry r e = (s.reserveSlot r).bufferRecord r (eSeq e) stOkEmpty false false false (eUser e) 0 (some s.now) (eIrq e) true) ∧
    s.reserveSlot (.host n) = (s.updSq n (fun q => { q with admitted := q.admitted + 1 })).updCq (s.ringCq n) (fun q => { q with reserved := q.reserved + 1 }) ∧
    (eLen8 e ≠ 0 → s.freeContext = some c → ∃ o : Owner, o.inst = BitVec.ofNat 6 (s.ringInst (.host n)) ∧ o.tag = eSeq e ∧ o.entry = e ∧
      o.admitTime = s.now ∧ o.order = s.orders ∧ o.phase = .checking ∧ o.lostAt = s.dom.lost ∧
      s.admitEntry (.host n) e = (((({ s with orders := s.orders + 1 }).updCtx c (fun x => { Ctx.reset with gen := x.gen + 1, use := .owner o })).pruneColls
        c).reserveSlot (.host n)).progress (.host n))

/-- CHECK_PASS on an owner context in its check: an empty fragment list records OK_EMPTY and frees the context, one under 96 bytes breaks the buffer;
bytes still to be read leave the context waiting; a read that failed is the buffer's fault; else the checks find the first that fails, or the buffer
passes with its count. A context that is not an owner in its check stays as it is. The bytes of a buffer with a CRC are all of it, in one read.
DISPATCH_READ reads the next operation of a dispatching context and spreads it over its chips; past the last operation, or where the operation cannot be
read yet, it does not. A read that is not complete leaves nothing to judge, and one that fails is the context's fault. -/
def Obligations.CheckPass : Prop :=
  ∀ (s t u : State) (c a n : Nat) (o : Owner) (fs : List (Nat × Nat)) (b : List Byte) (x : Err),
    (s.owner c = none → exec (.checkPass c) s = .next s ∧ exec (.dispatchRead c) s = .next s) ∧
    (s.owner c = some o → o.phase ≠ .checking → exec (.checkPass c) s = .next s) ∧
    (s.owner c = some o → s.live = true → o.phase = .checking →
      (s.bufferFrags c o = (none, t) → exec (.checkPass c) s = .next t) ∧
      (s.bufferFrags c o = (some fs, t) → fragTotal fs = 0 → exec (.checkPass c) s = .next
        ((t.bufferRecord o.ring o.tag stOkEmpty false false o.redelivered o.user 0 (some o.admitTime) (eIrq o.entry) true).freeCtx c)) ∧
      (s.bufferFrags c o = (some fs, t) → fragTotal fs ≠ 0 → fragTotal fs < 96 → exec (.checkPass c) s = .next (t.bufferBroken c none (cfgBroken 0))) ∧
      (s.bufferFrags c o = (some fs, t) → 96 ≤ fragTotal fs →
        (t.bufferBytes c fs = (none, u) → exec (.checkPass c) s = .next u) ∧
        (∀ k, t.bufferBytes c fs = (some b, u) → checkBuffer (u.roll o) u.boot.nlevel.toNat b = .inr k →
          exec (.checkPass c) s = .next ((u.updCtx c (fun y => { y with frags := fs })).bufferPassed c o b k)) ∧
        (∀ y, t.bufferBytes c fs = (some b, u) → checkBuffer (u.roll o) u.boot.nlevel.toNat b = .inl y →
          ∃ h, exec (.checkPass c) s = .next (u.bufferBroken c h y)))) ∧
    (s.fragRead c fs 0 64 = (some b, t) → headOk b (fragTotal fs) = true → bufCrcV b = true → s.bufferBytes c fs = t.fragRead c fs 0 (fragTotal fs)) ∧
    (s.ctxGather c (fragPieces fs a n) = (none, t) → s.fragRead c fs a n = (none, t)) ∧
    (s.ctxGather c (fragPieces fs a n) = (some (.inr x), t) → s.fragRead c fs a n = (none, t.ctxFault c 0 none 0 x)) ∧
    (s.ctxGather c (fragPieces fs a n) = (some (.inl b), t) → s.fragRead c fs a n = (some b, t)) ∧
    (s.mayDispatch c = some o → (s.ctx c).sets.length ≤ o.nextOp → exec (.dispatchRead c) s = .next s) ∧
    (s.mayDispatch c = some o → o.nextOp < (s.ctx c).sets.length → s.readOp c o = (none, t) → exec (.dispatchRead c) s = .next t) ∧
    (∀ h body v chips ch, s.mayDispatch c = some o → o.nextOp < (s.ctx c).sets.length → s.readOp c o = (some (h, body, v, chips, ch), t) →
      exec (.dispatchRead c) s = .next (((((t.ctxFresh c).updCtx c (fun x => { x with chain := ch, sets := x.sets.set (o.nextOp - 1) chips, heads := x.heads.set (o.nextOp - 1) h })).updOwner c
        (fun w => { w with nextOp := o.nextOp + 1, nextOff := o.nextOff + 32 + 8 * hBody8 h })).spread c o o.nextOp o.nextOff h body v chips ((s.ctx c).chain.map (·.1)))))

/-- BODY_READ_DONE takes the bytes of a body, or the chips of a list, that the operation waits for, once they are here, and sees which operations are ready.
TABLE_ENTRY enters the first operation a context holds back when the dependency table has room. STAND_GRANT grants the first operation of the
admission order that may start: a CFE operation the lowest free slot, a tile operation all its stands, on whose tiles it stages its operands; it then
runs. Each changes nothing where nothing waits. Which words of SRAM the staging reaches is a free value (log 108). -/
def Obligations.OperationsReachTheirUnits : Prop :=
  ∀ (s t : State) (e c k : Nat) (o : OpEntry) (f : BodyFetch) (q : List OpEntry) (bs : List Byte),
    (s.live = true → s.op e = none → exec (.bodyReadDone e) s = .next s) ∧
    (s.live = true → s.op e = some o → o.fetch = none → exec (.bodyReadDone e) s = .next s) ∧
    (s.live = true → s.op e = some o → o.fetch = some f → f.list = false → s.opGather e (s.bodyGather (s.ctxInst o.ctx) o.staged f) = (some bs, t) →
      exec (.bodyReadDone e) s = .next (((t.updOp e (fun w => { w with fetch := none, body := bs, staged := [], asked := [] })).chainResume e).refreshReady o.ctx)) ∧
    (s.live = true → s.op e = some o → o.fetch = some f → f.list = true → s.opGather e (s.bodyGather (s.ctxInst o.ctx) o.staged f) = (some bs, t) →
      exec (.bodyReadDone e) s = .next (((t.updOp e (fun w => { w with fetch := none, chips := listChips bs (bs.length / 2), staged := [], asked := [] })).chainResume
        e).refreshReady o.ctx)) ∧
    (s.live = true → s.op e = some o → o.fetch = some f → s.opGather e (s.bodyGather (s.ctxInst o.ctx) o.staged f) = (none, t) →
      exec (.bodyReadDone e) s = .next t) ∧
    (s.live = false → exec (.bodyReadDone e) s = .next s ∧ exec .standGrant s = .next s) ∧
    ((s.ctx c).queue = [] → exec (.tableEntry c) s = .next s) ∧
    ((s.ctx c).queue = o :: q → s.live = true → (s.updCtx c (fun x => { x with queue := q })).freeEntry.isSome = true → (s.opsOf c).length < 2048 →
      exec (.tableEntry c) s = .next ((s.updCtx c (fun x => { x with queue := q })).placeOp o)) ∧
    ((s.ctx c).queue = o :: q → (s.updCtx c (fun x => { x with queue := q })).freeEntry = none → exec (.tableEntry c) s = .next s) ∧
    (s.live = true → s.grantable 0 s.readyOps = none → exec .standGrant s = .next s) ∧
    (s.live = true → s.grantable 0 s.readyOps = some (e, o) → hTiles o.hdr = false →
      (List.range 512).find? (fun j => decide (Tbl.get 0 s.slots j = 0)) = some k →
      exec .standGrant s = .next (((({ s with slots := Tbl.set 0 s.slots k (e + 1) }).updOp e (fun w => { w with slot := some k })).updOp e
        (fun w => { w with stage := .running })).ctxProgress o.ctx)) ∧
    (s.live = true → s.grantable 0 s.readyOps = some (e, o) → hTiles o.hdr = true →
      exec .standGrant s = .next ((((({ s with stands := (standsOf (hStands o.hdr)).foldl (fun t n => Tbl.set 0 t n (e + 1)) s.stands }.wakeStands
        (hStands o.hdr)).freshBeats (hStands o.hdr)).stageSram (tilesOf (hStands o.hdr))).updOp e (fun w => { w with stage := .running })).ctxProgress o.ctx)) ∧
    (s.freeEntry = some k → s.entryFault o.ctx o.hdr = none → s.placeOp o =
      (((({ s with ops := Tbl.set none s.ops k (some o) } : State).updCtx o.ctx (fun x => { x with entered := o.idx })).ctxProgress o.ctx).chainResume
        k).refreshReady o.ctx) ∧
    (∀ x, s.freeEntry = some k → s.entryFault o.ctx o.hdr = some x → s.placeOp o = s.ctxFault o.ctx o.idx (some o.hdr) 0 x)

/-- OP_COMPLETE on a live tile operation whose results are issued, acknowledged and with the host: a fault found on the way is raised now; where the SRAM
of its tiles reads right and the checkers agree the operation ends as its kind does; where a word is uncorrectable its tile faults; where one checker
differs on a launch that is no replay, its tile faults with a source that is a free value, and on a replay the operation fails. COMPLETION_INCREMENT
of the context's generation counts one share of its buffer; any other is dropped and counted. END of a buffer whose every operation is entered ends
its dispatch, its COUNT judged against the operations as they were read. None does anything while the chip is not live, or where nothing has come so
far; what a change lets go on (log 33) follows. -/
def Obligations.OperationsEnd : Prop :=
  ∀ (s : State) (e : Nat) (o : OpEntry) (x : Err),
    (s.op e = none → ∀ k, exec (.opComplete e k) s = .next s.goOn) ∧
    (s.op e = some o → s.live = false ∨ o.stage ≠ .issued ∨ o.out ≠ 0 ∨ o.rest ≠ [] ∨ s.hostHeld o = true → ∀ k, exec (.opComplete e k) s = .next s.goOn) ∧
    (s.op e = some o → s.live = true → o.stage = .issued → o.out = 0 → o.rest = [] → s.hostHeld o = false → hOpcode o.hdr = opLaunch →
      (o.dead = true → s.holdsStands e o = true → ∀ k, exec (.opComplete e k) s = .next (s.stopOp e o).goOn) ∧
      (o.dead = false → o.err = some x → ∀ k, exec (.opComplete e k) s = .next (s.failOp e x).goOn) ∧
      (∀ k t n, o.dead = false → o.err = none → s.readSram (tilesOf (hStands o.hdr)) = (some n, t) →
        exec (.opComplete e k) s = .next (t.faultTile n 0x01).goOn) ∧
      (∀ t, o.dead = false → o.err = none → s.readSram (tilesOf (hStands o.hdr)) = (none, t) →
        exec (.opComplete e .agree) s = .next (t.finishOp e o).goOn ∧
        ∀ n, (o.replay = true → exec (.opComplete e (.differ n)) s = .next (t.failOp e { status := stCheckerFail }).goOn) ∧
          (o.replay = false → exec (.opComplete e (.differ n)) s =
            .next ((({ t with fresh := t.fresh + 1 } : State).faultTile n (BitVec.ofNat 8 (Config.free t.fresh)).toNat).goOn)))) ∧
    (s.op e = some o → s.live = true → o.stage = .issued → o.out = 0 → o.rest = [] → s.hostHeld o = false → hOpcode o.hdr = opCopy → o.dead = false →
      (o.err = some x → ∀ k, exec (.opComplete e k) s = .next (s.failOp e x).goOn) ∧
      (o.err = none → copyLen o.body ≠ 0 ∨ s.writesBefore o = false → ∀ k, exec (.opComplete e k) s = .next (s.finishOp e o).goOn) ∧
      (o.err = none → copyLen o.body = 0 → s.writesBefore o = true → ∀ k, exec (.opComplete e k) s = .next s.goOn)) ∧
    (∀ c g a b, s.live = false → exec (.completionIncrement c g a b) s = .next s) ∧
    (∀ (c : BitVec 10) g a b, s.live = true → s.gal.incs = [] → (s.ctx c.toNat).gen ≠ g →
      exec (.completionIncrement c g a b) s = .next { s with incDrops := satInc s.incDrops }) ∧
    (∀ (c : BitVec 10) g a b, s.live = true → s.gal.incs = [] → (s.owner c.toNat).isSome = true → (s.ctx c.toNat).gen = g →
      (((s.updCtx c.toNat (fun x => { x with doneBy := x.doneBy ++ [] })).owner c.toNat).isSome = true →
       ((s.updCtx c.toNat (fun x => { x with doneBy := x.doneBy ++ [] })).ctx c.toNat).gen = g →
        exec (.completionIncrement c g a b) s = .next ((s.updCtx c.toNat (fun x => { x with doneBy := x.doneBy ++ [] })).countShare c.toNat a b))) ∧
    (∀ c, s.owner c = none → exec (.end_ c) s = .next s) ∧
    (∀ c w, s.mayDispatch c = some w → w.phase = .dispatching → s.owner c = some w → w.nextOp < (s.ctx c).sets.length → exec (.end_ c) s = .next s) ∧
    (∀ c w h body v chips ch t, s.owner c = some w → s.mayDispatch c = some w → w.phase = .dispatching → (s.ctx c).sets.length ≤ w.nextOp →
      s.readOp c w = (some (h, body, v, chips, ch), t) →
      (endCount (autoCount (t.ctx c).sets) h = none → exec (.end_ c) s = .next (t.bufferBroken c (some h) (cfgBroken w.nextOp))) ∧
      (∀ n, endCount (autoCount (t.ctx c).sets) h = some n →
        exec (.end_ c) s = .next ((((t.ctxFresh c).updOwner c (fun w => { w with phase := .ended, expected := some n })).shareCheck c).endCheck c)))

/-- Each acts on a started operation of its opcode, and on nothing else. NOP completes. A COPY of no bytes is issued and touches nothing; one whose source
faults, or is not readable to its end, fails before it has written; one whose destination waits for a resetting part is held; else it writes the
destination granule by granule, each with the source as it then stands, waiting where bytes or a granule's commitment are awaited. TEST writes the four
bytes of the flag's state or the tally's value; SIGNAL_PEER its four or eight value bytes; TIMESTAMP the eight bytes of the time counter as the operation
became ready. CHAIN issues and starts its first chained operation. FENCE_GLOBAL fails as a transfer it waits for has failed, and waits for its buffer's
earlier work here; with nothing written through a portal it then completes. What it waits for beyond the spec's words is log 43. -/
def Obligations.ControlOperations : Prop :=
  ∀ (s t u : State) (e : Nat) (o o1 : OpEntry) (bs : List Byte),
    (s.started e opNop = some o → exec (.nop e) s = .next (s.completeOp e)) ∧ (s.started e opNop = none → exec (.nop e) s = .next s) ∧
    (s.started e opCopy = none → exec (.copy e) s = .next s) ∧
    (s.started e opCopy = some o → copyLen o.body = 0 → exec (.copy e) s = .next (s.updOp e (fun w => { w with stage := .issued }))) ∧
    (s.started e opCopy = some o → copyLen o.body ≠ 0 → s.hasReq e = true → exec (.copy e) s = .next s) ∧
    (s.started e opCopy = some o → copyLen o.body ≠ 0 → s.hasReq e = false →
      (∀ a x, s.checkPieces (s.opInst o) 1 (copySrc o.body) false (piecesOf (copySrc o.body) (copyLen o.body)) = (some (a, x), t) →
        exec (.copy e) s = .next (t.failOp e x)) ∧
      (s.checkPieces (s.opInst o) 1 (copySrc o.body) false (piecesOf (copySrc o.body) (copyLen o.body)) = (none, t) →
        (∀ x, t.outHeld (s.opInst o) [{ base := copyDst o.body, len := copyLen o.body, runs := [(copyDst o.body, zeros (copyLen o.body))], whole := false }] = some x →
          exec (.copy e) s = .next (t.holdReq e x)) ∧
        (t.outHeld (s.opInst o) [{ base := copyDst o.body, len := copyLen o.body, runs := [(copyDst o.body, zeros (copyLen o.body))], whole := false }] = none →
          ∀ stop held w sent, t.rangeEnd (s.opInst o) { base := copyDst o.body, len := copyLen o.body, runs := [], whole := false } = (stop, held, w) →
            w.copyGranules e (s.opInst o) o (copySrc o.body) (copyDst o.body) (copyLen o.body)
              ((piecesOf (copyDst o.body) (copyLen o.body)).filter (fun p => decide (copyDst o.body + o.copied ≤ p.1 ∧ p.1 < stop))) = (sent, u) →
            (sent = none → exec (.copy e) s = .next u) ∧
            (∀ r, sent = some r → exec (.copy e) s =
              .next ((u.updOp e (fun q => { q with err := (match q.err with | some x => some x | none => held) })).opSent e true r))))) ∧
    (s.started e opTest = some o → s.readObject e opTest (fld (hArg o.hdr 4 4) 0 1) (orefIdx (hArg o.hdr 0 4)) = (some o1, t) →
      exec (.test e) s = .next (t.cfeWrite e (hDva24 o1.hdr) (toLe 4 (if fld (hArg o.hdr 4 4) 0 1 = 0 then b2n (t.flag (orefIdx (hArg o.hdr 0 4)))
        else (t.tally (orefIdx (hArg o.hdr 0 4))).toNat)))) ∧
    (s.started e opTest = some o → s.readObject e opTest (fld (hArg o.hdr 4 4) 0 1) (orefIdx (hArg o.hdr 0 4)) = (none, t) → exec (.test e) s = .next t) ∧
    (s.started e opSignalPeer = some o →
      exec (.signalPeer e) s = .next (s.cfeWrite e (hDva16 o.hdr) (toLe (if bit (hArg o.hdr 4 4) 16 then 8 else 4) (hArg o.hdr 8 8)))) ∧
    (s.started e opTimestamp = some o → exec (.timestamp e) s = .next (s.cfeWrite e (hDva16 o.hdr) (toLe 8 o.readyAt))) ∧
    (s.started e opChain = some o →
      exec (.chain e) s = .next ((s.updOp e (fun w => { w with stage := .issued })).chainNext o.ctx o.idx (o.idx + 1))) ∧
    (∀ x, s.started e opFence = some o → s.fenceErr o = some x → exec (.fenceGlobal e) s = .next (s.failOp e x)) ∧
    (s.started e opFence = some o → s.fenceErr o = none → s.fenceClear e o = false → exec (.fenceGlobal e) s = .next s) ∧
    (s.started e opFence = some o → s.fenceErr o = none → s.fenceClear e o = true → (s.ctx o.ctx).hostWrites = [] →
      exec (.fenceGlobal e) s = .next (((s.updCtx o.ctx (fun x => { x with hostWrites := [] })).updOp e (fun w => { w with stage := .issued })).cfeDone e)) ∧
    (∀ h hs, s.started e opFence = some o → s.fenceErr o = none → s.fenceClear e o = true → (s.ctx o.ctx).hostWrites = h :: hs → s.isLost h.1 = true →
      exec (.fenceGlobal e) s = .next (s.failOp e { status := stChipLost, peer := h.1.toNat }))

/-- A started signal operation on an object of this chip is issued and pushes one change of its kind (set, clear, add of the amount, one arrival) behind
those in the pending-signal FIFO, where that has room; while it is full nothing changes. On an object of another member it leaves as a signal packet
with the instance; to a lost chip it fails with CHIP_LOST. It waits while an earlier operation of its buffer has data under way that an attached signal
ends (log 110). An operation that is not started is left alone. -/
def Obligations.SignalOperations : Prop :=
  ∀ (s : State) (e : Nat) (o : OpEntry),
    (let give := fun (c : Instr) (kind : BitVec 2) (amount : BitVec 16) =>
       (let home := s.orefHome (hArg o.hdr 0 4)
        let obj : BitVec 14 := BitVec.ofNat 14 (orefIdx (hArg o.hdr 0 4))
        let i : BitVec 6 := BitVec.ofNat 6 (s.opInst o)
        let t := s.updOp e (fun w => { w with stage := .issued, out := 1 })
        (s.released o.ctx o.idx = false → exec c s = .next s) ∧
        (s.released o.ctx o.idx = true →
        (home = s.dom.chipId → s.gal.fifo.length < 64 → exec c s =
          .next (t.fifoPush 0 { kind := kind, obj := obj, amount := amount, inst := i, chip := home, notice := none, origin := .op e })) ∧
        (home = s.dom.chipId → 64 ≤ s.gal.fifo.length → exec c s = .next s) ∧
        (home ≠ s.dom.chipId → s.isLost home = true → exec c s = .next (s.failOp e { status := stChipLost, peer := home.toNat })) ∧
        (home ≠ s.dom.chipId → s.isLost home = false → exec c s =
          .next (t.pureSignal home (.opSignal e) i (hOrd o.hdr) { obj := obj, kind := kind, amount := amount, iovf := false, irpl := false }))))
     (s.started e opSetFlag = some o → give (.setFlag e) 0 0) ∧
     (s.started e opClearFlag = some o → give (.clearFlag e) 1 0) ∧
     (s.started e opTallyAdd = some o → give (.tallyAdd e) 2 (BitVec.ofNat 16 (hArg o.hdr 4 4))) ∧
     (s.started e opBarrierArrive = some o → give (.barrierArrive e) 3 1)) ∧
    (s.started e opSetFlag = none → exec (.setFlag e) s = .next s) ∧ (s.started e opClearFlag = none → exec (.clearFlag e) s = .next s) ∧
    (s.started e opTallyAdd = none → exec (.tallyAdd e) s = .next s) ∧ (s.started e opBarrierArrive = none → exec (.barrierArrive e) s = .next s)

/-- A started wait judges its condition behind every change ahead of it, with its object accessed: a condition that holds completes the operation at once;
one that does not holds it, with a waiter registered for its slot and its time limit counted from the first registration; a tally space that has
overshot fails with OP_CONFIG; an object the instance may not access, or that is poisoned, fails the operation. TALLY_GE holds when the tally is at
most 2^31 - 1 beyond the target, modulo 2^32. -/
def Obligations.WaitOperations : Prop :=
  ∀ (s t u : State) (e op k x limit : Nat) (o : OpEntry) (cond : Cond),
    (∀ f, s.started e opWait = some o → f = orefIdx (hArg o.hdr 0 4) →
      exec (.wait e) s = .next (s.register e opWait [(0, f)] (.flagIs f (bit (hArg o.hdr 4 4) 0)) (hArg o.hdr 8 4))) ∧
    (∀ f, s.started e opTallyWait = some o → f = orefIdx (hArg o.hdr 0 4) →
      exec (.tallyWait e) s = .next (s.register e opTallyWait [(1, f)] (.tallyGe f (BitVec.ofNat 32 (hArg o.hdr 12 4))) (hArg o.hdr 8 4))) ∧
    (∀ p c, s.started e opTallyWaitSpace = some o → p = orefIdx (hArg o.hdr 0 4) → c = orefIdx (hArg o.hdr 4 4) →
      exec (.tallyWaitSpace e) s = .next (s.register e opTallyWaitSpace [(1, p), (1, c)] (.space p c (BitVec.ofNat 16 (hArg o.hdr 8 4))) (hArg o.hdr 12 4))) ∧
    (s.started e opWait = none → exec (.wait e) s = .next s) ∧ (s.started e opTallyWait = none → exec (.tallyWait e) s = .next s) ∧
    (s.started e opTallyWaitSpace = none → exec (.tallyWaitSpace e) s = .next s) ∧
    (s.observe = t → t.started e op = none → s.register e op [(k, x)] cond limit = t) ∧
    (s.observe = t → t.started e op = some o → t.access k x (t.opInst o) = (0, u) →
      (u.judge cond = .pass → s.register e op [(k, x)] cond limit = u.endWait e .pass) ∧
      (u.judge cond = .fail → s.register e op [(k, x)] cond limit = u.failOp e { status := stOpConfig }) ∧
      (u.judge cond = .wait → hStands o.hdr = 0 → s.register e op [(k, x)] cond limit =
        ({ u with gal := { u.gal with waiters := u.gal.waiters ++ [({ entry := e, holder := BitVec.ofNat 16 (o.slot.getD 0), cond := cond, deadline := if limit = 0 then none else some (o.since.getD u.now + 1000 * limit) } : Waiter)] } }).updOp e
          (fun w => { w with stage := .held, since := some (o.since.getD u.now) }))) ∧
    (∀ n target, (s.judge (.tallyGe n target) = .pass ↔ (s.tally n - target).toNat < 2 ^ 31)) ∧
    (∀ f b, (s.judge (.flagIs f b) = .pass ↔ s.flag f = b))

/-- A started COND_ENQUEUE whose condition is ALWAYS, or holds when its object is read, pushes its entry, with the ring's next tag, on the device-resident
ring it names and completes; where the condition does not hold it completes without. On a full ring it is held, and pushes when a slot is released; a
ring the instance does not have, or one disabled, fails it with OP_CONFIG. -/
def Obligations.ConditionalEnqueue : Prop :=
  ∀ (s t : State) (e n : Nat) (o o1 : OpEntry),
    (s.started e opCondEnqueue = none → exec (.condEnqueue e) s = .next s) ∧
    (s.started e opCondEnqueue = some o → fld (hArg o.hdr 4 4) 0 3 = 0 →
      (s.enqueueRing o = none → exec (.condEnqueue e) s = .next (s.failOp e { status := stOpConfig })) ∧
      (s.enqueueRing o = some n → (s.dr n).size = 0 → exec (.condEnqueue e) s = .next (s.failOp e { status := stOpConfig })) ∧
      (s.enqueueRing o = some n → (s.dr n).size ≠ 0 → 2 ^ (s.dr n).size.toNat ≤ ((s.dr n).push - (s.dr n).release).toNat →
        exec (.condEnqueue e) s = .next (s.updOp e (fun w => { w with stage := .held }))) ∧
      (s.enqueueRing o = some n → (s.dr n).size ≠ 0 → ((s.dr n).push - (s.dr n).release).toNat < 2 ^ (s.dr n).size.toNat → (s.dr n).guilty = none →
        exec (.condEnqueue e) s = .next (((s.updDr n (fun q => { q with push := q.push + 1, nextTag := q.nextTag + 1, entries := q.entries ++ [putAt o.body 8 (toLe 6 (s.dr n).nextTag)] })).hallWritten
          (pushWords n (s.dr n).nextTag)).completeOp e))) ∧
    (∀ c, s.started e opCondEnqueue = some o → fld (hArg o.hdr 4 4) 0 3 = c → c ≠ 0 →
      (s.readObject e opCondEnqueue (if c < 3 then 0 else 1) (orefIdx (hArg o.hdr 0 4)) = (none, t) → exec (.condEnqueue e) s = .next t) ∧
      (s.readObject e opCondEnqueue (if c < 3 then 0 else 1) (orefIdx (hArg o.hdr 0 4)) = (some o1, t) →
        (t.condHolds o1 = false → exec (.condEnqueue e) s = .next (t.completeOp e)) ∧
        (t.condHolds o1 = true → exec (.condEnqueue e) s = .next (t.enqueue e o1)))) ∧
    (s.op e = some o → s.live = true → o.stage = .held → o.dead = false → hOpcode o.hdr = opCondEnqueue →
      exec (.condEnqueuePush e) s = .next (s.enqueue e o)) ∧
    (s.op e = none ∨ s.live = false → exec (.condEnqueuePush e) s = .next s)

/-- Each of the thirteen tile categories acts on a started LAUNCH of its category alone, and leaves any other operation be. A descriptor that names no
valid work, or a chip outside its rectangle, fails the operation with OP_CONFIG. Valid work is done on its plan: an output or input range that fails its
check fails the operation; operands still to arrive leave it running; data that name no valid work fail it with OP_CONFIG; with all operands the results
are computed once and every result range that is not empty is written, the operation noting whether an accumulator wrapped. Bytes of an output that
aliases an input are free values (log 8). -/
def Obligations.TileLaunches : Prop :=
  ∀ (s : State) (e : Nat) (o : OpEntry) (c : Nat),
    (let holds := fun (i : Instr) (cat : Nat) (plan : Nat → List Byte → OpEntry → Option Plan) =>
       (s.started e opLaunch = none → exec i s = .next s) ∧
       (s.started e opLaunch = some o → hCat o.hdr ≠ cat → exec i s = .next s) ∧
       (s.started e opLaunch = some o → hCat o.hdr = cat → chipCoord s.dom.chipId o.body = none → exec i s = .next (s.failOp e { status := stOpConfig })) ∧
       (s.started e opLaunch = some o → hCat o.hdr = cat → chipCoord s.dom.chipId o.body = some c →
         (plan c o.body o = none → exec i s = .next (s.failOp e { status := stOpConfig })) ∧
         (∀ (p : Plan) (s0 s1 s2 s3 : State) a os b runs fin ovf x, plan c o.body o = some p →
           (s.checkOpers (s.opInst o) p.checks = (some x, s0) → exec i s = .next (s0.failOp e x)) ∧
           (s.checkOpers (s.opInst o) p.checks = (none, s0) →
             (s0.readOpers e o p.ins = (none, s1) → exec i s = .next s1) ∧
             (s0.readOpers e o p.ins = (some a, s1) → p.more a = none → exec i s = .next (s1.failOp e { status := stOpConfig })) ∧
             (s0.readOpers e o p.ins = (some a, s1) → p.more a = some os →
               (s1.readOpers e o os = (none, s2) → exec i s = .next s2) ∧
               (s1.readOpers e o os = (some b, s2) →
                 (p.result a b = .bad → exec i s = .next (s2.failOp e { status := stOpConfig })) ∧
                 (p.result a b = .done runs ovf → s2.settled o (p.ins ++ os) p.outs runs = (fin, s3) →
                   exec i s = .next ((s3.updOp e (fun w => { w with ovf := w.ovf || ovf, resume := max w.resume p.point })).opWrite e
                     (((p.outs.zip fin).map (fun y => ({ base := y.1.base, len := y.1.span, runs := y.2, whole := p.whole } : OutRange))).filter
                       (fun r => r.len ≠ 0)) p.ride)))))))
     holds (.matmul e) 0x10 matmulPlan ∧
      holds (.conv e) 0x11 convPlan ∧
      holds (.quantize e) 0x12 quantPlan ∧
      holds (.dequantize e) 0x13 dequantPlan ∧
      holds (.attention e) 0x20 attentionPlan ∧
      holds (.norm e) 0x21 normPlan ∧
      holds (.softmax e) 0x22 softmaxPlan ∧
      holds (.elementwise e) 0x23 elementwisePlan ∧
      holds (.reduce e) 0x24 reducePlan ∧
      holds (.gather e) 0x25 gatherPlan ∧
      holds (.scatter e) 0x26 scatterPlan ∧
      holds (.sample e) 0x27 samplePlan ∧
      holds (.copyTransform e) 0x28 transformPlan)

/-- Each acts on a started LAUNCH of its category alone. A descriptor with no valid work fails with OP_CONFIG. On a fresh start the chip announces itself,
with its rank, to every peer, once, and fails where its own check did; until every rank has announced itself well it does no more; an announcement that
does not fit fails the operation with OP_CONFIG; work of no elements is issued; else the chip sends its contribution. One whose results were all issued
before a replay is issued. How the announcements are laid out is the model's own (log 15). -/
def Obligations.CollectiveLaunches : Prop :=
  ∀ (s : State) (e : Nat) (o : OpEntry) (c : Nat) (k : CollDesc),
    (let holds := fun (i : Instr) (cat : Nat) =>
       (s.started e opLaunch = none → exec i s = .next s) ∧
       (s.started e opLaunch = some o → hCat o.hdr ≠ cat → exec i s = .next s) ∧
       (s.started e opLaunch = some o → hCat o.hdr = cat → chipCoord s.dom.chipId o.body = some c →
         (collDesc c o.body cat = none → exec i s = .next (s.failOp e { status := stOpConfig })) ∧
         (collDesc c o.body cat = some k → o.resume ≠ 0 → exec i s = .next (s.opSent e false .none)) ∧
         (collDesc c o.body cat = some k → o.resume = 0 → (s.opColl o).announced.any (fun a => a.1 == selfRank) = false → k.c < k.p → o.chips.length = k.p →
           (((s.collAnnounce e o k.c true).opColl o).announced.filter (fun a => a.1 ≠ selfRank)).any (fun a => a.2 ≠ some 0) = false →
           (List.range k.p).all (fun r => (((s.collAnnounce e o k.c true).opColl o).announced.filter (fun a => a.1 ≠ selfRank)).any (fun a => a.1 == r)) = false →
           exec i s = .next (s.collAnnounce e o k.c true)) ∧
         (collDesc c o.body cat = some k → o.resume = 0 → (s.opColl o).announced.any (fun a => a.1 == selfRank) = false → k.p ≤ k.c ∨ o.chips.length ≠ k.p →
           exec i s = .next ((s.collAnnounce e o k.c false).failOp e { status := stOpConfig })) ∧
         (collDesc c o.body cat = some k → o.resume = 0 → (s.opColl o).announced.any (fun a => a.1 == selfRank) = true → k.c < k.p → o.chips.length = k.p →
           (let told := (s.opColl o).announced.filter (fun a => a.1 ≠ selfRank)
            (told.any (fun a => a.2 ≠ some 0) = true → exec i s = .next (s.failOp e { status := stOpConfig })) ∧
            (told.any (fun a => a.2 ≠ some 0) = false → (List.range k.p).all (fun r => told.any (fun a => a.1 == r)) = false → exec i s = .next s) ∧
            (told.any (fun a => a.2 ≠ some 0) = false → (List.range k.p).all (fun r => told.any (fun a => a.1 == r)) = true →
              (k.n = 0 → exec i s = .next (s.opSent e true .none)) ∧ (k.n ≠ 0 → exec i s = .next (s.collSend e o k))))))
     holds (.allReduce e) 0x30 ∧ holds (.reduceScatter e) 0x31 ∧ holds (.allGather e) 0x32)

/-- The four messages of a collective come in transfers of their own, delivered by the row of each. An announcement is kept for its rank, a second one of
the same rank as a failed check; contribution bytes are kept for their rank and place unless they are held already; both count as progress of the live
operation they are for. A failure notice fails the operation with its status. A replaying share that asks for this chip's contribution gets the bytes
of its input values again, or, in place and complete, of its results. What is said of a collective that is over here, or of none, does nothing. The
layout of these transfers is the model's own (log 15). -/
def Obligations.CollectiveMessages : Prop :=
  ∀ (s t : State) (p : Packet) (m : CtlMsg) (key bs : List Byte) (rank index e c i : Nat) (st gen : BitVec 16) (o : OpEntry) (k : CollDesc) (who : Option Nat),
    (s.mine p = true → p.type = tyWrite → p.msg = some m →
      (m = .announce key rank st → exec (.collectiveAnnounce p) s = .next ((s.deliver takeAny p).afterAnswer)) ∧
      (m = .contribute key rank index bs → exec (.collectiveContribution p) s = .next ((s.deliver takeAny p).afterAnswer)) ∧
      (m = .replayAsk key → exec (.replayContributionRequest p) s = .next ((s.deliver takeAny p).afterAnswer)) ∧
      (m = .replayFail key st → exec (.replayFailureNotice p) s = .next ((s.deliver takeAny p).afterAnswer))) ∧
    (s.mine p = false → exec (.collectiveAnnounce p) s = .next s ∧ exec (.collectiveContribution p) s = .next s ∧
      exec (.replayContributionRequest p) s = .next s ∧ exec (.replayFailureNotice p) s = .next s) ∧
    (p.type = tyWrite → p.msg = some m → takeAny s p = (.done 0, s.takeColl p m)) ∧
    ((s.coll key p.inst.toNat 0).past = none → s.collOp key = some (e, o) →
      s.takeColl p (.announce key rank st) = (s.setColl ((s.coll key p.inst.toNat 0).announce rank st)).ctxProgress o.ctx) ∧
    ((s.coll key p.inst.toNat 0).past.isSome = true →
      s.takeColl p (.announce key rank st) = s ∧ s.takeColl p (.contribute key rank index bs) = s) ∧
    (∀ x : Coll, (Tbl.get none x.announced rank = none → Tbl.get none (x.announce rank st).announced rank = some st) ∧
      ((Tbl.get none x.announced rank).isSome = true → Tbl.get none (x.announce rank st).announced rank = some 1) ∧
      ((Tbl.get [] x.data rank).any (fun y => y.1 == index && y.2.length == bs.length) = true → x.contribute rank index bs = x) ∧
      ((Tbl.get [] x.data rank).any (fun y => y.1 == index && y.2.length == bs.length) = false →
        x.contribute rank index bs = { x with data := Tbl.set [] x.data rank (Tbl.get [] x.data rank ++ [(index, bs)]) })) ∧
    (s.collOp key = some (e, o) → s.takeColl p (.replayFail key st) = s.failOp e { status := st.toNat }) ∧
    (s.collOp key = none → s.takeColl p (.replayFail key st) = s) ∧
    (s.collFor key = some (who, o, i, gen) → chipCoord s.dom.chipId o.body = some c → collDesc c o.body (hCat o.hdr) = some k →
      s.gather i o.staged 1 k.inn.base k.inn.span = (.bytes bs, t) →
      (o.resume = 0 → s.takeColl p (.replayAsk key) = t.collValues who i (hOrd o.hdr) p.src key k.it k.c bs) ∧
      (k.inPlace = true → o.resume ≠ 0 → s.takeColl p (.replayAsk key) = t.collValues who i (hOrd o.hdr) p.src key k.ot k.p bs)) ∧
    (s.collFor key = none → s.takeColl p (.replayAsk key) = s)

/-- GALLERY_APPLY pops the oldest change of the pending-signal FIFO and applies it; on an empty FIFO, or while the chip does not run, nothing changes. A
change that arrived from another member, on an object that is sound, that the instance may access and at which nothing waits, sets or clears its flag,
adds its amount to its tally, or joins its barrier's COUNT, and the LAST fields name it; the change of an instance that has no access writes
CROSS_TENANT and leaves the object alone. A landing takes PCOUNT from COUNT, reverses SENSE and advances PHASE. FIFO_ROOM lets one waiting change in.
A wait whose time limit passes while it is held fails with WAIT_TIMEOUT, naming its object; one that no longer waits is left alone. HANG_TIMEOUT
faults the oldest share of a ring whose hang timer runs. Records of buffers whose END passes with a change are written together, in order. -/
def Obligations.GalleryOrder : Prop :=
  ∀ (s : State) (g : Sig) (rest : List Sig) (e : Nat) (w : Waiter) (ring : RingRef),
    (s.live = true → s.gal.fifo = g :: rest → s.gal.ends = none → exec .galleryApply s =
      .next (({ s with gal := { s.gal with fifo := rest, ends := some [] } } : State).applySig g).writeEnds) ∧
    (s.live = true → s.gal.fifo = g :: rest → s.gal.ends.isSome = true → exec .galleryApply s =
      .next (({ s with gal := { s.gal with fifo := rest } } : State).applySig g)) ∧
    (s.gal.ends = some [] → s.writeEnds = { s with gal := { s.gal with ends := none } }) ∧
    (s.live = false → exec .galleryApply s = .next s) ∧
    (∀ (k idx : Nat), k = sigObjKind g.kind.toNat → idx = g.obj.toNat → g.notice = none → g.origin = .remote →
      Tbl.get 0 s.gal.flips (objKey k idx) = 0 →
      (s.objVerdict k idx g.inst.toNat = 0 → s.gal.waiters.filter (fun x => x.cond.touches k idx) = [] →
        (k = 0 → s.safe.armed = false →
          s.applySig g = ({ s with gal := { s.gal with flags := Tbl.set false s.gal.flags idx (g.kind == 0) } } : State).setLast 0 idx g) ∧
        (k = 1 → s.isFe = false →
          s.applySig g = ({ s with gal := { s.gal with tallies := Tbl.set 0 s.gal.tallies idx (s.tally idx + BitVec.ofNat 32 g.amount.toNat) } } : State).setLast 1 idx g) ∧
        (k = 2 → (satAdd (s.bar idx).count g.amount.toNat).toNat < s.barPcount idx → satAdd (s.bar idx).count g.amount.toNat ≠ 0 →
          s.applySig g = (s.setBar idx { s.bar idx with count := satAdd (s.bar idx).count g.amount.toNat }).setLast 2 idx g)) ∧
      (s.objVerdict k idx g.inst.toNat = 0x10 → s.applySig g = s.crossTenant k idx g.inst.toNat g.chip) ∧
      (s.objVerdict k idx g.inst.toNat ≠ 0 → s.objVerdict k idx g.inst.toNat ≠ 0x10 → s.applySig g = s)) ∧
    (∀ b, s.gal.waiters.filter (fun x => x.cond.touches 2 b) = [] →
      s.landBar b = s.setBar b { count := (s.bar b).count - BitVec.ofNat 16 (s.barPcount b), sense := !(s.bar b).sense, phase := (s.bar b).phase + 1, forwarded := false }) ∧
    (s.live = true → exec .fifoRoom s = .next (State.sendPosted s.pcie.posted.length (s.refillOne).1)) ∧
    (s.live = false → exec .fifoRoom s = .next s) ∧ (64 ≤ s.gal.fifo.length → s.refillOne = (s, false)) ∧
    (s.live = true → s.gal.waiters.find? (fun x => x.entry == e && x.deadline.isSome) = some w →
      (∀ f b, w.cond = .flagIs f b → exec (.waitTimeout e) s = .next (s.failOp e { status := stWaitTimeout, objChip := s.dom.chipId.toNat, objKind := 0, objIdx := f })) ∧
      (∀ n x, w.cond = .tallyGe n x → exec (.waitTimeout e) s = .next (s.failOp e { status := stWaitTimeout, objChip := s.dom.chipId.toNat, objKind := 1, objIdx := n })) ∧
      (∀ p c x, w.cond = .space p c x → exec (.waitTimeout e) s = .next (s.failOp e { status := stWaitTimeout, objChip := s.dom.chipId.toNat, objKind := 1, objIdx := p })) ∧
      (∀ b x, w.cond = .phasePast b x → exec (.waitTimeout e) s = .next (s.failOp e { status := stWaitTimeout, objChip := s.dom.chipId.toNat, objKind := 2, objIdx := b }))) ∧
    (s.live = false ∨ s.gal.waiters.find? (fun x => x.entry == e && x.deadline.isSome) = none → exec (.waitTimeout e) s = .next s) ∧
    (s.live = false ∨ s.hangRuns ring = false ∨ s.guilt ring ≠ none ∨ s.ownersOf ring = [] → exec (.hangTimeout ring) s = .next s) ∧
    (∀ c o, s.live = true → s.hangRuns ring = true → s.guilt ring = none →
      (s.ownersOf ring).foldl (fun (a : Option (Nat × Owner)) x => match a with | none => some x | some b => if x.2.order < b.2.order then some x else a) none = some (c, o) →
      ∃ idx cap, exec (.hangTimeout ring) s = .next (s.applyFault c idx stHung 2 cap))

/-- While the fabric unit runs, a port that carries or trains retrains from LOCK when block lock is lost, and goes DOWN, discarding its flits, when a lane
is lost or its partner says DOWN. A training port that has sent READY moves on when READY TS blocks of its own state stand on both lanes, from LOCK to
EQUALIZE (keeping the lanes' inversion: a lane on which every bit arrives complemented reads as the sets that were sent), to ALIGN (with the preset asked for), to CONFIG (with the lanes' assignment); CONFIG ends ACTIVE, with the
partner named (HELD where the domain is formed), or INCOMPATIBLE, with the field that differs, and the event. A training state past its limit goes back to LOCK; the eighth failure in a
row waits, and after the wait training starts again. While the unit does not run, or on a port that is in no such state, nothing changes. The kept
flits at a loss and the wait after DOWN are the model's (log 55). -/
def Obligations.PortTraining : Prop :=
  ∀ (s : State) (n : Nat) (b0 b1 : Block) (t0 t1 : TrainSet) (inv : BitVec 2),
    (s.fabricRuns = true → n < 24 → (s.port n).up = true →
      exec (.blockLockLoss n) s = .next (s.retrain n) ∧ exec (.laneLoss n) s = .next (s.takeDown n) ∧ exec (.downReceived n) s = .next (s.takeDown n)) ∧
    (s.fabricRuns = false ∨ 24 ≤ n ∨ (s.port n).up = false →
      exec (.blockLockLoss n) s = .next s ∧ exec (.laneLoss n) s = .next s ∧ exec (.downReceived n) s = .next s) ∧
    ((s.port n).st ≠ .active →
      s.takeDown n = s.updPort n (fun p => { p.into .down with backoff := true, attempts := 0, link := Link.reset }) ∧
      s.retrain n = (s.updPort n (fun p => { p with attempts := 0, backoff := false })).trainIn n .lock) ∧
    (s.fabricRuns = true → n < 24 → (s.port n).st = .training → (s.port n).backoff = false → (s.port n).readTrain b0 b1 = some (t0, t1, inv) →
      (s.port n).ready = true → t0.ready = true → t1.ready = true → t0.tstate = (s.port n).train.code → t1.tstate = (s.port n).train.code → t0.lane ≠ t1.lane →
      ((s.port n).train = .lock → exec (.trainingAdvance n b0 b1) s = .next ((s.updPort n (fun q => { q with invert := inv })).trainIn n .equalize)) ∧
      ((s.port n).train = .equalize → exec (.trainingAdvance n b0 b1) s = .next ((s.updPort n (fun q => { q with preset := t0.preset })).trainIn n .align)) ∧
      ((s.port n).train = .align → exec (.trainingAdvance n b0 b1) s = .next ((s.updPort n (fun q => { q with swap := t0.lane == 1 })).trainIn n .config)) ∧
      ((s.port n).train = .config → t0.proto ≠ 1 → exec (.trainingAdvance n b0 b1) s =
        .next ((s.updPort n (fun p => { p.into .incompatible with mismatch := 1 })).event evPortIncompatible 0 0 (n + 32) 0)) ∧
      ((s.port n).train = .config → t0.proto = 1 → t0.stands.toNat ≠ Grade.stands s.fuses.grade → exec (.trainingAdvance n b0 b1) s =
        .next ((s.updPort n (fun p => { p.into .incompatible with mismatch := 2 })).event evPortIncompatible 0 0 (n + 64) 0)) ∧
      ((s.port n).train = .config → t0.proto = 1 → t0.stands.toNat = Grade.stands s.fuses.grade → t0.nlevel ≠ s.boot.nlevel → exec (.trainingAdvance n b0 b1) s =
        .next ((s.updPort n (fun p => { p.into .incompatible with mismatch := 3 })).event evPortIncompatible 0 0 (n + 96) 0)) ∧
      (∀ r q : State, r = (s.draw 48).2.updPort n (fun p => { p with st := if s.dom.formed then .held else .active, mismatch := 0, attempts := 0, partnerPort := t0.port.setWidth 8, partnerChip := t0.chip, partnerInc := t0.cinc, partnerSerial := (s.draw 48).1, link := p.link.begin_ }) →
        q = (if t0.chip = 0 then r else { r with dom := { r.dom with incs := Tbl.set 0 r.dom.incs t0.chip.toNat t0.cinc } }) →
        (s.port n).train = .config → t0.proto = 1 → t0.stands.toNat = Grade.stands s.fuses.grade → t0.nlevel = s.boot.nlevel →
        exec (.trainingAdvance n b0 b1) s = .next (((State.sendLcws n 16 q).portUp n).pumpPort n))) ∧
    ((s.port n).readTrain b0 b1 = some (t0, t1, inv) →
      t0.ready = false ∨ t1.ready = false ∨ t0.tstate ≠ (s.port n).train.code ∨ t1.tstate ≠ (s.port n).train.code ∨ (s.port n).ready = false →
      exec (.trainingAdvance n b0 b1) s = .next s) ∧
    ((s.port n).readTrain b0 b1 = none → exec (.trainingAdvance n b0 b1) s = .next s) ∧
    ((s.port n).train = .lock → (s.port n).readTrain (ctlBlock bkTs t0.content) (ctlBlock bkTs t1.content).flip = some (t0, t1, 2)) ∧
    (s.fabricRuns = true → n < 24 → (s.port n).st = .training → (s.port n).backoff = false →
      ((s.port n).attempts + 1 < 8 → exec (.trainingTimeout n) s = .next ((s.updPort n (fun q => { q with attempts := (s.port n).attempts + 1 })).trainIn n .lock)) ∧
      (8 ≤ (s.port n).attempts + 1 → exec (.trainingTimeout n) s = .next (s.updPort n (fun q => { q with attempts := 0, backoff := true, train := .lock, ready := false })))) ∧
    ((s.port n).st ≠ .training ∨ (s.port n).backoff = true → exec (.trainingTimeout n) s = .next s) ∧
    (s.fabricRuns = true → n < 24 → (s.port n).backoff = true → (s.port n).st = .training ∨ (s.port n).st = .down →
      exec (.trainingBackoff n) s = .next ((s.updPort n (fun q => { q with backoff := false })).trainIn n .lock)) ∧
    ((s.port n).backoff = false → exec (.trainingBackoff n) s = .next s)

/-- On a port that carries packets, a group of block pairs that no control word closes, or whose control word's check fails, is refused whole: NAK goes out
once and the word says nothing. The pairs of a group read as its flits and its word, ALIGN pairs among them removed, and the receiver's descrambler undoes
the scrambler. Behind a sound
word, whose acknowledgement, NAK and credits are taken, a sound group that follows the last accepted flit is accepted; one at or below it is dropped
without NAK; a gap, or a group that fails its own check, is refused with NAK. A NAK or 2 us without progress sends every unacknowledged flit again,
counted; the sixteenth resend without progress retrains the port, or takes it DOWN where retraining fails. A credit return past what link-up granted
retrains. An acknowledgement that is due leaves in a word without flits, with the credits that may be returned; those of the SGT class stay while no
pending-signal slot is free. Flits leave in groups of at most eight, each closed by a word with its number, its code, the acknowledgement, the credits
returned and its own code. On a port that carries nothing, nothing changes. That half the numbers count as below is the model's reading (log 92). -/
def Obligations.LinkLayer : Prop :=
  ∀ (s t : State) (n : Nat) (ps : List (Block × Block)) (flits : List Flit) (ok : Bool) (w : Lcw) (retrained : Bool),
    (s.fabricRuns = true → n < 24 → (s.port n).st = .active ∨ (s.port n).st = .held →
      (readGroup (ps.map (s.port n).corrected) = none → exec (.flitGroup n ps) s = .next (s.refuseGroup n false)) ∧
      (readGroup (ps.map (s.port n).corrected) = some (flits, ok, w) → w.lcrc ≠ w.crc → exec (.flitGroup n ps) s = .next (s.refuseGroup n false)) ∧
      (readGroup (ps.map (s.port n).corrected) = some (flits, ok, w) → w.lcrc = w.crc → s.takeLcw n w = t →
        (w.empty = true ∨ (t.port n).st = .training → exec (.flitGroup n ps) s = .next t) ∧
        (w.empty = false → (t.port n).st ≠ .training → ok = true → w.gcrc = crc32c flits.flatten → flits.length = w.gcnt.toNat + 1 →
          exec (.flitGroup n ps) s = .next (t.takeGroup n flits w.gseq)) ∧
        (w.empty = false → (t.port n).st ≠ .training → ok = false ∨ w.gcrc ≠ crc32c flits.flatten ∨ flits.length ≠ w.gcnt.toNat + 1 →
          exec (.flitGroup n ps) s = .next (t.refuseGroup n (w.gseq = (s.port n).link.rxLast + 1)))) ∧
      exec (.replayTimeout n) s = .next (s.resend n) ∧
      (16 ≤ (s.port n).link.stalls → exec (.resendLimit n retrained) s = .next (if retrained then s.retrain n else s.takeDown n)) ∧
      ((s.port n).link.stalls < 16 → exec (.resendLimit n retrained) s = .next s) ∧
      exec (.ackDeadline n) s = .next (State.sendLcws n 64 s)) ∧
    (s.lcwDue n = false → State.sendLcws n 64 s = s) ∧
    ((∀ f ∈ flits, f.length = 32) → readGroup (groupPairs flits w) = some (flits, true, w)) ∧
    (∀ qs, readGroup (ps ++ alignPair :: qs) = readGroup (ps ++ qs)) ∧
    (∀ (st : BitVec 58) (bs : List Bool), descramble st (scramble st bs).1 = (bs, (scramble st bs).2)) ∧
    (s.fabricRuns = false ∨ ((s.port n).st ≠ .active ∧ (s.port n).st ≠ .held) →
      exec (.flitGroup n ps) s = .next s ∧ exec (.replayTimeout n) s = .next s ∧ exec (.resendLimit n retrained) s = .next s ∧ exec (.ackDeadline n) s = .next s) ∧
    (∀ q, q = s.updPort n (fun p => { p with link := { p.link with rx := p.link.rx ++ flits, rxLast := w.gseq + BitVec.ofNat 12 (flits.length - 1), rxAny := true, nakking := false, ackDue := true } }) →
      w.gseq = (s.port n).link.rxLast + 1 → s.takeGroup n flits w.gseq = q) ∧
    (w.gseq ≠ (s.port n).link.rxLast + 1 → (s.port n).link.rxAny = true → ((s.port n).link.rxLast - (w.gseq + BitVec.ofNat 12 (flits.length - 1))).toNat < 2048 →
      s.takeGroup n flits w.gseq = s.updPort n (fun p => { p with link := { p.link with ackDue := true } })) ∧
    ((s.port n).link.unacked = [] → s.resend n = s) ∧
    ((s.port n).link.unacked ≠ [] → s.resend n =
      (s.updPort n (fun p => { p with resends := satInc p.resends, link := { p.link with stalls := p.link.stalls + 1 } })).bumpReplay.sendFlits n (s.port n).link.unacked) ∧
    (∀ (l : Link) (vc c : Nat), c ≠ 0 → l.used.contains vc = true → Tbl.get 0 l.granted vc < Tbl.get 0 l.credit vc + c → l.credited vc c = none) ∧
    (∀ g : List (BitVec 12 × Flit), g ≠ [] → g.length ≤ 8 → s.sendFlits n g = s.sendGroup n g) ∧
    (∀ (l : Link) (seq : BitVec 12) (nak : Bool), flits ≠ [] →
      (s.lcwFor l seq flits nak).lcrc = (s.lcwFor l seq flits nak).crc ∧ (s.lcwFor l seq flits nak).gcrc = crc32c flits.flatten ∧
      (s.lcwFor l seq flits nak).gseq = seq ∧ (s.lcwFor l seq flits nak).ackseq = l.rxLast ∧ (s.lcwFor l seq flits nak).nak = nak ∧
      (s.lcwFor l seq flits nak).empty = false ∧ (s.lcwGone l).ackDue = false) ∧
    (s.freeSlot = none → ∀ vc, s.returns vc = decide (vc / 8 ≠ 2)) ∧ ((s.freeSlot).isSome = true → ∀ vc, s.returns vc = true)

/-- A packet addressed to this chip while its fabric unit runs is delivered by the row of its type, or of the message it carries; addressed to another, it changes nothing there. One
from a lost chip is ignored; a malformed one is dropped with the event; a wrong PCRC is counted and answered E2E_NAK CRC; a TINC that is not this
chip's incarnation is answered STALE; one of an instance under another instance epoch, CTL class apart, is acknowledged 0x13 and does nothing. One from an
earlier incarnation of its source is dropped; with 256 windows held, one of a new source is answered RETRY_LATER; a duplicate of a committed transfer is
acknowledged again with the outcome kept, or read afresh; any other is taken. A transfer is a duplicate when its TID lies below B or is marked. -/
def Obligations.PacketDelivery : Prop :=
  ∀ (s : State) (p : Packet) (m : CtlMsg) (via : Option Nat) (found : List (Nat × List (List Byte))) (fn : Nat),
    (s.mine p = true →
      (p.type = tyWrite ∧ p.isVoid = false ∧ p.msg = none → exec (.writePacket p) s = .next ((s.deliver takeAny p).afterAnswer)) ∧
      (p.isVoid = true → exec (.voidReceive p) s = .next ((s.deliver takeAny p).afterAnswer)) ∧
      (p.type = tyReadReq → exec (.readReq p) s = .next ((s.deliver takeAny p).afterAnswer)) ∧
      (p.type = tyLaunch ∧ lKind p.data ≠ 2 ∧ lKind p.data ≠ 3 → exec (.remoteLaunchOperation p) s = .next ((s.deliver takeAny p).afterAnswer)) ∧
      (p.type = tyLaunch ∧ lKind p.data = 2 → exec (.abortReceived p) s = .next ((s.deliver takeAny p).afterAnswer)) ∧
      (p.type = tyLaunch ∧ lKind p.data = 3 → exec (.faultReportReceived p) s = .next ((s.deliver takeAny p).afterAnswer)) ∧
      (p.type = tyHeartbeat ∧ hbSub p = 2 → exec (.echo p) s = .next ((s.deliver takeAny p).afterAnswer)) ∧
      (p.type = tyHeartbeat ∧ hbSub p = 3 → exec (.claim p) s = .next ((s.deliver takeAny p).afterAnswer)) ∧
      (p.type = tyHeartbeat ∧ hbSub p = 5 → exec (.deny p) s = .next ((s.deliver takeAny p).afterAnswer)) ∧
      (p.type = tyJournal ∧ leAt p.data 0 4 ≠ 0 → exec (.journal p) s = .next ((s.deliver takeAny p).afterAnswer)) ∧
      (p.type = tyJournal ∧ leAt p.data 0 4 = 0 → exec (.journalForward p) s = .next ((s.deliver takeAny p).afterAnswer)) ∧
      (p.type = tyInstCtl ∧ leAt p.data 0 1 = 1 → exec (.instStop p) s = .next ((s.deliver takeAny p).afterAnswer)) ∧
      (p.type = tyInstCtl ∧ leAt p.data 0 1 = 2 → exec (.instStopped p) s = .next ((s.deliver takeAny p).afterAnswer)) ∧
      (p.type = tyInstCtl ∧ leAt p.data 0 1 = 3 → exec (.instPurge p) s = .next ((s.deliver takeAny p).afterAnswer)) ∧
      (p.type = tyInstCtl ∧ leAt p.data 0 1 = 4 → exec (.instPurged p) s = .next ((s.deliver takeAny p).afterAnswer)) ∧
      (p.type = tyHeartbeat ∧ hbSub p = 1 → exec (.beat via p) s = .next ((s.deliver (takeWith via []) p).afterAnswer)) ∧
      (p.type = tyHeartbeat ∧ hbSub p = 4 → exec (.grant p found) s = .next ((s.deliver (takeWith none found) p).afterAnswer)) ∧
      (p.msg = some m → m.type = p.type →
        (∀ a b d, m = .prepare a b d → exec (.epochPrepare p) s = .next ((s.deliver takeAny p).afterAnswer)) ∧
        (∀ a b d e, m = .commit a b d e → exec (.epochCommit p) s = .next ((s.deliver takeAny p).afterAnswer)) ∧
        (∀ a b, m = .prepareAck a b → exec (.epochPrepareAck p) s = .next ((s.deliver takeAny p).afterAnswer)) ∧
        (∀ a, m = .portLeft a → exec (.portLeftActive p) s = .next ((s.deliver takeAny p).afterAnswer)) ∧
        (∀ a, m = .fence a → exec (.fenceNotice p) s = .next ((s.deliver takeAny p).afterAnswer)) ∧
        (∀ a, m = .declare a → s.dom.root = true → exec (.chipLossDeclare a (some p)) s = .next ((s.deliver takeAny p).afterAnswer)) ∧
        (∀ a, m = .declare a → s.dom.role = .standby → exec (.declarationToStandby p) s = .next ((s.deliver takeAny p).afterAnswer)) ∧
        (∀ a b d, m = .announce a b d → exec (.collectiveAnnounce p) s = .next ((s.deliver takeAny p).afterAnswer)) ∧
        (∀ a b d e, m = .contribute a b d e → exec (.collectiveContribution p) s = .next ((s.deliver takeAny p).afterAnswer)) ∧
        (∀ a, m = .replayAsk a → exec (.replayContributionRequest p) s = .next ((s.deliver takeAny p).afterAnswer)) ∧
        (∀ a b, m = .replayFail a b → exec (.replayFailureNotice p) s = .next ((s.deliver takeAny p).afterAnswer)) ∧
        (m.isRequest = true → exec (.mgmtPacket p) s = .next ((s.deliver takeAny p).afterAnswer)) ∧
        (∀ a b d, m = .mgmtAnswer a b d → exec (.mgmtAnswer p) s = .next ((s.deliver takeAny p).afterAnswer) ∧
          (s.mgr.rmtBusy = true → exec (.rmtReply (.answer p)) s = .next ((s.deliver takeAny p).afterAnswer))) ∧
        (∀ a b, m = .ringAnswer a b → a.toNat = fn → exec (.drAccessReply fn (some p)) s = .next ((s.deliver takeAny p).afterAnswer)) ∧
        (m = .invalDone → exec (.invalReport p) s = .next ((s.deliver takeAny p).afterAnswer)))) ∧
    (s.mine p = false →
      exec (.writePacket p) s = .next s ∧
      exec (.voidReceive p) s = .next s ∧
      exec (.readReq p) s = .next s ∧
      exec (.remoteLaunchOperation p) s = .next s ∧
      exec (.abortReceived p) s = .next s ∧
      exec (.faultReportReceived p) s = .next s ∧
      exec (.echo p) s = .next s ∧
      exec (.claim p) s = .next s ∧
      exec (.deny p) s = .next s ∧
      exec (.journal p) s = .next s ∧
      exec (.journalForward p) s = .next s ∧
      exec (.instStop p) s = .next s ∧
      exec (.instStopped p) s = .next s ∧
      exec (.instPurge p) s = .next s ∧
      exec (.instPurged p) s = .next s ∧
      exec (.beat via p) s = .next s ∧
      exec (.grant p found) s = .next s ∧
      exec (.epochPrepare p) s = .next s ∧
      exec (.epochCommit p) s = .next s ∧
      exec (.epochPrepareAck p) s = .next s ∧
      exec (.portLeftActive p) s = .next s ∧
      exec (.fenceNotice p) s = .next s ∧
      exec (.chipLossDeclare p.src (some p)) s = .next s ∧
      exec (.declarationToStandby p) s = .next s ∧
      exec (.collectiveAnnounce p) s = .next s ∧
      exec (.collectiveContribution p) s = .next s ∧
      exec (.replayContributionRequest p) s = .next s ∧
      exec (.replayFailureNotice p) s = .next s ∧
      exec (.mgmtPacket p) s = .next s ∧
      exec (.mgmtAnswer p) s = .next s ∧
      exec (.rmtReply (.answer p)) s = .next s ∧
      exec (.drAccessReply fn (some p)) s = .next s ∧
      exec (.invalReport p) s = .next s) ∧
    (∀ take : Taker,
      (s.isLost p.src = true → s.deliver take p = s) ∧
      (s.isLost p.src = false → p.malformed = true → s.deliver take p = s.dropPacket p 2) ∧
      (s.isLost p.src = false → p.malformed = false →
        (p.crc ≠ p.pcrc → s.deliver take p = s.bumpPcrc.sendNak p 1) ∧
        (p.crc = p.pcrc → p.tinc ≠ s.dom.chipInc → s.deliver take p = s.sendNak p 2) ∧
        (p.crc = p.pcrc → p.tinc = s.dom.chipInc → p.isCtl = false → p.iepoch ≠ (s.inst p.inst.toNat).epoch →
          s.deliver take p = State.releaseOrd take (s.fab.ordHeld.length + 1) ((s.refuseEpoch p).sendAck p 0x13)) ∧
        (p.crc = p.pcrc → p.tinc = s.dom.chipInc → p.isCtl = true ∨ p.iepoch = (s.inst p.inst.toNat).epoch →
          (∀ t, s.windowFor p = (.old, t) → s.deliver take p = t) ∧
          (∀ t, s.windowFor p = (.full, t) → s.deliver take p = t.sendNak p 3) ∧
          (∀ w t, s.windowFor p = (.here w, t) → w.has p.tid = true → p.type ≠ tyReadReq → s.deliver take p = t.sendAck p (w.outcome p.tid)) ∧
          (∀ w t, s.windowFor p = (.here w, t) → w.has p.tid = true → p.type = tyReadReq → s.deliver take p = t.readAgain take p) ∧
          (∀ w t, s.windowFor p = (.here w, t) → w.has p.tid = false →
            s.deliver take p = State.passOn take (if p.ord then t else t.passTid p.src p.tid) p)))) ∧
    (∀ w, s.window p.src = some w → w.sinc ≠ p.sinc → 127 < (p.sinc - w.sinc).toNat → s.windowFor p = (.old, s)) ∧
    (s.window p.src = none → 256 ≤ s.fab.windows.length → s.windowFor p = (.full, s)) ∧
    (∀ (w : Window256) (tid : BitVec 24), (w.has tid = true ↔ (1 ≤ (w.base - tid).toNat ∧ (w.base - tid).toNat ≤ 2 ^ 23) ∨ tid ∈ w.done))

/-- A packet past its checks is held where a part it reaches is resetting, held behind an earlier ordered transfer of its source if it is ordered, and
else taken; one that must wait for room changes nothing. A one-packet WRITE without signal writes its payload and is acknowledged with the outcome:
0x16 outside memory, or with the host link down; 0x14 where the portal's slot does not permit it; 0x12 in another owner's confidential range; 0x15 on
an error of the memory; else 0. One the dirty log would hold back waits. A WRITE that carries a collective's message reaches the collective, one of
EPOCH, FENCE_NOTICE or MGMT what its message says. A packet of a longer WRITE that lies 256 or more beyond the first one missing is answered
CRC. A READ_REQ of memory it may read is answered with its data; outside memory it is refused 0x16. A void discards the tracker and every packet held
of its transfer. INST_CTL STOP and PURGE are taken from the root only, STOPPED and PURGED at the root only (the model's choice, log 2). -/
def Obligations.PacketContents : Prop :=
  ∀ (s : State) (p : Packet) (i : Nat),
    (∀ (take : Taker) (x : Part), (s.dropCopies p).resettingPart p = some x →
      State.passOn take s p = { s.dropCopies p with fab := { (s.dropCopies p).fab with held := (s.dropCopies p).fab.held ++ [({ part := x.key, packet := p } : HeldPacket)] } }) ∧
    (∀ (take : Taker) (t : State), (s.dropCopies p).resettingPart p = none → p.ord = false ∨ (s.dropCopies p).ordBlocked p = false →
      take (s.dropCopies p) p = (.wait, t) → State.passOn take s p = s.dropCopies p) ∧
    (∀ take : Taker, (s.dropCopies p).resettingPart p = none → p.ord = true → (s.dropCopies p).ordBlocked p = true →
      State.passOn take s p = { s.dropCopies p with fab := { (s.dropCopies p).fab with ordHeld := (s.dropCopies p).fab.ordHeld ++ [p] } }) ∧
    (∀ (take : Taker) (f : Fate) (t : State), (s.dropCopies p).resettingPart p = none → p.ord = false ∨ (s.dropCopies p).ordBlocked p = false →
      take (s.dropCopies p) p = (f, t) → f ≠ .wait → State.passOn take s p = State.releaseOrd take (t.fab.ordHeld.length + 1) (t.settle p f)) ∧
    (∀ o, s.settle p (.done o) = (s.commitTid p.src p.tid o).sendAck p o) ∧
    (p.type = tyWrite → p.msg = none → takeAny s p = s.takeWrite p) ∧ (p.type = tyReadReq → takeAny s p = s.takeRead p) ∧ (p.type = tyLaunch → takeAny s p = s.takeLaunch p) ∧
    (∀ m, p.msg = some m → (p.type = tyWrite → takeAny s p = (.done 0, s.takeColl p m)) ∧
      (m.type = p.type → p.type = tyEpoch ∨ p.type = tyFence ∨ p.type = tyMgmt → takeAny s p = (.done 0, s.takeCtl p.src m))) ∧
    (p.type = tyHeartbeat → takeAny s p = (.done 0, State.takeHeartbeat none [] s p)) ∧ (p.type = tyJournal → takeAny s p = (.done 0, s.takeRecords p)) ∧
    (p.type = tyInstCtl → takeAny s p = (.done 0, s.takeInst p)) ∧
    (p.type = tyWrite → p.isVoid = false → p.pktcnt = 1 → p.sig = false →
      (s.logHolds p = false → s.takeWrite p = (.done (s.commitData p).1, (s.commitData p).2)) ∧ (s.logHolds p = true → s.takeWrite p = (.wait, s))) ∧
    (p.isVoid = true → s.slotOf p.src p.tid = none → s.takeWrite p = (.done 0, (s.dropTracker p.src p.tid).dropXferCopies p.src p.tid)) ∧
    (p.addr.getLsbD 47 = false → p.data ≠ [] → inStaging p.addr.toNat p.data.length = false →
      (s.inDram p.addr.toNat p.data.length = false → s.commitData p = (0x16, s.badTarget p)) ∧
      (s.inDram p.addr.toNat p.data.length = true → s.confDenied p.inst.toNat p.enc p.addr.toNat p.data.length = true →
        s.commitData p = (0x12, s.confRefused p.inst.toNat p.src p.addr.toNat)) ∧
      (∀ t, s.inDram p.addr.toNat p.data.length = true → s.confDenied p.inst.toNat p.enc p.addr.toNat p.data.length = false →
        s.writeMem (if p.enc then s.keyOf p.inst.toNat else 0) p.addr.toNat p.data = (none, t) → s.commitData p = (0, t)) ∧
      (∀ a t, s.inDram p.addr.toNat p.data.length = true → s.confDenied p.inst.toNat p.enc p.addr.toNat p.data.length = false →
        s.writeMem (if p.enc then s.keyOf p.inst.toNat else 0) p.addr.toNat p.data = (some a, t) → s.commitData p = (0x15, t))) ∧
    (p.addr.getLsbD 47 = true → p.data ≠ [] →
      (s.pcie.up = false → s.commitData p = (0x16, s.badTarget p)) ∧
      (s.pcie.up = true → s.slotPermits p p.data.length true = false → s.commitData p = (0x14, s.badTarget p)) ∧
      (s.pcie.up = true → s.slotPermits p p.data.length true = true →
        s.commitData p = (0, s.post p.inst.toNat (s.busAddr p.inst.toNat p.addr.toNat) p.data (bulk p.ord p.data.length)))) ∧
    (∀ t, s.tracker p.src p.tid = some t → lowestOpen (t.done.length + 1) 0 t.done + 256 ≤ p.pktidx.toNat → s.takePart p = (.resend, s.setTracker t)) ∧
    (s.tracker p.src p.tid = none → 2048 ≤ s.fab.trackers.length → s.takePart p = (.later, s)) ∧
    (p.addr.getLsbD 47 = false →
      (s.inDram p.addr.toNat p.len.toNat = false → inStaging p.addr.toNat p.len.toNat = false → s.takeRead p = (.done 0x16, s.badTarget p)) ∧
      (∀ bs t, s.inDram p.addr.toNat p.len.toNat = true → s.confDenied p.inst.toNat p.enc p.addr.toNat p.len.toNat = false →
        s.readMem (if p.enc then s.keyOf p.inst.toNat else 0) p.addr.toNat p.len.toNat = (.inl bs, t) → s.takeRead p = (.served, t.sendRsp p 0 1 p.addr.toNat bs))) ∧
    (i = leAt p.data 1 1 % 64 →
      (leAt p.data 0 1 = 1 → s.takeInst p = if p.src = s.dom.rootId then s.takeStop i else s) ∧
      (leAt p.data 0 1 = 2 → s.takeInst p = if s.dom.root then s.stopAnswered i p.src else s) ∧
      (leAt p.data 0 1 = 3 → s.takeInst p = if p.src = s.dom.rootId then s.takePurge p.src i (BitVec.ofNat 7 (leAt p.data 2 1)) else s) ∧
      (leAt p.data 0 1 = 4 → s.takeInst p = if s.dom.root then s.purgeAnswered i p.src else s))

/-- A port that takes packets frees the receive buffer of one that has arrived and owes its credit. A malformed one is dropped with the event; one for
this chip, and a DISC packet, stays for the row of its type; any other goes on one hop level up, and at level 6 is dropped with the routing event. A
port that takes none changes nothing. A multicast packet follows its ID's entry: without VALID it is dropped; else copies leave by the ACTIVE ports of
its mask but the one of arrival, and with LOCAL it is delivered here, where it is held for a resetting part. The hold's end drops a copy with the
event and answers a unicast packet RETRY_LATER. An idle source's window is given up; a transfer past its completion limit is abandoned; a part whose
reset begins is listed, one that leaves reset advances its incarnation and what was held for it goes on. Which commands say so is the model's (logs 2,
56, 93). -/
def Obligations.PacketRouting : Prop :=
  ∀ (s : State) (n k : Nat) (p : Packet) (h : HeldPacket) (src : ChipId) (tid : BitVec 24) (t : Tracker),
    (s.portTakes n p = true → p.mcid = none →
      (p.malformed = true → exec (.packetReceive n p) s = .next ((s.consumed n p).dropPacket p 2)) ∧
      (p.malformed = false → p.dst = s.dom.chipId ∨ p.type = tyDisc → exec (.packetReceive n p) s = .next (s.consumed n p)) ∧
      (p.malformed = false → p.dst ≠ s.dom.chipId → p.type ≠ tyDisc → 6 ≤ p.vl.toNat → exec (.packetReceive n p) s = .next ((s.consumed n p).dropPacket p 1)) ∧
      (p.malformed = false → p.dst ≠ s.dom.chipId → p.type ≠ tyDisc → p.vl.toNat < 6 →
        exec (.packetReceive n p) s = .next ((s.consumed n p).forward { p with vl := p.vl + 1 } (some n)))) ∧
    (s.portTakes n p = false → exec (.packetReceive n p) s = .next s ∧ exec (.multicastReceive n p) s = .next s) ∧
    (p.mcid.isSome = true → exec (.packetReceive n p) s = .next s) ∧ (p.mcid = none → exec (.multicastReceive n p) s = .next s) ∧
    (p.mc = true → p.mcid = some (p.dst.toNat % 4096)) ∧ (p.mc = false → p.dst = 0xFFFF → p.mcid = some 0) ∧
    (∀ m, s.portTakes n p = true → p.mcid = some m →
      (p.malformed = true → exec (.multicastReceive n p) s = .next ((s.consumed n p).dropPacket p 2)) ∧
      (p.malformed = false → (Tbl.get 0 s.act.mc m).getLsbD 25 = false → exec (.multicastReceive n p) s = .next ((s.consumed n p).dropPacket p 4)) ∧
      (p.malformed = false → (Tbl.get 0 s.act.mc m).getLsbD 25 = true →
        exec (.multicastReceive n p) s = .next (if (Tbl.get 0 s.act.mc m).getLsbD 24 then ((s.consumed n p).copies (Tbl.get 0 s.act.mc m) n p).localCopy p
          else (s.consumed n p).copies (Tbl.get 0 s.act.mc m) n p))) ∧
    (p.crc ≠ p.pcrc → s.localCopy p = s.bumpPcrc) ∧
    (∀ x, p.crc = p.pcrc → s.resettingPart p = some x →
      s.localCopy p = { s with fab := { s.fab with mcHeld := s.fab.mcHeld ++ [({ part := x.key, packet := p } : HeldPacket)] } }) ∧
    (s.fab.mcHeld[k]? = some h →
      exec (.multicastHoldExpiry k) s = .next (({ s with fab := { s.fab with mcHeld := s.fab.mcHeld.eraseIdx k } } : State).dropPacket h.packet 5)) ∧
    (s.fab.mcHeld.length ≤ k → exec (.multicastHoldExpiry k) s = .next s) ∧
    (s.fab.held[k]? = some h →
      exec (.partResetHoldExpiry k) s = .next ((({ s with fab := { s.fab with held := s.fab.held.eraseIdx k } } : State).oweOrd h.packet).sendNak h.packet 3)) ∧
    (s.fab.held.length ≤ k → exec (.partResetHoldExpiry k) s = .next s) ∧
    exec (.windowReclaim src) s = .next { s with fab := { s.fab with windows := s.fab.windows.filter (fun w => w.src ≠ src), ordDue := s.fab.ordDue.filter (fun e => !(e.1 == src)) } } ∧
    (s.tracker src tid = some t → s.live = true → exec (.transferAbandon src tid) s = .next ((s.abandon t).afterAnswer)) ∧
    (s.tracker src tid = none ∨ s.live = false → exec (.transferAbandon src tid) s = .next s) ∧
    (∀ part begins, s.live = false → exec (.partLeavesReset part begins) s = .next s) ∧
    (∀ part, s.live = true → exec (.partLeavesReset part true) s = .next { s with parts := { s.parts with
      resetting := if s.parts.resetting.contains part then s.parts.resetting else s.parts.resetting ++ [part] } }) ∧
    (∀ (part : Part) (r : State), s.live = true →
      r = (({ s with parts := { s.parts with resetting := s.parts.resetting.filter (· ≠ part) } } : State).nextInc part).meetReqs part →
      exec (.partLeavesReset part false) s = .next (((r.fab.mcHeld.filter (fun x => x.part = part.key)).foldl (fun s x => s.localCopy x.packet)
        ((r.fab.held.filter (fun x => x.part = part.key)).foldl (fun s x => State.passOn takeAny s x.packet)
          { r with fab := { r.fab with held := r.fab.held.filter (fun x => x.part ≠ part.key), mcHeld := r.fab.mcHeld.filter (fun x => x.part ≠ part.key) } })).afterAnswer)) ∧
    (s.nextInc .cfe).parts.cfeInc = s.parts.cfeInc + 1 ∧ (s.nextInc .memc).parts.memcInc = s.parts.memcInc + 1

/-- An answer with a sound code, this chip's incarnation and the sender's, for a transfer under way, acts on it: READ_RSP brings the data of an index not
yet had, and the last one ends the read; XFER_ACK ends the transfer with its outcome (0 and 0x13 well, the refusals of Table 8-8 as failures); an
ABORT's acknowledgement likewise; E2E_NAK CRC resends the named packet alone; STALE takes the refreshed incarnation and resends all (log 34);
RETRY_LATER marks the packet for the resend point; ABANDONED ends the transfer and fails its operation, with CHECKER_FAIL, or for a read of the host
with XLT_FAULT (log 77). At the resend point the marked packets go again, one round; after 20 rounds the transfer is given up. Past the
acknowledgement limit all of it goes again; with the fourth send of the transfer, or the eighth of one of its packets, the destination is unresponsive:
the root declares it lost, another chip tells the root, and of the root the standby. An answer with a wrong code is counted; one without its transfer
does nothing. -/
def Obligations.Answers : Prop :=
  ∀ (s : State) (p : Packet) (x : Xfer) (inc : BitVec 8) (dst : ChipId) (tid : BitVec 24),
    (s.answered p = some x →
      (p.type = tyReadRsp → x.pkts.any (fun q => q.type == tyReadReq) = true → exec (.readRsp p) s = .next ((s.takeRsp x p).afterAnswer)) ∧
      (p.type = tyAck → (∀ c, x.purpose ≠ .abort c) → exec (.xferAck p) s = .next ((s.applyAck x p.reason).afterAnswer)) ∧
      (∀ c, p.type = tyAck → x.purpose = .abort c → exec (.abortAck p) s = .next ((s.applyAck x p.reason).afterAnswer)) ∧
      (p.type = tyNak → p.reason = 1 → exec (.e2eNakCrc p) s = .next (((s.heard x).resendPkts x (x.pkts.filter (fun q => q.pktidx == p.pktidx))).afterAnswer)) ∧
      (p.type = tyNak → p.reason = 3 → exec (.e2eNakRetryLater p) s = .next (((s.heard x).updXfer x (fun y => { y with refused := if y.refused.contains p.pktidx.toNat then y.refused else y.refused ++ [p.pktidx.toNat] })).afterAnswer)) ∧
      (p.type = tyNak → p.reason = 4 → exec (.e2eNakAbandoned p) s = .next (((s.endXfer x).xferFail x x.abandonedErr).afterAnswer))) ∧
    (∀ q, x.pkts.getLast? = some q →
      (q.type ≠ tyReadReq → x.abandonedErr = { status := stCheckerFail, peer := x.dst.toNat, objChip := if q.sig then x.dst.toNat else 0, objIdx := if q.sig then q.obj.toNat else 0, objKind := if q.sig then sigObjKind q.kind.toNat else 0 }) ∧
      (q.type = tyReadReq → bit q.addr.toNat 47 = false → x.abandonedErr = { status := stCheckerFail, addr := q.addr.toNat, access := (match x.purpose with | .ctxRead _ _ _ => 4 | _ => 1), peer := x.dst.toNat }) ∧
      (q.type = tyReadReq → bit q.addr.toNat 47 = true → x.abandonedErr = { status := stXltFault, addr := x.dva, access := (match x.purpose with | .ctxRead _ _ _ => 4 | _ => 1) })) ∧
    (s.answered p = none → s.mine p = true → p.malformed = false → p.crc ≠ p.pcrc →
      exec (.readRsp p) s = .next (s.bumpPcrc.afterAnswer) ∧ exec (.xferAck p) s = .next (s.bumpPcrc.afterAnswer) ∧ exec (.abortAck p) s = .next (s.bumpPcrc.afterAnswer) ∧
      exec (.e2eNakCrc p) s = .next (s.bumpPcrc.afterAnswer) ∧ exec (.e2eNakRetryLater p) s = .next (s.bumpPcrc.afterAnswer) ∧ exec (.e2eNakAbandoned p) s = .next (s.bumpPcrc.afterAnswer)) ∧
    (s.answered p = none → s.mine p = false ∨ p.malformed = true ∨ p.crc = p.pcrc →
      exec (.readRsp p) s = .next s.afterAnswer ∧ exec (.xferAck p) s = .next s.afterAnswer ∧ exec (.abortAck p) s = .next s.afterAnswer ∧
      exec (.e2eNakCrc p) s = .next s.afterAnswer ∧ exec (.e2eNakRetryLater p) s = .next s.afterAnswer ∧ exec (.e2eNakAbandoned p) s = .next s.afterAnswer) ∧
    (p.tinc ≠ s.dom.chipInc ∨ p.sinc ≠ Tbl.get 0 s.dom.incs p.src.toNat ∨ p.crc ≠ p.pcrc → s.answered p = none) ∧
    (s.mine p = true → p.malformed = false → p.type = tyNak → p.reason = 2 →
      (p.crc ≠ p.pcrc → exec (.e2eNakStale p inc) s = .next s.bumpPcrc) ∧
      (p.crc = p.pcrc → s.xferOf p.src p.tid = none → exec (.e2eNakStale p inc) s = .next s) ∧
      (∀ r, p.crc = p.pcrc → s.xferOf p.src p.tid = some x → r = ({ s with dom := { s.dom with incs := Tbl.set 0 s.dom.incs x.dst.toNat inc } } : State) →
        exec (.e2eNakStale p inc) s = .next (((if s.dom.root then r else r.ctl s.dom.rootId (.incRequest x.dst)).heard x).resendPkts x x.pkts))) ∧
    (s.applyAck x 0 = (s.endXfer x).xferDone x ∧ s.applyAck x 0x13 = (s.endXfer x).xferDone x ∧
      ∀ o ∈ [0x10, 0x11, 0x12, 0x14, 0x15, 0x16], s.applyAck x o = (s.endXfer x).xferFail x (x.outcomeErr o)) ∧
    (x.got.contains p.pktidx.toNat = true → s.takeRsp x p = s.heard x) ∧
    (s.xferOf dst tid = none → exec (.retryLaterResend dst tid) s = .next s.afterAnswer ∧ exec (.xferAckTimeout dst tid) s = .next s.afterAnswer) ∧
    (s.xferOf dst tid = some x → s.live = true →
      (x.refused = [] → exec (.retryLaterResend dst tid) s = .next s.afterAnswer) ∧
      (x.refused ≠ [] → 20 ≤ x.rounds → exec (.retryLaterResend dst tid) s = .next ((s.giveUp x).afterAnswer)) ∧
      (x.refused ≠ [] → x.rounds < 20 → exec (.retryLaterResend dst tid) s = .next
        (((s.updXfer x (fun y => { y with rounds := y.rounds + 1, refused := [] })).resendPkts x (x.pkts.filter (fun q => x.refused.contains q.pktidx.toNat))).afterAnswer)) ∧
      (∀ r, r = s.resendAll x →
        (r.xferOf x.dst x.tid = none → exec (.xferAckTimeout dst tid) s = .next r.afterAnswer) ∧
        (∀ y, r.xferOf x.dst x.tid = some y →
          (y.sends ≠ 4 → (∀ e ∈ y.pktSends, e.2 ≠ 8) → exec (.xferAckTimeout dst tid) s = .next r.afterAnswer) ∧
          (y.sends = 4 ∨ (∃ e ∈ y.pktSends, e.2 = 8) → exec (.xferAckTimeout dst tid) s = .next (r.unresponsive y).afterAnswer)))) ∧
    (s.dom.root = true → s.unresponsive x = s.lossAtRoot x.dst true) ∧
    (s.dom.root = false → x.dst ≠ s.dom.rootId → s.unresponsive x = s.ctl s.dom.rootId (.declare x.dst)) ∧
    (s.dom.root = false → x.dst = s.dom.rootId →
      (∀ d, s.dom.standby = some d → d ≠ s.dom.chipId → s.unresponsive x = s.ctl d (.declare x.dst)) ∧
      (s.dom.standby = some s.dom.chipId → s.unresponsive x = s.lossDetected) ∧ (s.dom.standby = none → s.unresponsive x = s.giveUp x))

/-- DISC packets act where they arrive, at a port that takes them, and a wrong PCRC is counted. Between the fabric unit's start and the formation, an
ELECT on an ACTIVE port offers its key: a better one makes its port the parent (a root gives up its role and what it assigned), one that is no better is
ignored; 200 us with the own key best make the chip root; PARENT adds a child; a REPORT of another chip is kept, in place of an earlier one
of the same serial, and relayed to the parent; from the parent, ASSIGN gives the chip its ID, or goes to the children, and REJECT makes it a domain of
one, or goes to the children; READY counts at the root and is relayed elsewhere; the root closes its collection when its report count, its waits or
FORM_MAX say so; a chip with no ACTIVE port when FORM_WAIT has passed forms a domain of one; one with a parent and no ID at FORM_MAX starts again. At
any other time none of them does anything. A formed chip is fenced itself when FENCE stands on all its ACTIVE ports, and fences the ports toward the
chip a FENCE_NOTICE of the root or its standby names. What DISC packets carry is the model's (log 16), a partner's serial a free value (log 46). -/
def Obligations.DomainFormation : Prop :=
  ∀ (s : State) (n k : Nat) (p : Packet) (key : Word64) (r : Report) (serial : BitVec 48) (id chip src : ChipId) (d : Word32) (reason : BitVec 8) (ports : List Nat) (sf sr : Nat),
    (s.portTakes n p = true → p.type = tyDisc → p.malformed = false →
      (p.crc ≠ p.pcrc → exec (.elect n p) s = .next s.bumpPcrc ∧ exec (.parent n p) s = .next s.bumpPcrc ∧ exec (.report n p) s = .next s.bumpPcrc ∧
        exec (.assign n p) s = .next s.bumpPcrc ∧ exec (.reject n p) s = .next s.bumpPcrc ∧ exec (.discReady n p) s = .next s.bumpPcrc) ∧
      (p.crc = p.pcrc →
        (p.msg = some (.elect key) → exec (.elect n p) s = .next (s.takeElect n key)) ∧
        (p.msg = some .parent → exec (.parent n p) s = .next (s.takeParent n)) ∧
        (p.msg = some (.report r) → exec (.report n p) s = .next (s.takeDiscReport n r)) ∧
        (p.msg = some (.assign serial id d) → exec (.assign n p) s = .next (s.takeAssign n serial id d)) ∧
        (p.msg = some (.reject serial reason) → exec (.reject n p) s = .next (s.takeReject n serial reason)) ∧
        (p.msg = some (.ready serial) → exec (.discReady n p) s = .next (s.takeReady n serial)))) ∧
    (s.portTakes n p = false ∨ p.type ≠ tyDisc ∨ p.malformed = true →
      exec (.elect n p) s = .next s ∧ exec (.parent n p) s = .next s ∧ exec (.report n p) s = .next s ∧
      exec (.assign n p) s = .next s ∧ exec (.reject n p) s = .next s ∧ exec (.discReady n p) s = .next s) ∧
    (s.electing = true → (s.port n).st = .active →
      s.takeElect n key = s.takeKey n key ∧
      (n ∉ s.disc.children → s.takeParent n = { s with disc := { s.disc with children := s.disc.children ++ [n] } }) ∧
      (s.disc.closed = false → r.serial ≠ s.fuses.serial → s.disc.parent = none →
        s.takeDiscReport n r = { s with disc := { s.disc with reports := keepReport s.disc.reports r } }) ∧
      (s.disc.closed = false → r.serial ≠ s.fuses.serial → s.disc.parent = some k →
        s.takeDiscReport n r = ({ s with disc := { s.disc with reports := keepReport s.disc.reports r } } : State).sendDisc k (.report r)) ∧
      (s.disc.closed = true → s.takeReady n serial =
        ({ s with disc := { s.disc with readies := if s.disc.readies.contains serial then s.disc.readies else s.disc.readies ++ [serial] } } : State).formCommit) ∧
      (s.disc.closed = false → s.disc.parent = some k → s.takeReady n serial = s.sendDisc k (.ready serial)) ∧
      (s.disc.closed = false → s.disc.parent = none → s.takeReady n serial = s)) ∧
    ((s.port n).st ≠ .active → s.takeElect n key = s ∧ s.takeParent n = s ∧ s.takeDiscReport n r = s ∧ s.takeReady n serial = s) ∧
    (s.disc.active = true → key.toNat ≤ s.disc.best.toNat → s.takeKey n key = s) ∧
    (s.disc.active = true → s.disc.closed = false → s.disc.best.toNat < key.toNat → s.takeKey n key =
      ((({ s with disc := { s.disc with active := true, best := key, parent := some n, isRoot := false, reports := s.disc.reports.filter (fun x => x.serial ≠ s.fuses.serial), children := s.disc.children.filter (· ≠ n) } } : State).announceKey).sendDisc
        n .parent).reportUp n (s.disc.reports.filter (fun x => x.serial ≠ s.fuses.serial))) ∧
    (s.disc.closed = true → s.giveUpRoot.dom.root = false ∧ s.giveUpRoot.dom.chipId = 0 ∧ s.giveUpRoot.disc.granted = [] ∧ s.giveUpRoot.disc.closed = false) ∧
    (s.electing = true →
      (s.disc.active = true → s.disc.best = s.ownKey → s.disc.parent = none → s.disc.isRoot = false →
        exec .rootTimer s = .next { s with disc := { s.disc with isRoot := true, reports := s.ownReport :: s.disc.reports.filter (fun x => x.serial ≠ s.fuses.serial) } }) ∧
      (s.disc.best ≠ s.ownKey ∨ s.disc.parent.isSome = true → exec .rootTimer s = .next s) ∧
      (s.disc.parent = some n →
        (s.takeAssign n s.fuses.serial id d = { s with dom := { s.dom with chipId := id } } ∧ s.takeReject n s.fuses.serial reason = s.formOne 1 resRejected) ∧
        (serial ≠ s.fuses.serial → s.takeAssign n serial id d = s.sendDiscs s.disc.children (.assign serial id d) ∧
          s.takeReject n serial reason = s.sendDiscs s.disc.children (.reject serial reason)) ∧
        (s.dom.chipId = 0 → exec .assignTimeout s = .next (({ s with disc := { s.disc with reports := [], children := [] } } : State).candidate)) ∧
        (s.dom.chipId ≠ 0 → exec .assignTimeout s = .next s)) ∧
      (s.activeMask = 0 → exec .formationWaitExpiry s = .next (s.formOne 1 resDomainOfOne)) ∧ (s.activeMask ≠ 0 → exec .formationWaitExpiry s = .next s) ∧
      (s.disc.isRoot = true → s.disc.closed = false →
        (leAt s.boot.cfg 24 2 ≠ 0 → leAt s.boot.cfg 24 2 ≤ s.disc.reports.length → exec (.collectionClose sf sr) s = .next s.closeCollection) ∧
        (leAt s.boot.cfg 24 2 = 0 → leAt s.boot.cfg 26 2 = 0 → leAt s.boot.cfg 28 2 = 0 → 50 ≤ sf → 10 ≤ sr → exec (.collectionClose sf sr) s = .next s.closeCollection) ∧
        (leAt s.boot.cfg 32 4 = 0 → 5000 ≤ sf → exec (.collectionClose sf sr) s = .next s.closeCollection) ∧
        (leAt s.boot.cfg 24 2 = 0 → leAt s.boot.cfg 26 2 = 0 → leAt s.boot.cfg 32 4 = 0 → sf < 50 → exec (.collectionClose sf sr) s = .next s)) ∧
      (s.disc.isRoot = false → exec (.collectionClose sf sr) s = .next s)) ∧
    (s.disc.parent ≠ some n → s.takeAssign n serial id d = s ∧ s.takeReject n serial reason = s) ∧
    (s.electing = false → s.takeElect n key = s ∧ s.takeParent n = s ∧ s.takeDiscReport n r = s ∧ s.takeAssign n serial id d = s ∧ s.takeReject n serial reason = s ∧ s.takeReady n serial = s ∧
      exec .rootTimer s = .next s ∧ exec (.collectionClose sf sr) s = .next s ∧ exec .formationWaitExpiry s = .next s ∧ exec .assignTimeout s = .next s) ∧
    (s.dom.formed = true → s.fromRoot src = true → chip ≠ s.dom.chipId → s.takeFence src chip = s.fencePorts chip) ∧
    (s.dom.formed = false ∨ s.fromRoot src = false ∨ chip = s.dom.chipId → s.takeFence src chip = s) ∧
    (s.live = true → s.dom.formed = true →
      (s.activeMask ≠ 0 → (∀ x ∈ s.activePorts, x ∈ ports) → exec (.fenceReceived ports) s = .next (({ s with dom := { s.dom with fencedSelf := true } } : State).emit .selfFenced)) ∧
      (∀ x ∈ s.activePorts, x ∉ ports → exec (.fenceReceived ports) s = .next s)) ∧
    (s.live = false ∨ s.dom.formed = false → exec (.fenceReceived ports) s = .next s)

/-- What an EPOCH or MGMT packet that is taken says, at the chip it is for. A prepare of the next domain epoch from the root or its standby, on a formed
member it does not name, ends what the chips it names were part of, keeps the epoch, the losses and the status of the part it brings, and is
acknowledged to the root once nothing of what it ended still runs; one that names the root passes the role to the standby. A commit of the next epoch is
applied on a formed member that is not the root, and on a chip with its ID at the formation; any other number, any other sender, and any chip it is not
for, changes nothing. At the root an acknowledgement is ticked off, the last one commits the epoch, and one that refuses ends its command; a port that
left ACTIVE is routed round; a chip a member found unresponsive, or that no ACTIVE port leads to, is declared lost. An answer goes to the lock request
it answers (offset 0x48, from the chip asked first), else to the remote access of the manager that asked for it, else nowhere. A register access, one to
a device-resident ring, an invalidation and its report, an incarnation asked for and told are acted on. What these packets carry is the model's (logs
16, 17, 111). -/
def Obligations.DomainEpochs : Prop :=
  ∀ (s : State) (d : Word32) (lost : List ChipId) (routing ok : Bool) (roster : Option Roster) (part : Option CmdPart) (src chip : ChipId) (n : Nat) (off : BitVec 24) (v : Word64),
    s.takeCtl src (.prepare d lost part) = s.takePrepare src d lost part ∧ s.takeCtl src (.commit d routing roster part) = s.takeCommit src d routing roster part ∧
    (∀ st, s.takeCtl src (.prepareAck d st) = s.takePrepareAck src d st.toNat) ∧ s.takeCtl src (.portLeft n) = s.takePortLeft src n ∧
    s.takeCtl src (.fence chip) = s.takeFence src chip ∧ s.takeCtl src (.declare chip) = s.heardDeclare src chip ∧ s.takeCtl src .invalDone = s.takeInvalDone src ∧
    s.takeCtl src (.mgmtAnswer off v ok) = s.takeMgmtAnswer src off v ok ∧
    (∀ i, s.takeCtl src (.ringAnswer i v) = s.drReplied i.toNat (some v)) ∧
    (∀ i all base pages, s.takeCtl src (.inval i all base pages) = s.invalHere i.toNat all base.toNat (pages.toNat * 0x10000)) ∧
    s.takeCtl src (.incRequest chip) = s.ctl src (.incAnswer chip (s.incOf chip)) ∧
    (∀ inc, src = s.dom.rootId → chip ≠ s.dom.chipId → s.takeCtl src (.incAnswer chip inc) = { s with dom := { s.dom with incs := Tbl.set 0 s.dom.incs chip.toNat inc } }) ∧
    (∀ agent behalf wide w, agent = 3 ∨ agent = 4 → off.toNat % (if wide then 8 else 4) = 0 →
      s.takeCtl src (.mgmt agent behalf off wide w) = s.mgmtAccess src agent behalf off.toNat wide w) ∧
    (s.fromRoot src = true ↔ src = s.dom.rootId ∨ s.dom.standby = some src) ∧
    (s.dom.formed = true → s.dom.root = false → s.fromRoot src = true → s.dom.chipId ∉ lost → d = s.dom.depoch + 1 →
      ∀ t st, t = s.prepareLocal lost → st = (match part with | some p => t.partStatus p | none => msDone) →
        (s.dom.rootId ∉ lost → s.takePrepare src d lost part =
          State.prepareAnswer { t with dom := { t.dom with preparing := some d, leaving := lost, owed := some (BitVec.ofNat 16 st), rootId := s.dom.rootId } }) ∧
        (∀ x, s.dom.rootId ∈ lost → s.dom.standby = some x → s.takePrepare src d lost part =
          State.prepareAnswer { t with dom := { t.dom with preparing := some d, leaving := lost, owed := some (BitVec.ofNat 16 st), rootId := x } })) ∧
    (s.dom.formed = false ∨ s.dom.root = true ∨ s.fromRoot src = false ∨ s.dom.chipId ∈ lost ∨ d ≠ s.dom.depoch + 1 → s.takePrepare src d lost part = s) ∧
    (∀ st, s.dom.owed = some st → s.dom.preparing = some d →
      (s.leavingShares = true → s.prepareAnswer = s) ∧
      (s.leavingShares = false → s.dom.root = false →
        s.prepareAnswer = ({ s with dom := { s.dom with owed := none } } : State).ctl s.dom.rootId (.prepareAck d st))) ∧
    (s.dom.owed = none → s.prepareAnswer = s) ∧
    (d = s.dom.depoch + 1 →
      (s.dom.formed = true → s.dom.root = false → s.fromRoot src = true → roster = none → s.takeCommit src d routing roster part = s.commitLocal d routing roster part false) ∧
      (∀ r, s.dom.formed = true → s.dom.root = false → s.fromRoot src = true → roster = some r → s.dom.chipId ∈ r.members →
        s.takeCommit src d routing roster part = s.commitLocal d routing roster part false) ∧
      (∀ r, roster = some r → s.dom.chipId ∉ r.members → s.takeCommit src d routing roster part = s) ∧
      (∀ r, s.dom.formed = false → s.electing = true → s.dom.chipId ≠ 0 → routing = true → s.disc.parent.isSome = true → roster = some r → s.dom.chipId ∈ r.members →
        s.takeCommit src d routing roster part = s.commitLocal d routing roster part false)) ∧
    (d ≠ s.dom.depoch + 1 ∨ (s.dom.formed = true ∧ (s.dom.root = true ∨ s.fromRoot src = false)) → s.takeCommit src d routing roster part = s) ∧
    (s.dom.root = true → s.rootw.use.isSome = true → d = s.dom.depoch + 1 → src ∈ s.rootw.acks →
      (∀ st, st ≠ 0 → s.takePrepareAck src d st = s.commandRefused st) ∧
      ∀ t, t = ({ s with rootw := { s.rootw with acks := s.rootw.acks.filter (· ≠ src) } } : State) →
        (s.rootw.acks.filter (· ≠ src) = [] → s.takePrepareAck src d 0 = t.finishEpoch.rootGo) ∧
        (s.rootw.acks.filter (· ≠ src) ≠ [] → s.takePrepareAck src d 0 = t)) ∧
    (∀ st, s.dom.root = false ∨ s.rootw.use = none ∨ d ≠ s.dom.depoch + 1 ∨ src ∉ s.rootw.acks → s.takePrepareAck src d st = s) ∧
    (chip ∈ s.memberList → s.takePortLeft chip n = (s.portDown chip n).rootGo) ∧ (chip ∉ s.memberList → s.takePortLeft chip n = s) ∧
    (src ∈ s.memberList → s.dom.root = true → s.heardDeclare src chip = (s.declareLost chip).rootGo) ∧
    (src ∈ s.memberList → s.dom.root = false → chip = s.dom.rootId → s.heardDeclare src chip = s.lossDetected) ∧
    (src ∉ s.memberList ∨ (s.dom.root = false ∧ chip ≠ s.dom.rootId) → s.heardDeclare src chip = s) ∧
    (s.live = true → s.dom.root = true → s.cutOff chip = true → exec (.chipLossDeclare chip none) s = .next ((s.declareLost chip).rootGo)) ∧
    (s.live = false ∨ s.dom.root = false ∨ s.cutOff chip = false → exec (.chipLossDeclare chip none) s = .next s) ∧
    (s.rootw.asking.head? = some src → off = 0x48 → s.takeMgmtAnswer src off v ok = (s.lockAnswer src ok).rootGo) ∧
    (s.rootw.asking.head? ≠ some src ∨ off ≠ 0x48 → s.mgr.rmtBusy = true → s.mgr.rmtChip = src → s.mgr.rmtOff = off → s.takeMgmtAnswer src off v ok = s.rmtDone v ok) ∧
    (s.rootw.asking.head? ≠ some src ∧ (s.mgr.rmtBusy = false ∨ s.mgr.rmtChip ≠ src ∨ s.mgr.rmtOff ≠ off) → s.takeMgmtAnswer src off v ok = s)

/-- The active front end that is not beaten sends its BEATs, one on each ACTIVE pair port and one routed. The standby of the front end that sent a BEAT
echoes it by the path it came by, ROUTED copied; an ECHO from the standby renews the lease of an active front end that neither claims nor is beaten. A
lease that lapses ends and starts a claim; so does a standby that detects loss, or hears the root declared unresponsive, once. A member grants the
first claim of a domain epoch and denies every later one. A claim not won in 300 us ends, and a former front end is then beaten. An open journal epoch
closes with the next number when its time is over; one without records is not sent. A GRANT or DENY counts for the claim it names. Where its trigger
does not hold, each of these changes nothing. -/
def Obligations.PairAndClaims : Prop :=
  ∀ (s : State) (p : Packet) (src x : ChipId) (found : List (Nat × List (List Byte))),
    (s.dom.standby = some x → s.live = true → s.dom.formed = true → s.isFe = true → s.pair.beaten = false →
      ∀ t, t = s.pairPorts.foldl (fun s n => s.newXferOn n x (s.hbPkt 1 false false 0 s.pair.jepoch)) s → exec .beatTimer s = .next (t.newXfer x .ctl [t.hbPkt 1 true false 0 t.pair.jepoch])) ∧
    (s.dom.standby = none ∨ s.live = false ∨ s.isFe = false ∨ s.pair.beaten = true → exec .beatTimer s = .next s) ∧
    (s.live = true → s.dom.formed = true → s.paired = true → s.pair.lease = true → s.pair.claiming = false → s.pair.beaten = false →
      exec .leaseLapse s = .next (({ s with pair := { s.pair with lease := false } } : State).startClaim)) ∧
    (s.live = false ∨ s.paired = false ∨ s.pair.lease = false ∨ s.pair.beaten = true → exec .leaseLapse s = .next s) ∧
    (s.live = true → s.dom.formed = true → s.dom.role = .standby → s.pair.lossSeen = false →
      exec .heartbeatLoss s = .next (({ s with pair := { s.pair with lossSeen := true } } : State).startClaim) ∧
      (src ∈ s.memberList → s.dom.root = false → s.heardDeclare src s.dom.rootId = ({ s with pair := { s.pair with lossSeen := true } } : State).startClaim)) ∧
    (s.live = false ∨ s.dom.role ≠ .standby ∨ s.pair.lossSeen = true → exec .heartbeatLoss s = .next s ∧
      (s.dom.root = false → s.heardDeclare src s.dom.rootId = s)) ∧
    (src ∉ s.memberList → s.heardDeclare src x = s) ∧
    (s.pair.claiming = true → exec .claimTimeout s = .next { s with pair := { s.pair with claiming := false, beaten := s.pair.beaten || s.isFe } }) ∧
    (s.pair.claiming = false → exec .claimTimeout s = .next s) ∧
    (s.live = true → s.paired = true → s.pair.openRecs ≠ [] →
      ∀ t, t = ({ s with pair := { s.pair with jepoch := s.pair.jepoch + 1, openRecs := [], kept := s.pair.kept ++ [({ num := s.pair.jepoch + 1, recs := s.pair.openRecs } : JEpoch)] } } : State) →
        exec .journalEpochClose s = .next ((t.hallWritten (epochWords (s.pair.jepoch + 1) s.pair.openRecs)).sendEpoch (s.pair.jepoch + 1) s.pair.openRecs)) ∧
    (s.live = false ∨ s.paired = false ∨ s.pair.openRecs = [] → exec .journalEpochClose s = .next s) ∧
    (s.dom.formed = true → (∀ c, s.pair.granted ≠ some (hbDepoch p, c)) →
      ∀ t, t = ({ s with pair := { s.pair with granted := some (hbDepoch p, hbClaimant p) } } : State) → s.takeClaim p = t.newXfer p.src .ctl [t.hbPkt 4 true false (hbClaimant p) 0]) ∧
    (∀ c, s.dom.formed = true → s.pair.granted = some (hbDepoch p, c) → s.takeClaim p = s.newXfer p.src .ctl [s.hbPkt 5 true false (hbClaimant p) 0]) ∧
    (s.pair.claiming = true → src ∈ s.memberList → src ∉ s.pair.grants → ∀ t, t = ({ s with pair := { s.pair with grants := s.pair.grants ++ [src] } } : State) →
      (s.memberList.length < 2 * (s.pair.grants.length + 1) → s.countGrant src found = t.claimWon found) ∧
      (s.isFe = true → 2 * (s.pair.grants.length + 1) = s.memberList.length → s.countGrant src found = t.claimWon found) ∧
      (2 * (s.pair.grants.length + 1) ≤ s.memberList.length → s.isFe = false → s.countGrant src found = t)) ∧
    (s.dom.role = .standby → p.src = s.dom.frontEnd → s.pair.lossSeen = false →
      ∀ t, t = ({ s with pair := { s.pair with resend := false } } : State) →
        s.takeBeat none p = t.newXfer p.src .ctl [s.hbPkt 2 (hbRouted p) s.pair.resend 0 s.pair.applied] ∧
        (∀ n, hbRouted p = false → s.takeBeat (some n) p = t.newXferOn n p.src (s.hbPkt 2 false s.pair.resend 0 s.pair.applied))) ∧
    (s.dom.role ≠ .standby ∨ p.src ≠ s.dom.frontEnd → ∀ via, s.takeBeat via p = s) ∧
    (s.isFe = false ∨ s.dom.standby ≠ some p.src → s.takeEcho p = s) ∧
    (s.isFe = true → s.dom.standby = some p.src → s.pair.claiming = false → s.pair.beaten = false → hbResend p = false →
      s.takeEcho p = ({ s with pair := { s.pair with lease := true } } : State).journalApplied (hbJepoch p)) ∧
    (hbClaimant p = s.dom.chipId → s.takeGrant p found = s.countGrant p.src found) ∧ (hbClaimant p ≠ s.dom.chipId → s.takeGrant p found = s ∧ s.takeDeny p = s) ∧
    (hbClaimant p = s.dom.chipId → s.pair.claiming = true → p.src ∉ s.pair.denies → s.takeDeny p = { s with pair := { s.pair with denies := s.pair.denies ++ [p.src] } })

/-- A write none of whose words is uncorrectable and covered in part reports nothing, and each of its bytes then reads in memory as written; so does a
write of whole words over uncorrectable ones, which clears their flips. Where its cipher blocks are already held under its key, or it lies outside
DRAM, every byte outside the run reads as before. A write that covers part of an uncorrectable word answers that word's address, and the word's bytes
stand. A read that meets an uncorrectable word answers its address and no byte, and memory's bytes stand. A read of a run without flips, held under
its key or outside DRAM, answers the bytes in memory. A
byte nothing has written reads 0 (log 6). In raw DRAM no two bytes of data, no two check bytes and no two tags share a place, and none of one kind lies
where one of another does; an unencrypted byte is stored as written, but for its flips. -/
def Obligations.MemoryWrites : Prop :=
  ∀ (s : State) (key a : Nat) (bs : List Byte),
    (Mem.wf s.mem = true → (∀ w ∈ wordsOf a bs.length, s.wordBad w = true → coversWord a bs.length w = true) →
      (s.writeMem key a bs).1 = none ∧
      (∀ (k : Nat) (b : Byte), bs[k]? = some b → Tbl.get 0 (s.writeMem key a bs).2.mem.bytes (a + k) = b) ∧
      (∀ w ∈ wordsOf a bs.length, coversWord a bs.length w = true → Tbl.get 0 (s.writeMem key a bs).2.mem.flips w = 0)) ∧
    (dramEnd ≤ a ∨ (∀ c ∈ blocksOf key a bs.length, Tbl.get 0 s.mem.enc c = key) →
      ∀ x, x < a ∨ a + bs.length ≤ x → Tbl.get 0 (s.writeMem key a bs).2.mem.bytes x = Tbl.get 0 s.mem.bytes x) ∧
    (∀ w ∈ wordsOf a bs.length, s.wordBad w = true → coversWord a bs.length w = false → dramEnd ≤ a ∨ (∀ c ∈ blocksOf key a bs.length, Tbl.get 0 s.mem.enc c = key) →
      (s.writeMem key a bs).1.isSome = true ∧ ∀ x, x / 8 = w → Tbl.get 0 (s.writeMem key a bs).2.mem.bytes x = Tbl.get 0 s.mem.bytes x) ∧
    (∀ (n w : Nat), (wordsOf a n).find? s.wordBad = some w →
      (s.readMem key a n).1 = .inr (8 * w) ∧ (s.readMem key a n).2.mem.bytes = s.mem.bytes) ∧
    (∀ n : Nat, (∀ w ∈ wordsOf a n, s.wordBad w = false) → dramEnd ≤ a ∨ (a + n ≤ dramEnd ∧ ∀ x, a ≤ x → x < a + n → Tbl.get 0 s.mem.enc (x / 16) = key) →
      (s.readMem key a n).1 = .inl ((List.range n).map (fun k => Tbl.get 0 s.mem.bytes (k + a))) ∧ (s.readMem key a n).2.mem.bytes = s.mem.bytes) ∧
    (∀ x y : Nat, (rawPlace x = rawPlace y → x = y) ∧ (checkPlace x = checkPlace y → x = y) ∧ (tagPlace x = tagPlace y → x = y) ∧
      rawPlace x ≠ checkPlace y ∧ rawPlace x ≠ tagPlace y ∧ checkPlace x ≠ tagPlace y ∧ (rawPlace x).1 < 4 ∧ (rawPlace x).2 % 512 < 448) ∧
    (Tbl.get 0 s.mem.enc (a / 16) = 0 → Tbl.get 0 s.mem.flips (a / 8) = 0 → s.rawByte a = Tbl.get 0 s.mem.bytes a)

/-- A scrub pass with nothing uncorrectable corrects single flips, counted, and takes the new period; with none at all it changes nothing else. Either
scrub does nothing while the chip does not run. The write clock is trained again, counted, once the temperature has moved by more than 10 degrees. A
tile that misses its beats faults only while it executes an operation; a fault found otherwise names a checker the spec leaves open, a free value. A
beat counts on the tile and restarts its ring's timer. A request held at a resetting part is refused when its hold ends; the twentieth refusal fails
its operation with RETRY_LATER, an earlier one holds it again while the part still resets, and is served when it does not. A request without reply for
500 us fails its operation, STALE if the part's incarnation has changed. XLT_INVAL_GO takes its value while the chip is READY; a chip reports once no
access of the instance issued before is outstanding (log 106), and the last report due ends the invalidation. -/
def Obligations.MemoryErrors : Prop :=
  ∀ (s : State) (persist : List Nat) (temp : BitVec 8) (tile e k : Nat) (q : LocalReq) (part : Part) (held : BitVec 8) (v : Word64) (chip : ChipId) (o : OpEntry),
    (s.live = false ∨ s.mem.selfRef = true → exec .scrubPass s = .next s) ∧
    (s.live = true → s.mem.selfRef = false → ∀ t, t = (s.mem.tagDiff.map (·.1)).foldl State.correctTag (s.correct (s.flipped 0 dramEnd)) →
      (∀ w ∈ s.flipped 0 dramEnd, s.flipsOf w < 2) → t.badGroups = [] →
      exec .scrubPass s = .next { t with mem := { t.mem with scrubRun := t.mem.scrub, scrubPos := 0 } }) ∧
    (s.live = false → exec (.sramScrub persist) s = .next s) ∧
    (s.live = true → s.flipped hallBase hallEnd = [] → s.flipped tileBase s.sramEnd = [] → exec (.sramScrub persist) s = .next s) ∧
    (s.live = true → s.mem.selfRef = false → 10 < (temp.toInt - s.mem.trainTemp.toInt).natAbs →
      exec (.wckRetrain temp) s = .next { s with mem := { s.mem with trainTemp := temp, retrains := satInc s.mem.retrains } }) ∧
    (s.live = false ∨ s.mem.selfRef = true ∨ (temp.toInt - s.mem.trainTemp.toInt).natAbs ≤ 10 → exec (.wckRetrain temp) s = .next s) ∧
    (s.opOnTile tile = some e → s.live = true → exec (.beatMissed tile) s = .next (s.faultTile tile 0x17).goOn) ∧
    (s.opOnTile tile = none ∨ s.live = false → exec (.beatMissed tile) s = .next s) ∧
    (s.live = true → tile < s.fuses.grade.tiles → (s.tile tile).lost = false → exec (.tileFault tile) s = .next ((s.draw 8).2.faultTile tile (s.draw 8).1.toNat).goOn) ∧
    (s.live = false ∨ s.fuses.grade.tiles ≤ tile ∨ (s.tile tile).lost = true → exec (.tileFault tile) s = .next s) ∧
    (s.opOnTile tile = some e → s.op e = some o → s.live = true → o.dead = false →
      exec (.progressBeat tile) s = .next (((s.updTile tile (fun x => { x with beats := satInc x.beats })).ctxProgress o.ctx).goOn)) ∧
    (s.live = false → exec (.progressBeat tile) s = .next s) ∧ (s.opOnTile tile = none → s.live = true → exec (.progressBeat tile) s = .next s.goOn) ∧
    (s.parts.reqs[k]? = some q →
      (q.waiting = false → exec (.partHoldExpiry k) s = .next (s.setReq k { q with waiting := true, refusals := q.refusals + 1 })) ∧
      (q.waiting = true → exec (.partHoldExpiry k) s = .next s) ∧ (q.waiting = false → exec (.localRetry k) s = .next s) ∧
      (q.waiting = true → 20 ≤ q.refusals → exec (.localRetry k) s =
        .next (({ s with parts := { s.parts with reqs := s.parts.reqs.eraseIdx k } } : State).failOp q.entry (s.partErr stRetryLater q.part q.inc))) ∧
      (q.waiting = true → q.refusals < 20 → q.part ∈ s.parts.resetting → exec (.localRetry k) s = .next (s.setReq k { q with waiting := false })) ∧
      (q.waiting = true → q.refusals < 20 → q.part ∉ s.parts.resetting → exec (.localRetry k) s = .next { s with parts := { s.parts with reqs := s.parts.reqs.eraseIdx k } })) ∧
    (s.parts.reqs.length ≤ k → exec (.partHoldExpiry k) s = .next s ∧ exec (.localRetry k) s = .next s) ∧
    (s.op e = some o → s.live = true → o.dead = false →
      ∀ t, t = s.event evPartTimeout 3 (s.ctxInst o.ctx) (part.code + part.no * 2 ^ 8 + held.toNat * 2 ^ 16 + (s.partInc part).toNat * 2 ^ 24) 0 →
        exec (.partTimeout e part held) s = .next (({ t with parts := { t.parts with reqs := t.parts.reqs.filter (fun q => q.entry ≠ e) } } : State).failOp e
          (s.partErr (if s.partInc part = held then stRetryLater else stStale) part held))) ∧
    (s.op e = none ∨ s.live = false → exec (.partTimeout e part held) s = .next s) ∧
    (s.live = true → s.boot.state = .ready →
      exec (.xltInvalGo v) s = .next (s.invalCtl v) ∧ (s.xlt.busy = true → s.invalCtl v = s.blkError blkXlt beBusy) ∧
      (s.xlt.busy = false → v.getLsbD 8 = false → s.invalCtl v = { s with xlt := { s.xlt with inst := BitVec.ofNat 6 v.toNat, all := v.getLsbD 6 } })) ∧
    (s.live = false ∨ s.boot.state ≠ .ready → exec (.xltInvalGo v) s = .next s) ∧
    (s.xlt.busy = true → chip ∈ s.xlt.waiting →
      (s.xlt.waiting.filter (· ≠ chip) = [] → s.takeInvalDone chip = { s with xlt := { s.xlt with busy := false, waiting := [], gen := s.xlt.gen + 1 } }) ∧
      (s.xlt.waiting.filter (· ≠ chip) ≠ [] → s.takeInvalDone chip = { s with xlt := { s.xlt with waiting := s.xlt.waiting.filter (· ≠ chip) } })) ∧
    (s.xlt.busy = false ∨ chip ∉ s.xlt.waiting → s.takeInvalDone chip = s) ∧
    (s.xlt.pend = none → s.invalCheck = s) ∧
    (∀ i st, s.xlt.pend = some (i, st) →
      ((∃ x ∈ s.fab.xfers ++ s.fab.queued, staleAccess i st x = true) → s.invalCheck = s) ∧
      ((∀ x ∈ s.fab.xfers ++ s.fab.queued, staleAccess i st x = false) →
        ∀ t, t = ({ s with xlt := { s.xlt with pend := none } } : State) → s.invalCheck = if t.isFe then t.takeInvalDone s.dom.chipId else t.ctl s.dom.frontEnd .invalDone))

/-- A command whose message stands at the front of the queue, with a sound header, on the active front end while it executes, is taken and carried out;
the row of any other opcode, or of any other DLOG SUBOP, changes nothing, and so does every row on an empty queue or where nothing executes. The
message at the front is the 64 bytes of slot consumer modulo 8. One that names no command, or whose header has a reserved field set, is taken and
answered BAD_COMMAND. A doorbell of the index already held changes nothing; one ahead by more than 8 slots is DB_OVERRUN; another makes its commands
visible, and on a portal that is not the active front end each is answered NOT_FRONT_END with the event. Which row stands for which message is the
model's (log 2). -/
def Obligations.ManagerCommandsRun : Prop :=
  ∀ (s : State) (m bs : List Byte),
    (s.frontCmd = some m → s.executes = true → headerOk m = true →
      (let goes := fun (c : Instr) (op : Nat) (f : State → Nat → List Byte → State) => (mOpcode m = op → exec c s = .next ((f s.takeCmd (mInst m) m).settleQueue 8)) ∧ (mOpcode m ≠ op → exec c s = .next s)
       goes .create 0x01 State.doCreate ∧
       goes .destroy 0x02 State.doDestroy ∧
       goes .setStands 0x03 State.doSetStands ∧
       goes .setVectors 0x04 State.doSetVectors ∧
       goes .setDrrings 0x05 State.doSetDrrings ∧
       goes .objAssign 0x06 State.doObjAssign ∧
       goes .shareGroup 0x07 State.doShareGroup ∧
       goes .objReset 0x08 State.doObjReset ∧
       goes .xltRoot 0x09 State.doXltRoot ∧
       goes .hostSlot 0x0A State.doHostSlot ∧
       goes .query 0x0F State.doQuery ∧
       goes .quiesce 0x10 State.doQuiesce ∧
       goes .resume 0x11 State.doResume ∧
       goes .save 0x12 State.doSave ∧
       goes (.restore bs) 0x13 (State.doRestore bs) ∧
       goes .confCreate 0x20 State.doConfCreate ∧
       goes .confAssign 0x21 State.doConfAssign ∧
       goes .confMap 0x22 State.doConfMap ∧
       goes (.confLoad bs) 0x23 (State.doConfLoad bs) ∧
       goes .confFinalize 0x24 State.doConfFinalize ∧
       goes .confRelease 0x25 State.doConfRelease ∧
       goes .attest 0x28 State.doAttest) ∧
      (let logs := fun (c : Instr) (sub : Nat) => (mOpcode m = 0x14 → leAt m 8 1 = sub → exec c s = .next ((State.doDlog sub s.takeCmd (mInst m) m).settleQueue 8)) ∧ (leAt m 8 1 ≠ sub → exec c s = .next s)
       logs .dlogEnable 0 ∧ logs .dlogClear 1 ∧ logs .dlogFlush 2 ∧ logs .dlogDisable 3)) ∧
    (s.frontCmd = none ∨ s.executes = false →
      exec .create s = .next s ∧ exec .destroy s = .next s ∧ exec .setStands s = .next s ∧ exec .setVectors s = .next s ∧
      exec .setDrrings s = .next s ∧ exec .objAssign s = .next s ∧ exec .shareGroup s = .next s ∧ exec .objReset s = .next s ∧
      exec .xltRoot s = .next s ∧ exec .hostSlot s = .next s ∧ exec .query s = .next s ∧ exec .quiesce s = .next s ∧
      exec .resume s = .next s ∧ exec .save s = .next s ∧ exec (.restore bs) s = .next s ∧ exec .confCreate s = .next s ∧
      exec .confAssign s = .next s ∧ exec .confMap s = .next s ∧ exec (.confLoad bs) s = .next s ∧ exec .confFinalize s = .next s ∧
      exec .confRelease s = .next s ∧ exec .attest s = .next s ∧
      exec .dlogEnable s = .next s ∧ exec .dlogClear s = .next s ∧ exec .dlogFlush s = .next s ∧ exec .dlogDisable s = .next s) ∧
    (s.mgr.cmdPi = s.mgr.cmdCi → s.frontCmd = none) ∧
    (s.mgr.cmdPi ≠ s.mgr.cmdCi → s.frontCmd = some (getTbl s.mgr.cmd (64 * (s.mgr.cmdCi.toNat % 8)) 64)) ∧
    (∀ k, s.frontCmd = some m → cmdKnown m = false ∨ headerOk m = false → s.settleQueue (k + 1) = (s.takeCmd.respond m msBadCommand []).settleQueue k) ∧
    (∀ v, s.pcie.up = true → s.boot.served = true → s.safest.inSafe = false →
      (v = s.mgr.cmdPi → exec (.commandDoorbell v) s = .next s) ∧
      (v ≠ s.mgr.cmdPi → (v - s.mgr.cmdPi).toNat < 2 ^ 31 → 8 < (v - s.mgr.cmdCi).toNat → exec (.commandDoorbell v) s = .next (s.fnError 0 esDbOverrun)) ∧
      (v ≠ s.mgr.cmdPi → (v - s.mgr.cmdPi).toNat < 2 ^ 31 → (v - s.mgr.cmdCi).toNat ≤ 8 → ∀ t, t = ({ s with mgr := { s.mgr with cmdPi := v } } : State) →
        (t.executes = true → exec (.commandDoorbell v) s = .next (t.settleQueue 8)) ∧
        (t.executes = false → s.boot.state = .ready → s.isFe = false → exec (.commandDoorbell v) s = .next (t.refuseQueue 8)))) ∧
    (∀ v, s.pcie.up = false ∨ s.boot.served = false ∨ s.safest.inSafe = true → exec (.commandDoorbell v) s = .next s) ∧
    (∀ k, s.frontCmd = some m → s.refuseQueue (k + 1) = ((s.takeCmd.respond m msNotFrontEnd []).event evMgmtRefused 0 (mInst m) (mInst m) 0x100300).refuseQueue k)

/-- Commands on an existing instance refuse, in order, reserved fields (BAD_COMMAND), a PENDING command (BUSY), an ABSENT instance (BAD_INSTANCE) and a
state that forbids them (BUSY). CREATE refuses instance 0, one that is not ABSENT, fields out of range, and resources that are taken, and else makes
the instance and answers DONE. One whose chip set names this chip alone takes effect at a chip commit, LOCKED while the sequence lock is held; any
other becomes PENDING. DESTROY wants a READY instance other than 0 without an enabled ring; QUIESCE a READY one; its end, once nothing of the instance
is under way here, makes it QUIESCED and answers DONE (log 52); SAVE a QUIESCED one, and refuses a buffer too small with NO_RESOURCE and a
confidential instance with SECURE_HELD; RESTORE a READY one with no enabled ring. QUERY answers the body of the instance (log 59). SET_VECTORS is
refused while MSI-X is enabled. DLOG ENABLE without a ring is BUSY. DLOG_ROOM lets held host writes go. -/
def Obligations.ManagerCommandEffects : Prop :=
  ∀ (s : State) (i : Nat) (m host : List Byte) (st : Nat),
    (∀ bad states, (bad = true → s.common i bad states = some msBadCommand) ∧ (bad = false → (s.inst i).pend.isSome = true → s.common i bad states = some msBusy) ∧
      (bad = false → (s.inst i).pend = none → (s.inst i).state = .absent → s.common i bad states = some msBadInstance) ∧
      (bad = false → (s.inst i).pend = none → (s.inst i).state ≠ .absent → (s.inst i).state ∉ states → s.common i bad states = some msBusy) ∧
      (bad = false → (s.inst i).pend = none → (s.inst i).state ≠ .absent → (s.inst i).state ∈ states → s.common i bad states = none)) ∧
    (i = 0 ∨ (s.inst i).state ≠ .absent → s.doCreate i m = s.respond m msBusy []) ∧
    (i ≠ 0 → (s.inst i).state = .absent → (s.inst i).pend = none →
      (createFields m = false → s.doCreate i m = s.respond m msBadCommand []) ∧
      (createFields m = true → s.ringsTaken i m = true ∨ 16 < s.rtTotal + leAt m 18 1 ∨ s.vecRoom i (leAt m 8 2) = none → s.doCreate i m = s.respond m msNoResource []) ∧
      (createFields m = true → s.ringsTaken i m = false → s.rtTotal + leAt m 18 1 ≤ 16 → (s.vecRoom i (leAt m 8 2)).isSome = true →
        s.doCreate i m = (((((s.makeInst i m).fillKey i).cause i causeError).respond m msDone []).journalCommand m))) ∧
    (s.common i (!(decide (1 ≤ leAt m 8 2 ∧ leAt m 8 2 ≤ 1024) && restZero m 10)) [.ready] = none →
      ((s.fc i).msixEn = true → s.doSetVectors i m = s.respond m msMsixEnabled []) ∧
      ((s.fc i).msixEn = false → s.vecRoom i (leAt m 8 2) = none → s.doSetVectors i m = s.respond m msNoResource []) ∧
      ((s.fc i).msixEn = false → (s.vecRoom i (leAt m 8 2)).isSome = true →
        s.doSetVectors i m = (((s.changeVectors i (leAt m 8 2)).capChange i).respond m msDone []).journalCommand m)) ∧
    (∀ good secure lack busy states,
      (s.common i (!(good && s.csetGood m)) states = some st → s.csetCmd i m good secure lack busy states = s.respond m st []) ∧
      (s.common i (!(good && s.csetGood m)) states = none →
        (secure = true → s.csetCmd i m good secure lack busy states = s.respond m msSecureHeld []) ∧
        (secure = false → lack = true → s.csetCmd i m good secure lack busy states = s.respond m msNoResource []) ∧
        (secure = false → lack = false → busy = true → s.csetCmd i m good secure lack busy states = s.respond m msBusy []) ∧
        (secure = false → lack = false → busy = false → s.csetCmd i m good secure lack busy states = s.carry i m))) ∧
    (csetChips (mCset m) ≠ [s.dom.chipId] → s.carry i m = s.pendCmd i m) ∧
    (csetChips (mCset m) = [s.dom.chipId] → mOpcode m ≠ 0x08 →
      (s.lock.held = true → s.carry i m = s.respond m msLocked []) ∧
      (s.lock.held = false → ∀ t, t = s.grantLock 2 s.dom.chipInc false →
        s.carry i m = (((({ t with shd := t.shd.staged i m } : State).commitShadow).unlock).respond m msDone []).journalCommand m)) ∧
    (s.pendCmd i m = ((s.updInst i (fun x => { x with pend := some { opcode := BitVec.ofNat 8 (mOpcode m), tag := BitVec.ofNat 8 (mTag m), msg := m } })).respond m msPending []).queueCommand i) ∧
    (s.common i (!restZero m 8) [.ready] = none →
      (i = 0 → s.doDestroy i m = s.respond m msBadInstance []) ∧ (i ≠ 0 → s.ringsOn i = true → s.doDestroy i m = s.respond m msBusy []) ∧
      (i ≠ 0 → s.ringsOn i = false → s.doDestroy i m = (s.updInst i (fun x => { x with state := .destroying })).pendCmd i m) ∧
      s.doQuiesce i m = s.pendCmd i m) ∧
    (s.common i (!restZero m 8) [.ready] = some st → s.doDestroy i m = s.respond m st [] ∧ s.doQuiesce i m = s.respond m st []) ∧
    (s.executes = true → (s.inst i).state = .quiescing → s.quiet i = true →
      exec (.quiesceComplete i) s = .next ((s.updInst i (fun x => { x with state := .quiesced })).endPending i msDone [])) ∧
    (s.executes = false ∨ (s.inst i).state ≠ .quiescing ∨ s.quiet i = false → exec (.quiesceComplete i) s = .next s) ∧
    (restZero m 8 = true → (s.inst i).pend = none → s.doQuery i m = s.respond m msDone (s.queryBody i)) ∧
    (restZero m 8 = true → s.commandRuns i = false → (s.inst i).state = .quiesced ∨ (s.inst i).state = .quiescing →
      s.doResume i m = ((((s.endPending i msBusy []).respond m msDone []).updInst i (fun x => { x with pend := some { opcode := 0x11, tag := BitVec.ofNat 8 (mTag m), msg := m } })).queueCommand i)) ∧
    (restZero m 8 = true → s.commandRuns i = false → (s.inst i).state = .ready → s.doResume i m = s.respond m msBusy []) ∧
    (s.common i (!(restZero m 20 && decide (leAt m 8 8 < 2 ^ 48))) [.quiesced] = none →
      (s.isConf i = true → s.doSave i m = s.respond m msSecureHeld []) ∧
      (s.isConf i = false → leAt m 16 4 < (s.image i).1.length → s.doSave i m = s.pendThen m msNoResource []) ∧
      (s.isConf i = false → (s.image i).1.length ≤ leAt m 16 4 → s.doSave i m = ((s.image i).2.storeImage (leAt m 8 8) (s.image i).1).pendThen m msDone (toLe 4 (s.image i).1.length))) ∧
    (s.common i (!(restZero m 20 && decide (leAt m 8 8 < 2 ^ 48))) [.ready] = none → s.isConf i = false →
      (s.ringsOn i = true → s.doRestore host i m = s.respond m msBusy []) ∧
      (∀ bs t, s.ringsOn i = false → s.loadPieces (leAt m 8 8) host (piecesOf (leAt m 8 8) (leAt m 16 4)) = (bs, t) →
        (imageValid bs = false → s.doRestore host i m = t.pendThen m msImageBad []) ∧ (imageValid bs = true → t.imageFits i bs = false → s.doRestore host i m = t.pendThen m msImageMismatch []))) ∧
    (∀ sub, s.common i (!restZero m 9) [.ready, .quiescing, .quiesced] = none →
      (sub = 0 → s.dlog.size = 0 → s.doDlog sub i m = s.respond m msBusy []) ∧
      (s.dlog.size ≠ 0 → s.rootOthers = [] → s.doDlog sub i m = ((s.dlogPart i sub).respond m msDone []).journalCommand m) ∧
      (s.dlog.size ≠ 0 → s.rootOthers ≠ [] → sub ≠ 2 → s.doDlog sub i m = s.pendCmd i m)) ∧
    (s.live = true → s.dlogRoomNow = true → exec .dlogRoom s = .next s.dlogRelease) ∧ (s.live = false ∨ s.dlogRoomNow = false → exec .dlogRoom s = .next s)

/-- CONF_CREATE is refused SECURE_HELD when zeroized, for instance 0 or with debug unlocked, BUSY where the instance is confidential or set up already,
NO_RESOURCE without a carve-out. The other CONF commands want a confidential instance, and are SECURE_HELD when zeroized; CONF_LOAD and CONF_FINALIZE
are BUSY after CONF_FINALIZE. ATTEST writes the report and its signature, a free value (log 10). A nonce read draws a new nonce, a free value, and
answers its first bytes. A submitted token is good only with the nonce last read, a key of the officer's digest, a sound signature and no reserved
byte set; it uses the nonce up either way. A good SVN_COMMIT within the running SVN and not below the minimum raises the minimum, with VPP_FUSE up,
and is refused and recorded without it; a good ZEROIZE zeroizes. A refused unlock leaves the level and counts; after 8 every attempt is refused; a
good one unlocks its level. A read on a function whose window does not serve answers as any other. -/
def Obligations.SecureCommands : Prop :=
  ∀ (s : State) (i : Nat) (m : List Byte),
    (s.common i (!restZero m 8) [.ready] = none →
      (s.sec.zeroized = true ∨ i = 0 ∨ s.sec.debug ≠ .locked → s.doConfCreate i m = s.respond m msSecureHeld []) ∧
      (s.sec.zeroized = false → i ≠ 0 → s.sec.debug = .locked →
        ((s.inst i).conf = true ∨ s.ringsOn i = true → s.doConfCreate i m = s.respond m msBusy []) ∧
        ((s.inst i).conf = false → (Tbl.get 0 s.act.xltRoot i).getLsbD 0 = false → s.ringsOn i = false →
          (s.sec.carve = 0 → s.doConfCreate i m = s.respond m msNoResource []) ∧
          (s.sec.carve ≠ 0 → s.lock.held = true → s.doConfCreate i m = s.respond m msLocked []) ∧
          (s.sec.carve ≠ 0 → s.lock.held = false → s.rootOthers = [] →
            s.doConfCreate i m = (((((s.grantLock 4 s.dom.chipInc false).confCreateHere i).commitShadow.unlock.rehold).respond m msDone []).journalCommand m)) ∧
          (s.sec.carve ≠ 0 → s.lock.held = false → s.rootOthers ≠ [] → s.doConfCreate i m = s.pendCmd i m)))) ∧
    (∀ bad, s.common i bad [.ready] = none → (s.sec.zeroized = true → s.confCommon i bad = some msSecureHeld) ∧
      (s.sec.zeroized = false → (s.inst i).conf = false → s.confCommon i bad = some msBadInstance) ∧ (s.sec.zeroized = false → (s.inst i).conf = true → s.confCommon i bad = none)) ∧
    (s.confCommon i (!restZero m 8) = none → ((s.inst i).final = true → s.doConfFinalize i m = s.respond m msBusy []) ∧
      ((s.inst i).final = false → s.rootOthers = [] → s.doConfFinalize i m = ((s.confPart 0x24 i m true).respond m msDone []).journalCommand m) ∧
      ((s.inst i).final = false → s.rootOthers ≠ [] → s.doConfFinalize i m = s.pendCmd i m)) ∧
    (∀ host, s.confCommon i (!(restZero m 28 && decide (leAt m 8 8 < 2 ^ 48 ∧ leAt m 16 8 < 2 ^ 48))) = none → (s.inst i).final = true → State.doConfLoad host s i m = s.respond m msBusy []) ∧
    (s.confCommon i (!(s.csetGood m && s.pagesGood (leAt m 16 8) (leAt m 24 4) && restZero m 28)) = none →
      (s.namesHere m = true → s.sec.carve = 0 → s.doConfAssign i m = s.respond m msNoResource []) ∧
      (s.namesHere m = false ∨ s.sec.carve ≠ 0 → s.namesOne m = false → s.doConfAssign i m = s.pendCmd i m) ∧
      (s.namesHere m = false ∨ s.sec.carve ≠ 0 → s.namesOne m = true → s.doConfAssign i m = ((s.confAssignHere i m).respond m msDone []).journalCommand m) ∧
      (s.namesOne m = true → s.doConfRelease i m = ((s.confReleaseHere i m).respond m msDone []).journalCommand m)) ∧
    (leAt m 8 8 < 2 ^ 48 → (s.inst i).pend = none → (s.inst i).state ≠ .absent →
      (s.sec.zeroized = true → s.doAttest i m = s.respond m msSecureHeld []) ∧
      (s.sec.zeroized = false → s.doAttest i m = (((s.drawBytes 96).2.storeImage (leAt m 8 8) (s.reportBody i ((m.drop 16).take 48) ++ (s.drawBytes 96).1)).respond m msDone []))) ∧
    (s.gate 0 = .open_ → s.secServes = true → ∀ r, r = s.drawBytes 48 →
      exec .coNonceRead s = .next (({ r.2 with sec := { r.2.sec with coNonce := some r.1 } } : State).emit (.completion 0 (toLe 8 (leAt r.1 0 8)))) ∧
      exec .dbgChallengeRead s = .next (({ r.2 with sec := { r.2.sec with dbgNonce := some r.1 } } : State).emit (.completion 0 (toLe 8 (leAt r.1 0 8))))) ∧
    (s.gate 0 = .open_ → s.secServes = false →
      exec .coNonceRead s = .next (s.emit (.completion 0 (toLe 8 (s.peekReg 0x901000 true)))) ∧ exec .dbgChallengeRead s = .next (s.emit (.completion 0 (toLe 8 (s.peekReg 0xC00008 true))))) ∧
    (s.gate 0 = .closed → exec .coNonceRead s = .next (s.emit (.completion 0 (List.replicate 8 0xFF))) ∧ exec .dbgChallengeRead s = .next (s.emit (.completion 0 (List.replicate 8 0xFF)))) ∧
    (s.secServes = true →
      (leAt s.coBytes 0 1 = 1 → s.coTokenOk = false → exec .svnCommit s = .next (s.coEnd 2)) ∧
      (∀ t n, leAt s.coBytes 0 1 = 1 → s.coTokenOk = true → t = leAt s.coBytes 1 1 → n = leAt s.coBytes 2 1 → 1 ≤ t → t ≤ 4 →
        (n < (Tbl.get 0 s.fuses.svnMin t).toNat ∨ (s.imageOfType t).svn.toNat < n → exec .svnCommit s = .next (s.coEnd 2)) ∧
        ((Tbl.get 0 s.fuses.svnMin t).toNat ≤ n → n ≤ (s.imageOfType t).svn.toNat → s.fuses.vppOk = true → exec .svnCommit s =
          .next (({ s.coEnd 1 with fuses := { s.fuses with svnMin := Tbl.set 0 s.fuses.svnMin t (BitVec.ofNat 8 n) } } : State).event evSvnCommitted 0 0 (t + 256 * n) 0)) ∧
        ((Tbl.get 0 s.fuses.svnMin t).toNat ≤ n → n ≤ (s.imageOfType t).svn.toNat → s.fuses.vppOk = false → exec .svnCommit s =
          .next { s.coEnd 2 with sec := { (s.coEnd 2).sec with fuseRefused := true } })) ∧
      (leAt s.coBytes 0 1 = 2 → s.coTokenOk = true → exec .zeroize s = .next ((s.coEnd 1).zeroizeNow 4 true)) ∧
      (leAt s.coBytes 0 1 = 2 → s.coTokenOk = false → exec .zeroize s = .next (s.coEnd 2))) ∧
    (leAt s.coBytes 0 1 ≠ 1 → exec .svnCommit s = .next s) ∧ (leAt s.coBytes 0 1 ≠ 2 → exec .zeroize s = .next s) ∧
    (s.secServes = false → leAt s.coBytes 0 1 = 1 → exec .svnCommit s = .next { s with sec := { s.sec with coRes := 2 } }) ∧
    (s.secServes = false → leAt s.coBytes 0 1 = 2 → exec .zeroize s = .next { s with sec := { s.sec with coRes := 2 } }) ∧
    (s.sec.coNonce = none → s.coTokenOk = false) ∧ (∀ t, s.sec.dbgNonce = none → s.dbgTokenOk t = false) ∧
    (s.boot.served = true → s.safest.inSafe = false →
      (8 ≤ s.sec.refusals.toNat → exec .debugUnlock s = .next { s with sec := { s.sec with dbgNonce := none, dbgRes := 3 } }) ∧
      (s.sec.refusals.toNat < 8 → s.sec.zeroized = true ∨ s.dbgTokenOk s.dbgBytes = false →
        exec .debugUnlock s = .next { s with sec := { s.sec with dbgNonce := none, dbgRes := 2, refusals := satInc s.sec.refusals } })) ∧
    (s.boot.served = false ∨ s.safest.inSafe = true → exec .debugUnlock s = .next s)

/-- ACQUIRE takes a free lock for its agent, with the agent's incarnation and the next generation, and changes nothing while it is held; COMMIT and
ABANDON act for the holder alone: COMMIT makes the shadow set active and frees the lock, ABANDON copies the active set back and frees it. A remote
access is a write of its operation to FE_RMT_CTL; its end brings the answer's value and RESULT, or CHIP_LOST, or NO_REPLY, and means nothing when none
is under way. FE_EPOCH_CTL COMMIT starts the root's epoch, unless one runs, ABANDON drops the locks held for the manager; neither acts on a portal
that is not the active front end. Who writes is the command's operand (log 2). -/
def Obligations.LockAndRemoteAccess : Prop :=
  ∀ (s : State) (agent : BitVec 3) (wide ok : Bool) (v : Word64),
    (s.lockServed agent = true →
      (s.lock.held = true → exec (.seqlockAcquire agent) s = .next s) ∧
      (s.lock.held = false → exec (.seqlockAcquire agent) s = .next { s with lock := { held := true, agent := agent, inc := s.agentInc agent, gen := s.lock.gen + 1, behalf := false } }) ∧
      (s.holds agent false = true → exec (.seqlockCommit agent) s = .next (s.commitShadow.unlock) ∧
        exec (.seqlockAbandon agent) s = .next { s with shd := s.act, lock := { SeqLock.reset with gen := s.lock.gen } }) ∧
      (s.holds agent false = false → exec (.seqlockCommit agent) s = .next s ∧ exec (.seqlockAbandon agent) s = .next s)) ∧
    (s.lockServed agent = false → exec (.seqlockAcquire agent) s = .next s ∧ exec (.seqlockCommit agent) s = .next s ∧ exec (.seqlockAbandon agent) s = .next s) ∧
    (agent = 0 ∨ 4 < agent.toNat → s.lockServed agent = false) ∧
    (s.mgmtTakes = true →
      exec (.rmtRead wide) s = .next (s.managerWrite 0x410 false (BitVec.ofNat 64 (1 + 4 * b2n wide))) ∧
      exec (.rmtWrite wide) s = .next (s.managerWrite 0x410 false (BitVec.ofNat 64 (3 + 4 * b2n wide))) ∧
      exec .epochCtlCommit s = .next (s.epochCtl 1) ∧ exec .epochCtlAbandon s = .next (s.epochCtl 2)) ∧
    (s.mgmtTakes = false → exec (.rmtRead wide) s = .next s ∧ exec (.rmtWrite wide) s = .next s ∧ exec .epochCtlCommit s = .next s ∧ exec .epochCtlAbandon s = .next s) ∧
    (s.isFe = false → s.epochCtl 1 = s.blkError blkFe beNotFe ∧ s.epochCtl 2 = s.blkError blkFe beNotFe) ∧
    (s.isFe = true → s.mgr.epBusy = true → s.epochCtl 1 = s.blkError blkFe beBusy ∧ s.epochCtl 2 = s.blkError blkFe beBusy) ∧
    (s.isFe = true → s.mgr.epBusy = false → s.epochCtl 1 = ({ s with mgr := { s.mgr with epBusy := true } } : State).rootGo ∧
      s.epochCtl 2 = { s.dropMgrLocks with mgr := { s.mgr with epRes := 0 } }) ∧
    (s.mgr.rmtBusy = false → ∀ e, exec (.rmtReply e) s = .next s) ∧
    (s.mgr.rmtBusy = true →
      exec (.rmtReply .lost) s = .next { s with mgr := { s.mgr with rmtBusy := false, rmtRes := 2 } } ∧
      exec (.rmtReply .noReply) s = .next { s with mgr := { s.mgr with rmtBusy := false, rmtRes := 3 } } ∧
      (s.mgr.rmtWrite = false → s.rmtDone v ok = { s with mgr := { s.mgr with rmtData := v, rmtBusy := false, rmtRes := 0 } }) ∧
      (s.mgr.rmtWrite = true → s.mgr.rmtOff ≠ 0x48 → s.rmtDone v ok = { s with mgr := { s.mgr with rmtBusy := false, rmtRes := if ok then 0 else 4 } })) ∧
    (s.rmtAligned = true → s.mgr.rmtChip ≠ s.dom.chipId → ∀ r, r = ({ s with mgr := { s.mgr with rmtBusy := true } } : State) →
      (s.isLost s.mgr.rmtChip = true → s.rmtGo = r.rmtEnd 2) ∧
      (s.isLost s.mgr.rmtChip = false → s.mgr.rmtChip ∉ s.memberList → s.rmtGo = r.rmtEnd 1) ∧
      (s.isLost s.mgr.rmtChip = false → s.mgr.rmtChip ∈ s.memberList →
        s.rmtGo = r.ctl s.mgr.rmtChip (.mgmt 3 true s.mgr.rmtOff s.mgr.rmtWide (if s.mgr.rmtWrite then some s.mgr.rmtData else none)))) ∧
    (s.mgr.rmtChip = s.dom.chipId → s.rmtAligned = true → s.mgr.rmtWrite = false →
      ∀ r, r = ({ s with mgr := { s.mgr with rmtBusy := true } } : State).mgmtRead s.mgr.rmtOff.toNat s.mgr.rmtWide →
        s.rmtGo = { r.2 with mgr := { r.2.mgr with rmtData := BitVec.ofNat 64 r.1, rmtBusy := false, rmtRes := 0 } })

/-- A request to a unit of a READY chip is taken as AUTO, NO_SLEEP or PARK. Hibernation is entered where it may be and else REFUSED; a wake edge, an
instance write or EXIT leaves it, with the cause; outside it a wake edge is counted and nothing else. A tile goes to RETENTION only when it
is gated, its stand is not reserved and not under NO_SLEEP; DRAM goes to self-refresh unless its controller is under NO_SLEEP. A unit whose sensor reads
at or above the limit slows; 3 degrees below it, with power in bounds, it is restored; between them it stands. The junction limit at 105 degrees holds
CCLK at 275 MHz with the event, below 102 degrees it releases it, between them nothing changes, and 110 degrees is a dangerous fault. Above the power
limit CCLK falls by 25 MHz, down to 275 MHz, where every unit throttles, each tile that is not lost among them; an episode is reported once per 100 ms;
below 95 % of the limit CCLK rises. The time increment stays within the ACLK range; a TSYNC edge loads the counter with a value that is not
behind it, and otherwise holds it: time never falls. DRAM's refresh rate is a free value. The rows' operands are measured outside (log 2). -/
def Obligations.PowerAndTime : Prop :=
  ∀ (s : State) (u tile k : Nat) (r : BitVec 12) (mw : Nat),
    (s.ready = true → exec (.pwrAuto u) s = .next (s.unitRequest u reqAuto) ∧ exec (.pwrNoSleep u) s = .next (s.unitRequest u reqNoSleep) ∧ exec (.pwrPark u) s = .next (s.unitRequest u reqPark) ∧
      (s.mayHibernate = true → exec .hibernateEnter s = .next s.hibernate) ∧
      (s.mayHibernate = false → exec .hibernateEnter s = .next { s with pwr := { s.pwr with hibStatus := 3 } })) ∧
    (s.ready = false → exec (.pwrAuto u) s = .next s ∧ exec (.pwrNoSleep u) s = .next s ∧ exec (.pwrPark u) s = .next s ∧ exec .hibernateEnter s = .next s) ∧
    (s.boot.state = .hibernate → exec .wakeEdge s = .next (s.wake 1) ∧ exec (.hibernateExit 2) s = .next (s.wake 2) ∧ exec (.hibernateExit 3) s = .next ((s.wake 3).hibStatus 0)) ∧
    (s.boot.state ≠ .hibernate → exec .wakeEdge s = .next { s with pwr := { s.pwr with wakeCnt := satInc s.pwr.wakeCnt } } ∧
      exec (.hibernateExit 2) s = .next s ∧ exec (.hibernateExit 3) s = .next s) ∧
    (s.live = true → tile < s.fuses.grade.tiles → s.tileGated tile = true → s.standReserved (tile / 4) = false → (s.punit (unitStand (tile / 4))).mode ≠ 2 →
      exec (.tileRetentionTimer tile) s = .next (s.updUnit (unitTile (s.tile tile).phys.toNat) (fun x => { x with retention := true }))) ∧
    (s.live = false ∨ s.fuses.grade.tiles ≤ tile ∨ s.tileGated tile = false ∨ s.standReserved (tile / 4) = true ∨ (s.punit (unitStand (tile / 4))).mode = 2 →
      exec (.tileRetentionTimer tile) s = .next s) ∧
    (s.live = true → (s.punit unitMemc).mode ≠ 2 → exec .selfRefreshTimer s = .next { s with mem := { s.mem with selfRef := true } }) ∧
    (s.live = false ∨ (s.punit unitMemc).mode = 2 → exec .selfRefreshTimer s = .next s) ∧
    (s.live = false ∨ sensorOf u = none → exec (.thermalThrottleStep u r) s = .next s) ∧
    (s.live = true → sensorOf u = some k → u ≠ unitMemc → ∀ t, t = ({ s with pwr := { s.pwr with sensors := Tbl.set 0 s.pwr.sensors k r } } : State) →
      (4 * (s.pwr.tlimit.toNat : Int) ≤ r.toInt → exec (.thermalThrottleStep u r) s = .next ((throttleGroup u).foldl (fun s x => s.slow x 1 r.toNat) t)) ∧
      (r.toInt ≤ 4 * (s.pwr.tlimit.toNat : Int) - 12 → s.pwr.powerThr = false → exec (.thermalThrottleStep u r) s = .next ((throttleGroup u).foldl State.quicken t)) ∧
      (4 * (s.pwr.tlimit.toNat : Int) - 12 < r.toInt → r.toInt < 4 * (s.pwr.tlimit.toNat : Int) → exec (.thermalThrottleStep u r) s = .next t)) ∧
    (s.live = true →
      (420 ≤ r.toInt → r.toInt < 440 → s.pwr.junction = false → exec (.junctionHold r) s =
        .next (({ s with pwr := { s.pwr with junction := true }, clk := { s.clk with cclk := 275 } } : State).event evJunctionLimit 2 0 r.toNat 0)) ∧
      (r.toInt < 408 → exec (.junctionHold r) s = .next { s with pwr := { s.pwr with junction := false } }) ∧
      (408 ≤ r.toInt → r.toInt < 420 → exec (.junctionHold r) s = .next s) ∧
      (420 ≤ r.toInt → r.toInt < 440 → s.pwr.junction = true → exec (.junctionHold r) s = .next s) ∧
      (440 ≤ r.toInt → s.pwr.junction = true → exec (.junctionHold r) s = .next (s.enterSafe 0x16 0)) ∧
      (mw ≤ s.pwr.limit.toNat * 125 → s.pwr.limit.toNat * 125 * 95 ≤ mw * 100 → exec (.powerSample mw) s =
        .next { s with pwr := { s.pwr with samples := (mw :: s.pwr.samples).take 100, powerThr := false, limiting := false } }) ∧
      (mw * 100 < s.pwr.limit.toNat * 125 * 95 → s.pwr.junction = false → s.clk.cclk.toNat + 25 ≤ s.clk.cclkMax.toNat → s.now / 10000 % 100 = 0 → exec (.powerSample mw) s =
        .next { s with pwr := { s.pwr with samples := (mw :: s.pwr.samples).take 100, powerThr := false, limiting := false }, clk := { s.clk with cclk := s.clk.cclk + 25 } }) ∧
      (s.pwr.limit.toNat * 125 < mw → 275 < s.clk.cclk.toNat →
        ∀ t, t = ({ s with pwr := { s.pwr with samples := (mw :: s.pwr.samples).take 100, powerThr := false, limiting := true }, clk := { s.clk with cclk := s.clk.cclk - 25 } } : State) →
        (s.pwr.limiting = true ∨ s.lately s.pwr.limitEvt = true → exec (.powerSample mw) s = .next t) ∧
        (s.pwr.limiting = false → s.lately s.pwr.limitEvt = false → exec (.powerSample mw) s =
          .next (({ t with pwr := { t.pwr with limitEvt := s.now + 1 } } : State).event evPowerLimited 0 0 (s.clk.cclk - 25).toNat mw))) ∧
      (s.pwr.limit.toNat * 125 < mw → s.clk.cclk.toNat ≤ 275 → s.pwr.limiting = true → s.now / 10000 % 10 = 0 →
        ∀ t, t = ({ s with pwr := { s.pwr with samples := (mw :: s.pwr.samples).take 100, powerThr := true, limiting := true } } : State) →
          exec (.powerSample mw) s = .next (t.throttleUnits.foldl (fun s u => s.slow u 2 0) t))) ∧
    (∀ k, k < s.fuses.grade.tiles → (s.tile k).lost = false → unitTile (s.tile k).phys.toNat ∈ s.throttleUnits) ∧
    (∀ k, k < 16 → k + 1 ∈ s.throttleUnits) ∧ (s.fuses.grade = .S → unitFabric ∉ s.throttleUnits) ∧ (s.fuses.grade ≠ .S → unitFabric ∈ s.throttleUnits) ∧
    (s.live = false → exec (.junctionHold r) s = .next s ∧ exec (.powerSample mw) s = .next s) ∧
    (9 ≤ k → k ≤ 12 → exec (.timeRecalibrate k) s = .next { s with clk := { s.clk with inc := k } }) ∧
    (k < 9 ∨ 12 < k → exec (.timeRecalibrate k) s = .next s) ∧
    (s.tsyncOn = true → s.clk.time ≤ s.clk.tsyncVal → ∀ t, t = ({ s with clk := { s.clk with time := s.clk.tsyncVal, hold := 0, tsyncStep := s.clk.tsyncVal - s.clk.time } } : State) →
      exec .tsyncEdge s = .next (t.event evTsyncApplied 0 0 (s.clk.tsyncVal - s.clk.time).toNat t.now)) ∧
    (s.tsyncOn = true → s.clk.tsyncVal < s.clk.time → ∀ t, t = ({ s with clk := { s.clk with hold := (s.clk.time - s.clk.tsyncVal).toNat, tsyncStep := s.clk.tsyncVal - s.clk.time } } : State) →
      exec .tsyncEdge s = .next (t.event evTsyncApplied 0 0 (s.clk.tsyncVal - s.clk.time).toNat t.now)) ∧
    (s.tsyncOn = false → exec .tsyncEdge s = .next s)

/-- On a READY chip ARM is refused with its reason recorded, or arms with SAFE_N low and no probe passed; DISARM ends an armed state, SAFE_N low, with the
event; TEST starts the pulse, and its end writes the event; a status write clears the bits written and holds FAULT_N while a report is left. A due
probe with a bad check code is PROBE_MISMATCH; with sound codes and patterns it goes on to the stands. A stand of the probe that is free is granted.
When all have run, the comparators' verdict passes the probe, which raises SAFE_N with the event if it was low, or is PROBE_MISMATCH at a unit the
command does not name, a free value. A late probe, a watchdog, a lost clock and the dangerous faults reported enter the safe state: the fault is
latched, SAFE_N goes low, the state is SAFE, the fabric stops. A further fault there only counts, from its first value to 255. Where a trigger does
not hold nothing changes. -/
def Obligations.SafetyMonitor : Prop :=
  ∀ (s : State) (v : Word32) (n : Nat) (low : Bool) (g : BitVec 8) (src det : BitVec 8),
    (s.ready = true →
      (s.armRefusal ≠ 0 → exec .safeArm s = .next { s with safe := { s.safe with status := s.safe.status ||| 0x10, reason := BitVec.ofNat 3 s.armRefusal } }) ∧
      (s.armRefusal = 0 → s.safe.armed = true → exec .safeArm s = .next s) ∧
      (s.armRefusal = 0 → s.safe.armed = false →
        exec .safeArm s = .next { s with safe := { s.safe with armed := true, safeN := false, pCount := 0, probe := .idle, trigSeen := false } }) ∧
      (s.safe.armed = true → exec .safeDisarm s = .next (({ s with safe := { s.safe with armed := false, safeN := false, probe := .idle } } : State).event evDisarmed 0 0 0 0)) ∧
      (s.safe.armed = false → exec .safeDisarm s = .next s) ∧
      exec .safeTest s = .next { s with safe := { s.safe with testing := true } } ∧
      exec (.safeStatusClear v) s = .next { s with safe := { s.safe with status := s.safe.status &&& ~~~(v.setWidth 5), faultN := (s.safe.status &&& ~~~(v.setWidth 5)) &&& 0xF != 0 } } ∧
      (s.safe.mode = true → s.safe.armed = true → exec .probeLate s = .next (s.enterSafe 0x1A 0))) ∧
    (s.ready = false → exec .safeArm s = .next s ∧ exec .safeDisarm s = .next s ∧ exec .safeTest s = .next s ∧ exec (.safeStatusClear v) s = .next s ∧ exec .probeLate s = .next s ∧ exec .probeRun s = .next s) ∧
    (s.safe.testing = true → s.safest.inSafe = false →
      exec (.safeTestEnd low) s = .next (({ s with safe := { s.safe with testing := false } } : State).event evSafeNTest 0 0 (b2n low) 0)) ∧
    (s.safe.testing = false → exec (.safeTestEnd low) s = .next s) ∧
    (s.probeDue = false → exec .probeRun s = .next s) ∧
    (∀ t, s.probeDue = true → t = ((({ s with safe := { s.safe with trigSeen := false } } : State).probeSignal s.safe.trig 1).probeSignal s.safe.done 1).frameOk [0, 1, 2, 3] →
      (t.1 = false → exec .probeRun s = .next (t.2.enterSafe 0x1A 0)) ∧
      (t.1 = true → t.2.badPattern ((patternBlocks t.2.patternNo).map (fun o => (patternBase + o, 0x8000))) = none → exec .probeRun s = .next t.2.injectPattern)) ∧
    (s.safe.probe = .running g → s.live = true → n < 8 → s.safe.pStands.getLsbD n = true → g.getLsbD n = false → Tbl.get 0 s.stands n = 0 →
      exec (.probeStandGrant n) s = .next (({ s with safe := { s.safe with probe := .running (g ||| BitVec.ofNat 8 (2 ^ n)) } } : State).wakeStands (2 ^ n))) ∧
    (s.safe.probe = .idle ∨ s.live = false ∨ 8 ≤ n ∨ s.safe.pStands.getLsbD n = false → exec (.probeStandGrant n) s = .next s) ∧
    (s.live = true → s.safe.probe = .running s.safe.pStands → s.badPattern [(patternBase + 0x80000 + 2048 * s.patternNo, 2048)] = none →
      exec (.probeCompare .pass) s = .next s.probePass ∧ exec (.probeCompare .fail) s = .next ((s.draw 8).2.enterSafe 0x1A (s.draw 8).1.toNat)) ∧
    (s.safe.probe = .idle → exec (.probeCompare .pass) s = .next s ∧ exec (.probeCompare .fail) s = .next s) ∧
    (s.monitored = true →
      exec .safetyWatchdog s = .next (s.enterSafe 0x19 0) ∧ (dangerous src.toNat = true → exec (.safeStateEnter src det) s = .next (s.enterSafe src.toNat det.toNat)) ∧
      (dangerous src.toNat = false → exec (.safeStateEnter src det) s = .next s) ∧
      (n < 7 → exec (.clockLoss n) s = .next (({ s with clk := { s.clk with mon := s.clk.mon ||| BitVec.ofNat 7 (2 ^ n) } } : State).enterSafe 0x14 0)) ∧
      (7 ≤ n → exec (.clockLoss n) s = .next s)) ∧
    (s.monitored = false → exec .safetyWatchdog s = .next s ∧ exec (.safeStateEnter src det) s = .next s ∧ exec (.clockLoss n) s = .next s) ∧
    (s.safest.inSafe = false → (s.enterSafe n det.toNat).safe.safeN = false ∧ (s.enterSafe n det.toNat).safe.faultN = true ∧ (s.enterSafe n det.toNat).safest.inSafe = true ∧
      (s.enterSafe n det.toNat).safest.last = s.faultWord n det.toNat ∧ (s.enterSafe n det.toNat).boot.state = .safe ∧ (s.enterSafe n det.toNat).fab.enabled = false ∧ (s.enterSafe n det.toNat).mem = s.mem) ∧
    (s.safest.inSafe = true → s.enterSafe n det.toNat = { s with safest := { s.safest with last := furtherFault s.safest.last, stuck := s.safest.stuck || n == 0x19 } }) ∧
    (∀ w : BitVec 128, fld w.toNat 24 8 = 255 → furtherFault w = w) ∧
    (∀ t u, t = s.probeSignal s.safe.done 0 → u = ({ t with safe := { t.safe with probe := .idle, patterns := t.safe.patterns + 1, pCount := t.safe.pCount + 1 } } : State) →
      (t.safe.safeN = true → s.probePass = u) ∧
      (t.safe.safeN = false → s.probePass = ({ u with safe := { u.safe with safeN := true }, safest := { u.safest with latched := false } } : State).event evArmed 0 0 u.safe.pCount.toNat 0))

/-- Power-up of the always-on domain zeroes the time counter and gives every incarnation one drawn value, a free value. SYS_RST_N low resets the chip, and
it stays so; its rising edge samples the straps and begins a cold start once the rails are in range; with TEST_MODE high it enters production test,
which the manual leaves out, and the model refuses by name. Without the reset held it means nothing. An excursion of a rail the monitor watches
latches the fault with the rail, resets the chip and holds it; a collapse zeroizes in addition, and where no excursion has named the rail it is a free
value; the rails' return begins a cold start unless the reset is held. In the safe state SAFE_HOLD_MS begins a warm restart only with AUTO_RESTART and
without a hold. A chip reset keeps the queue, the fuses, the flash, the time counter and the chip incarnation; DRAM is lost unless the restart is
warm. What else resets keep is the model's (log 64). -/
def Obligations.ResetsAndSupply : Prop :=
  ∀ (s : State) (mode : BitVec 2) (addr : BitVec 3) (rail : Nat),
    (∀ t, t = s.chipReset false → exec .sysRstAssert s = .next { t with boot := { t.boot with sysRst := true } }) ∧
    (s.boot.sysRst = true →
      exec (.sysRstRelease mode addr 1) s = .refused .productionTest ∧
      (∀ t, t = ({ s with boot := { s.boot with sysRst := false, mode := mode, i2cAddr := addr, testMode := 0 } } : State) →
        (s.boot.railsOk = true → exec (.sysRstRelease mode addr 0) s = .next (t.begin_ 1)) ∧ (s.boot.railsOk = false → exec (.sysRstRelease mode addr 0) s = .next t))) ∧
    (s.boot.sysRst = false → exec (.sysRstRelease mode addr 0) s = .next s ∧ exec (.sysRstRelease mode addr 1) s = .next s) ∧
    (∃ t : State, exec .powerUpAon s = .next t ∧ t.clk.time = 0 ∧ t.dom.chipInc = (s.draw 8).1 ∧ t.parts.cfeInc = (s.draw 8).1 ∧ t.parts.memcInc = (s.draw 8).1 ∧ t.fuses = s.fuses ∧ t.flash = s.flash ∧ t.pending = s.pending) ∧
    (10 < rail ∨ (s.fuses.grade = .S ∧ (rail = 5 ∨ rail = 6)) → exec (.supplyExcursion rail) s = .next s) ∧
    (rail ≤ 10 → s.fuses.grade ≠ .S ∨ (rail ≠ 5 ∧ rail ≠ 6) → ∀ t, t = (s.latchFault 0x15 rail).chipReset false →
      exec (.supplyExcursion rail) s = .next { t with boot := { t.boot with railsOk := false } }) ∧
    (s.boot.railsOk = false → ∀ t, t = (s.zeroizeNow 2 false).chipReset false →
      exec .supplyCollapse s = .next { t with boot := { t.boot with railsOk := false }, safest := { t.safest with collapsed := true } }) ∧
    (s.boot.railsOk = true → ∀ t, t = (((s.draw 8).2.latchFault 0x15 (collapseRail (s.draw 8).1)).zeroizeNow 2 false).chipReset false →
      exec .supplyCollapse s = .next { t with boot := { t.boot with railsOk := false }, safest := { t.safest with collapsed := true } }) ∧
    (s.boot.railsOk = true → exec .supplyReturn s = .next s) ∧
    (s.boot.railsOk = false → ∀ t, t = ({ s with boot := { s.boot with railsOk := true } } : State) →
      (s.boot.sysRst = true → exec .supplyReturn s = .next t) ∧ (s.boot.sysRst = false → exec .supplyReturn s = .next (t.begin_ 1))) ∧
    (s.safest.inSafe = false ∨ s.safest.stuck = true ∨ s.safe.autoRestart = false ∨ s.boot.state ≠ .safe → exec .safeHoldExpiry s = .next s) ∧
    (s.safest.inSafe = true → s.safest.stuck = false → s.safe.autoRestart = true → s.boot.state = .safe →
      ∀ t, t = ({ s with safest := { s.safest with restarts := s.safest.restarts.filter (fun x => decide (s.now ≤ x + 60000000000)) ++ [s.now] } } : State) →
        exec .safeHoldExpiry s = .next ((t.chipReset true).begin_ 3)) ∧
    (∀ warm, (s.chipReset warm).pending = s.pending ∧ (s.chipReset warm).fuses = s.fuses ∧ (s.chipReset warm).flash = s.flash ∧ (s.chipReset warm).clk.time = s.clk.time ∧
      (s.chipReset warm).dom.chipInc = s.dom.chipInc ∧ (s.chipReset warm).safest.last = s.safest.last ∧ (s.chipReset warm).gal = State.reset.gal ∧ (s.chipReset warm).insts = State.reset.insts) ∧
    (s.chipReset false).mem.bytes = [] ∧ (s.chipReset true).mem.bytes = s.mem.bytes.filter (fun c => decide (c.1 < dramEnd))

/-- Each stage acts only in its own state. A boot ROM whose self-test fails zeroizes and is FAILED; else it measures, and enters RECOVERY with the strap,
without SFDP or without a usable directory. A failed channel training is FAILED with its channel and step; else MEMINIT follows, or BIST on a warm
restart, at a die temperature that is a free value; whether a channel
of a warm restart has to be trained again is a free value too (log 112). MEMINIT zeroes DRAM and enters BIST. A failure BIST cannot repair is FAILED with the block. IMAGES
without a directory enters RECOVERY. Injection goes on to FABRIC when nothing failed. FABRIC on grade S, or with all ports unused, forms a domain of
one, else enables the fabric unit and trains every usable port. FRONTEND, once the domain is formed, ends the start. Room on the event ring writes
OVERFLOW with the count first. What the stages find is the commands' operand (log 2). -/
def Obligations.StartStages : Prop :=
  ∀ (s : State) (t : BitVec 8) (dig : List Byte) (keys : List (List Byte)) (f : BitVec 4 × BitVec 4) (b : Nat) (logic golden : Bool) (tiles rep : List Nat) (fs : List (Nat × Nat)),
    (s.boot.state ≠ .rom → exec (.bootRom (some t) dig keys) s = .next s ∧ exec (.bootRom none dig keys) s = .next s) ∧
    (s.boot.state = .rom → exec (.bootRom (some t) dig keys) s = .next (((s.event evSelftestFail 3 0 t.toNat 0).zeroizeNow 3 true).stopFailed resRomSelftest t.toNat) ∧
      ∀ u, u = (s.extendMr 0 dig).extendMr 0 s.fuseBytes →
        (s.boot.mode ≠ 0 → exec (.bootRom none dig keys) s = .next (u.stopRecovery resRecoveryStrap s.boot.mode.toNat)) ∧
        (s.boot.mode = 0 → s.flash.sfdp = false → exec (.bootRom none dig keys) s = .next (u.stopRecovery resFlashNotFound 1)) ∧
        (s.boot.mode = 0 → s.flash.sfdp = true → u.directory = none → exec (.bootRom none dig keys) s = .next (u.stopRecovery resFlashNotFound 2))) ∧
    (s.boot.state ≠ .memtrain → exec (.memtrain none) s = .next s ∧ exec (.memtrain (some f)) s = .next s) ∧
    (s.boot.state = .memtrain → exec (.memtrain (some f)) s = .next (s.stopFailed resMemtrainFail (f.1.toNat + 256 * f.2.toNat)) ∧
      (s.boot.kind ≠ 3 → exec (.memtrain none) s =
        .next (({ (s.draw 8).2 with mem := { (s.draw 8).2.mem with trained := 0xF, trainTemp := (s.draw 8).1, selfRef := false } } : State).enter .meminit)) ∧
      (s.boot.kind = 3 → exec (.memtrain none) s = .next (s.confirmAll.enter .bist)) ∧
      (s.mem.trained = 0xF → s.confirmAll =
        if (s.draw 1).1 = 0 then { (s.draw 1).2 with mem := { s.mem with selfRef := false } } else (s.draw 1).2.trainAll) ∧
      (s.mem.trained ≠ 0xF → s.confirmAll = (s.draw 1).2.trainAll)) ∧
    (s.boot.state ≠ .meminit → exec .meminit s = .next s) ∧
    (s.boot.state = .meminit → ∃ u : State, exec .meminit s = .next (u.enter .bist) ∧ u.mem.bytes = s.mem.bytes.filter (fun c => decide (dramEnd ≤ c.1)) ∧ u.mem.flips = s.mem.flips.filter (fun c => decide (dramEnd ≤ 8 * c.1)) ∧ u.mem.tagDiff = [] ∧ u.mem.enc = []) ∧
    (s.boot.state ≠ .bist → exec (.bist tiles rep none) s = .next s ∧ exec (.bist tiles rep (some (logic, b))) s = .next s) ∧
    (s.boot.state = .bist → ∀ u, u = rep.foldl (fun s x => s.result resSramRepaired x) s →
      exec (.bist tiles rep (some (logic, b))) s = .next (u.stopFailed (if logic then resLbistFail else resSramFail) b) ∧
      ∀ w v, w = u.baseMap tiles → v = ((List.range w.fuses.grade.tiles).filter (fun x => tiles.contains (w.tile x).phys.toNat)).foldl State.repairTile w →
        exec (.bist tiles rep none) s =
          .next (({ v with mem := { v.mem with bytes := v.mem.bytes.filter (fun c => decide (c.1 < dramEnd)), flips := v.mem.flips.filter (fun c => decide (8 * c.1 < dramEnd)) } } : State).enter .images)) ∧
    (s.boot.state ≠ .images → exec (.images keys golden) s = .next s) ∧
    (s.boot.state = .images → s.directory = none → exec (.images keys golden) s = .next (s.stopRecovery resFlashNotFound 2)) ∧
    (∀ d r, s.boot.state = .images → s.directory = some d → s.startImages d keys [2, 4, 3] = r → exec (.images keys golden) s = .next (if r.1 then r.2.imagesRest d golden else r.2)) ∧
    (s.boot.state ≠ .inject → exec (.inject fs) s = .next s) ∧ (s.boot.state = .inject → exec (.inject []) s = .next (s.enter .fabric) ∧
      exec (.inject fs) s = .next (s.injections (fs.filter (fun f => !(s.fuses.grade == .S && f.1 == 0x11))))) ∧
    (s.boot.state ≠ .fabric ∨ s.safest.inSafe = true ∨ s.fab.enabled = true ∨ s.dom.formed = true → exec .fabric s = .next s) ∧
    (s.boot.state = .fabric → s.safest.inSafe = false → s.fab.enabled = false → s.dom.formed = false →
      ∀ u, u = ({ s with fab := { s.fab with ports := (List.range 24).foldl (fun m p => if bit s.unusedPorts p then Tbl.upd Port.reset m p (fun x => { x with st := .parked }) else m) s.fab.ports } } : State) →
        (s.fuses.grade = .S ∨ popCount24 s.unusedPorts = 24 → exec .fabric s = .next (u.formOne 1 resDomainOfOne)) ∧
        (s.fuses.grade ≠ .S → popCount24 s.unusedPorts ≠ 24 → exec .fabric s = .next (s.usablePorts.foldl (fun s p => s.trainIn p .lock) { u with fab := { u.fab with enabled := true } }))) ∧
    (s.boot.state = .frontend → s.safest.inSafe = false → s.dom.formed = true → exec .frontend s = .next s.frontEnd) ∧
    (s.boot.state ≠ .frontend ∨ s.safest.inSafe = true ∨ s.dom.formed = false → exec .frontend s = .next s) ∧
    (s.act.evqSize ≠ 0 → s.evq.drop ≠ 0 → s.evqDepth < s.evqN → s.safest.inSafe = false →
      exec .eventRingRoom s = .next (({ s with evq := { s.evq with drop := 0 } } : State).pushEvent (eventBytes evOverflow 0 0 s.dom.chipId.toNat s.now s.evq.drop.toNat 0))) ∧
    (s.act.evqSize = 0 ∨ s.evq.drop = 0 ∨ s.evqN ≤ s.evqDepth ∨ s.safest.inSafe = true → exec .eventRingRoom s = .next s)

/-- The slave answers transfers to 0x58 + I2C_ADDR alone. The boot report is answered from ROM on. In RECOVERY FLASH_ADDR sets the offset and clears
the error; FLASH_READ answers up to 32 bytes and moves on; FLASH_PROGRAM clears bits of up to 32 bytes, a further byte is not acknowledged; FLASH_ERASE
with its code sets a 64 KiB sector to all ones, with another code is an error; FLASH_STATUS answers busy and error, busy while a write runs being a free
value. In any other state but RESET each of these is not acknowledged and changes nothing else; in RESET nothing answers. RESTART with 0xA5 in RECOVERY
or FAILED resets the chip and starts it. A bus timeout changes nothing (log 20). -/
def Obligations.RecoveryBus : Prop :=
  ∀ (s : State) (d : BitVec 7) (v : Word32) (n : Nat) (bs : List Byte) (code : Byte),
    (s.boot.state = .reset ∨ d.toNat ≠ 0x58 + s.boot.i2cAddr.toNat → exec (.i2cBootReport d) s = .next s ∧ exec (.flashAddr d v) s = .next s ∧ exec (.flashRead d n) s = .next s ∧ exec (.flashProgram d bs) s = .next s ∧ exec (.flashErase d code) s = .next s ∧
      exec (.flashStatus d) s = .next s ∧ exec (.i2cRestart d code) s = .next s) ∧
    (d.toNat = 0x58 + s.boot.i2cAddr.toNat →
      (s.boot.state ≠ .reset → exec (.i2cBootReport d) s = .next (s.emit (.i2c s.bootReport))) ∧
      (s.boot.state ≠ .reset → s.boot.state ≠ .recovery → exec (.flashAddr d v) s = .next (s.emit .i2cNack) ∧ exec (.flashRead d n) s = .next (s.emit .i2cNack) ∧ exec (.flashProgram d bs) s = .next (s.emit .i2cNack) ∧
        exec (.flashErase d code) s = .next (s.emit .i2cNack) ∧ exec (.flashStatus d) s = .next (s.emit .i2cNack) ∧ (s.boot.state ≠ .failed → exec (.i2cRestart d code) s = .next (s.emit .i2cNack))) ∧
      (s.boot.state = .recovery →
        exec (.flashAddr d v) s = .next { s with flash := { s.flash with offset := v, err := false } } ∧
        (n ≤ 32 → exec (.flashRead d n) s = .next (({ s with flash := { s.flash with offset := s.flash.offset + BitVec.ofNat 32 n, err := false } } : State).emit (.i2c (s.flashAt s.flash.offset.toNat n)))) ∧
        (32 < n → exec (.flashRead d n) s = .next (({ s with flash := { s.flash with offset := s.flash.offset + 32, err := false } } : State).emit (.i2c (s.flashAt s.flash.offset.toNat 32)))) ∧
        (bs.length ≤ 32 → exec (.flashProgram d bs) s = .next (s.program bs)) ∧ (32 < bs.length → exec (.flashProgram d bs) s = .next ((s.program (bs.take 32)).emit .i2cNack)) ∧
        (code ≠ 1 → exec (.flashErase d code) s = .next { s with flash := { s.flash with err := true } }) ∧
        exec (.flashErase d 1) s = .next { s with flash := { s.flash with bytes := s.flash.bytes.filter (fun e => !decide (s.flash.offset.toNat / 0x10000 * 0x10000 ≤ e.1 ∧ e.1 < s.flash.offset.toNat / 0x10000 * 0x10000 + 0x10000)), busy := true, err := false } } ∧
        (s.flash.busy = false → exec (.flashStatus d) s = .next (s.emit (.i2c [BitVec.ofNat 8 (2 * b2n s.flash.err)]))) ∧
        (s.flash.busy = true → exec (.flashStatus d) s = .next (({ (s.draw 1).2 with flash := { s.flash with busy := (s.draw 1).1 == 1 } } : State).emit (.i2c [BitVec.ofNat 8 (b2n ((s.draw 1).1 == 1) + 2 * b2n s.flash.err)])))) ∧
      (s.boot.state = .recovery ∨ s.boot.state = .failed → (code ≠ 0xA5 → exec (.i2cRestart d code) s = .next s) ∧ exec (.i2cRestart d 0xA5) s = .next ((s.chipReset false).coldIfFree 1))) ∧
    exec .i2cBusTimeout s = .next s ∧
    (∀ x, Tbl.wf 0xFF s.flash.bytes = true → bs ≠ [] → x < s.flash.offset.toNat ∨ s.flash.offset.toNat + bs.length ≤ x → Tbl.get 0xFF (s.program bs).flash.bytes x = Tbl.get 0xFF s.flash.bytes x) ∧
    (∀ k b, Tbl.wf 0xFF s.flash.bytes = true → bs[k]? = some b → Tbl.get 0xFF (s.program bs).flash.bytes (s.flash.offset.toNat + k) = Tbl.get 0xFF s.flash.bytes (s.flash.offset.toNat + k) &&& b)
end

