-- ==== Sys2Proof/Laws/Table.lean ====
section
/-! SUPPORT. Laws of the sparse tables: read after write, and the canonical form (a key is listed once, none at its default). -/

namespace Sys2Proof.Machine

/-- A key reads what was written. -/
theorem Tbl.get_set_same {α : Type} [DecidableEq α] (d : α) (t : Tbl α) (k : Nat) (v : α) (h : v ≠ d) : Tbl.get d (Tbl.set d t k v) k = v := by
  induction t with
  | nil => simp [Tbl.set, Tbl.get, h]
  | cons e t ih =>
    obtain ⟨j, w⟩ := e
    simp only [Tbl.set, h, if_false]
    split
    · simp [Tbl.get]
    · split
      · simp [Tbl.get]
      · rename_i h2
        simp [Tbl.get, h2, ih]

/-- Other keys read what they read before. -/
theorem Tbl.get_set_other {α : Type} [DecidableEq α] (d : α) (t : Tbl α) (j : Nat) (v : α) (k : Nat) (h : k ≠ j) :
    Tbl.get d (Tbl.set d t j v) k = Tbl.get d t k := by
  induction t with
  | nil => simp only [Tbl.set]; split <;> simp [Tbl.get, h]
  | cons e t ih =>
    obtain ⟨i, w⟩ := e
    simp only [Tbl.set]
    split
    · split <;> simp [Tbl.get, h]
    · split
      · rename_i h2
        subst h2
        split <;> simp [Tbl.get, h]
      · simp only [Tbl.get, ih]

/-- With every key above `lo`. -/
theorem Tbl.okFrom_weaken {α : Type} [DecidableEq α] (d : α) (t : Tbl α) (a b : Option Nat) (h : ∀ k, b = some k → ∃ j, a = some j ∧ k ≤ j) (w : Tbl.okFrom d a t = true) :
    Tbl.okFrom d b t = true := by
  cases t with
  | nil => rfl
  | cons e t =>
    obtain ⟨j, v⟩ := e
    simp only [Tbl.okFrom, Bool.and_eq_true, decide_eq_true_eq] at w ⊢
    refine ⟨⟨?_, w.1.2⟩, w.2⟩
    cases b with
    | none => rfl
    | some k =>
      obtain ⟨i, rfl, hk⟩ := h k rfl
      simp only [Option.all_some, decide_eq_true_eq] at w ⊢
      omega

/-- Writing keeps the keys rising and the default unlisted. -/
theorem Tbl.okFrom_set {α : Type} [DecidableEq α] (d : α) (t : Tbl α) (lo : Option Nat) (k : Nat) (v : α) (hk : ∀ j, lo = some j → j < k)
    (w : Tbl.okFrom d lo t = true) : Tbl.okFrom d lo (Tbl.set d t k v) = true := by
  induction t generalizing lo with
  | nil =>
    simp only [Tbl.set]
    split
    · rfl
    · rename_i hv
      simp only [Tbl.okFrom, Bool.and_true, Bool.and_eq_true, decide_eq_true_eq]
      exact ⟨by cases lo <;> simp_all, hv⟩
  | cons e t ih =>
    obtain ⟨j, x⟩ := e
    have w0 := w
    simp only [Tbl.okFrom, Bool.and_eq_true, decide_eq_true_eq] at w
    simp only [Tbl.set]
    split
    · split
      · exact w0
      · rename_i hj hv
        simp only [Tbl.okFrom, Bool.and_eq_true, decide_eq_true_eq]
        refine ⟨⟨by cases lo <;> simp_all, hv⟩, ⟨by simpa using hj, w.1.2⟩, w.2⟩
    · split
      · rename_i hj
        subst hj
        split
        · refine Tbl.okFrom_weaken d t (some k) lo (fun i hi => ⟨k, rfl, ?_⟩) w.2
          have := hk i hi
          omega
        · rename_i hv
          simp only [Tbl.okFrom, Bool.and_eq_true, decide_eq_true_eq]
          exact ⟨⟨by cases lo <;> simp_all, hv⟩, w.2⟩
      · simp only [Tbl.okFrom, Bool.and_eq_true, decide_eq_true_eq]
        refine ⟨w.1, ih (some j) (fun i hi => ?_) w.2⟩
        cases hi
        omega

/-- A write keeps the canonical form. -/
theorem Tbl.wf_set {α : Type} [DecidableEq α] (d : α) (t : Tbl α) (k : Nat) (v : α) (w : Tbl.wf d t = true) : Tbl.wf d (Tbl.set d t k v) = true :=
  Tbl.okFrom_set d t none k v (fun _ h => by cases h) w

/-- Dropping entries keeps the keys rising. -/
theorem Tbl.okFrom_filter {α : Type} [DecidableEq α] (d : α) (p : Nat × α → Bool) (t : Tbl α) (lo : Option Nat) (w : Tbl.okFrom d lo t = true) :
    Tbl.okFrom d lo (t.filter p) = true := by
  induction t generalizing lo with
  | nil => rfl
  | cons e t ih =>
    obtain ⟨j, v⟩ := e
    have w0 := w
    simp only [Tbl.okFrom, Bool.and_eq_true, decide_eq_true_eq] at w
    simp only [List.filter]
    split
    · simp only [Tbl.okFrom, Bool.and_eq_true, decide_eq_true_eq]
      exact ⟨w.1, ih _ w.2⟩
    · refine ih _ (Tbl.okFrom_weaken d t (some j) lo (fun i hi => ⟨j, rfl, ?_⟩) w.2)
      subst hi
      have := w.1.1
      simp at this
      omega

/-- Dropping entries keeps the canonical form. -/
theorem Tbl.wf_filter {α : Type} [DecidableEq α] (d : α) (p : Nat × α → Bool) (t : Tbl α) (w : Tbl.wf d t = true) : Tbl.wf d (t.filter p) = true :=
  Tbl.okFrom_filter d p t none w

/-- No key at or below the bound is listed, so such a key reads the default. -/
theorem Tbl.get_of_okFrom {α : Type} [DecidableEq α] (d : α) (t : Tbl α) (lo k : Nat) (h : k ≤ lo) (w : Tbl.okFrom d (some lo) t = true) :
    Tbl.get d t k = d := by
  induction t generalizing lo with
  | nil => rfl
  | cons e t ih =>
    obtain ⟨j, v⟩ := e
    simp only [Tbl.okFrom, Option.all_some, Bool.and_eq_true, decide_eq_true_eq] at w
    have hj : k ≠ j := by omega
    simp only [Tbl.get, hj, if_false]
    exact ih j (by omega) w.2

/-- In a canonical table a key reads what was written, the default included. -/
theorem Tbl.get_set {α : Type} [DecidableEq α] (d : α) (t : Tbl α) (lo : Option Nat) (k : Nat) (v : α) (w : Tbl.okFrom d lo t = true) :
    Tbl.get d (Tbl.set d t k v) k = v := by
  induction t generalizing lo with
  | nil => simp only [Tbl.set]; split <;> simp_all [Tbl.get]
  | cons e t ih =>
    obtain ⟨j, x⟩ := e
    simp only [Tbl.okFrom, Bool.and_eq_true, decide_eq_true_eq] at w
    simp only [Tbl.set]
    split
    · rename_i hkj
      split
      · rename_i hv
        have hj : k ≠ j := by omega
        simp only [Tbl.get, hj, if_false, hv]
        exact Tbl.get_of_okFrom d t j k (by omega) w.2
      · simp [Tbl.get]
    · split
      · rename_i hkj
        subst hkj
        split
        · rename_i hv
          rw [hv]
          exact Tbl.get_of_okFrom d t k k (Nat.le_refl k) w.2
        · simp [Tbl.get]
      · rename_i hkj
        simp only [Tbl.get, hkj, if_false]
        exact ih (some j) w.2

end Sys2Proof.Machine
end

