-- ==== Sys2Proof/Laws/Kept.lean ====
section
/-! SUPPORT. The queue and the fuse bank: the pair that almost every operation keeps, and the relation that the rest keeps. -/

namespace Sys2Proof.Machine

/-- The queue and the fuse bank: what almost no operation touches. -/
def State.fixed (s : State) : List Instr × Fuses := (s.pending, s.fuses)

/-- The pair folds back. -/
@[simp] theorem State.fixed_eta (s : State) : (s.pending, s.fuses) = s.fixed := rfl

/-- A state written field by field keeps the pair of the state it was made from. -/
@[simp] theorem State.fixed_mk {a0} {a1} {a2} {a3} {a4} {a5} {a6} {a7} {a8} {a9} {a10} {a11} {a12} {a13} {a14} {a15} {a16} {a17} {a18} {a19} {a20} {a21} {a22} {a23} {a24} {a25} {a26} {a27} {a28} {a29} {a30} {a31} {a32} {a33} {a34} {a35} {a36} {a37} {a38} {a39} {a40} {a41} {a42} {a43} :
  (State.mk a0 a1 a2 a3 a4 a5 a6 a7 a8 a9 a10 a11 a12 a13 a14 a15 a16 a17 a18 a19 a20 a21 a22 a23 a24 a25 a26 a27 a28 a29 a30 a31 a32 a33 a34 a35 a36 a37 a38 a39 a40 a41 a42 a43).fixed = (a0, a3) := rfl

/-- A fold of an operation that keeps the pair keeps it; the next three are the same for pairs that carry a state. -/
theorem fold_to {α : Type} {g : State → α → State} {l : List α} {s : State} {r : List Instr × Fuses} (h : ∀ s a, (g s a).fixed = s.fixed) (h0 : s.fixed = r) :
    (l.foldl g s).fixed = r := by
  induction l generalizing s with
  | nil => exact h0
  | cons a t ih => exact ih ((h s a).trans h0)

theorem fold2_to {α β : Type} {g : β × State → α → β × State} {l : List α} {s : β × State} {r : List Instr × Fuses} (h : ∀ s a, (g s a).2.fixed = s.2.fixed) (h0 : s.2.fixed = r) :
    (l.foldl g s).2.fixed = r := by
  induction l generalizing s with
  | nil => exact h0
  | cons a t ih => exact ih ((h s a).trans h0)

theorem fold1_to {α β : Type} {g : State × β → α → State × β} {l : List α} {s : State × β} {r : List Instr × Fuses} (h : ∀ s a, (g s a).1.fixed = s.1.fixed) (h0 : s.1.fixed = r) :
    (l.foldl g s).1.fixed = r := by
  induction l generalizing s with
  | nil => exact h0
  | cons a t ih => exact ih ((h s a).trans h0)

theorem fold22_to {α β γ : Type} {g : β × γ × State → α → β × γ × State} {l : List α} {s : β × γ × State} {r : List Instr × Fuses} (h : ∀ s a, (g s a).2.2.fixed = s.2.2.fixed) (h0 : s.2.2.fixed = r) :
    (l.foldl g s).2.2.fixed = r := by
  induction l generalizing s with
  | nil => exact h0
  | cons a t ih => exact ih ((h s a).trans h0)

/-- The state of a named pair. -/
theorem pair_arg {β : Type} {e : β × State} {b : β} {s : State} (h : e = (b, s)) : s.fixed = e.2.fixed := by rw [h]

/-- The fuse bank but for the minimum SVNs. -/
def Fuses.rest (f : Fuses) : Fuses := { f with svnMin := [] }

/-- From `s` to `t` the queue and the fuse bank stand, but that minimum SVNs may have risen (16 R711). -/
def State.Keeps (s t : State) : Prop :=
  t.pending = s.pending ∧ t.fuses.rest = s.fuses.rest ∧ ∀ k, (Tbl.get 0 s.fuses.svnMin k).toNat ≤ (Tbl.get 0 t.fuses.svnMin k).toNat

/-- An operation that keeps the pair keeps the rest of the relation. -/
theorem State.keeps_of {s t : State} (h : t.fixed = s.fixed) : s.Keeps t := by
  simp only [State.fixed, Prod.mk.injEq] at h
  exact ⟨h.1, by rw [h.2], fun k => by rw [h.2]⟩

/-- The relation composes. -/
theorem State.Keeps.trans {s t u : State} (h : s.Keeps t) (k : t.Keeps u) : s.Keeps u :=
  ⟨k.1.trans h.1, k.2.1.trans h.2.1, fun n => Nat.le_trans (h.2.2 n) (k.2.2 n)⟩

/-- A step that keeps the pair may follow, or go before. -/
theorem State.Keeps.then_ {s t u : State} (h : s.Keeps t) (k : u.fixed = t.fixed) : s.Keeps u := h.trans (State.keeps_of k)
theorem State.Keeps.after {s t u : State} (k : t.fixed = s.fixed) (h : t.Keeps u) : s.Keeps u := (State.keeps_of k).trans h

end Sys2Proof.Machine
end

