-- ==== Sys2Proof/Laws/KeptFlags.lean ====
section
/-! SUPPORT. What the operations of Machine/Flags.lean keep: the queue and the fuse bank. -/

namespace Sys2Proof.Machine

set_option linter.all false

@[simp] theorem State.updFn_fixed (x0 : State) (x1 : Nat) (x2 : Fn → Fn) : (State.updFn x0 x1 x2).fixed = x0.fixed := by simp [State.updFn]
@[simp] theorem State.updInst_fixed (x0 : State) (x1 : Nat) (x2 : Inst → Inst) : (State.updInst x0 x1 x2).fixed = x0.fixed := by simp [State.updInst]
@[simp] theorem State.updSq_fixed (x0 : State) (x1 : Nat) (x2 : Sq → Sq) : (State.updSq x0 x1 x2).fixed = x0.fixed := by simp [State.updSq]
@[simp] theorem State.updCq_fixed (x0 : State) (x1 : Nat) (x2 : Cq → Cq) : (State.updCq x0 x1 x2).fixed = x0.fixed := by simp [State.updCq]
@[simp] theorem State.updDr_fixed (x0 : State) (x1 : Nat) (x2 : Dr → Dr) : (State.updDr x0 x1 x2).fixed = x0.fixed := by simp [State.updDr]
@[simp] theorem State.updCtx_fixed (x0 : State) (x1 : Nat) (x2 : Ctx → Ctx) : (State.updCtx x0 x1 x2).fixed = x0.fixed := by simp [State.updCtx]
@[simp] theorem State.updOp_fixed (x0 : State) (x1 : Nat) (x2 : OpEntry → OpEntry) : (State.updOp x0 x1 x2).fixed = x0.fixed := by simp [State.updOp]
@[simp] theorem State.updPort_fixed (x0 : State) (x1 : Nat) (x2 : Port → Port) : (State.updPort x0 x1 x2).fixed = x0.fixed := by simp [State.updPort]
@[simp] theorem State.updFc_fixed (x0 : State) (x1 : Nat) (x2 : FnCfg → FnCfg) : (State.updFc x0 x1 x2).fixed = x0.fixed := by simp [State.updFc]
@[simp] theorem State.updUnit_fixed (x0 : State) (x1 : Nat) (x2 : PUnit → PUnit) : (State.updUnit x0 x1 x2).fixed = x0.fixed := by simp [State.updUnit]
@[simp] theorem State.updTile_fixed (x0 : State) (x1 : Nat) (x2 : Tile → Tile) : (State.updTile x0 x1 x2).fixed = x0.fixed := by simp [State.updTile]
@[simp] theorem State.emit_fixed (x0 : State) (x1 : Out) : (State.emit x0 x1).fixed = x0.fixed := by simp [State.emit]
@[simp] theorem State.emits_fixed (x0 : State) (x1 : List Out) : (State.emits x0 x1).fixed = x0.fixed := by simp [State.emits]
@[simp] theorem State.draw_fixed (x0 : State) (x1 : Nat) : (State.draw x0 x1).2.fixed = x0.fixed := by simp [State.draw]
@[simp] theorem State.drawBytes_fixed (x0 : State) (x1 : Nat) : (State.drawBytes x0 x1).2.fixed = x0.fixed := by simp [State.drawBytes]
@[simp] theorem State.blkError_fixed (x0 : State) (x1 : Nat) (x2 : Nat) : (State.blkError x0 x1 x2).fixed = x0.fixed := by simp [State.blkError]
@[simp] theorem State.updVec_fixed (x0 : State) (x1 : Nat) (x2 : Nat) (x3 : Vec → Vec) : (State.updVec x0 x1 x2 x3).fixed = x0.fixed := by simp [State.updVec]
@[simp] theorem State.bmeCount_fixed (x0 : State) (x1 : ℕ) : (State.bmeCount x0 x1).fixed = x0.fixed := by simp [State.bmeCount]
@[simp] theorem State.bmeDiscard_fixed (x0 : State) (x1 : ℕ) : (State.bmeDiscard x0 x1).fixed = x0.fixed := by
  unfold State.bmeDiscard
  repeat' (first | (simp +zetaDelta [*]; done) | split | dsimp only)
@[simp] theorem State.sendWrite_fixed (x0 : State) (x1 : ℕ) (x2 : ℕ) (x3 : List Byte) (x4 : Bool) : (State.sendWrite x0 x1 x2 x3 x4).fixed = x0.fixed := by simp [State.sendWrite]
@[simp] theorem State.dlogPut_fixed (x0 : State) (x1 : ℕ) (x2 : ℕ) : (State.dlogPut x0 x1 x2).fixed = x0.fixed := by
  unfold State.dlogPut
  repeat' (first | (simp +zetaDelta [*]; done) | split | dsimp only)
@[simp] theorem State.dlogAll_fixed (x0 : State) (x1 : Nat) (x2 : List Nat) : (State.dlogAll x0 x1 x2).1.fixed = x0.fixed := by
  fun_induction State.dlogAll x0 x1 x2 <;> simp_all
@[simp] theorem State.hold__fixed (x0 : State) (x1 : ℕ) (x2 : HeldPost) : (State.hold_ x0 x1 x2).fixed = x0.fixed := by simp [State.hold_]
@[simp] theorem State.postAs_fixed (x0 : State) (x1 : ℕ) (x2 : ℕ) (x3 : List Byte) (x4 : Bool) (x5 : Bool) : (State.postAs x0 x1 x2 x3 x4 x5).fixed = x0.fixed := by
  unfold State.postAs
  repeat' (first | (simp +zetaDelta [*]; done) | split | dsimp only)
@[simp] theorem State.post_fixed (x0 : State) (x1 : ℕ) (x2 : ℕ) (x3 : List Byte) (x4 : Bool) : (State.post x0 x1 x2 x3 x4).fixed = x0.fixed := by
  unfold State.post
  repeat' (first | (simp +zetaDelta [*]; done) | split | dsimp only)
@[simp] theorem State.postRing_fixed (x0 : State) (x1 : ℕ) (x2 : ℕ) (x3 : List Byte) : (State.postRing x0 x1 x2 x3).fixed = x0.fixed := by
  unfold State.postRing
  repeat' (first | (simp +zetaDelta [*]; done) | split | dsimp only)
@[simp] theorem State.message_fixed (x0 : State) (x1 : Nat) (x2 : Nat) : (State.message x0 x1 x2).fixed = x0.fixed := by
  unfold State.message
  repeat' (first | (simp +zetaDelta [*]; done) | split)
@[simp] theorem State.postHeld_fixed (x0 : State) (x1 : ℕ) (x2 : HeldPost) : (State.postHeld x0 x1 x2).fixed = x0.fixed := by
  unfold State.postHeld
  repeat' (first | (simp +zetaDelta [*]; done) | split | dsimp only)
@[simp] theorem State.cause_fixed (x0 : State) (x1 : Nat) (x2 : Nat) : (State.cause x0 x1 x2).fixed = x0.fixed := by
  unfold State.cause
  split <;> simp
@[simp] theorem State.fnError_fixed (x0 : State) (x1 : Nat) (x2 : Nat) : (State.fnError x0 x1 x2).fixed = x0.fixed := by
  unfold State.fnError
  split <;> simp

end Sys2Proof.Machine
end

