-- ==== Sys2Proof/Laws/KeptFabric.lean ====
section
/-! SUPPORT. What the operations of Machine/Fabric.lean keep: the queue and the fuse bank. -/

namespace Sys2Proof.Machine

set_option linter.all false

@[simp] theorem State.sendGroup_fixed (x0 : State) (x1 : ℕ) (x2 : List (BitVec 12 × Flit)) : (State.sendGroup x0 x1 x2).fixed = x0.fixed := by simp [State.sendGroup]
@[simp] theorem State.sendFlits_fixed (x0 : State) (x1 : ℕ) (x2 : List (BitVec 12 × Flit)) : (State.sendFlits x0 x1 x2).fixed = x0.fixed := by
  unfold State.sendFlits
  all_goals repeat' (first | (simp +zetaDelta [*]; done) | (split <;> try (rename_i h_; have k_ := pair_arg h_; simp at k_)) | (refine fold_to (fun _ _ => ?_) ?_) | (refine fold2_to (fun _ _ => ?_) ?_) | (refine fold1_to (fun _ _ => ?_) ?_) | (refine fold22_to (fun _ _ => ?_) ?_) | (refine (State.startXferBy_fixed _ _ _ (fun _ _ => ?_)).trans ?_) | (refine (State.newXferBy_fixed _ _ _ _ _ (fun _ _ => ?_)).trans ?_) | (refine (State.request_fixed _ _ _ _ (fun _ => ?_)).trans ?_) | (refine (State.hostWrite_fixed _ _ _ _ (fun _ => ?_)).trans ?_) | (refine (State.hostLoad_fixed _ _ _ _ (fun _ => ?_)).trans ?_) | (refine (State.atOnce_fixed _ _ (fun _ => ?_)).trans ?_) | (refine (State.settleBar_fixed _ _ _ _ (fun _ _ _ => ?_)).trans ?_) | (refine (State.runCmd_fixed _ _ _ (fun _ _ _ => ?_)).trans ?_) | (refine (State.carryConf_fixed _ _ _ _ _ (fun _ => ?_)).trans ?_) | (refine (State.onI2c_fixed _ _ _ (fun _ => ?_)).trans ?_) | (refine (State.inRecovery_fixed _ _ _ (fun _ => ?_)).trans ?_) | (refine (State.mailboxWrite_fixed _ _ _ (fun _ => ?_)).trans ?_) | (refine (State.vfMailbox_fixed _ _ (fun _ => ?_)).trans ?_) | (refine (State.orReserved_fixed _ _ _ _ (fun _ => ?_)).trans ?_) | (refine (State.sqSetup_fixed _ _ _ _ (fun _ => ?_)).trans ?_) | (refine (State.onSq_fixed _ _ _ _ (fun _ _ => ?_)).trans ?_) | (refine (State.onCq_fixed _ _ _ _ (fun _ _ => ?_)).trans ?_) | (refine (State.endRead_fixed _ _ _ (fun _ => ?_)).trans ?_) | simp +zetaDelta only [State.fixed_mk, State.fixed_eta, apply_ite State.fixed] | simp +zetaDelta [*])
@[simp] theorem State.pumpPort_fixed (x0 : State) (x1 : Nat) : (State.pumpPort x0 x1).fixed = x0.fixed := by simp [State.pumpPort]
@[simp] theorem State.sendOn_fixed (x0 : State) (x1 : Nat) (x2 : Packet) : (State.sendOn x0 x1 x2).fixed = x0.fixed := by simp [State.sendOn]
@[simp] theorem State.countDrop_fixed (x0 : State) : (State.countDrop x0).fixed = x0.fixed := by simp [State.countDrop]
@[simp] theorem State.routeOut_fixed (x0 : State) (x1 : Packet) (x2 : Option Nat) : (State.routeOut x0 x1 x2).1.fixed = x0.fixed := by
  unfold State.routeOut
  split
  · simp
  · exact fold_to (fun _ _ => by simp) rfl
@[simp] theorem State.carried_fixed (x0 : State) (x1 : Packet) (x2 : List ℕ) : (State.carried x0 x1 x2).fixed = x0.fixed := by
  unfold State.carried
  repeat' (first | (simp +zetaDelta [*]; done) | split | dsimp only)
@[simp] theorem State.injectQuiet_fixed (x0 : State) (x1 : Packet) : (State.injectQuiet x0 x1).fixed = x0.fixed := by
  unfold State.injectQuiet
  repeat' (first | (simp +zetaDelta [*]; done) | split | dsimp only)
@[simp] theorem State.startXferBy_fixed (x0 : State → Packet → State) (x1 : State) (x2 : Xfer) (h0 : ∀ t a, (x0 t a).fixed = t.fixed) : (State.startXferBy x0 x1 x2).fixed = x1.fixed := by
  unfold State.startXferBy
  all_goals repeat' (first | (simp +zetaDelta [*]; done) | (split <;> try (rename_i h_; have k_ := pair_arg h_; simp at k_)) | (refine fold_to (fun _ _ => ?_) ?_) | (refine fold2_to (fun _ _ => ?_) ?_) | (refine fold1_to (fun _ _ => ?_) ?_) | (refine fold22_to (fun _ _ => ?_) ?_) | (refine (State.startXferBy_fixed _ _ _ (fun _ _ => ?_)).trans ?_) | (refine (State.newXferBy_fixed _ _ _ _ _ (fun _ _ => ?_)).trans ?_) | (refine (State.request_fixed _ _ _ _ (fun _ => ?_)).trans ?_) | (refine (State.hostWrite_fixed _ _ _ _ (fun _ => ?_)).trans ?_) | (refine (State.hostLoad_fixed _ _ _ _ (fun _ => ?_)).trans ?_) | (refine (State.atOnce_fixed _ _ (fun _ => ?_)).trans ?_) | (refine (State.settleBar_fixed _ _ _ _ (fun _ _ _ => ?_)).trans ?_) | (refine (State.runCmd_fixed _ _ _ (fun _ _ _ => ?_)).trans ?_) | (refine (State.carryConf_fixed _ _ _ _ _ (fun _ => ?_)).trans ?_) | (refine (State.onI2c_fixed _ _ _ (fun _ => ?_)).trans ?_) | (refine (State.inRecovery_fixed _ _ _ (fun _ => ?_)).trans ?_) | (refine (State.mailboxWrite_fixed _ _ _ (fun _ => ?_)).trans ?_) | (refine (State.vfMailbox_fixed _ _ (fun _ => ?_)).trans ?_) | (refine (State.orReserved_fixed _ _ _ _ (fun _ => ?_)).trans ?_) | (refine (State.sqSetup_fixed _ _ _ _ (fun _ => ?_)).trans ?_) | (refine (State.onSq_fixed _ _ _ _ (fun _ _ => ?_)).trans ?_) | (refine (State.onCq_fixed _ _ _ _ (fun _ _ => ?_)).trans ?_) | (refine (State.endRead_fixed _ _ _ (fun _ => ?_)).trans ?_) | simp +zetaDelta only [State.fixed_mk, State.fixed_eta, apply_ite State.fixed] | simp +zetaDelta [*])
@[simp] theorem State.newXferBy_fixed (x0 : State → Packet → State) (x1 : State) (x2 : ChipId) (x3 : Purpose) (x4 : List Packet) (h0 : ∀ t a, (x0 t a).fixed = t.fixed) : (State.newXferBy x0 x1 x2 x3 x4).fixed = x1.fixed := by
  unfold State.newXferBy
  repeat' (first | (simp +zetaDelta [*]; done) | split | dsimp only)
@[simp] theorem State.sendDisc_fixed (x0 : State) (x1 : ℕ) (x2 : CtlMsg) : (State.sendDisc x0 x1 x2).fixed = x0.fixed := by
  unfold State.sendDisc
  repeat' (first | (simp +zetaDelta [*]; done) | split | dsimp only)
@[simp] theorem State.sendDiscs_fixed (x0 : State) (x1 : List ℕ) (x2 : CtlMsg) : (State.sendDiscs x0 x1 x2).fixed = x0.fixed := by
  unfold State.sendDiscs
  all_goals repeat' (first | (simp +zetaDelta [*]; done) | (split <;> try (rename_i h_; have k_ := pair_arg h_; simp at k_)) | (refine fold_to (fun _ _ => ?_) ?_) | (refine fold2_to (fun _ _ => ?_) ?_) | (refine fold1_to (fun _ _ => ?_) ?_) | (refine fold22_to (fun _ _ => ?_) ?_) | (refine (State.startXferBy_fixed _ _ _ (fun _ _ => ?_)).trans ?_) | (refine (State.newXferBy_fixed _ _ _ _ _ (fun _ _ => ?_)).trans ?_) | (refine (State.request_fixed _ _ _ _ (fun _ => ?_)).trans ?_) | (refine (State.hostWrite_fixed _ _ _ _ (fun _ => ?_)).trans ?_) | (refine (State.hostLoad_fixed _ _ _ _ (fun _ => ?_)).trans ?_) | (refine (State.atOnce_fixed _ _ (fun _ => ?_)).trans ?_) | (refine (State.settleBar_fixed _ _ _ _ (fun _ _ _ => ?_)).trans ?_) | (refine (State.runCmd_fixed _ _ _ (fun _ _ _ => ?_)).trans ?_) | (refine (State.carryConf_fixed _ _ _ _ _ (fun _ => ?_)).trans ?_) | (refine (State.onI2c_fixed _ _ _ (fun _ => ?_)).trans ?_) | (refine (State.inRecovery_fixed _ _ _ (fun _ => ?_)).trans ?_) | (refine (State.mailboxWrite_fixed _ _ _ (fun _ => ?_)).trans ?_) | (refine (State.vfMailbox_fixed _ _ (fun _ => ?_)).trans ?_) | (refine (State.orReserved_fixed _ _ _ _ (fun _ => ?_)).trans ?_) | (refine (State.sqSetup_fixed _ _ _ _ (fun _ => ?_)).trans ?_) | (refine (State.onSq_fixed _ _ _ _ (fun _ _ => ?_)).trans ?_) | (refine (State.onCq_fixed _ _ _ _ (fun _ _ => ?_)).trans ?_) | (refine (State.endRead_fixed _ _ _ (fun _ => ?_)).trans ?_) | simp +zetaDelta only [State.fixed_mk, State.fixed_eta, apply_ite State.fixed] | simp +zetaDelta [*])

end Sys2Proof.Machine
end

