-- ==== Sys2Proof/Laws/KeptOps.lean ====
section
/-! SUPPORT. What the operations of Machine/Ops.lean keep: the queue and the fuse bank. -/

namespace Sys2Proof.Machine

set_option linter.all false

@[simp] theorem State.fifoPush_fixed (x0 : State) (x1 : Nat) (x2 : Sig) : (State.fifoPush x0 x1 x2).fixed = x0.fixed := by simp [State.fifoPush]
@[simp] theorem State.deviceSignal_fixed (x0 : State) (x1 : Sig) : (State.deviceSignal x0 x1).fixed = x0.fixed := by
  unfold State.deviceSignal
  split <;> simp
@[simp] theorem State.evqWrite_fixed (x0 : State) (x1 : List Byte) : (State.evqWrite x0 x1).fixed = x0.fixed := by
  unfold State.evqWrite
  all_goals repeat' (first | (simp +zetaDelta [*]; done) | (split <;> try (rename_i h_; have k_ := pair_arg h_; simp at k_)) | (refine fold_to (fun _ _ => ?_) ?_) | (refine fold2_to (fun _ _ => ?_) ?_) | (refine fold1_to (fun _ _ => ?_) ?_) | (refine fold22_to (fun _ _ => ?_) ?_) | simp +zetaDelta only [State.fixed_mk, State.fixed_eta, apply_ite State.fixed] | simp +zetaDelta [*])
@[simp] theorem State.pushEvent_fixed (x0 : State) (x1 : List Byte) : (State.pushEvent x0 x1).fixed = x0.fixed := by
  unfold State.pushEvent
  repeat' (first | (simp +zetaDelta [*]; done) | split)
@[simp] theorem State.event_fixed (x0 : State) (x1 : Nat) (x2 : Nat) (x3 : Nat) (x4 : Nat) (x5 : Nat) : (State.event x0 x1 x2 x3 x4 x5).fixed = x0.fixed := by
  unfold State.event
  split <;> simp
@[simp] theorem State.dropPacket_fixed (x0 : State) (x1 : Packet) (x2 : Nat) : (State.dropPacket x0 x1 x2).fixed = x0.fixed := by
  unfold State.dropPacket
  split <;> simp
@[simp] theorem State.forward_fixed (x0 : State) (x1 : Packet) (x2 : Option ℕ) : (State.forward x0 x1 x2).fixed = x0.fixed := by
  unfold State.forward
  repeat' (first | (simp +zetaDelta [*]; done) | split | dsimp only)
@[simp] theorem State.inject_fixed (x0 : State) (x1 : Packet) : (State.inject x0 x1).fixed = x0.fixed := by
  unfold State.inject
  split <;> simp
@[simp] theorem State.answer_fixed (x0 : State) (x1 : Packet) (x2 : Packet) : (State.answer x0 x1 x2).fixed = x0.fixed := by simp [State.answer]
@[simp] theorem State.sendAck_fixed (x0 : State) (x1 : Packet) (x2 : Nat) : (State.sendAck x0 x1 x2).fixed = x0.fixed := by simp [State.sendAck]
@[simp] theorem State.sendNak_fixed (x0 : State) (x1 : Packet) (x2 : Nat) : (State.sendNak x0 x1 x2).fixed = x0.fixed := by simp [State.sendNak]
@[simp] theorem State.startXfer_fixed (x0 : State) (x1 : Xfer) : (State.startXfer x0 x1).fixed = x0.fixed := by
  simp only [State.startXfer]
  exact fold_to (fun _ _ => by simp) (by simp)
@[simp] theorem State.newXfer_fixed (x0 : State) (x1 : ChipId) (x2 : Purpose) (x3 : List Packet) : (State.newXfer x0 x1 x2 x3).fixed = x0.fixed := by simp [State.newXfer]
@[simp] theorem State.unqueue_fixed (x0 : State) (x1 : ChipId) : (State.unqueue x0 x1).fixed = x0.fixed := by
  unfold State.unqueue
  repeat' (first | (simp +zetaDelta [*]; done) | split)
@[simp] theorem State.pureSignal_fixed (x0 : State) (x1 : ChipId) (x2 : Purpose) (x3 : BitVec 6) (x4 : Bool) (x5 : TailSig) : (State.pureSignal x0 x1 x2 x3 x4 x5).fixed = x0.fixed := by simp [State.pureSignal]
@[simp] theorem State.ctl_fixed (x0 : State) (x1 : ChipId) (x2 : CtlMsg) : (State.ctl x0 x1 x2).fixed = x0.fixed := by simp [State.ctl]
@[simp] theorem State.ctls_fixed (x0 : State) (x1 : List ChipId) (x2 : CtlMsg) : (State.ctls x0 x1 x2).fixed = x0.fixed := by
  unfold State.ctls
  all_goals repeat' (first | (simp +zetaDelta [*]; done) | (split <;> try (rename_i h_; have k_ := pair_arg h_; simp at k_)) | (refine fold_to (fun _ _ => ?_) ?_) | (refine fold2_to (fun _ _ => ?_) ?_) | (refine fold1_to (fun _ _ => ?_) ?_) | (refine fold22_to (fun _ _ => ?_) ?_) | (refine (State.startXferBy_fixed _ _ _ (fun _ _ => ?_)).trans ?_) | (refine (State.newXferBy_fixed _ _ _ _ _ (fun _ _ => ?_)).trans ?_) | (refine (State.request_fixed _ _ _ _ (fun _ => ?_)).trans ?_) | (refine (State.hostWrite_fixed _ _ _ _ (fun _ => ?_)).trans ?_) | (refine (State.hostLoad_fixed _ _ _ _ (fun _ => ?_)).trans ?_) | (refine (State.atOnce_fixed _ _ (fun _ => ?_)).trans ?_) | (refine (State.settleBar_fixed _ _ _ _ (fun _ _ _ => ?_)).trans ?_) | (refine (State.runCmd_fixed _ _ _ (fun _ _ _ => ?_)).trans ?_) | (refine (State.carryConf_fixed _ _ _ _ _ (fun _ => ?_)).trans ?_) | (refine (State.onI2c_fixed _ _ _ (fun _ => ?_)).trans ?_) | (refine (State.inRecovery_fixed _ _ _ (fun _ => ?_)).trans ?_) | (refine (State.mailboxWrite_fixed _ _ _ (fun _ => ?_)).trans ?_) | (refine (State.vfMailbox_fixed _ _ (fun _ => ?_)).trans ?_) | (refine (State.orReserved_fixed _ _ _ _ (fun _ => ?_)).trans ?_) | (refine (State.sqSetup_fixed _ _ _ _ (fun _ => ?_)).trans ?_) | (refine (State.onSq_fixed _ _ _ _ (fun _ _ => ?_)).trans ?_) | (refine (State.onCq_fixed _ _ _ _ (fun _ _ => ?_)).trans ?_) | (refine (State.endRead_fixed _ _ _ (fun _ => ?_)).trans ?_) | simp +zetaDelta only [State.fixed_mk, State.fixed_eta, apply_ite State.fixed] | simp +zetaDelta [*])
@[simp] theorem State.safeReport_fixed (x0 : State) (x1 : Nat) : (State.safeReport x0 x1).fixed = x0.fixed := by simp [State.safeReport]
@[simp] theorem State.bumpCe_fixed (x0 : State) (x1 : Nat) : (State.bumpCe x0 x1).fixed = x0.fixed := by
  unfold State.bumpCe
  all_goals repeat' (first | (simp +zetaDelta [*]; done) | (split <;> try (rename_i h_; have k_ := pair_arg h_; simp at k_)) | (refine fold_to (fun _ _ => ?_) ?_) | (refine fold2_to (fun _ _ => ?_) ?_) | (refine fold1_to (fun _ _ => ?_) ?_) | (refine fold22_to (fun _ _ => ?_) ?_) | simp +zetaDelta only [State.fixed_mk, State.fixed_eta, apply_ite State.fixed] | simp +zetaDelta [*])
@[simp] theorem State.bumpReplay_fixed (x0 : State) : (State.bumpReplay x0).fixed = x0.fixed := by
  unfold State.bumpReplay
  all_goals repeat' (first | (simp +zetaDelta [*]; done) | (split <;> try (rename_i h_; have k_ := pair_arg h_; simp at k_)) | (refine fold_to (fun _ _ => ?_) ?_) | (refine fold2_to (fun _ _ => ?_) ?_) | (refine fold1_to (fun _ _ => ?_) ?_) | (refine fold22_to (fun _ _ => ?_) ?_) | simp +zetaDelta only [State.fixed_mk, State.fixed_eta, apply_ite State.fixed] | simp +zetaDelta [*])
@[simp] theorem State.bumpPcrc_fixed (x0 : State) : (State.bumpPcrc x0).fixed = x0.fixed := by
  unfold State.bumpPcrc
  all_goals repeat' (first | (simp +zetaDelta [*]; done) | (split <;> try (rename_i h_; have k_ := pair_arg h_; simp at k_)) | (refine fold_to (fun _ _ => ?_) ?_) | (refine fold2_to (fun _ _ => ?_) ?_) | (refine fold1_to (fun _ _ => ?_) ?_) | (refine fold22_to (fun _ _ => ?_) ?_) | simp +zetaDelta only [State.fixed_mk, State.fixed_eta, apply_ite State.fixed] | simp +zetaDelta [*])
@[simp] theorem State.unflip_fixed (x0 : State) (x1 : ℕ) : (State.unflip x0 x1).fixed = x0.fixed := by simp [State.unflip]
@[simp] theorem State.correctTag_fixed (x0 : State) (x1 : ℕ) : (State.correctTag x0 x1).fixed = x0.fixed := by
  unfold State.correctTag
  repeat' (first | (simp +zetaDelta [*]; done) | split | dsimp only)
@[simp] theorem State.reportUe_fixed (x0 : State) (x1 : Nat) : (State.reportUe x0 x1).fixed = x0.fixed := by
  unfold State.reportUe
  repeat' (first | (simp +zetaDelta [*]; done) | split)
@[simp] theorem State.correct_fixed (x0 : State) (x1 : List Nat) : (State.correct x0 x1).fixed = x0.fixed := by
  unfold State.correct
  all_goals repeat' (first | (simp +zetaDelta [*]; done) | (split <;> try (rename_i h_; have k_ := pair_arg h_; simp at k_)) | (refine fold_to (fun _ _ => ?_) ?_) | (refine fold2_to (fun _ _ => ?_) ?_) | (refine fold1_to (fun _ _ => ?_) ?_) | (refine fold22_to (fun _ _ => ?_) ?_) | simp +zetaDelta only [State.fixed_mk, State.fixed_eta, apply_ite State.fixed] | simp +zetaDelta [*])
@[simp] theorem State.readCheck_fixed (x0 : State) (x1 : List ℕ) : (State.readCheck x0 x1).2.fixed = x0.fixed := by
  unfold State.readCheck
  repeat' (first | (simp +zetaDelta [*]; done) | split | dsimp only)
@[simp] theorem State.hallWritten_fixed (x0 : State) (x1 : List ℕ) : (State.hallWritten x0 x1).fixed = x0.fixed := by
  unfold State.hallWritten
  all_goals repeat' (first | (simp +zetaDelta [*]; done) | (split <;> try (rename_i h_; have k_ := pair_arg h_; simp at k_)) | (refine fold_to (fun _ _ => ?_) ?_) | (refine fold2_to (fun _ _ => ?_) ?_) | (refine fold1_to (fun _ _ => ?_) ?_) | (refine fold22_to (fun _ _ => ?_) ?_) | (refine (State.startXferBy_fixed _ _ _ (fun _ _ => ?_)).trans ?_) | (refine (State.newXferBy_fixed _ _ _ _ _ (fun _ _ => ?_)).trans ?_) | (refine (State.request_fixed _ _ _ _ (fun _ => ?_)).trans ?_) | (refine (State.hostWrite_fixed _ _ _ _ (fun _ => ?_)).trans ?_) | (refine (State.hostLoad_fixed _ _ _ _ (fun _ => ?_)).trans ?_) | (refine (State.atOnce_fixed _ _ (fun _ => ?_)).trans ?_) | (refine (State.settleBar_fixed _ _ _ _ (fun _ _ _ => ?_)).trans ?_) | (refine (State.runCmd_fixed _ _ _ (fun _ _ _ => ?_)).trans ?_) | (refine (State.carryConf_fixed _ _ _ _ _ (fun _ => ?_)).trans ?_) | (refine (State.onI2c_fixed _ _ _ (fun _ => ?_)).trans ?_) | (refine (State.inRecovery_fixed _ _ _ (fun _ => ?_)).trans ?_) | (refine (State.mailboxWrite_fixed _ _ _ (fun _ => ?_)).trans ?_) | (refine (State.vfMailbox_fixed _ _ (fun _ => ?_)).trans ?_) | (refine (State.orReserved_fixed _ _ _ _ (fun _ => ?_)).trans ?_) | (refine (State.sqSetup_fixed _ _ _ _ (fun _ => ?_)).trans ?_) | (refine (State.onSq_fixed _ _ _ _ (fun _ _ => ?_)).trans ?_) | (refine (State.onCq_fixed _ _ _ _ (fun _ _ => ?_)).trans ?_) | (refine (State.endRead_fixed _ _ _ (fun _ => ?_)).trans ?_) | simp +zetaDelta only [State.fixed_mk, State.fixed_eta, apply_ite State.fixed] | simp +zetaDelta [*])
@[simp] theorem State.peek_fixed (x0 : State) (x1 : Nat) (x2 : Nat) : (State.peek x0 x1 x2).2.fixed = x0.fixed := by
  unfold State.peek
  all_goals repeat' (first | (simp +zetaDelta [*]; done) | (split <;> try (rename_i h_; have k_ := pair_arg h_; simp at k_)) | (refine fold_to (fun _ _ => ?_) ?_) | (refine fold2_to (fun _ _ => ?_) ?_) | (refine fold1_to (fun _ _ => ?_) ?_) | (refine fold22_to (fun _ _ => ?_) ?_) | simp +zetaDelta only [State.fixed_mk, State.fixed_eta, apply_ite State.fixed] | simp +zetaDelta [*])
@[simp] theorem State.peeks_fixed (x0 : State) (x1 : Nat) (x2 : List Nat) : (State.peeks x0 x1 x2).2.fixed = x0.fixed := by
  fun_induction State.peeks x0 x1 x2 <;> simp +zetaDelta [*]
@[simp] theorem State.wakeMem_fixed (x0 : State) (x1 : Nat) : (State.wakeMem x0 x1).fixed = x0.fixed := by
  unfold State.wakeMem
  split <;> simp
@[simp] theorem State.readMem_fixed (x0 : State) (x1 : ℕ) (x2 : ℕ) (x3 : ℕ) : (State.readMem x0 x1 x2 x3).2.fixed = x0.fixed := by
  unfold State.readMem
  all_goals repeat' (first | (simp +zetaDelta [*]; done) | (split <;> try (rename_i h_; have k_ := pair_arg h_; simp at k_)) | (refine fold_to (fun _ _ => ?_) ?_) | (refine fold2_to (fun _ _ => ?_) ?_) | (refine fold1_to (fun _ _ => ?_) ?_) | (refine fold22_to (fun _ _ => ?_) ?_) | (refine (State.startXferBy_fixed _ _ _ (fun _ _ => ?_)).trans ?_) | (refine (State.newXferBy_fixed _ _ _ _ _ (fun _ _ => ?_)).trans ?_) | (refine (State.request_fixed _ _ _ _ (fun _ => ?_)).trans ?_) | (refine (State.hostWrite_fixed _ _ _ _ (fun _ => ?_)).trans ?_) | (refine (State.hostLoad_fixed _ _ _ _ (fun _ => ?_)).trans ?_) | (refine (State.atOnce_fixed _ _ (fun _ => ?_)).trans ?_) | (refine (State.settleBar_fixed _ _ _ _ (fun _ _ _ => ?_)).trans ?_) | (refine (State.runCmd_fixed _ _ _ (fun _ _ _ => ?_)).trans ?_) | (refine (State.carryConf_fixed _ _ _ _ _ (fun _ => ?_)).trans ?_) | (refine (State.onI2c_fixed _ _ _ (fun _ => ?_)).trans ?_) | (refine (State.inRecovery_fixed _ _ _ (fun _ => ?_)).trans ?_) | (refine (State.mailboxWrite_fixed _ _ _ (fun _ => ?_)).trans ?_) | (refine (State.vfMailbox_fixed _ _ (fun _ => ?_)).trans ?_) | (refine (State.orReserved_fixed _ _ _ _ (fun _ => ?_)).trans ?_) | (refine (State.sqSetup_fixed _ _ _ _ (fun _ => ?_)).trans ?_) | (refine (State.onSq_fixed _ _ _ _ (fun _ _ => ?_)).trans ?_) | (refine (State.onCq_fixed _ _ _ _ (fun _ _ => ?_)).trans ?_) | (refine (State.endRead_fixed _ _ _ (fun _ => ?_)).trans ?_) | simp +zetaDelta only [State.fixed_mk, State.fixed_eta, apply_ite State.fixed] | simp +zetaDelta [*])
@[simp] theorem State.poke_fixed (x0 : State) (x1 : Nat) (x2 : Byte) : (State.poke x0 x1 x2).fixed = x0.fixed := by simp [State.poke]
@[simp] theorem State.pokes_fixed (x0 : State) (x1 : Nat) (x2 : List Byte) : (State.pokes x0 x1 x2).fixed = x0.fixed := by
  fun_induction State.pokes x0 x1 x2 <;> simp_all
@[simp] theorem State.rekey_fixed (x0 : State) (x1 : Nat) (x2 : List Nat) : (State.rekey x0 x1 x2).fixed = x0.fixed := by
  unfold State.rekey
  all_goals repeat' (first | (simp +zetaDelta [*]; done) | (split <;> try (rename_i h_; have k_ := pair_arg h_; simp at k_)) | (refine fold_to (fun _ _ => ?_) ?_) | (refine fold2_to (fun _ _ => ?_) ?_) | (refine fold1_to (fun _ _ => ?_) ?_) | (refine fold22_to (fun _ _ => ?_) ?_) | simp +zetaDelta only [State.fixed_mk, State.fixed_eta, apply_ite State.fixed] | simp +zetaDelta [*])
@[simp] theorem State.writeMem_fixed (x0 : State) (x1 : Nat) (x2 : Nat) (x3 : List Byte) : (State.writeMem x0 x1 x2 x3).2.fixed = x0.fixed := by
  unfold State.writeMem
  all_goals repeat' (first | (simp +zetaDelta [*]; done) | (split <;> try (rename_i h_; have k_ := pair_arg h_; simp at k_)) | (refine fold_to (fun _ _ => ?_) ?_) | (refine fold2_to (fun _ _ => ?_) ?_) | (refine fold1_to (fun _ _ => ?_) ?_) | (refine fold22_to (fun _ _ => ?_) ?_) | simp +zetaDelta only [State.fixed_mk, State.fixed_eta, apply_ite State.fixed] | simp +zetaDelta [*])
@[simp] theorem State.confRefused_fixed (x0 : State) (x1 : Nat) (x2 : ChipId) (x3 : Nat) : (State.confRefused x0 x1 x2 x3).fixed = x0.fixed := by simp [State.confRefused]
@[simp] theorem State.walkRead_fixed (x0 : State) (x1 : Nat) : (State.walkRead x0 x1).2.fixed = x0.fixed := by
  unfold State.walkRead
  all_goals repeat' (first | (simp +zetaDelta [*]; done) | (split <;> try (rename_i h_; have k_ := pair_arg h_; simp at k_)) | (refine fold_to (fun _ _ => ?_) ?_) | (refine fold2_to (fun _ _ => ?_) ?_) | (refine fold1_to (fun _ _ => ?_) ?_) | (refine fold22_to (fun _ _ => ?_) ?_) | simp +zetaDelta only [State.fixed_mk, State.fixed_eta, apply_ite State.fixed] | simp +zetaDelta [*])
@[simp] theorem State.cacheLeaf_fixed (x0 : State) (x1 : Leaf) : (State.cacheLeaf x0 x1).fixed = x0.fixed := by simp [State.cacheLeaf]
@[simp] theorem State.walk_fixed (x0 : State) (x1 : Nat) (x2 : Nat) (x3 : Bool) : (State.walk x0 x1 x2 x3).2.fixed = x0.fixed := by
  unfold State.walk
  all_goals repeat' (first | (simp +zetaDelta [*]; done) | (split <;> try (rename_i h_; have k_ := pair_arg h_; simp at k_)) | (refine fold_to (fun _ _ => ?_) ?_) | (refine fold2_to (fun _ _ => ?_) ?_) | (refine fold1_to (fun _ _ => ?_) ?_) | (refine fold22_to (fun _ _ => ?_) ?_) | simp +zetaDelta only [State.fixed_mk, State.fixed_eta, apply_ite State.fixed] | simp +zetaDelta [*])
@[simp] theorem State.xlate_fixed (x0 : State) (x1 : Nat) (x2 : Nat) (x3 : Nat) (x4 : Bool) : (State.xlate x0 x1 x2 x3 x4).2.fixed = x0.fixed := by
  unfold State.xlate
  repeat' (first | (simp +zetaDelta [*]; done) | split)
@[simp] theorem State.tick_fixed (x0 : State) : (State.tick x0).fixed = x0.fixed := by
  unfold State.tick
  split <;> simp

end Sys2Proof.Machine
end

