-- ==== Sys2Proof/Laws/KeptUnits.lean ====
section
/-! SUPPORT. What the operations of Machine/Units.lean keep: the queue and the fuse bank. -/

namespace Sys2Proof.Machine

set_option linter.all false

@[simp] theorem State.retain_fixed (x0 : State) (x1 : Nat) (x2 : Bool) : (State.retain x0 x1 x2).fixed = x0.fixed := by simp [State.retain]
@[simp] theorem State.inForce_fixed (x0 : State) (x1 : Nat) (x2 : Nat) : (State.inForce x0 x1 x2).fixed = x0.fixed := by simp [State.inForce]
@[simp] theorem State.carryOut_fixed (x0 : State) (x1 : Nat) (x2 : Nat) : (State.carryOut x0 x1 x2).fixed = x0.fixed := by
  unfold State.carryOut
  all_goals repeat' (first | (simp +zetaDelta [*]; done) | (split <;> try (rename_i h_; have k_ := pair_arg h_; simp at k_)) | (refine fold_to (fun _ _ => ?_) ?_) | (refine fold2_to (fun _ _ => ?_) ?_) | (refine fold1_to (fun _ _ => ?_) ?_) | (refine fold22_to (fun _ _ => ?_) ?_) | simp +zetaDelta only [State.fixed_mk, State.fixed_eta, apply_ite State.fixed] | simp +zetaDelta [*])
@[simp] theorem State.releaseUnit_fixed (x0 : State) (x1 : Nat) : (State.releaseUnit x0 x1).fixed = x0.fixed := by
  unfold State.releaseUnit
  split <;> simp
@[simp] theorem State.rehold_fixed (x0 : State) : (State.rehold x0).fixed = x0.fixed := by
  simp only [State.rehold]
  exact fold_to (fun _ _ => by simp) (by simp)
@[simp] theorem State.request_fixed (s : State) (u req : Nat) (go : State → State) (h : ∀ t, (go t).fixed = t.fixed) :
    (s.request u req go).fixed = s.fixed := by
  unfold State.request
  repeat' (first | (simp +zetaDelta [*]; done) | split | dsimp only)

end Sys2Proof.Machine
end

