-- ==== Sys2Proof/Laws/KeptHost.lean ====
section
/-! SUPPORT. What the operations of Machine/Host.lean keep: the queue and the fuse bank. -/

namespace Sys2Proof.Machine

set_option linter.all false

@[simp] theorem State.uartLine_fixed (x0 : State) : (State.uartLine x0).fixed = x0.fixed := by simp [State.uartLine]
@[simp] theorem State.enter_fixed (x0 : State) (x1 : StartState) : (State.enter x0 x1).fixed = x0.fixed := by simp [State.enter]
@[simp] theorem State.wake_fixed (x0 : State) (x1 : Nat) : (State.wake x0 x1).fixed = x0.fixed := by
  unfold State.wake
  all_goals repeat' (first | (simp +zetaDelta [*]; done) | (split <;> try (rename_i h_; have k_ := pair_arg h_; simp at k_)) | (refine fold_to (fun _ _ => ?_) ?_) | (refine fold2_to (fun _ _ => ?_) ?_) | (refine fold1_to (fun _ _ => ?_) ?_) | (refine fold22_to (fun _ _ => ?_) ?_) | simp +zetaDelta only [State.fixed_mk, State.fixed_eta, apply_ite State.fixed] | simp +zetaDelta [*])
@[simp] theorem State.errorMessage_fixed (x0 : State) (x1 : ℕ) (x2 : Bool) (x3 : Severity) : (State.errorMessage x0 x1 x2 x3).fixed = x0.fixed := by
  unfold State.errorMessage
  repeat' (first | (simp +zetaDelta [*]; done) | split | dsimp only)
@[simp] theorem State.aer_fixed (x0 : State) (x1 : ℕ) (x2 : ℕ) : (State.aer x0 x1 x2).fixed = x0.fixed := by
  unfold State.aer
  repeat' (first | (simp +zetaDelta [*]; done) | split | dsimp only)
@[simp] theorem State.aerCor_fixed (x0 : State) (x1 : ℕ) (x2 : ℕ) : (State.aerCor x0 x1 x2).fixed = x0.fixed := by
  unfold State.aerCor
  repeat' (first | (simp +zetaDelta [*]; done) | split | dsimp only)
@[simp] theorem State.aerAnswered_fixed (x0 : State) (x1 : ℕ) (x2 : ℕ) : (State.aerAnswered x0 x1 x2).fixed = x0.fixed := by
  unfold State.aerAnswered
  repeat' (first | (simp +zetaDelta [*]; done) | split | dsimp only)
@[simp] theorem State.tlpError_fixed (x0 : State) (x1 : ℕ) (x2 : TlpError) : (State.tlpError x0 x1 x2).fixed = x0.fixed := by
  unfold State.tlpError
  repeat' (first | (simp +zetaDelta [*]; done) | split | dsimp only)
@[simp] theorem State.refuseUr_fixed (x0 : State) (x1 : Nat) (x2 : Bool) : (State.refuseUr x0 x1 x2).fixed = x0.fixed := by
  unfold State.refuseUr
  repeat' (first | (simp +zetaDelta [*]; done) | split)
@[simp] theorem State.hostWrite_fixed (s : State) (fn : Nat) (w : Bool) (f : State → State) (h : ∀ t, (f t).fixed = t.fixed) :
    (s.hostWrite fn w f).fixed = s.fixed := by
  unfold State.hostWrite
  repeat' (first | (simp +zetaDelta [*]; done) | split | dsimp only)
@[simp] theorem State.hostLoad_fixed (s : State) (fn len : Nat) (f : State → State) (h : ∀ t, (f t).fixed = t.fixed) :
    (s.hostLoad fn len f).fixed = s.fixed := by
  unfold State.hostLoad
  repeat' (first | (simp +zetaDelta [*]; done) | split | dsimp only)
@[simp] theorem State.sendRead_fixed (x0 : State) (x1 : ℕ) (x2 : ℕ) (x3 : Bool) (x4 : HostRd) : (State.sendRead x0 x1 x2 x3 x4).fixed = x0.fixed := by simp [State.sendRead]
@[simp] theorem State.hostRead_fixed (x0 : State) (x1 : ℕ) (x2 : ℕ) (x3 : ℕ) (x4 : Bool) (x5 : HostFor) : (State.hostRead x0 x1 x2 x3 x4 x5).fixed = x0.fixed := by
  unfold State.hostRead
  all_goals repeat' (first | (simp +zetaDelta [*]; done) | (split <;> try (rename_i h_; have k_ := pair_arg h_; simp at k_)) | (refine fold_to (fun _ _ => ?_) ?_) | (refine fold2_to (fun _ _ => ?_) ?_) | (refine fold1_to (fun _ _ => ?_) ?_) | (refine fold22_to (fun _ _ => ?_) ?_) | (refine (State.startXferBy_fixed _ _ _ (fun _ _ => ?_)).trans ?_) | (refine (State.newXferBy_fixed _ _ _ _ _ (fun _ _ => ?_)).trans ?_) | (refine (State.request_fixed _ _ _ _ (fun _ => ?_)).trans ?_) | (refine (State.hostWrite_fixed _ _ _ _ (fun _ => ?_)).trans ?_) | (refine (State.hostLoad_fixed _ _ _ _ (fun _ => ?_)).trans ?_) | (refine (State.atOnce_fixed _ _ (fun _ => ?_)).trans ?_) | (refine (State.settleBar_fixed _ _ _ _ (fun _ _ _ => ?_)).trans ?_) | (refine (State.runCmd_fixed _ _ _ (fun _ _ _ => ?_)).trans ?_) | (refine (State.carryConf_fixed _ _ _ _ _ (fun _ => ?_)).trans ?_) | (refine (State.onI2c_fixed _ _ _ (fun _ => ?_)).trans ?_) | (refine (State.inRecovery_fixed _ _ _ (fun _ => ?_)).trans ?_) | (refine (State.mailboxWrite_fixed _ _ _ (fun _ => ?_)).trans ?_) | (refine (State.vfMailbox_fixed _ _ (fun _ => ?_)).trans ?_) | (refine (State.orReserved_fixed _ _ _ _ (fun _ => ?_)).trans ?_) | (refine (State.sqSetup_fixed _ _ _ _ (fun _ => ?_)).trans ?_) | (refine (State.onSq_fixed _ _ _ _ (fun _ _ => ?_)).trans ?_) | (refine (State.onCq_fixed _ _ _ _ (fun _ _ => ?_)).trans ?_) | (refine (State.endRead_fixed _ _ _ (fun _ => ?_)).trans ?_) | simp +zetaDelta only [State.fixed_mk, State.fixed_eta, apply_ite State.fixed] | simp +zetaDelta [*])
@[simp] theorem State.sendWaiting_fixed (x0 : State) (x1 : ℕ) : (State.sendWaiting x0 x1).fixed = x0.fixed := by
  fun_induction State.sendWaiting x0 x1 <;> simp_all
@[simp] theorem State.forgetReads_fixed (x0 : State) (x1 : HostFor → Bool) : (State.forgetReads x0 x1).fixed = x0.fixed := by simp [State.forgetReads]

end Sys2Proof.Machine
end

