-- ==== Sys2Proof/Laws/KeptCfe.lean ====
section
/-! SUPPORT. What the operations of Machine/Cfe.lean keep: the queue and the fuse bank. -/

namespace Sys2Proof.Machine

set_option linter.all false

@[simp] theorem State.latchFault_fixed (x0 : State) (x1 : Nat) (x2 : Nat) : (State.latchFault x0 x1 x2).fixed = x0.fixed := by simp [State.latchFault]
@[simp] theorem State.enterSafe_fixed (x0 : State) (x1 : Nat) (x2 : Nat) : (State.enterSafe x0 x1 x2).fixed = x0.fixed := by
  unfold State.enterSafe
  split <;> simp
@[simp] theorem State.armedFault_fixed (x0 : State) (x1 : Nat) (x2 : Nat) : (State.armedFault x0 x1 x2).fixed = x0.fixed := by
  unfold State.armedFault
  split <;> simp
@[simp] theorem State.setGuilt_fixed (x0 : State) (x1 : RingRef) (x2 : Option Guilt) : (State.setGuilt x0 x1 x2).fixed = x0.fixed := by
  unfold State.setGuilt
  split <;> simp
@[simp] theorem State.progress_fixed (x0 : State) (x1 : RingRef) : (State.progress x0 x1).fixed = x0.fixed := by
  unfold State.progress
  split <;> simp
@[simp] theorem State.sendEpoch_fixed (x0 : State) (x1 : Word32) (x2 : List JRec) : (State.sendEpoch x0 x1 x2).fixed = x0.fixed := by
  unfold State.sendEpoch
  all_goals repeat' (first | (simp +zetaDelta [*]; done) | (split <;> try (rename_i h_; have k_ := pair_arg h_; simp at k_)) | (refine fold_to (fun _ _ => ?_) ?_) | (refine fold2_to (fun _ _ => ?_) ?_) | (refine fold1_to (fun _ _ => ?_) ?_) | (refine fold22_to (fun _ _ => ?_) ?_) | simp +zetaDelta only [State.fixed_mk, State.fixed_eta, apply_ite State.fixed] | simp +zetaDelta [*])
@[simp] theorem State.closeEpoch_fixed (x0 : State) : (State.closeEpoch x0).fixed = x0.fixed := by
  unfold State.closeEpoch
  split <;> simp
@[simp] theorem State.journal_fixed (x0 : State) (x1 : JRec) : (State.journal x0 x1).fixed = x0.fixed := by
  unfold State.journal
  all_goals repeat' (first | (simp +zetaDelta [*]; done) | (split <;> try (rename_i h_; have k_ := pair_arg h_; simp at k_)) | (refine fold_to (fun _ _ => ?_) ?_) | (refine fold2_to (fun _ _ => ?_) ?_) | (refine fold1_to (fun _ _ => ?_) ?_) | (refine fold22_to (fun _ _ => ?_) ?_) | simp +zetaDelta only [State.fixed_mk, State.fixed_eta, apply_ite State.fixed] | simp +zetaDelta [*])
@[simp] theorem State.tagWritten_fixed (x0 : State) (x1 : Nat) (x2 : Nat) : (State.tagWritten x0 x1 x2).fixed = x0.fixed := by simp [State.tagWritten]
@[simp] theorem State.cqFire_fixed (x0 : State) (x1 : Nat) : (State.cqFire x0 x1).fixed = x0.fixed := by
  unfold State.cqFire
  split <;> simp
@[simp] theorem State.coalesce_fixed (x0 : State) (x1 : Nat) (x2 : Bool) : (State.coalesce x0 x1 x2).fixed = x0.fixed := by
  unfold State.coalesce
  all_goals repeat' (first | (simp +zetaDelta [*]; done) | (split <;> try (rename_i h_; have k_ := pair_arg h_; simp at k_)) | (refine fold_to (fun _ _ => ?_) ?_) | (refine fold2_to (fun _ _ => ?_) ?_) | (refine fold1_to (fun _ _ => ?_) ?_) | (refine fold22_to (fun _ _ => ?_) ?_) | simp +zetaDelta only [State.fixed_mk, State.fixed_eta, apply_ite State.fixed] | simp +zetaDelta [*])
@[simp] theorem State.putRecord_fixed (x0 : State) (x1 : Nat) (x2 : WaitRec) : (State.putRecord x0 x1 x2).fixed = x0.fixed := by
  unfold State.putRecord
  all_goals repeat' (first | (simp +zetaDelta [*]; done) | (split <;> try (rename_i h_; have k_ := pair_arg h_; simp at k_)) | (refine fold_to (fun _ _ => ?_) ?_) | (refine fold2_to (fun _ _ => ?_) ?_) | (refine fold1_to (fun _ _ => ?_) ?_) | (refine fold22_to (fun _ _ => ?_) ?_) | simp +zetaDelta only [State.fixed_mk, State.fixed_eta, apply_ite State.fixed] | simp +zetaDelta [*])
@[simp] theorem State.flushCq_fixed (x0 : State) (x1 : Nat) : (State.flushCq x0 x1).fixed = x0.fixed := by
  unfold State.flushCq
  all_goals repeat' (first | (simp +zetaDelta [*]; done) | (split <;> try (rename_i h_; have k_ := pair_arg h_; simp at k_)) | (refine fold_to (fun _ _ => ?_) ?_) | (refine fold2_to (fun _ _ => ?_) ?_) | (refine fold1_to (fun _ _ => ?_) ?_) | (refine fold22_to (fun _ _ => ?_) ?_) | simp +zetaDelta only [State.fixed_mk, State.fixed_eta, apply_ite State.fixed] | simp +zetaDelta [*])
@[simp] theorem State.flushCqs_fixed (x0 : State) : (State.flushCqs x0).fixed = x0.fixed := by
  simp only [State.flushCqs]
  exact fold_to (fun _ _ => by simp) (by simp)
@[simp] theorem State.addRecord_fixed (x0 : State) (x1 : Nat) (x2 : WaitRec) : (State.addRecord x0 x1 x2).fixed = x0.fixed := by simp [State.addRecord]
@[simp] theorem State.cfeStore_fixed (x0 : State) (x1 : Nat) (x2 : Nat) (x3 : List Byte) (x4 : Purpose) : (State.cfeStore x0 x1 x2 x3 x4).fixed = x0.fixed := by
  unfold State.cfeStore
  all_goals repeat' (first | (simp +zetaDelta [*]; done) | (split <;> try (rename_i h_; have k_ := pair_arg h_; simp at k_)) | (refine fold_to (fun _ _ => ?_) ?_) | (refine fold2_to (fun _ _ => ?_) ?_) | (refine fold1_to (fun _ _ => ?_) ?_) | (refine fold22_to (fun _ _ => ?_) ?_) | simp +zetaDelta only [State.fixed_mk, State.fixed_eta, apply_ite State.fixed] | simp +zetaDelta [*])
@[simp] theorem State.drRecord_fixed (x0 : State) (x1 : Nat) (x2 : List Byte) (x3 : Option Nat) : (State.drRecord x0 x1 x2 x3).fixed = x0.fixed := by
  unfold State.drRecord
  all_goals repeat' (first | (simp +zetaDelta [*]; done) | (split <;> try (rename_i h_; have k_ := pair_arg h_; simp at k_)) | (refine fold_to (fun _ _ => ?_) ?_) | (refine fold2_to (fun _ _ => ?_) ?_) | (refine fold1_to (fun _ _ => ?_) ?_) | (refine fold22_to (fun _ _ => ?_) ?_) | simp +zetaDelta only [State.fixed_mk, State.fixed_eta, apply_ite State.fixed] | simp +zetaDelta [*])
@[simp] theorem State.bufferRecord_fixed (x0 : State) (x1 : RingRef) (x2 : Nat) (x3 : Nat) (x4 : Bool) (x5 : Bool) (x6 : Bool) (x7 : Word32) (x8 : Nat) (x9 : Option Nat) (x10 : Bool) (x11 : Bool) : (State.bufferRecord x0 x1 x2 x3 x4 x5 x6 x7 x8 x9 x10 x11).fixed = x0.fixed := by
  unfold State.bufferRecord
  repeat' (first | (simp +zetaDelta [*]; done) | split)
@[simp] theorem State.updOwner_fixed (x0 : State) (x1 : Nat) (x2 : Owner → Owner) : (State.updOwner x0 x1 x2).fixed = x0.fixed := by simp [State.updOwner]
@[simp] theorem State.updShare_fixed (x0 : State) (x1 : Nat) (x2 : Share → Share) : (State.updShare x0 x1 x2).fixed = x0.fixed := by simp [State.updShare]
@[simp] theorem State.ctxFlags_fixed (x0 : State) (x1 : Nat) (x2 : Bool) (x3 : Bool) : (State.ctxFlags x0 x1 x2 x3).fixed = x0.fixed := by simp [State.ctxFlags]
@[simp] theorem State.tellShare_fixed (x0 : State) (x1 : ℕ) (x2 : Bool) : (State.tellShare x0 x1 x2).fixed = x0.fixed := by
  unfold State.tellShare
  repeat' (first | (simp +zetaDelta [*]; done) | split | dsimp only)
@[simp] theorem State.ctxProgress_fixed (x0 : State) (x1 : Nat) : (State.ctxProgress x0 x1).fixed = x0.fixed := by
  unfold State.ctxProgress
  split <;> simp
@[simp] theorem State.freeCtx_fixed (x0 : State) (x1 : Nat) : (State.freeCtx x0 x1).fixed = x0.fixed := by simp [State.freeCtx]
@[simp] theorem State.becomeReady_fixed (x0 : State) (x1 : ℕ) (x2 : OpStage) : (State.becomeReady x0 x1 x2).fixed = x0.fixed := by
  unfold State.becomeReady
  repeat' (first | (simp +zetaDelta [*]; done) | split | dsimp only)
@[simp] theorem State.freshBeats_fixed (x0 : State) (x1 : ℕ) : (State.freshBeats x0 x1).fixed = x0.fixed := by
  unfold State.freshBeats
  all_goals repeat' (first | (simp +zetaDelta [*]; done) | (split <;> try (rename_i h_; have k_ := pair_arg h_; simp at k_)) | (refine fold_to (fun _ _ => ?_) ?_) | (refine fold2_to (fun _ _ => ?_) ?_) | (refine fold1_to (fun _ _ => ?_) ?_) | (refine fold22_to (fun _ _ => ?_) ?_) | (refine (State.startXferBy_fixed _ _ _ (fun _ _ => ?_)).trans ?_) | (refine (State.newXferBy_fixed _ _ _ _ _ (fun _ _ => ?_)).trans ?_) | (refine (State.request_fixed _ _ _ _ (fun _ => ?_)).trans ?_) | (refine (State.hostWrite_fixed _ _ _ _ (fun _ => ?_)).trans ?_) | (refine (State.hostLoad_fixed _ _ _ _ (fun _ => ?_)).trans ?_) | (refine (State.atOnce_fixed _ _ (fun _ => ?_)).trans ?_) | (refine (State.settleBar_fixed _ _ _ _ (fun _ _ _ => ?_)).trans ?_) | (refine (State.runCmd_fixed _ _ _ (fun _ _ _ => ?_)).trans ?_) | (refine (State.carryConf_fixed _ _ _ _ _ (fun _ => ?_)).trans ?_) | (refine (State.onI2c_fixed _ _ _ (fun _ => ?_)).trans ?_) | (refine (State.inRecovery_fixed _ _ _ (fun _ => ?_)).trans ?_) | (refine (State.mailboxWrite_fixed _ _ _ (fun _ => ?_)).trans ?_) | (refine (State.vfMailbox_fixed _ _ (fun _ => ?_)).trans ?_) | (refine (State.orReserved_fixed _ _ _ _ (fun _ => ?_)).trans ?_) | (refine (State.sqSetup_fixed _ _ _ _ (fun _ => ?_)).trans ?_) | (refine (State.onSq_fixed _ _ _ _ (fun _ _ => ?_)).trans ?_) | (refine (State.onCq_fixed _ _ _ _ (fun _ _ => ?_)).trans ?_) | (refine (State.endRead_fixed _ _ _ (fun _ => ?_)).trans ?_) | simp +zetaDelta only [State.fixed_mk, State.fixed_eta, apply_ite State.fixed] | simp +zetaDelta [*])
@[simp] theorem State.refreshReady_fixed (x0 : State) (x1 : Nat) : (State.refreshReady x0 x1).fixed = x0.fixed := by
  unfold State.refreshReady
  all_goals repeat' (first | (simp +zetaDelta [*]; done) | (split <;> try (rename_i h_; have k_ := pair_arg h_; simp at k_)) | (refine fold_to (fun _ _ => ?_) ?_) | (refine fold2_to (fun _ _ => ?_) ?_) | (refine fold1_to (fun _ _ => ?_) ?_) | (refine fold22_to (fun _ _ => ?_) ?_) | simp +zetaDelta only [State.fixed_mk, State.fixed_eta, apply_ite State.fixed] | simp +zetaDelta [*])
@[simp] theorem State.releaseUnits_fixed (x0 : State) (x1 : Nat) : (State.releaseUnits x0 x1).fixed = x0.fixed := by simp [State.releaseUnits]
@[simp] theorem State.freeOp_fixed (x0 : State) (x1 : Nat) : (State.freeOp x0 x1).fixed = x0.fixed := by simp [State.freeOp]
@[simp] theorem State.pruneColls_fixed (x0 : State) (x1 : ℕ) : (State.pruneColls x0 x1).fixed = x0.fixed := by simp [State.pruneColls]
@[simp] theorem State.voidXfers_fixed (x0 : State) (x1 : Xfer → Bool) : (State.voidXfers x0 x1).fixed = x0.fixed := by
  unfold State.voidXfers
  all_goals repeat' (first | (simp +zetaDelta [*]; done) | (split <;> try (rename_i h_; have k_ := pair_arg h_; simp at k_)) | (refine fold_to (fun _ _ => ?_) ?_) | (refine fold2_to (fun _ _ => ?_) ?_) | (refine fold1_to (fun _ _ => ?_) ?_) | (refine fold22_to (fun _ _ => ?_) ?_) | simp +zetaDelta only [State.fixed_mk, State.fixed_eta, apply_ite State.fixed] | simp +zetaDelta [*])
@[simp] theorem State.discard_fixed (x0 : State) (x1 : ℕ) : (State.discard x0 x1).fixed = x0.fixed := by simp [State.discard]
@[simp] theorem State.endWith_fixed (x0 : State) (x1 : ℕ) (x2 : ℕ × OpEntry → Bool) : (State.endWith x0 x1 x2).fixed = x0.fixed := by
  unfold State.endWith
  all_goals repeat' (first | (simp +zetaDelta [*]; done) | (split <;> try (rename_i h_; have k_ := pair_arg h_; simp at k_)) | (refine fold_to (fun _ _ => ?_) ?_) | (refine fold2_to (fun _ _ => ?_) ?_) | (refine fold1_to (fun _ _ => ?_) ?_) | (refine fold22_to (fun _ _ => ?_) ?_) | (refine (State.startXferBy_fixed _ _ _ (fun _ _ => ?_)).trans ?_) | (refine (State.newXferBy_fixed _ _ _ _ _ (fun _ _ => ?_)).trans ?_) | (refine (State.request_fixed _ _ _ _ (fun _ => ?_)).trans ?_) | (refine (State.hostWrite_fixed _ _ _ _ (fun _ => ?_)).trans ?_) | (refine (State.hostLoad_fixed _ _ _ _ (fun _ => ?_)).trans ?_) | (refine (State.atOnce_fixed _ _ (fun _ => ?_)).trans ?_) | (refine (State.settleBar_fixed _ _ _ _ (fun _ _ _ => ?_)).trans ?_) | (refine (State.runCmd_fixed _ _ _ (fun _ _ _ => ?_)).trans ?_) | (refine (State.carryConf_fixed _ _ _ _ _ (fun _ => ?_)).trans ?_) | (refine (State.onI2c_fixed _ _ _ (fun _ => ?_)).trans ?_) | (refine (State.inRecovery_fixed _ _ _ (fun _ => ?_)).trans ?_) | (refine (State.mailboxWrite_fixed _ _ _ (fun _ => ?_)).trans ?_) | (refine (State.vfMailbox_fixed _ _ (fun _ => ?_)).trans ?_) | (refine (State.orReserved_fixed _ _ _ _ (fun _ => ?_)).trans ?_) | (refine (State.sqSetup_fixed _ _ _ _ (fun _ => ?_)).trans ?_) | (refine (State.onSq_fixed _ _ _ _ (fun _ _ => ?_)).trans ?_) | (refine (State.onCq_fixed _ _ _ _ (fun _ _ => ?_)).trans ?_) | (refine (State.endRead_fixed _ _ _ (fun _ => ?_)).trans ?_) | simp +zetaDelta only [State.fixed_mk, State.fixed_eta, apply_ite State.fixed] | simp +zetaDelta [*])
@[simp] theorem State.endShare_fixed (x0 : State) (x1 : ℕ) : (State.endShare x0 x1).fixed = x0.fixed := by simp [State.endShare]
@[simp] theorem State.endNow_fixed (x0 : State) (x1 : ℕ) : (State.endNow x0 x1).fixed = x0.fixed := by simp [State.endNow]
@[simp] theorem State.skipEntries_fixed (x0 : State) (x1 : RingRef) : (State.skipEntries x0 x1).fixed = x0.fixed := by
  unfold State.skipEntries
  all_goals repeat' (first | (simp +zetaDelta [*]; done) | (split <;> try (rename_i h_; have k_ := pair_arg h_; simp at k_)) | (refine fold_to (fun _ _ => ?_) ?_) | (refine fold2_to (fun _ _ => ?_) ?_) | (refine fold1_to (fun _ _ => ?_) ?_) | (refine fold22_to (fun _ _ => ?_) ?_) | simp +zetaDelta only [State.fixed_mk, State.fixed_eta, apply_ite State.fixed] | simp +zetaDelta [*])
@[simp] theorem State.drGuiltyError_fixed (x0 : State) (x1 : ℕ) : (State.drGuiltyError x0 x1).fixed = x0.fixed := by
  unfold State.drGuiltyError
  repeat' (first | (simp +zetaDelta [*]; done) | split | dsimp only)
@[simp] theorem State.guiltyRecord_fixed (x0 : State) (x1 : RingRef) (x2 : Guilt) (x3 : Option Nat) : (State.guiltyRecord x0 x1 x2 x3).fixed = x0.fixed := by
  cases x1 with
  | host n => simp [State.guiltyRecord]
  | dr n =>
    simp only [State.guiltyRecord, State.event_fixed]
    split <;> simp
@[simp] theorem State.guiltyFinish_fixed (x0 : State) (x1 : RingRef) : (State.guiltyFinish x0 x1).fixed = x0.fixed := by
  unfold State.guiltyFinish
  all_goals repeat' (first | (simp +zetaDelta [*]; done) | (split <;> try (rename_i h_; have k_ := pair_arg h_; simp at k_)) | (refine fold_to (fun _ _ => ?_) ?_) | (refine fold2_to (fun _ _ => ?_) ?_) | (refine fold1_to (fun _ _ => ?_) ?_) | (refine fold22_to (fun _ _ => ?_) ?_) | simp +zetaDelta only [State.fixed_mk, State.fixed_eta, apply_ite State.fixed] | simp +zetaDelta [*])
@[simp] theorem State.abortRing_fixed (x0 : State) (x1 : RingRef) : (State.abortRing x0 x1).fixed = x0.fixed := by
  unfold State.abortRing
  all_goals repeat' (first | (simp +zetaDelta [*]; done) | (split <;> try (rename_i h_; have k_ := pair_arg h_; simp at k_)) | (refine fold_to (fun _ _ => ?_) ?_) | (refine fold2_to (fun _ _ => ?_) ?_) | (refine fold1_to (fun _ _ => ?_) ?_) | (refine fold22_to (fun _ _ => ?_) ?_) | simp +zetaDelta only [State.fixed_mk, State.fixed_eta, apply_ite State.fixed] | simp +zetaDelta [*])
@[simp] theorem State.makeGuilty_fixed (x0 : State) (x1 : RingRef) (x2 : Nat) (x3 : Nat) (x4 : Nat) (x5 : List Byte) : (State.makeGuilty x0 x1 x2 x3 x4 x5).fixed = x0.fixed := by
  unfold State.makeGuilty
  all_goals repeat' (first | (simp +zetaDelta [*]; done) | (split <;> try (rename_i h_; have k_ := pair_arg h_; simp at k_)) | (refine fold_to (fun _ _ => ?_) ?_) | (refine fold2_to (fun _ _ => ?_) ?_) | (refine fold1_to (fun _ _ => ?_) ?_) | (refine fold22_to (fun _ _ => ?_) ?_) | simp +zetaDelta only [State.fixed_mk, State.fixed_eta, apply_ite State.fixed] | simp +zetaDelta [*])
@[simp] theorem State.countFault_fixed (x0 : State) (x1 : RingRef) : (State.countFault x0 x1).fixed = x0.fixed := by
  unfold State.countFault
  split <;> simp
@[simp] theorem State.applyFault_fixed (x0 : State) (x1 : Nat) (x2 : Nat) (x3 : Nat) (x4 : Nat) (x5 : List Byte) : (State.applyFault x0 x1 x2 x3 x4 x5).fixed = x0.fixed := by
  unfold State.applyFault
  repeat' (first | (simp +zetaDelta [*]; done) | split)
@[simp] theorem State.shareFault_fixed (x0 : State) (x1 : Nat) (x2 : Nat) (x3 : Nat) (x4 : List Byte) : (State.shareFault x0 x1 x2 x3 x4).fixed = x0.fixed := by
  unfold State.shareFault
  repeat' (first | (simp +zetaDelta [*]; done) | split)
@[simp] theorem State.ctxFault_fixed (x0 : State) (x1 : Nat) (x2 : Nat) (x3 : Option (List Byte)) (x4 : Nat) (x5 : Err) : (State.ctxFault x0 x1 x2 x3 x4 x5).fixed = x0.fixed := by
  unfold State.ctxFault
  split <;> simp
@[simp] theorem State.stopEntry_fixed (x0 : State) (x1 : ℕ) (x2 : OpEntry) : (State.stopEntry x0 x1 x2).fixed = x0.fixed := by
  unfold State.stopEntry
  all_goals repeat' (first | (simp +zetaDelta [*]; done) | (split <;> try (rename_i h_; have k_ := pair_arg h_; simp at k_)) | (refine fold_to (fun _ _ => ?_) ?_) | (refine fold2_to (fun _ _ => ?_) ?_) | (refine fold1_to (fun _ _ => ?_) ?_) | (refine fold22_to (fun _ _ => ?_) ?_) | (refine (State.startXferBy_fixed _ _ _ (fun _ _ => ?_)).trans ?_) | (refine (State.newXferBy_fixed _ _ _ _ _ (fun _ _ => ?_)).trans ?_) | (refine (State.request_fixed _ _ _ _ (fun _ => ?_)).trans ?_) | (refine (State.hostWrite_fixed _ _ _ _ (fun _ => ?_)).trans ?_) | (refine (State.hostLoad_fixed _ _ _ _ (fun _ => ?_)).trans ?_) | (refine (State.atOnce_fixed _ _ (fun _ => ?_)).trans ?_) | (refine (State.settleBar_fixed _ _ _ _ (fun _ _ _ => ?_)).trans ?_) | (refine (State.runCmd_fixed _ _ _ (fun _ _ _ => ?_)).trans ?_) | (refine (State.carryConf_fixed _ _ _ _ _ (fun _ => ?_)).trans ?_) | (refine (State.onI2c_fixed _ _ _ (fun _ => ?_)).trans ?_) | (refine (State.inRecovery_fixed _ _ _ (fun _ => ?_)).trans ?_) | (refine (State.mailboxWrite_fixed _ _ _ (fun _ => ?_)).trans ?_) | (refine (State.vfMailbox_fixed _ _ (fun _ => ?_)).trans ?_) | (refine (State.orReserved_fixed _ _ _ _ (fun _ => ?_)).trans ?_) | (refine (State.sqSetup_fixed _ _ _ _ (fun _ => ?_)).trans ?_) | (refine (State.onSq_fixed _ _ _ _ (fun _ _ => ?_)).trans ?_) | (refine (State.onCq_fixed _ _ _ _ (fun _ _ => ?_)).trans ?_) | (refine (State.endRead_fixed _ _ _ (fun _ => ?_)).trans ?_) | simp +zetaDelta only [State.fixed_mk, State.fixed_eta, apply_ite State.fixed] | simp +zetaDelta [*])
@[simp] theorem State.failOp_fixed (x0 : State) (x1 : Nat) (x2 : Err) : (State.failOp x0 x1 x2).fixed = x0.fixed := by
  unfold State.failOp
  all_goals repeat' (first | (simp +zetaDelta [*]; done) | (split <;> try (rename_i h_; have k_ := pair_arg h_; simp at k_)) | (refine fold_to (fun _ _ => ?_) ?_) | (refine fold2_to (fun _ _ => ?_) ?_) | (refine fold1_to (fun _ _ => ?_) ?_) | (refine fold22_to (fun _ _ => ?_) ?_) | simp +zetaDelta only [State.fixed_mk, State.fixed_eta, apply_ite State.fixed] | simp +zetaDelta [*])
@[simp] theorem State.endCheck_fixed (x0 : State) (x1 : Nat) : (State.endCheck x0 x1).fixed = x0.fixed := by
  unfold State.endCheck
  repeat' (first | (simp +zetaDelta [*]; done) | split)
@[simp] theorem State.writeEnds_fixed (x0 : State) : (State.writeEnds x0).fixed = x0.fixed := by
  unfold State.writeEnds
  all_goals repeat' (first | (simp +zetaDelta [*]; done) | (split <;> try (rename_i h_; have k_ := pair_arg h_; simp at k_)) | (refine fold_to (fun _ _ => ?_) ?_) | (refine fold2_to (fun _ _ => ?_) ?_) | (refine fold1_to (fun _ _ => ?_) ?_) | (refine fold22_to (fun _ _ => ?_) ?_) | (refine (State.startXferBy_fixed _ _ _ (fun _ _ => ?_)).trans ?_) | (refine (State.newXferBy_fixed _ _ _ _ _ (fun _ _ => ?_)).trans ?_) | (refine (State.request_fixed _ _ _ _ (fun _ => ?_)).trans ?_) | (refine (State.hostWrite_fixed _ _ _ _ (fun _ => ?_)).trans ?_) | (refine (State.hostLoad_fixed _ _ _ _ (fun _ => ?_)).trans ?_) | (refine (State.atOnce_fixed _ _ (fun _ => ?_)).trans ?_) | (refine (State.settleBar_fixed _ _ _ _ (fun _ _ _ => ?_)).trans ?_) | (refine (State.runCmd_fixed _ _ _ (fun _ _ _ => ?_)).trans ?_) | (refine (State.carryConf_fixed _ _ _ _ _ (fun _ => ?_)).trans ?_) | (refine (State.onI2c_fixed _ _ _ (fun _ => ?_)).trans ?_) | (refine (State.inRecovery_fixed _ _ _ (fun _ => ?_)).trans ?_) | (refine (State.mailboxWrite_fixed _ _ _ (fun _ => ?_)).trans ?_) | (refine (State.vfMailbox_fixed _ _ (fun _ => ?_)).trans ?_) | (refine (State.orReserved_fixed _ _ _ _ (fun _ => ?_)).trans ?_) | (refine (State.sqSetup_fixed _ _ _ _ (fun _ => ?_)).trans ?_) | (refine (State.onSq_fixed _ _ _ _ (fun _ _ => ?_)).trans ?_) | (refine (State.onCq_fixed _ _ _ _ (fun _ _ => ?_)).trans ?_) | (refine (State.endRead_fixed _ _ _ (fun _ => ?_)).trans ?_) | simp +zetaDelta only [State.fixed_mk, State.fixed_eta, apply_ite State.fixed] | simp +zetaDelta [*])
@[simp] theorem State.atOnce_fixed (x0 : State) (x1 : State → State) (h1 : ∀ t, (x1 t).fixed = t.fixed) : (State.atOnce x0 x1).fixed = x0.fixed := by
  unfold State.atOnce
  repeat' (first | (simp +zetaDelta [*]; done) | split | dsimp only)
@[simp] theorem State.countShare_fixed (x0 : State) (x1 : Nat) (x2 : Bool) (x3 : Bool) : (State.countShare x0 x1 x2 x3).fixed = x0.fixed := by simp [State.countShare]
@[simp] theorem State.shareCheck_fixed (x0 : State) (x1 : Nat) : (State.shareCheck x0 x1).fixed = x0.fixed := by
  unfold State.shareCheck
  repeat' (first | (simp +zetaDelta [*]; done) | split)

end Sys2Proof.Machine
end

