-- ==== Sys2Proof/Laws/KeptProbe.lean ====
section
/-! SUPPORT. What the operations of Machine/Probe.lean keep: the queue and the fuse bank. -/

namespace Sys2Proof.Machine

set_option linter.all false

@[simp] theorem State.beginProbe_fixed (x0 : State) : (State.beginProbe x0).fixed = x0.fixed := by
  unfold State.beginProbe
  all_goals repeat' (first | (simp +zetaDelta [*]; done) | (split <;> try (rename_i h_; have k_ := pair_arg h_; simp at k_)) | (refine fold_to (fun _ _ => ?_) ?_) | (refine fold2_to (fun _ _ => ?_) ?_) | (refine fold1_to (fun _ _ => ?_) ?_) | (refine fold22_to (fun _ _ => ?_) ?_) | simp +zetaDelta only [State.fixed_mk, State.fixed_eta, apply_ite State.fixed] | simp +zetaDelta [*])
@[simp] theorem State.injectPattern_fixed (x0 : State) : (State.injectPattern x0).fixed = x0.fixed := (State.beginProbe_fixed _).trans (State.writeMem_fixed _ _ _ _)
@[simp] theorem State.restartProbe_fixed (x0 : State) (x1 : Nat) : (State.restartProbe x0 x1).fixed = x0.fixed := by
  unfold State.restartProbe
  split
  · rfl
  · split
    · exact State.injectPattern_fixed x0
    · rfl
@[simp] theorem State.disarm_fixed (x0 : State) (x1 : Nat) : (State.disarm x0 x1).fixed = x0.fixed := by
  unfold State.disarm
  split <;> simp

end Sys2Proof.Machine
end

