-- ==== Sys2Proof/Laws/KeptGallery.lean ====
section
/-! SUPPORT. What the operations of Machine/Gallery.lean keep: the queue and the fuse bank. -/

namespace Sys2Proof.Machine

set_option linter.all false

@[simp] theorem State.chainNext_fixed (x0 : State) (x1 : Nat) (x2 : Nat) (x3 : Nat) : (State.chainNext x0 x1 x2 x3).fixed = x0.fixed := by
  unfold State.chainNext
  split <;> simp
@[simp] theorem State.chainStep_fixed (x0 : State) (x1 : Nat) (x2 : Nat) (x3 : Nat) : (State.chainStep x0 x1 x2 x3).fixed = x0.fixed := by
  unfold State.chainStep
  repeat' (first | (simp +zetaDelta [*]; done) | split)
@[simp] theorem State.completeOp_fixed (x0 : State) (x1 : Nat) : (State.completeOp x0 x1).fixed = x0.fixed := by
  unfold State.completeOp
  repeat' (first | (simp +zetaDelta [*]; done) | split)
@[simp] theorem State.cfeDone_fixed (x0 : State) (x1 : Nat) : (State.cfeDone x0 x1).fixed = x0.fixed := by
  unfold State.cfeDone
  repeat' (first | (simp +zetaDelta [*]; done) | split)
@[simp] theorem State.cfeIssued_fixed (x0 : State) (x1 : Nat) : (State.cfeIssued x0 x1).fixed = x0.fixed := by simp [State.cfeIssued]
@[simp] theorem State.opAck_fixed (x0 : State) (x1 : Nat) : (State.opAck x0 x1).fixed = x0.fixed := by simp [State.opAck]
@[simp] theorem State.setBar_fixed (x0 : State) (x1 : Nat) (x2 : Bar) : (State.setBar x0 x1 x2).fixed = x0.fixed := by simp [State.setBar]
@[simp] theorem State.crossTenant_fixed (x0 : State) (x1 : Nat) (x2 : Nat) (x3 : Nat) (x4 : ChipId) : (State.crossTenant x0 x1 x2 x3 x4).fixed = x0.fixed := by simp [State.crossTenant]
@[simp] theorem State.failWaiters_fixed (x0 : State) (x1 : Nat) (x2 : Nat) : (State.failWaiters x0 x1 x2).fixed = x0.fixed := by
  simp only [State.failWaiters]
  exact fold_to (fun _ _ => by simp) (by simp)
@[simp] theorem State.touchObj_fixed (x0 : State) (x1 : Nat) (x2 : Nat) : (State.touchObj x0 x1 x2).fixed = x0.fixed := by
  unfold State.touchObj
  all_goals repeat' (first | (simp +zetaDelta [*]; done) | (split <;> try (rename_i h_; have k_ := pair_arg h_; simp at k_)) | (refine fold_to (fun _ _ => ?_) ?_) | (refine fold2_to (fun _ _ => ?_) ?_) | (refine fold1_to (fun _ _ => ?_) ?_) | (refine fold22_to (fun _ _ => ?_) ?_) | simp +zetaDelta only [State.fixed_mk, State.fixed_eta, apply_ite State.fixed] | simp +zetaDelta [*])
@[simp] theorem State.endWait_fixed (x0 : State) (x1 : ℕ) (x2 : Judged) : (State.endWait x0 x1 x2).fixed = x0.fixed := by
  unfold State.endWait
  all_goals repeat' (first | (simp +zetaDelta [*]; done) | (split <;> try (rename_i h_; have k_ := pair_arg h_; simp at k_)) | (refine fold_to (fun _ _ => ?_) ?_) | (refine fold2_to (fun _ _ => ?_) ?_) | (refine fold1_to (fun _ _ => ?_) ?_) | (refine fold22_to (fun _ _ => ?_) ?_) | (refine (State.startXferBy_fixed _ _ _ (fun _ _ => ?_)).trans ?_) | (refine (State.newXferBy_fixed _ _ _ _ _ (fun _ _ => ?_)).trans ?_) | (refine (State.request_fixed _ _ _ _ (fun _ => ?_)).trans ?_) | (refine (State.hostWrite_fixed _ _ _ _ (fun _ => ?_)).trans ?_) | (refine (State.hostLoad_fixed _ _ _ _ (fun _ => ?_)).trans ?_) | (refine (State.atOnce_fixed _ _ (fun _ => ?_)).trans ?_) | (refine (State.settleBar_fixed _ _ _ _ (fun _ _ _ => ?_)).trans ?_) | (refine (State.runCmd_fixed _ _ _ (fun _ _ _ => ?_)).trans ?_) | (refine (State.carryConf_fixed _ _ _ _ _ (fun _ => ?_)).trans ?_) | (refine (State.onI2c_fixed _ _ _ (fun _ => ?_)).trans ?_) | (refine (State.inRecovery_fixed _ _ _ (fun _ => ?_)).trans ?_) | (refine (State.mailboxWrite_fixed _ _ _ (fun _ => ?_)).trans ?_) | (refine (State.vfMailbox_fixed _ _ (fun _ => ?_)).trans ?_) | (refine (State.orReserved_fixed _ _ _ _ (fun _ => ?_)).trans ?_) | (refine (State.sqSetup_fixed _ _ _ _ (fun _ => ?_)).trans ?_) | (refine (State.onSq_fixed _ _ _ _ (fun _ _ => ?_)).trans ?_) | (refine (State.onCq_fixed _ _ _ _ (fun _ _ => ?_)).trans ?_) | (refine (State.endRead_fixed _ _ _ (fun _ => ?_)).trans ?_) | simp +zetaDelta only [State.fixed_mk, State.fixed_eta, apply_ite State.fixed] | simp +zetaDelta [*])
@[simp] theorem State.judgeWaiters_fixed (x0 : State) (x1 : Nat) (x2 : Nat) : (State.judgeWaiters x0 x1 x2).fixed = x0.fixed := by
  simp only [State.judgeWaiters]
  exact fold_to (fun _ _ => by simp) (by simp)
@[simp] theorem State.setLast_fixed (x0 : State) (x1 : Nat) (x2 : Nat) (x3 : Sig) : (State.setLast x0 x1 x2 x3).fixed = x0.fixed := by simp [State.setLast]
@[simp] theorem State.barForward_fixed (x0 : State) (x1 : Nat) : (State.barForward x0 x1).fixed = x0.fixed := by
  unfold State.barForward
  all_goals repeat' (first | (simp +zetaDelta [*]; done) | (split <;> try (rename_i h_; have k_ := pair_arg h_; simp at k_)) | (refine fold_to (fun _ _ => ?_) ?_) | (refine fold2_to (fun _ _ => ?_) ?_) | (refine fold1_to (fun _ _ => ?_) ?_) | (refine fold22_to (fun _ _ => ?_) ?_) | simp +zetaDelta only [State.fixed_mk, State.fixed_eta, apply_ite State.fixed] | simp +zetaDelta [*])
@[simp] theorem State.sendNotice_fixed (x0 : State) (x1 : Nat) : (State.sendNotice x0 x1).1.fixed = x0.fixed := by
  unfold State.sendNotice
  all_goals repeat' (first | (simp +zetaDelta [*]; done) | (split <;> try (rename_i h_; have k_ := pair_arg h_; simp at k_)) | (refine fold_to (fun _ _ => ?_) ?_) | (refine fold2_to (fun _ _ => ?_) ?_) | (refine fold1_to (fun _ _ => ?_) ?_) | (refine fold22_to (fun _ _ => ?_) ?_) | simp +zetaDelta only [State.fixed_mk, State.fixed_eta, apply_ite State.fixed] | simp +zetaDelta [*])
@[simp] theorem State.landBar_fixed (x0 : State) (x1 : Nat) : (State.landBar x0 x1).fixed = x0.fixed := by simp [State.landBar]
@[simp] theorem State.settleBar_fixed (root : Nat → State → Nat → State) (h : ∀ a t b, (root a t b).fixed = t.fixed) (n : Nat) (s : State) (b : Nat) :
    (State.settleBar root n s b).fixed = s.fixed := by
  induction n generalizing s b with
  | zero => rfl
  | succ n ih =>
    simp only [State.settleBar]
    repeat' (first | (simp +zetaDelta [*]; done) | split | dsimp only)
@[simp] theorem State.applyNotice_fixed (x0 : State) (x1 : Sig) : (State.applyNotice x0 x1).fixed = x0.fixed := by
  unfold State.applyNotice
  all_goals repeat' (first | (simp +zetaDelta [*]; done) | (split <;> try (rename_i h_; have k_ := pair_arg h_; simp at k_)) | (refine fold_to (fun _ _ => ?_) ?_) | (refine fold2_to (fun _ _ => ?_) ?_) | (refine fold1_to (fun _ _ => ?_) ?_) | (refine fold22_to (fun _ _ => ?_) ?_) | simp +zetaDelta only [State.fixed_mk, State.fixed_eta, apply_ite State.fixed] | simp +zetaDelta [*])
@[simp] theorem State.ownNotice_fixed (x0 : State) (x1 : Nat) : (State.ownNotice x0 x1).fixed = x0.fixed := by simp [State.ownNotice]
@[simp] theorem State.refuseSig_fixed (x0 : State) (x1 : Sig) (x2 : Nat) (x3 : Nat) (x4 : Nat) : (State.refuseSig x0 x1 x2 x3 x4).fixed = x0.fixed := by
  unfold State.refuseSig
  repeat' (first | (simp +zetaDelta [*]; done) | split)
@[simp] theorem State.sigApplied_fixed (x0 : State) (x1 : Sig) : (State.sigApplied x0 x1).fixed = x0.fixed := by
  unfold State.sigApplied
  split <;> simp
@[simp] theorem State.holdArrival_fixed (x0 : State) (x1 : Nat) (x2 : Nat) (x3 : Bar) : (State.holdArrival x0 x1 x2 x3).fixed = x0.fixed := by
  unfold State.holdArrival
  repeat' (first | (simp +zetaDelta [*]; done) | split)
@[simp] theorem State.applySig_fixed (x0 : State) (x1 : Sig) : (State.applySig x0 x1).fixed = x0.fixed := by
  unfold State.applySig
  all_goals repeat' (first | (simp +zetaDelta [*]; done) | (split <;> try (rename_i h_; have k_ := pair_arg h_; simp at k_)) | (refine fold_to (fun _ _ => ?_) ?_) | (refine fold2_to (fun _ _ => ?_) ?_) | (refine fold1_to (fun _ _ => ?_) ?_) | (refine fold22_to (fun _ _ => ?_) ?_) | simp +zetaDelta only [State.fixed_mk, State.fixed_eta, apply_ite State.fixed] | simp +zetaDelta [*])
@[simp] theorem State.sendPosted_fixed (x0 : Nat) (x1 : State) : (State.sendPosted x0 x1).fixed = x1.fixed := by
  fun_induction State.sendPosted x0 x1 <;> simp +zetaDelta [*]
theorem State.sourceNext_fixed (x0 : State) (x1 : Nat) : ∀ r, (State.sourceNext x0 x1) = some r → r.2.fixed = x0.fixed := by
  intro r h
  unfold State.sourceNext at h
  split at h
  · split at h <;> simp at h
    subst h; simp
  · split at h <;> simp at h
    subst h; simp
  · simp only [Option.map_eq_some_iff] at h
    obtain ⟨_, _, rfl⟩ := h
    simp
  · simp at h
@[simp] theorem State.refillOne_fixed (x0 : State) : (State.refillOne x0).1.fixed = x0.fixed := by
  unfold State.refillOne
  split
  · rfl
  · split
    · rename_i h
      obtain ⟨a, _, h⟩ := List.exists_of_findSome?_eq_some h
      simp only [Option.map_eq_some_iff] at h
      obtain ⟨r, h, e⟩ := h
      have := State.sourceNext_fixed _ _ _ h
      cases e
      simpa using this
    · rfl
@[simp] theorem State.refill_fixed (x0 : Nat) (x1 : State) : (State.refill x0 x1).fixed = x1.fixed := by
  fun_induction State.refill x0 x1 <;> simp_all
@[simp] theorem State.galleryPop_fixed (x0 : State) : (State.galleryPop x0).fixed = x0.fixed := by
  unfold State.galleryPop
  split <;> simp
@[simp] theorem State.drainGallery_fixed (x0 : Nat) (x1 : State) : (State.drainGallery x0 x1).fixed = x1.fixed := by
  induction x0 generalizing x1 with
  | zero => rfl
  | succ n ih =>
    simp only [State.drainGallery]
    repeat' (first | (simp +zetaDelta [*]; done) | split | dsimp only)
@[simp] theorem State.observe_fixed (x0 : State) : (State.observe x0).fixed = x0.fixed := by simp [State.observe]
theorem execGalleryApply_fixed (x0 : State) : ∀ t, (execGalleryApply x0) = .next t → t.fixed = x0.fixed := by
  rintro t ⟨⟩
  split <;> simp
theorem execFifoRoom_fixed (x0 : State) : ∀ t, (execFifoRoom x0) = .next t → t.fixed = x0.fixed := by
  rintro t ⟨⟩
  split <;> simp
@[simp] theorem State.waitTimeout_fixed (x0 : State) (x1 : Nat) : (State.waitTimeout x0 x1).fixed = x0.fixed := by
  unfold State.waitTimeout
  split <;> simp
theorem execWaitTimeout_fixed (x0 : Nat) (x1 : State) : ∀ t, (execWaitTimeout x0 x1) = .next t → t.fixed = x1.fixed := by
  rintro t ⟨⟩
  split <;> simp

end Sys2Proof.Machine
end

