-- ==== Sys2Proof/Laws/KeptAccess.lean ====
section
/-! SUPPORT. What the operations of Machine/Access.lean keep: the queue and the fuse bank. -/

namespace Sys2Proof.Machine

set_option linter.all false

@[simp] theorem State.gatherPiece_fixed (x0 : State) (x1 : Nat) (x2 : Tbl (Option Byte)) (x3 : Nat) (x4 : Nat) (x5 : Nat) (x6 : Nat) : (State.gatherPiece x0 x1 x2 x3 x4 x5 x6).2.fixed = x0.fixed := by
  unfold State.gatherPiece
  all_goals repeat' (first | (simp +zetaDelta [*]; done) | (split <;> try (rename_i h_; have k_ := pair_arg h_; simp at k_)) | (refine fold_to (fun _ _ => ?_) ?_) | (refine fold2_to (fun _ _ => ?_) ?_) | (refine fold1_to (fun _ _ => ?_) ?_) | (refine fold22_to (fun _ _ => ?_) ?_) | simp +zetaDelta only [State.fixed_mk, State.fixed_eta, apply_ite State.fixed] | simp +zetaDelta [*])
@[simp] theorem State.gatherPieces_fixed (x0 : State) (x1 : Nat) (x2 : Tbl (Option Byte)) (x3 : Nat) (x4 : Nat) (x5 : List (Nat × Nat)) : (State.gatherPieces x0 x1 x2 x3 x4 x5).2.fixed = x0.fixed := by
  fun_induction State.gatherPieces x0 x1 x2 x3 x4 x5 <;> simp +zetaDelta [*]
@[simp] theorem State.gather_fixed (x0 : State) (x1 : Nat) (x2 : Tbl (Option Byte)) (x3 : Nat) (x4 : Nat) (x5 : Nat) : (State.gather x0 x1 x2 x3 x4 x5).2.fixed = x0.fixed := by simp [State.gather]
@[simp] theorem State.checkPieces_fixed (x0 : State) (x1 : Nat) (x2 : Nat) (x3 : Nat) (x4 : Bool) (x5 : List (Nat × Nat)) : (State.checkPieces x0 x1 x2 x3 x4 x5).2.fixed = x0.fixed := by
  induction x5 generalizing x0 with
  | nil => rfl
  | cons p ps ih =>
    simp only [State.checkPieces]
    split
    · rfl
    · split <;> (rename_i h_; have k_ := pair_arg h_; simp at k_) <;> (try split) <;> simp [*]
@[simp] theorem State.ask_fixed (x0 : State) (x1 : ℕ) (x2 : Bool) (x3 : Bool) (x4 : ℕ × ℕ × AskTo) (x5 : ℕ → ℕ → Purpose) (x6 : ℕ → ℕ → HostFor) : (State.ask x0 x1 x2 x3 x4 x5 x6).fixed = x0.fixed := by
  unfold State.ask
  dsimp only
  all_goals repeat' (first | (simp +zetaDelta [*]; done) | (split <;> try (rename_i h_; have k_ := pair_arg h_; simp at k_)) | (refine fold_to (fun _ _ => ?_) ?_) | (refine fold2_to (fun _ _ => ?_) ?_) | (refine fold1_to (fun _ _ => ?_) ?_) | (refine fold22_to (fun _ _ => ?_) ?_) | (refine (State.startXferBy_fixed _ _ _ (fun _ _ => ?_)).trans ?_) | (refine (State.newXferBy_fixed _ _ _ _ _ (fun _ _ => ?_)).trans ?_) | (refine (State.request_fixed _ _ _ _ (fun _ => ?_)).trans ?_) | (refine (State.hostWrite_fixed _ _ _ _ (fun _ => ?_)).trans ?_) | (refine (State.hostLoad_fixed _ _ _ _ (fun _ => ?_)).trans ?_) | (refine (State.atOnce_fixed _ _ (fun _ => ?_)).trans ?_) | (refine (State.settleBar_fixed _ _ _ _ (fun _ _ _ => ?_)).trans ?_) | (refine (State.runCmd_fixed _ _ _ (fun _ _ _ => ?_)).trans ?_) | (refine (State.carryConf_fixed _ _ _ _ _ (fun _ => ?_)).trans ?_) | (refine (State.onI2c_fixed _ _ _ (fun _ => ?_)).trans ?_) | (refine (State.inRecovery_fixed _ _ _ (fun _ => ?_)).trans ?_) | (refine (State.mailboxWrite_fixed _ _ _ (fun _ => ?_)).trans ?_) | (refine (State.vfMailbox_fixed _ _ (fun _ => ?_)).trans ?_) | (refine (State.orReserved_fixed _ _ _ _ (fun _ => ?_)).trans ?_) | (refine (State.sqSetup_fixed _ _ _ _ (fun _ => ?_)).trans ?_) | (refine (State.onSq_fixed _ _ _ _ (fun _ _ => ?_)).trans ?_) | (refine (State.onCq_fixed _ _ _ _ (fun _ _ => ?_)).trans ?_) | (refine (State.endRead_fixed _ _ _ (fun _ => ?_)).trans ?_) | simp +zetaDelta only [State.fixed_mk, State.fixed_eta, apply_ite State.fixed] | simp +zetaDelta [*])
@[simp] theorem State.holdReq_fixed (x0 : State) (x1 : Nat) (x2 : Part) : (State.holdReq x0 x1 x2).fixed = x0.fixed := by simp [State.holdReq]
@[simp] theorem State.opGather_fixed (x0 : State) (x1 : Nat) (x2 : Got × State) (h : x2.2.fixed = x0.fixed) : (State.opGather x0 x1 x2).2.fixed = x0.fixed := by
  unfold State.opGather
  split
  · rfl
  · split <;> simp [h]
    refine fold_to (fun _ _ => by simp) h
@[simp] theorem State.opStage_fixed (x0 : State) (x1 : Nat) (x2 : Nat) (x3 : List Byte) : (State.opStage x0 x1 x2 x3).fixed = x0.fixed := by simp [State.opStage]
@[simp] theorem State.ctxStage_fixed (x0 : State) (x1 : Nat) (x2 : Nat) (x3 : List Byte) : (State.ctxStage x0 x1 x2 x3).fixed = x0.fixed := by simp [State.ctxStage]
@[simp] theorem State.gatherOper_fixed (x0 : State) (x1 : Nat) (x2 : Tbl (Option Byte)) (x3 : Oper) : (State.gatherOper x0 x1 x2 x3).2.fixed = x0.fixed := by
  unfold State.gatherOper
  all_goals repeat' (first | (simp +zetaDelta [*]; done) | (split <;> try (rename_i h_; have k_ := pair_arg h_; simp at k_)) | (refine fold_to (fun _ _ => ?_) ?_) | (refine fold2_to (fun _ _ => ?_) ?_) | (refine fold1_to (fun _ _ => ?_) ?_) | (refine fold22_to (fun _ _ => ?_) ?_) | simp +zetaDelta only [State.fixed_mk, State.fixed_eta, apply_ite State.fixed] | simp +zetaDelta [*])
@[simp] theorem State.gatherOpers_fixed (x0 : State) (x1 : Nat) (x2 : Tbl (Option Byte)) (x3 : List Oper) : (State.gatherOpers x0 x1 x2 x3).2.fixed = x0.fixed := by
  fun_induction State.gatherOpers x0 x1 x2 x3 <;> simp +zetaDelta [*]
@[simp] theorem State.rangeEnd_fixed (x0 : State) (x1 : Nat) (x2 : OutRange) : (State.rangeEnd x0 x1 x2).2.2.fixed = x0.fixed := by
  unfold State.rangeEnd
  all_goals repeat' (first | (simp +zetaDelta [*]; done) | (split <;> try (rename_i h_; have k_ := pair_arg h_; simp at k_)) | (refine fold_to (fun _ _ => ?_) ?_) | (refine fold2_to (fun _ _ => ?_) ?_) | (refine fold1_to (fun _ _ => ?_) ?_) | (refine fold22_to (fun _ _ => ?_) ?_) | simp +zetaDelta only [State.fixed_mk, State.fixed_eta, apply_ite State.fixed] | simp +zetaDelta [*])
@[simp] theorem State.storePiece_fixed (x0 : State) (x1 : Nat) (x2 : Nat) (x3 : List Byte) (x4 : Bool) : (State.storePiece x0 x1 x2 x3 x4).2.2.fixed = x0.fixed := by
  unfold State.storePiece
  all_goals repeat' (first | (simp +zetaDelta [*]; done) | (split <;> try (rename_i h_; have k_ := pair_arg h_; simp at k_)) | (refine fold_to (fun _ _ => ?_) ?_) | (refine fold2_to (fun _ _ => ?_) ?_) | (refine fold1_to (fun _ _ => ?_) ?_) | (refine fold22_to (fun _ _ => ?_) ?_) | simp +zetaDelta only [State.fixed_mk, State.fixed_eta, apply_ite State.fixed] | simp +zetaDelta [*])
@[simp] theorem State.noteHost_fixed (x0 : State) (x1 : Nat) (x2 : Nat) : (State.noteHost x0 x1 x2).fixed = x0.fixed := by
  unfold State.noteHost
  all_goals repeat' (first | (simp +zetaDelta [*]; done) | (split <;> try (rename_i h_; have k_ := pair_arg h_; simp at k_)) | (refine fold_to (fun _ _ => ?_) ?_) | (refine fold2_to (fun _ _ => ?_) ?_) | (refine fold1_to (fun _ _ => ?_) ?_) | (refine fold22_to (fun _ _ => ?_) ?_) | simp +zetaDelta only [State.fixed_mk, State.fixed_eta, apply_ite State.fixed] | simp +zetaDelta [*])
@[simp] theorem State.storeAll_fixed (x0 : State) (x1 : ℕ) (x2 : ℕ) (x3 : Bool) (x4 : Bool) (x5 : List OutPiece) : (State.storeAll x0 x1 x2 x3 x4 x5).2.fixed = x0.fixed := by
  induction x5 generalizing x0 x4 with
  | nil => rfl
  | cons p ps ih =>
    have k : (if bit p.dva 47 = true then (x0.storePiece x2 p.dva p.data x3).2.2.noteHost x1 p.dva else (x0.storePiece x2 p.dva p.data x3).2.2).fixed = x0.fixed := by
      split <;> simp
    simp only [State.storeAll]
    split
    · rfl
    · split <;> split <;> simp [ih, k]
@[simp] theorem State.outputs_fixed (x0 : State) (x1 : ℕ) (x2 : List OutRange) : (State.outputs x0 x1 x2).2.2.fixed = x0.fixed := by
  unfold State.outputs
  dsimp only
  all_goals repeat' (first | (simp +zetaDelta [*]; done) | (split <;> try (rename_i h_; have k_ := pair_arg h_; simp at k_)) | (refine fold_to (fun _ _ => ?_) ?_) | (refine fold2_to (fun _ _ => ?_) ?_) | (refine fold1_to (fun _ _ => ?_) ?_) | (refine fold22_to (fun _ _ => ?_) ?_) | (refine (State.startXferBy_fixed _ _ _ (fun _ _ => ?_)).trans ?_) | (refine (State.newXferBy_fixed _ _ _ _ _ (fun _ _ => ?_)).trans ?_) | (refine (State.request_fixed _ _ _ _ (fun _ => ?_)).trans ?_) | (refine (State.hostWrite_fixed _ _ _ _ (fun _ => ?_)).trans ?_) | (refine (State.hostLoad_fixed _ _ _ _ (fun _ => ?_)).trans ?_) | (refine (State.atOnce_fixed _ _ (fun _ => ?_)).trans ?_) | (refine (State.settleBar_fixed _ _ _ _ (fun _ _ _ => ?_)).trans ?_) | (refine (State.runCmd_fixed _ _ _ (fun _ _ _ => ?_)).trans ?_) | (refine (State.carryConf_fixed _ _ _ _ _ (fun _ => ?_)).trans ?_) | (refine (State.onI2c_fixed _ _ _ (fun _ => ?_)).trans ?_) | (refine (State.inRecovery_fixed _ _ _ (fun _ => ?_)).trans ?_) | (refine (State.mailboxWrite_fixed _ _ _ (fun _ => ?_)).trans ?_) | (refine (State.vfMailbox_fixed _ _ (fun _ => ?_)).trans ?_) | (refine (State.orReserved_fixed _ _ _ _ (fun _ => ?_)).trans ?_) | (refine (State.sqSetup_fixed _ _ _ _ (fun _ => ?_)).trans ?_) | (refine (State.onSq_fixed _ _ _ _ (fun _ _ => ?_)).trans ?_) | (refine (State.onCq_fixed _ _ _ _ (fun _ _ => ?_)).trans ?_) | (refine (State.endRead_fixed _ _ _ (fun _ => ?_)).trans ?_) | simp +zetaDelta only [State.fixed_mk, State.fixed_eta, apply_ite State.fixed] | simp +zetaDelta [*])
@[simp] theorem State.opSent_fixed (x0 : State) (x1 : ℕ) (x2 : Bool) (x3 : Wrote) : (State.opSent x0 x1 x2 x3).fixed = x0.fixed := by
  unfold State.opSent
  dsimp only
  all_goals repeat' (first | (simp +zetaDelta [*]; done) | (split <;> try (rename_i h_; have k_ := pair_arg h_; simp at k_)) | (refine fold_to (fun _ _ => ?_) ?_) | (refine fold2_to (fun _ _ => ?_) ?_) | (refine fold1_to (fun _ _ => ?_) ?_) | (refine fold22_to (fun _ _ => ?_) ?_) | (refine (State.startXferBy_fixed _ _ _ (fun _ _ => ?_)).trans ?_) | (refine (State.newXferBy_fixed _ _ _ _ _ (fun _ _ => ?_)).trans ?_) | (refine (State.request_fixed _ _ _ _ (fun _ => ?_)).trans ?_) | (refine (State.hostWrite_fixed _ _ _ _ (fun _ => ?_)).trans ?_) | (refine (State.hostLoad_fixed _ _ _ _ (fun _ => ?_)).trans ?_) | (refine (State.atOnce_fixed _ _ (fun _ => ?_)).trans ?_) | (refine (State.settleBar_fixed _ _ _ _ (fun _ _ _ => ?_)).trans ?_) | (refine (State.runCmd_fixed _ _ _ (fun _ _ _ => ?_)).trans ?_) | (refine (State.carryConf_fixed _ _ _ _ _ (fun _ => ?_)).trans ?_) | (refine (State.onI2c_fixed _ _ _ (fun _ => ?_)).trans ?_) | (refine (State.inRecovery_fixed _ _ _ (fun _ => ?_)).trans ?_) | (refine (State.mailboxWrite_fixed _ _ _ (fun _ => ?_)).trans ?_) | (refine (State.vfMailbox_fixed _ _ (fun _ => ?_)).trans ?_) | (refine (State.orReserved_fixed _ _ _ _ (fun _ => ?_)).trans ?_) | (refine (State.sqSetup_fixed _ _ _ _ (fun _ => ?_)).trans ?_) | (refine (State.onSq_fixed _ _ _ _ (fun _ _ => ?_)).trans ?_) | (refine (State.onCq_fixed _ _ _ _ (fun _ _ => ?_)).trans ?_) | (refine (State.endRead_fixed _ _ _ (fun _ => ?_)).trans ?_) | simp +zetaDelta only [State.fixed_mk, State.fixed_eta, apply_ite State.fixed] | simp +zetaDelta [*])
@[simp] theorem State.opMore_fixed (x0 : State) (x1 : ℕ) : (State.opMore x0 x1).fixed = x0.fixed := by
  unfold State.opMore
  repeat' (first | (simp +zetaDelta [*]; done) | split | dsimp only)
@[simp] theorem State.opWrite_fixed (x0 : State) (x1 : ℕ) (x2 : List OutRange) (x3 : Bool) : (State.opWrite x0 x1 x2 x3).fixed = x0.fixed := by
  unfold State.opWrite
  repeat' (first | (simp +zetaDelta [*]; done) | split | dsimp only)

end Sys2Proof.Machine
end

