-- ==== Sys2Proof/Laws/KeptPackets.lean ====
section
/-! SUPPORT. What the operations of Machine/Packets.lean keep: the queue and the fuse bank. -/

namespace Sys2Proof.Machine

set_option linter.all false

@[simp] theorem State.setWindow_fixed (x0 : State) (x1 : Window256) : (State.setWindow x0 x1).fixed = x0.fixed := by simp [State.setWindow]
@[simp] theorem State.dropDue_fixed (x0 : State) (x1 : ChipId × BitVec 24 × BitVec 6 → Bool) : (State.dropDue x0 x1).fixed = x0.fixed := by simp [State.dropDue]
@[simp] theorem State.windowFor_fixed (x0 : State) (x1 : Packet) : (State.windowFor x0 x1).2.fixed = x0.fixed := by
  unfold State.windowFor
  repeat' (first | (simp +zetaDelta [*]; done) | split)
@[simp] theorem State.passTid_fixed (x0 : State) (x1 : ChipId) (x2 : BitVec 24) : (State.passTid x0 x1 x2).fixed = x0.fixed := by
  unfold State.passTid
  repeat' (first | (simp +zetaDelta [*]; done) | split | dsimp only)
@[simp] theorem State.commitTid_fixed (x0 : State) (x1 : ChipId) (x2 : BitVec 24) (x3 : Nat) : (State.commitTid x0 x1 x2 x3).fixed = x0.fixed := by
  unfold State.commitTid
  all_goals repeat' (first | (simp +zetaDelta [*]; done) | (split <;> try (rename_i h_; have k_ := pair_arg h_; simp at k_)) | (refine fold_to (fun _ _ => ?_) ?_) | (refine fold2_to (fun _ _ => ?_) ?_) | (refine fold1_to (fun _ _ => ?_) ?_) | (refine fold22_to (fun _ _ => ?_) ?_) | simp +zetaDelta only [State.fixed_mk, State.fixed_eta, apply_ite State.fixed] | simp +zetaDelta [*])
@[simp] theorem State.dropTracker_fixed (x0 : State) (x1 : ChipId) (x2 : BitVec 24) : (State.dropTracker x0 x1 x2).fixed = x0.fixed := by simp [State.dropTracker]
@[simp] theorem State.setTracker_fixed (x0 : State) (x1 : Tracker) : (State.setTracker x0 x1).fixed = x0.fixed := by simp [State.setTracker]
@[simp] theorem State.setSlot_fixed (x0 : State) (x1 : Nat) (x2 : Option Slot) : (State.setSlot x0 x1 x2).fixed = x0.fixed := by simp [State.setSlot]
@[simp] theorem State.badTarget_fixed (x0 : State) (x1 : Packet) : (State.badTarget x0 x1).fixed = x0.fixed := by simp [State.badTarget]
@[simp] theorem State.commitBytes_fixed (x0 : State) (x1 : Packet) : (State.commitBytes x0 x1).2.fixed = x0.fixed := by
  unfold State.commitBytes
  all_goals repeat' (first | (simp +zetaDelta [*]; done) | (split <;> try (rename_i h_; have k_ := pair_arg h_; simp at k_)) | (refine fold_to (fun _ _ => ?_) ?_) | (refine fold2_to (fun _ _ => ?_) ?_) | (refine fold1_to (fun _ _ => ?_) ?_) | (refine fold22_to (fun _ _ => ?_) ?_) | (refine (State.startXferBy_fixed _ _ _ (fun _ _ => ?_)).trans ?_) | (refine (State.newXferBy_fixed _ _ _ _ _ (fun _ _ => ?_)).trans ?_) | (refine (State.request_fixed _ _ _ _ (fun _ => ?_)).trans ?_) | (refine (State.hostWrite_fixed _ _ _ _ (fun _ => ?_)).trans ?_) | (refine (State.hostLoad_fixed _ _ _ _ (fun _ => ?_)).trans ?_) | (refine (State.atOnce_fixed _ _ (fun _ => ?_)).trans ?_) | (refine (State.settleBar_fixed _ _ _ _ (fun _ _ _ => ?_)).trans ?_) | (refine (State.runCmd_fixed _ _ _ (fun _ _ _ => ?_)).trans ?_) | (refine (State.carryConf_fixed _ _ _ _ _ (fun _ => ?_)).trans ?_) | (refine (State.onI2c_fixed _ _ _ (fun _ => ?_)).trans ?_) | (refine (State.inRecovery_fixed _ _ _ (fun _ => ?_)).trans ?_) | (refine (State.mailboxWrite_fixed _ _ _ (fun _ => ?_)).trans ?_) | (refine (State.vfMailbox_fixed _ _ (fun _ => ?_)).trans ?_) | (refine (State.orReserved_fixed _ _ _ _ (fun _ => ?_)).trans ?_) | (refine (State.sqSetup_fixed _ _ _ _ (fun _ => ?_)).trans ?_) | (refine (State.onSq_fixed _ _ _ _ (fun _ _ => ?_)).trans ?_) | (refine (State.onCq_fixed _ _ _ _ (fun _ _ => ?_)).trans ?_) | (refine (State.endRead_fixed _ _ _ (fun _ => ?_)).trans ?_) | simp +zetaDelta only [State.fixed_mk, State.fixed_eta, apply_ite State.fixed] | simp +zetaDelta [*])
@[simp] theorem State.reportRefusal_fixed (x0 : State) (x1 : Packet) (x2 : ℕ) : (State.reportRefusal x0 x1 x2).fixed = x0.fixed := by
  unfold State.reportRefusal
  repeat' (first | (simp +zetaDelta [*]; done) | split | dsimp only)
@[simp] theorem State.commitData_fixed (x0 : State) (x1 : Packet) : (State.commitData x0 x1).2.fixed = x0.fixed := by
  unfold State.commitData
  all_goals repeat' (first | (simp +zetaDelta [*]; done) | (split <;> try (rename_i h_; have k_ := pair_arg h_; simp at k_)) | (refine fold_to (fun _ _ => ?_) ?_) | (refine fold2_to (fun _ _ => ?_) ?_) | (refine fold1_to (fun _ _ => ?_) ?_) | (refine fold22_to (fun _ _ => ?_) ?_) | simp +zetaDelta only [State.fixed_mk, State.fixed_eta, apply_ite State.fixed] | simp +zetaDelta [*])
@[simp] theorem State.freedSlot_fixed (x0 : State) (x1 : Option Nat) : (State.freedSlot x0 x1).fixed = x0.fixed := by
  unfold State.freedSlot
  all_goals repeat' (first | (simp +zetaDelta [*]; done) | (split <;> try (rename_i h_; have k_ := pair_arg h_; simp at k_)) | (refine fold_to (fun _ _ => ?_) ?_) | (refine fold2_to (fun _ _ => ?_) ?_) | (refine fold1_to (fun _ _ => ?_) ?_) | (refine fold22_to (fun _ _ => ?_) ?_) | simp +zetaDelta only [State.fixed_mk, State.fixed_eta, apply_ite State.fixed] | simp +zetaDelta [*])
@[simp] theorem State.putInc_fixed (x0 : State) (x1 : Packet) : (State.putInc x0 x1).fixed = x0.fixed := by simp [State.putInc]
theorem State.putSig_fixed (x0 : State) (x1 : Packet) : ∀ r, (State.putSig x0 x1) = some r → r.2.fixed = x0.fixed := by
  intro r h
  unfold State.putSig at h
  dsimp only at h
  generalize (x0.objVerdict (sigObjKind x1.kind.toNat) x1.obj.toNat x1.inst.toNat) = v at h
  by_cases h0 : x1.isIncrement = true
  · rw [if_pos h0] at h; cases h; simp
  · rw [if_neg h0] at h
    by_cases h1 : v = 0x10
    · rw [if_pos h1] at h; cases h; simp
    · rw [if_neg h1] at h
      by_cases h2 : v ≠ 0
      · rw [if_pos h2] at h; cases h; rfl
      · rw [if_neg h2] at h
        split at h
        · cases h; simp
        · split at h
          · cases h; simp
          · cases h
theorem State.releaseSig_fixed (x0 : State) (x1 : Packet) (x2 : Option Nat) : ∀ r, (State.releaseSig x0 x1 x2) = some r → r.2.fixed = x0.fixed := by
  intro r h
  have := State.putSig_fixed _ _ _ h
  simpa using this
@[simp] theorem State.parkTail_fixed (x0 : State) (x1 : Packet) : (State.parkTail x0 x1).fixed = x0.fixed := by
  unfold State.parkTail
  cases k : x0.freeSlot <;> split <;> simp
@[simp] theorem State.endPart_fixed (x0 : State) (x1 : Packet) (x2 : Nat) : (State.endPart x0 x1 x2).2.fixed = x0.fixed := by
  unfold State.endPart
  split
  · rfl
  · split
    · simp
    · split
      · rfl
      · split
        · rename_i h
          have := State.releaseSig_fixed _ _ _ _ h
          simpa using this
        · rfl
@[simp] theorem State.takePart_fixed (x0 : State) (x1 : Packet) : (State.takePart x0 x1).2.fixed = x0.fixed := by
  unfold State.takePart
  all_goals repeat' (first | (simp +zetaDelta [*]; done) | (split <;> try (rename_i h_; have k_ := pair_arg h_; simp at k_)) | (refine fold_to (fun _ _ => ?_) ?_) | (refine fold2_to (fun _ _ => ?_) ?_) | (refine fold1_to (fun _ _ => ?_) ?_) | (refine fold22_to (fun _ _ => ?_) ?_) | simp +zetaDelta only [State.fixed_mk, State.fixed_eta, apply_ite State.fixed] | simp +zetaDelta [*])
@[simp] theorem State.dropXferCopies_fixed (x0 : State) (x1 : ChipId) (x2 : BitVec 24) : (State.dropXferCopies x0 x1 x2).fixed = x0.fixed := by simp [State.dropXferCopies]
@[simp] theorem State.takeWrite_fixed (x0 : State) (x1 : Packet) : (State.takeWrite x0 x1).2.fixed = x0.fixed := by
  unfold State.takeWrite
  split
  · dsimp only
    split <;> simp
  · split
    · rfl
    · split
      · split
        · rfl
        · dsimp only
          split
          · simp
          · split
            · rename_i h
              have := State.releaseSig_fixed _ _ _ _ h
              simpa using this
            · rfl
      · simp
@[simp] theorem State.sendRsp_fixed (x0 : State) (x1 : Packet) (x2 : Nat) (x3 : Nat) (x4 : Nat) (x5 : List Byte) : (State.sendRsp x0 x1 x2 x3 x4 x5).fixed = x0.fixed := by simp [State.sendRsp]
@[simp] theorem State.abandonRead_fixed (x0 : State) (x1 : Packet) : (State.abandonRead x0 x1).fixed = x0.fixed := by simp [State.abandonRead]
@[simp] theorem State.takeRead_fixed (x0 : State) (x1 : Packet) : (State.takeRead x0 x1).2.fixed = x0.fixed := by
  unfold State.takeRead
  all_goals repeat' (first | (simp +zetaDelta [*]; done) | (split <;> try (rename_i h_; have k_ := pair_arg h_; simp at k_)) | (refine fold_to (fun _ _ => ?_) ?_) | (refine fold2_to (fun _ _ => ?_) ?_) | (refine fold1_to (fun _ _ => ?_) ?_) | (refine fold22_to (fun _ _ => ?_) ?_) | simp +zetaDelta only [State.fixed_mk, State.fixed_eta, apply_ite State.fixed] | simp +zetaDelta [*])
@[simp] theorem State.oweOrd_fixed (x0 : State) (x1 : Packet) : (State.oweOrd x0 x1).fixed = x0.fixed := by
  unfold State.oweOrd
  split <;> simp
@[simp] theorem State.dropCopies_fixed (x0 : State) (x1 : Packet) : (State.dropCopies x0 x1).fixed = x0.fixed := by simp [State.dropCopies]
@[simp] theorem State.settle_fixed (x0 : State) (x1 : Packet) (x2 : Fate) : (State.settle x0 x1 x2).fixed = x0.fixed := by
  unfold State.settle
  split <;> simp
@[simp] theorem State.holdFor_fixed (x0 : State) (x1 : Part) (x2 : Packet) : (State.holdFor x0 x1 x2).fixed = x0.fixed := by simp [State.holdFor]
@[simp] theorem State.refuseEpoch_fixed (x0 : State) (x1 : Packet) : (State.refuseEpoch x0 x1).fixed = x0.fixed := by
  unfold State.refuseEpoch
  all_goals repeat' (first | (simp +zetaDelta [*]; done) | (split <;> try (rename_i h_; have k_ := pair_arg h_; simp at k_)) | (refine fold_to (fun _ _ => ?_) ?_) | (refine fold2_to (fun _ _ => ?_) ?_) | (refine fold1_to (fun _ _ => ?_) ?_) | (refine fold22_to (fun _ _ => ?_) ?_) | (refine (State.startXferBy_fixed _ _ _ (fun _ _ => ?_)).trans ?_) | (refine (State.newXferBy_fixed _ _ _ _ _ (fun _ _ => ?_)).trans ?_) | (refine (State.request_fixed _ _ _ _ (fun _ => ?_)).trans ?_) | (refine (State.hostWrite_fixed _ _ _ _ (fun _ => ?_)).trans ?_) | (refine (State.hostLoad_fixed _ _ _ _ (fun _ => ?_)).trans ?_) | (refine (State.atOnce_fixed _ _ (fun _ => ?_)).trans ?_) | (refine (State.settleBar_fixed _ _ _ _ (fun _ _ _ => ?_)).trans ?_) | (refine (State.runCmd_fixed _ _ _ (fun _ _ _ => ?_)).trans ?_) | (refine (State.carryConf_fixed _ _ _ _ _ (fun _ => ?_)).trans ?_) | (refine (State.onI2c_fixed _ _ _ (fun _ => ?_)).trans ?_) | (refine (State.inRecovery_fixed _ _ _ (fun _ => ?_)).trans ?_) | (refine (State.mailboxWrite_fixed _ _ _ (fun _ => ?_)).trans ?_) | (refine (State.vfMailbox_fixed _ _ (fun _ => ?_)).trans ?_) | (refine (State.orReserved_fixed _ _ _ _ (fun _ => ?_)).trans ?_) | (refine (State.sqSetup_fixed _ _ _ _ (fun _ => ?_)).trans ?_) | (refine (State.onSq_fixed _ _ _ _ (fun _ _ => ?_)).trans ?_) | (refine (State.onCq_fixed _ _ _ _ (fun _ _ => ?_)).trans ?_) | (refine (State.endRead_fixed _ _ _ (fun _ => ?_)).trans ?_) | simp +zetaDelta only [State.fixed_mk, State.fixed_eta, apply_ite State.fixed] | simp +zetaDelta [*])
@[simp] theorem State.updXfer_fixed (x0 : State) (x1 : Xfer) (x2 : Xfer → Xfer) : (State.updXfer x0 x1 x2).fixed = x0.fixed := by simp [State.updXfer]
@[simp] theorem State.endXfer_fixed (x0 : State) (x1 : Xfer) : (State.endXfer x0 x1).fixed = x0.fixed := by simp [State.endXfer]
@[simp] theorem State.countAnswer_fixed (x0 : State) (x1 : Packet) : (State.countAnswer x0 x1).fixed = x0.fixed := by
  unfold State.countAnswer
  split <;> simp
@[simp] theorem State.heard_fixed (x0 : State) (x1 : Xfer) : (State.heard x0 x1).fixed = x0.fixed := by simp [State.heard]
@[simp] theorem State.noteXferErr_fixed (x0 : State) (x1 : Xfer) (x2 : Err) : (State.noteXferErr x0 x1 x2).fixed = x0.fixed := by
  unfold State.noteXferErr
  repeat' (first | (simp +zetaDelta [*]; done) | split | dsimp only)
@[simp] theorem State.xferFail_fixed (x0 : State) (x1 : Xfer) (x2 : Err) : (State.xferFail x0 x1 x2).fixed = x0.fixed := by
  unfold State.xferFail
  repeat' (first | (simp +zetaDelta [*]; done) | split)
@[simp] theorem State.xferDone_fixed (x0 : State) (x1 : Xfer) : (State.xferDone x0 x1).fixed = x0.fixed := by
  unfold State.xferDone
  repeat' (first | (simp +zetaDelta [*]; done) | split)
@[simp] theorem State.applyAck_fixed (x0 : State) (x1 : Xfer) (x2 : Nat) : (State.applyAck x0 x1 x2).fixed = x0.fixed := by
  unfold State.applyAck
  repeat' (first | (simp +zetaDelta [*]; done) | split)
@[simp] theorem State.resendPkts_fixed (x0 : State) (x1 : Xfer) (x2 : List Packet) : (State.resendPkts x0 x1 x2).fixed = x0.fixed := by
  simp only [State.resendPkts]
  exact fold_to (fun _ _ => by simp) (by simp)
@[simp] theorem State.resendAll_fixed (x0 : State) (x1 : Xfer) : (State.resendAll x0 x1).fixed = x0.fixed := by simp [State.resendAll]
@[simp] theorem State.giveUp_fixed (x0 : State) (x1 : Xfer) : (State.giveUp x0 x1).fixed = x0.fixed := by simp [State.giveUp]
@[simp] theorem State.producer_fixed (x0 : State) (x1 : Nat) (x2 : Word32) : (State.producer x0 x1 x2).fixed = x0.fixed := by
  unfold State.producer
  all_goals repeat' (first | (simp +zetaDelta [*]; done) | (split <;> try (rename_i h_; have k_ := pair_arg h_; simp at k_)) | (refine fold_to (fun _ _ => ?_) ?_) | (refine fold2_to (fun _ _ => ?_) ?_) | (refine fold1_to (fun _ _ => ?_) ?_) | (refine fold22_to (fun _ _ => ?_) ?_) | simp +zetaDelta only [State.fixed_mk, State.fixed_eta, apply_ite State.fixed] | simp +zetaDelta [*])
@[simp] theorem State.readData_fixed (x0 : State) (x1 : Xfer) (x2 : Packet) : (State.readData x0 x1 x2).fixed = x0.fixed := by
  unfold State.readData
  repeat' (first | (simp +zetaDelta [*]; done) | split)
@[simp] theorem State.takeRsp_fixed (x0 : State) (x1 : Xfer) (x2 : Packet) : (State.takeRsp x0 x1 x2).fixed = x0.fixed := by
  unfold State.takeRsp
  all_goals repeat' (first | (simp +zetaDelta [*]; done) | (split <;> try (rename_i h_; have k_ := pair_arg h_; simp at k_)) | (refine fold_to (fun _ _ => ?_) ?_) | (refine fold2_to (fun _ _ => ?_) ?_) | (refine fold1_to (fun _ _ => ?_) ?_) | (refine fold22_to (fun _ _ => ?_) ?_) | simp +zetaDelta only [State.fixed_mk, State.fixed_eta, apply_ite State.fixed] | simp +zetaDelta [*])
/-- Ordered packets that are taken now keep what the taker keeps. -/
theorem State.releaseOrd_keeps (take : Taker) (h : ∀ (t : State) (p : Packet), t.Keeps (take t p).2) (n : Nat) (s : State) : s.Keeps (State.releaseOrd take n s) := by
  induction n generalizing s with
  | zero => exact State.keeps_of rfl
  | succ n ih =>
    simp only [State.releaseOrd]
    split
    · exact State.keeps_of rfl
    · refine State.Keeps.trans ?_ (ih _)
      refine State.Keeps.then_ ?_ (State.settle_fixed _ _ _)
      refine State.Keeps.trans ?_ (h _ _)
      exact State.keeps_of rfl
@[simp] theorem State.holdOrd_fixed (s : State) (p : List Packet) : ({ s with fab := { s.fab with ordHeld := p } } : State).fixed = s.fixed := rfl
theorem State.passOn_keeps (take : Taker) (h : ∀ (t : State) (p : Packet), t.Keeps (take t p).2) (s : State) (p : Packet) : s.Keeps (State.passOn take s p) := by
  unfold State.passOn
  dsimp only
  split
  · exact State.keeps_of (by simp)
  · split
    · exact State.keeps_of (by simp)
    · split
      · exact State.keeps_of (by simp)
      · refine State.Keeps.trans ?_ (State.releaseOrd_keeps take h _ _)
        refine State.Keeps.then_ ?_ (State.settle_fixed _ _ _)
        exact State.Keeps.after (State.dropCopies_fixed s p) (h _ p)
theorem State.readAgain_keeps (take : Taker) (h : ∀ (t : State) (p : Packet), t.Keeps (take t p).2) (s : State) (p : Packet) : s.Keeps (State.readAgain take s p) := by
  unfold State.readAgain
  split
  · exact State.keeps_of (by simp)
  · dsimp only
    split
    · exact (h s p).then_ (by simp)
    · exact h s p
/-- A packet delivered keeps what the taker keeps. -/
theorem State.deliver_keeps (take : Taker) (h : ∀ (t : State) (p : Packet), t.Keeps (take t p).2) (s : State) (p : Packet) : s.Keeps (State.deliver take s p) := by
  unfold State.deliver
  split
  · exact State.keeps_of rfl
  · split
    · exact State.keeps_of (by simp)
    · split
      · exact State.keeps_of (by simp)
      · split
        · exact State.keeps_of (by simp)
        · split
          · exact (State.keeps_of (by simp)).trans (State.releaseOrd_keeps take h _ _)
          · split <;> (rename_i e; have k := pair_arg e; simp at k)
            · exact State.keeps_of k
            · exact State.keeps_of (by simp [k])
            · split
              · split
                · exact (State.keeps_of k).trans (State.readAgain_keeps take h _ _)
                · exact State.keeps_of (by simp [k])
              · exact State.Keeps.trans (State.keeps_of (by split <;> simp [k])) (State.passOn_keeps take h _ _)

end Sys2Proof.Machine
end

