-- ==== Sys2Proof/Laws/KeptRings.lean ====
section
/-! SUPPORT. What the operations of Machine/Rings.lean keep: the queue and the fuse bank. -/

namespace Sys2Proof.Machine

set_option linter.all false

@[simp] theorem State.ringElsewhere_fixed (x0 : State) (x1 : Nat) (x2 : Nat) (x3 : JRec) : (State.ringElsewhere x0 x1 x2 x3).fixed = x0.fixed := by
  unfold State.ringElsewhere
  split <;> simp
@[simp] theorem State.consumer_fixed (x0 : State) (x1 : Nat) (x2 : Word32) : (State.consumer x0 x1 x2).fixed = x0.fixed := by
  unfold State.consumer
  all_goals repeat' (first | (simp +zetaDelta [*]; done) | (split <;> try (rename_i h_; have k_ := pair_arg h_; simp at k_)) | (refine fold_to (fun _ _ => ?_) ?_) | (refine fold2_to (fun _ _ => ?_) ?_) | (refine fold1_to (fun _ _ => ?_) ?_) | (refine fold22_to (fun _ _ => ?_) ?_) | simp +zetaDelta only [State.fixed_mk, State.fixed_eta, apply_ite State.fixed] | simp +zetaDelta [*])
@[simp] theorem State.sqDb_fixed (x0 : State) (x1 : Nat) (x2 : Nat) (x3 : Word32) : (State.sqDb x0 x1 x2 x3).fixed = x0.fixed := by
  unfold State.sqDb
  repeat' (first | (simp +zetaDelta [*]; done) | split)
@[simp] theorem State.cqDb_fixed (x0 : State) (x1 : Nat) (x2 : Nat) (x3 : Word32) : (State.cqDb x0 x1 x2 x3).fixed = x0.fixed := by
  unfold State.cqDb
  repeat' (first | (simp +zetaDelta [*]; done) | split)
theorem execSqDoorbell_fixed (x0 : Nat) (x1 : Nat) (x2 : Word32) (x3 : State) : ∀ t, (execSqDoorbell x0 x1 x2 x3) = .next t → t.fixed = x3.fixed := by
  rintro t ⟨⟩
  simp
theorem execCqDoorbell_fixed (x0 : Nat) (x1 : Nat) (x2 : Word32) (x3 : State) : ∀ t, (execCqDoorbell x0 x1 x2 x3) = .next t → t.fixed = x3.fixed := by
  rintro t ⟨⟩
  simp
@[simp] theorem State.setReserve_fixed (x0 : State) (x1 : BitVec 6) (x2 : BitVec 4) (x3 : BitVec 8) : (State.setReserve x0 x1 x2 x3).fixed = x0.fixed := by simp [State.setReserve]
@[simp] theorem State.tellReserve_fixed (x0 : State) (x1 : ℕ) (x2 : ℕ) : (State.tellReserve x0 x1 x2).fixed = x0.fixed := by
  unfold State.tellReserve
  repeat' (first | (simp +zetaDelta [*]; done) | split | dsimp only)
@[simp] theorem State.enableSq_fixed (x0 : State) (x1 : Nat) (x2 : Nat) (x3 : BitVec 5) : (State.enableSq x0 x1 x2 x3).fixed = x0.fixed := by
  unfold State.enableSq
  all_goals repeat' (first | (simp +zetaDelta [*]; done) | (split <;> try (rename_i h_; have k_ := pair_arg h_; simp at k_)) | (refine fold_to (fun _ _ => ?_) ?_) | (refine fold2_to (fun _ _ => ?_) ?_) | (refine fold1_to (fun _ _ => ?_) ?_) | (refine fold22_to (fun _ _ => ?_) ?_) | simp +zetaDelta only [State.fixed_mk, State.fixed_eta, apply_ite State.fixed] | simp +zetaDelta [*])
@[simp] theorem State.enableCq_fixed (x0 : State) (x1 : Nat) (x2 : Nat) (x3 : BitVec 5) : (State.enableCq x0 x1 x2 x3).fixed = x0.fixed := by
  unfold State.enableCq
  all_goals repeat' (first | (simp +zetaDelta [*]; done) | (split <;> try (rename_i h_; have k_ := pair_arg h_; simp at k_)) | (refine fold_to (fun _ _ => ?_) ?_) | (refine fold2_to (fun _ _ => ?_) ?_) | (refine fold1_to (fun _ _ => ?_) ?_) | (refine fold22_to (fun _ _ => ?_) ?_) | simp +zetaDelta only [State.fixed_mk, State.fixed_eta, apply_ite State.fixed] | simp +zetaDelta [*])
@[simp] theorem State.instError_fixed (x0 : State) (x1 : Nat) (x2 : Nat) : (State.instError x0 x1 x2).fixed = x0.fixed := by
  unfold State.instError
  split <;> simp
@[simp] theorem State.enableDr_fixed (x0 : State) (x1 : Nat) (x2 : Nat) (x3 : BitVec 5) : (State.enableDr x0 x1 x2 x3).fixed = x0.fixed := by
  unfold State.enableDr
  all_goals repeat' (first | (simp +zetaDelta [*]; done) | (split <;> try (rename_i h_; have k_ := pair_arg h_; simp at k_)) | (refine fold_to (fun _ _ => ?_) ?_) | (refine fold2_to (fun _ _ => ?_) ?_) | (refine fold1_to (fun _ _ => ?_) ?_) | (refine fold22_to (fun _ _ => ?_) ?_) | simp +zetaDelta only [State.fixed_mk, State.fixed_eta, apply_ite State.fixed] | simp +zetaDelta [*])
@[simp] theorem State.ringSize_fixed (x0 : State) (x1 : RingKind) (x2 : Nat) (x3 : Nat) (x4 : BitVec 5) : (State.ringSize x0 x1 x2 x3 x4).fixed = x0.fixed := by
  unfold State.ringSize
  repeat' (first | (simp +zetaDelta [*]; done) | split)
theorem execRingEnable_fixed (x0 : RingKind) (x1 : Nat) (x2 : Nat) (x3 : BitVec 5) (x4 : State) : ∀ t, (execRingEnable x0 x1 x2 x3 x4) = .next t → t.fixed = x4.fixed := by
  rintro t ⟨⟩
  simp
@[simp] theorem State.pollRing_fixed (x0 : State) (x1 : ℕ) : (State.pollRing x0 x1).fixed = x0.fixed := by
  unfold State.pollRing
  all_goals repeat' (first | (simp +zetaDelta [*]; done) | (split <;> try (rename_i h_; have k_ := pair_arg h_; simp at k_)) | (refine fold_to (fun _ _ => ?_) ?_) | (refine fold2_to (fun _ _ => ?_) ?_) | (refine fold1_to (fun _ _ => ?_) ?_) | (refine fold22_to (fun _ _ => ?_) ?_) | (refine (State.startXferBy_fixed _ _ _ (fun _ _ => ?_)).trans ?_) | (refine (State.newXferBy_fixed _ _ _ _ _ (fun _ _ => ?_)).trans ?_) | (refine (State.request_fixed _ _ _ _ (fun _ => ?_)).trans ?_) | (refine (State.hostWrite_fixed _ _ _ _ (fun _ => ?_)).trans ?_) | (refine (State.hostLoad_fixed _ _ _ _ (fun _ => ?_)).trans ?_) | (refine (State.atOnce_fixed _ _ (fun _ => ?_)).trans ?_) | (refine (State.settleBar_fixed _ _ _ _ (fun _ _ _ => ?_)).trans ?_) | (refine (State.runCmd_fixed _ _ _ (fun _ _ _ => ?_)).trans ?_) | (refine (State.carryConf_fixed _ _ _ _ _ (fun _ => ?_)).trans ?_) | (refine (State.onI2c_fixed _ _ _ (fun _ => ?_)).trans ?_) | (refine (State.inRecovery_fixed _ _ _ (fun _ => ?_)).trans ?_) | (refine (State.mailboxWrite_fixed _ _ _ (fun _ => ?_)).trans ?_) | (refine (State.vfMailbox_fixed _ _ (fun _ => ?_)).trans ?_) | (refine (State.orReserved_fixed _ _ _ _ (fun _ => ?_)).trans ?_) | (refine (State.sqSetup_fixed _ _ _ _ (fun _ => ?_)).trans ?_) | (refine (State.onSq_fixed _ _ _ _ (fun _ _ => ?_)).trans ?_) | (refine (State.onCq_fixed _ _ _ _ (fun _ _ => ?_)).trans ?_) | (refine (State.endRead_fixed _ _ _ (fun _ => ?_)).trans ?_) | simp +zetaDelta only [State.fixed_mk, State.fixed_eta, apply_ite State.fixed] | simp +zetaDelta [*])
theorem execShadowPiPoll_fixed (x0 : ℕ) (x1 : State) : ∀ t, (execShadowPiPoll x0 x1) = .next t → t.fixed = x1.fixed := by
  rintro t ⟨⟩
  all_goals repeat' (first | (simp +zetaDelta [*]; done) | (split <;> try (rename_i h_; have k_ := pair_arg h_; simp at k_)) | (refine fold_to (fun _ _ => ?_) ?_) | (refine fold2_to (fun _ _ => ?_) ?_) | (refine fold1_to (fun _ _ => ?_) ?_) | (refine fold22_to (fun _ _ => ?_) ?_) | (refine (State.startXferBy_fixed _ _ _ (fun _ _ => ?_)).trans ?_) | (refine (State.newXferBy_fixed _ _ _ _ _ (fun _ _ => ?_)).trans ?_) | (refine (State.request_fixed _ _ _ _ (fun _ => ?_)).trans ?_) | (refine (State.hostWrite_fixed _ _ _ _ (fun _ => ?_)).trans ?_) | (refine (State.hostLoad_fixed _ _ _ _ (fun _ => ?_)).trans ?_) | (refine (State.atOnce_fixed _ _ (fun _ => ?_)).trans ?_) | (refine (State.settleBar_fixed _ _ _ _ (fun _ _ _ => ?_)).trans ?_) | (refine (State.runCmd_fixed _ _ _ (fun _ _ _ => ?_)).trans ?_) | (refine (State.carryConf_fixed _ _ _ _ _ (fun _ => ?_)).trans ?_) | (refine (State.onI2c_fixed _ _ _ (fun _ => ?_)).trans ?_) | (refine (State.inRecovery_fixed _ _ _ (fun _ => ?_)).trans ?_) | (refine (State.mailboxWrite_fixed _ _ _ (fun _ => ?_)).trans ?_) | (refine (State.vfMailbox_fixed _ _ (fun _ => ?_)).trans ?_) | (refine (State.orReserved_fixed _ _ _ _ (fun _ => ?_)).trans ?_) | (refine (State.sqSetup_fixed _ _ _ _ (fun _ => ?_)).trans ?_) | (refine (State.onSq_fixed _ _ _ _ (fun _ _ => ?_)).trans ?_) | (refine (State.onCq_fixed _ _ _ _ (fun _ _ => ?_)).trans ?_) | (refine (State.endRead_fixed _ _ _ (fun _ => ?_)).trans ?_) | simp +zetaDelta only [State.fixed_mk, State.fixed_eta, apply_ite State.fixed] | simp +zetaDelta [*])
@[simp] theorem State.fetchFail_fixed (x0 : State) (x1 : Nat) (x2 : Nat) : (State.fetchFail x0 x1 x2).fixed = x0.fixed := by
  unfold State.fetchFail
  split <;> simp
@[simp] theorem State.fetchRing_fixed (x0 : State) (x1 : Nat) : (State.fetchRing x0 x1).fixed = x0.fixed := by
  unfold State.fetchRing
  all_goals repeat' (first | (simp +zetaDelta [*]; done) | (split <;> try (rename_i h_; have k_ := pair_arg h_; simp at k_)) | (refine fold_to (fun _ _ => ?_) ?_) | (refine fold2_to (fun _ _ => ?_) ?_) | (refine fold1_to (fun _ _ => ?_) ?_) | (refine fold22_to (fun _ _ => ?_) ?_) | simp +zetaDelta only [State.fixed_mk, State.fixed_eta, apply_ite State.fixed] | simp +zetaDelta [*])
theorem execRingFetch_fixed (x0 : Nat) (x1 : State) : ∀ t, (execRingFetch x0 x1) = .next t → t.fixed = x1.fixed := by
  rintro t ⟨⟩
  simp
@[simp] theorem State.ringArrive_fixed (x0 : State) (x1 : Nat) (x2 : BitVec 32) (x3 : Nat) (x4 : List Byte) : (State.ringArrive x0 x1 x2 x3 x4).fixed = x0.fixed := by simp [State.ringArrive]
@[simp] theorem State.releaseSlots_fixed (x0 : State) (x1 : Nat) (x2 : Nat) : (State.releaseSlots x0 x1 x2).fixed = x0.fixed := by
  induction x2 generalizing x0 with
  | zero => rfl
  | succ n ih =>
    simp only [State.releaseSlots]
    cases (x0.sq x1).unreleased with
    | nil => rfl
    | cons e t => exact (apply_ite State.fixed _ _ _).trans (by simp [ih])
@[simp] theorem State.slotDone_fixed (x0 : State) (x1 : Nat) (x2 : Option Nat) : (State.slotDone x0 x1 x2).fixed = x0.fixed := by simp [State.slotDone]
@[simp] theorem State.haltFn_fixed (x0 : State) (x1 : Nat) (x2 : BitVec 32) (x3 : List Byte) (x4 : Nat) : (State.haltFn x0 x1 x2 x3 x4).fixed = x0.fixed := by simp [State.haltFn]
@[simp] theorem State.judgeEntry_fixed (x0 : State) (x1 : Nat) (x2 : BitVec 32) (x3 : List Byte) : (State.judgeEntry x0 x1 x2 x3).fixed = x0.fixed := by
  unfold State.judgeEntry
  all_goals repeat' (first | (simp +zetaDelta [*]; done) | (split <;> try (rename_i h_; have k_ := pair_arg h_; simp at k_)) | (refine fold_to (fun _ _ => ?_) ?_) | (refine fold2_to (fun _ _ => ?_) ?_) | (refine fold1_to (fun _ _ => ?_) ?_) | (refine fold22_to (fun _ _ => ?_) ?_) | simp +zetaDelta only [State.fixed_mk, State.fixed_eta, apply_ite State.fixed] | simp +zetaDelta [*])
@[simp] theorem State.dropCached_fixed (x0 : State) (x1 : ℕ) (x2 : ℕ) : (State.dropCached x0 x1 x2).fixed = x0.fixed := by simp [State.dropCached]
@[simp] theorem State.refetch_fixed (x0 : State) (x1 : ℕ) (x2 : ℕ) : (State.refetch x0 x1 x2).fixed = x0.fixed := by
  unfold State.refetch
  repeat' (first | (simp +zetaDelta [*]; done) | split | dsimp only)
@[simp] theorem State.refetched_fixed (x0 : State) (x1 : ℕ) (x2 : ℕ) (x3 : List Byte) : (State.refetched x0 x1 x2 x3).fixed = x0.fixed := by
  unfold State.refetched
  repeat' (first | (simp +zetaDelta [*]; done) | split | dsimp only)
@[simp] theorem State.judgeAll_fixed (x0 : Nat) (x1 : Nat) (x2 : State) : (State.judgeAll x0 x1 x2).fixed = x2.fixed := by
  fun_induction State.judgeAll x0 x1 x2 <;> simp_all
theorem execEntryJudge_fixed (x0 : Nat) (x1 : State) : ∀ t, (execEntryJudge x0 x1) = .next t → t.fixed = x1.fixed := by
  rintro t ⟨⟩
  split <;> simp
theorem State.takeEntry_fixed (x0 : State) (x1 : RingRef) : ∀ r, (State.takeEntry x0 x1) = some r → r.2.fixed = x0.fixed := by
  intro r h
  unfold State.takeEntry at h
  split at h <;> split at h <;> cases h <;> simp
@[simp] theorem State.reserveSlot_fixed (x0 : State) (x1 : RingRef) : (State.reserveSlot x0 x1).fixed = x0.fixed := by
  unfold State.reserveSlot
  repeat' (first | (simp +zetaDelta [*]; done) | split | dsimp only)
@[simp] theorem State.admitEntry_fixed (x0 : State) (x1 : RingRef) (x2 : List Byte) : (State.admitEntry x0 x1 x2).fixed = x0.fixed := by
  unfold State.admitEntry
  split
  · simp
  · split
    · rfl
    · cases x1 <;> simp
@[simp] theorem State.readHead_fixed (x0 : State) (x1 : RingRef) : (State.readHead x0 x1).2.fixed = x0.fixed := by
  unfold State.readHead
  repeat' (first | (simp +zetaDelta [*]; done) | split | dsimp only)
@[simp] theorem State.headBad_fixed (x0 : State) (x1 : RingRef) (x2 : ℕ) : (State.headBad x0 x1 x2).fixed = x0.fixed := by
  unfold State.headBad
  split
  · split <;> simp
  · split
    · rename_i h
      have := State.takeEntry_fixed _ _ _ h
      simp at this
      simp [this]
    · rfl
@[simp] theorem State.admitOne_fixed (x0 : State) (x1 : RingRef) : (State.admitOne x0 x1).fixed = x0.fixed := by
  unfold State.admitOne
  split
  · rename_i h
    have k := pair_arg h
    simp at k
    simp [k]
  · rename_i h
    have k := pair_arg h
    simp at k
    split
    · exact k
    · rename_i h2
      have := State.takeEntry_fixed _ _ _ h2
      simp at this
      split <;> simp [this, k]
@[simp] theorem State.admitBurst_fixed (x0 : State) (x1 : RingRef) (x2 : Nat) : (State.admitBurst x0 x1 x2).1.fixed = x0.fixed := by
  fun_induction State.admitBurst x0 x1 x2 <;> simp +zetaDelta [*]
@[simp] theorem State.spend_fixed (x0 : State) (x1 : RingRef) (x2 : Nat) : (State.spend x0 x1 x2).fixed = x0.fixed := by
  unfold State.spend
  split <;> simp
@[simp] theorem State.newRound_fixed (x0 : State) : (State.newRound x0).fixed = x0.fixed := by simp [State.newRound]
@[simp] theorem State.admitStep_fixed (x0 : State) : (State.admitStep x0).fixed = x0.fixed := by
  unfold State.admitStep
  all_goals repeat' (first | (simp +zetaDelta [*]; done) | (split <;> try (rename_i h_; have k_ := pair_arg h_; simp at k_)) | (refine fold_to (fun _ _ => ?_) ?_) | (refine fold2_to (fun _ _ => ?_) ?_) | (refine fold1_to (fun _ _ => ?_) ?_) | (refine fold22_to (fun _ _ => ?_) ?_) | simp +zetaDelta only [State.fixed_mk, State.fixed_eta, apply_ite State.fixed] | simp +zetaDelta [*])
theorem execAdmission_fixed (x0 : State) : ∀ t, (execAdmission x0) = .next t → t.fixed = x0.fixed := by
  rintro t ⟨⟩
  simp
@[simp] theorem State.ackRing_fixed (x0 : State) (x1 : Nat) (x2 : RingRef) (x3 : Nat) : (State.ackRing x0 x1 x2 x3).fixed = x0.fixed := by
  unfold State.ackRing
  repeat' (first | (simp +zetaDelta [*]; done) | split)
@[simp] theorem State.guiltyWrite_fixed (x0 : State) (x1 : Nat) (x2 : Word64) : (State.guiltyWrite x0 x1 x2).fixed = x0.fixed := by
  unfold State.guiltyWrite
  all_goals repeat' (first | (simp +zetaDelta [*]; done) | (split <;> try (rename_i h_; have k_ := pair_arg h_; simp at k_)) | (refine fold_to (fun _ _ => ?_) ?_) | (refine fold2_to (fun _ _ => ?_) ?_) | (refine fold1_to (fun _ _ => ?_) ?_) | (refine fold22_to (fun _ _ => ?_) ?_) | simp +zetaDelta only [State.fixed_mk, State.fixed_eta, apply_ite State.fixed] | simp +zetaDelta [*])
@[simp] theorem State.guiltyAck_fixed (x0 : State) (x1 : Nat) (x2 : Word64) : (State.guiltyAck x0 x1 x2).fixed = x0.fixed := by
  unfold State.guiltyAck
  split <;> simp
theorem execGuiltyAck_fixed (x0 : Nat) (x1 : Word64) (x2 : State) : ∀ t, (execGuiltyAck x0 x1 x2) = .next t → t.fixed = x2.fixed := by
  rintro t ⟨⟩
  simp
@[simp] theorem State.forwarded_fixed (x0 : State) (x1 : List Byte) : (State.forwarded x0 x1).fixed = x0.fixed := by
  unfold State.forwarded
  all_goals repeat' (first | (simp +zetaDelta [*]; done) | (split <;> try (rename_i h_; have k_ := pair_arg h_; simp at k_)) | (refine fold_to (fun _ _ => ?_) ?_) | (refine fold2_to (fun _ _ => ?_) ?_) | (refine fold1_to (fun _ _ => ?_) ?_) | (refine fold22_to (fun _ _ => ?_) ?_) | simp +zetaDelta only [State.fixed_mk, State.fixed_eta, apply_ite State.fixed] | simp +zetaDelta [*])
@[simp] theorem State.hang_fixed (x0 : State) (x1 : RingRef) : (State.hang x0 x1).fixed = x0.fixed := by
  unfold State.hang
  repeat' (first | (simp +zetaDelta [*]; done) | split)
theorem execHangTimeout_fixed (x0 : RingRef) (x1 : State) : ∀ t, (execHangTimeout x0 x1) = .next t → t.fixed = x1.fixed := by
  rintro t ⟨⟩
  simp
theorem execCoalTimerExpiry_fixed (x0 : Nat) (x1 : State) : ∀ t, (execCoalTimerExpiry x0 x1) = .next t → t.fixed = x1.fixed := by
  rintro t ⟨⟩
  split <;> simp

end Sys2Proof.Machine
end

