-- ==== Sys2Proof/Laws/KeptBuffers.lean ====
section
/-! SUPPORT. What the operations of Machine/Buffers.lean keep: the queue and the fuse bank. -/

namespace Sys2Proof.Machine

set_option linter.all false

@[simp] theorem State.ctxGather_fixed (x0 : State) (x1 : Nat) (x2 : List (Nat × Nat)) : (State.ctxGather x0 x1 x2).2.fixed = x0.fixed := by
  unfold State.ctxGather
  all_goals repeat' (first | (simp +zetaDelta [*]; done) | (split <;> try (rename_i h_; have k_ := pair_arg h_; simp at k_)) | (refine fold_to (fun _ _ => ?_) ?_) | (refine fold2_to (fun _ _ => ?_) ?_) | (refine fold1_to (fun _ _ => ?_) ?_) | (refine fold22_to (fun _ _ => ?_) ?_) | simp +zetaDelta only [State.fixed_mk, State.fixed_eta, apply_ite State.fixed] | simp +zetaDelta [*])
@[simp] theorem State.ctxFresh_fixed (x0 : State) (x1 : Nat) : (State.ctxFresh x0 x1).fixed = x0.fixed := by simp [State.ctxFresh]
@[simp] theorem State.bufferBroken_fixed (x0 : State) (x1 : Nat) (x2 : Option (List Byte)) (x3 : Broken) : (State.bufferBroken x0 x1 x2 x3).fixed = x0.fixed := by simp [State.bufferBroken]
@[simp] theorem State.bufferPassed_fixed (x0 : State) (x1 : Nat) (x2 : Owner) (x3 : List Byte) (x4 : Checked) : (State.bufferPassed x0 x1 x2 x3 x4).fixed = x0.fixed := by
  unfold State.bufferPassed
  repeat' (first | (simp +zetaDelta [*]; done) | split)
@[simp] theorem State.bufferFrags_fixed (x0 : State) (x1 : Nat) (x2 : Owner) : (State.bufferFrags x0 x1 x2).2.fixed = x0.fixed := by
  unfold State.bufferFrags
  all_goals repeat' (first | (simp +zetaDelta [*]; done) | (split <;> try (rename_i h_; have k_ := pair_arg h_; simp at k_)) | (refine fold_to (fun _ _ => ?_) ?_) | (refine fold2_to (fun _ _ => ?_) ?_) | (refine fold1_to (fun _ _ => ?_) ?_) | (refine fold22_to (fun _ _ => ?_) ?_) | simp +zetaDelta only [State.fixed_mk, State.fixed_eta, apply_ite State.fixed] | simp +zetaDelta [*])
@[simp] theorem State.fragRead_fixed (x0 : State) (x1 : Nat) (x2 : List (Nat × Nat)) (x3 : Nat) (x4 : Nat) : (State.fragRead x0 x1 x2 x3 x4).2.fixed = x0.fixed := by
  unfold State.fragRead
  all_goals repeat' (first | (simp +zetaDelta [*]; done) | (split <;> try (rename_i h_; have k_ := pair_arg h_; simp at k_)) | (refine fold_to (fun _ _ => ?_) ?_) | (refine fold2_to (fun _ _ => ?_) ?_) | (refine fold1_to (fun _ _ => ?_) ?_) | (refine fold22_to (fun _ _ => ?_) ?_) | simp +zetaDelta only [State.fixed_mk, State.fixed_eta, apply_ite State.fixed] | simp +zetaDelta [*])
@[simp] theorem State.opsEnd_fixed (x0 : State) (x1 : ℕ) (x2 : List (ℕ × ℕ)) (x3 : ℕ) (x4 : ℕ) : (State.opsEnd x0 x1 x2 x3 x4).2.fixed = x0.fixed := by
  induction x3 generalizing x0 x4 with
  | zero => rfl
  | succ k ih =>
    simp only [State.opsEnd]
    split
    · rfl
    · split <;> (rename_i h; have k_ := pair_arg h; simp at k_)
      · exact k_
      · split
        · exact k_
        · rw [ih, k_]
@[simp] theorem State.readLists_fixed (x0 : State) (x1 : ℕ) (x2 : List (ℕ × ℕ)) (x3 : List Byte) (x4 : List (ℕ × ℕ)) : (State.readLists x0 x1 x2 x3 x4).2.fixed = x0.fixed := by
  induction x4 generalizing x0 x3 with
  | nil => rfl
  | cons r rs ih =>
    simp only [State.readLists]
    split <;> (rename_i h; have k_ := pair_arg h; simp at k_)
    · exact k_
    · rw [ih, k_]
@[simp] theorem State.bufferBytes_fixed (x0 : State) (x1 : ℕ) (x2 : List (ℕ × ℕ)) : (State.bufferBytes x0 x1 x2).2.fixed = x0.fixed := by
  unfold State.bufferBytes
  all_goals repeat' (first | (simp +zetaDelta [*]; done) | (split <;> try (rename_i h_; have k_ := pair_arg h_; simp at k_)) | (refine fold_to (fun _ _ => ?_) ?_) | (refine fold2_to (fun _ _ => ?_) ?_) | (refine fold1_to (fun _ _ => ?_) ?_) | (refine fold22_to (fun _ _ => ?_) ?_) | (refine (State.startXferBy_fixed _ _ _ (fun _ _ => ?_)).trans ?_) | (refine (State.newXferBy_fixed _ _ _ _ _ (fun _ _ => ?_)).trans ?_) | (refine (State.request_fixed _ _ _ _ (fun _ => ?_)).trans ?_) | (refine (State.hostWrite_fixed _ _ _ _ (fun _ => ?_)).trans ?_) | (refine (State.hostLoad_fixed _ _ _ _ (fun _ => ?_)).trans ?_) | (refine (State.atOnce_fixed _ _ (fun _ => ?_)).trans ?_) | (refine (State.settleBar_fixed _ _ _ _ (fun _ _ _ => ?_)).trans ?_) | (refine (State.runCmd_fixed _ _ _ (fun _ _ _ => ?_)).trans ?_) | (refine (State.carryConf_fixed _ _ _ _ _ (fun _ => ?_)).trans ?_) | (refine (State.onI2c_fixed _ _ _ (fun _ => ?_)).trans ?_) | (refine (State.inRecovery_fixed _ _ _ (fun _ => ?_)).trans ?_) | (refine (State.mailboxWrite_fixed _ _ _ (fun _ => ?_)).trans ?_) | (refine (State.vfMailbox_fixed _ _ (fun _ => ?_)).trans ?_) | (refine (State.orReserved_fixed _ _ _ _ (fun _ => ?_)).trans ?_) | (refine (State.sqSetup_fixed _ _ _ _ (fun _ => ?_)).trans ?_) | (refine (State.onSq_fixed _ _ _ _ (fun _ _ => ?_)).trans ?_) | (refine (State.onCq_fixed _ _ _ _ (fun _ _ => ?_)).trans ?_) | (refine (State.endRead_fixed _ _ _ (fun _ => ?_)).trans ?_) | simp +zetaDelta only [State.fixed_mk, State.fixed_eta, apply_ite State.fixed] | simp +zetaDelta [*])
@[simp] theorem State.checkPass_fixed (x0 : State) (x1 : Nat) : (State.checkPass x0 x1).fixed = x0.fixed := by
  unfold State.checkPass
  all_goals repeat' (first | (simp +zetaDelta [*]; done) | (split <;> try (rename_i h_; have k_ := pair_arg h_; simp at k_)) | (refine fold_to (fun _ _ => ?_) ?_) | (refine fold2_to (fun _ _ => ?_) ?_) | (refine fold1_to (fun _ _ => ?_) ?_) | (refine fold22_to (fun _ _ => ?_) ?_) | simp +zetaDelta only [State.fixed_mk, State.fixed_eta, apply_ite State.fixed] | simp +zetaDelta [*])
theorem execCheckPass_fixed (x0 : Nat) (x1 : State) : ∀ t, (execCheckPass x0 x1) = .next t → t.fixed = x1.fixed := by
  rintro t ⟨⟩
  simp
@[simp] theorem State.chainResume_fixed (x0 : State) (x1 : Nat) : (State.chainResume x0 x1).fixed = x0.fixed := by
  unfold State.chainResume
  repeat' (first | (simp +zetaDelta [*]; done) | split)
@[simp] theorem State.placeOp_fixed (x0 : State) (x1 : OpEntry) : (State.placeOp x0 x1).fixed = x0.fixed := by
  unfold State.placeOp
  repeat' (first | (simp +zetaDelta [*]; done) | split | dsimp only)
@[simp] theorem State.enterOp_fixed (x0 : State) (x1 : OpEntry) : (State.enterOp x0 x1).fixed = x0.fixed := by
  unfold State.enterOp
  repeat' (first | (simp +zetaDelta [*]; done) | split)
theorem execTableEntry_fixed (x0 : Nat) (x1 : State) : ∀ t, (execTableEntry x0 x1) = .next t → t.fixed = x1.fixed := by
  rintro t ⟨⟩
  repeat' (first | (simp +zetaDelta [*]; done) | (split <;> try (rename_i h_; have k_ := pair_arg h_; simp at k_)) | (refine fold_to (fun _ _ => ?_) ?_) | (refine fold2_to (fun _ _ => ?_) ?_) | (refine fold1_to (fun _ _ => ?_) ?_) | (refine fold22_to (fun _ _ => ?_) ?_) | simp +zetaDelta only [State.fixed_mk, State.fixed_eta, apply_ite State.fixed] | simp +zetaDelta [*])
@[simp] theorem State.spread_fixed (x0 : State) (x1 : Nat) (x2 : Owner) (x3 : Nat) (x4 : Nat) (x5 : List Byte) (x6 : List Byte) (x7 : Nat) (x8 : List ChipId) (x9 : Option Nat) : (State.spread x0 x1 x2 x3 x4 x5 x6 x7 x8 x9).fixed = x0.fixed := by
  unfold State.spread
  all_goals repeat' (first | (simp +zetaDelta [*]; done) | (split <;> try (rename_i h_; have k_ := pair_arg h_; simp at k_)) | (refine fold_to (fun _ _ => ?_) ?_) | (refine fold2_to (fun _ _ => ?_) ?_) | (refine fold1_to (fun _ _ => ?_) ?_) | (refine fold22_to (fun _ _ => ?_) ?_) | simp +zetaDelta only [State.fixed_mk, State.fixed_eta, apply_ite State.fixed] | simp +zetaDelta [*])
@[simp] theorem State.readSet_fixed (x0 : State) (x1 : ℕ) (x2 : Owner) (x3 : List (ℕ × ℕ)) (x4 : ℕ) (x5 : List Byte) : (State.readSet x0 x1 x2 x3 x4 x5).2.fixed = x0.fixed := by
  unfold State.readSet
  dsimp only
  all_goals repeat' (first | (simp +zetaDelta [*]; done) | (split <;> try (rename_i h_; have k_ := pair_arg h_; simp at k_)) | (refine fold_to (fun _ _ => ?_) ?_) | (refine fold2_to (fun _ _ => ?_) ?_) | (refine fold1_to (fun _ _ => ?_) ?_) | (refine fold22_to (fun _ _ => ?_) ?_) | (refine (State.startXferBy_fixed _ _ _ (fun _ _ => ?_)).trans ?_) | (refine (State.newXferBy_fixed _ _ _ _ _ (fun _ _ => ?_)).trans ?_) | (refine (State.request_fixed _ _ _ _ (fun _ => ?_)).trans ?_) | (refine (State.hostWrite_fixed _ _ _ _ (fun _ => ?_)).trans ?_) | (refine (State.hostLoad_fixed _ _ _ _ (fun _ => ?_)).trans ?_) | (refine (State.atOnce_fixed _ _ (fun _ => ?_)).trans ?_) | (refine (State.settleBar_fixed _ _ _ _ (fun _ _ _ => ?_)).trans ?_) | (refine (State.runCmd_fixed _ _ _ (fun _ _ _ => ?_)).trans ?_) | (refine (State.carryConf_fixed _ _ _ _ _ (fun _ => ?_)).trans ?_) | (refine (State.onI2c_fixed _ _ _ (fun _ => ?_)).trans ?_) | (refine (State.inRecovery_fixed _ _ _ (fun _ => ?_)).trans ?_) | (refine (State.mailboxWrite_fixed _ _ _ (fun _ => ?_)).trans ?_) | (refine (State.vfMailbox_fixed _ _ (fun _ => ?_)).trans ?_) | (refine (State.orReserved_fixed _ _ _ _ (fun _ => ?_)).trans ?_) | (refine (State.sqSetup_fixed _ _ _ _ (fun _ => ?_)).trans ?_) | (refine (State.onSq_fixed _ _ _ _ (fun _ _ => ?_)).trans ?_) | (refine (State.onCq_fixed _ _ _ _ (fun _ _ => ?_)).trans ?_) | (refine (State.endRead_fixed _ _ _ (fun _ => ?_)).trans ?_) | simp +zetaDelta only [State.fixed_mk, State.fixed_eta, apply_ite State.fixed] | simp +zetaDelta [*])
@[simp] theorem State.readOp_fixed (x0 : State) (x1 : ℕ) (x2 : Owner) : (State.readOp x0 x1 x2).2.fixed = x0.fixed := by
  unfold State.readOp
  all_goals repeat' (first | (simp +zetaDelta [*]; done) | (split <;> try (rename_i h_; have k_ := pair_arg h_; simp at k_)) | (refine fold_to (fun _ _ => ?_) ?_) | (refine fold2_to (fun _ _ => ?_) ?_) | (refine fold1_to (fun _ _ => ?_) ?_) | (refine fold22_to (fun _ _ => ?_) ?_) | (refine (State.startXferBy_fixed _ _ _ (fun _ _ => ?_)).trans ?_) | (refine (State.newXferBy_fixed _ _ _ _ _ (fun _ _ => ?_)).trans ?_) | (refine (State.request_fixed _ _ _ _ (fun _ => ?_)).trans ?_) | (refine (State.hostWrite_fixed _ _ _ _ (fun _ => ?_)).trans ?_) | (refine (State.hostLoad_fixed _ _ _ _ (fun _ => ?_)).trans ?_) | (refine (State.atOnce_fixed _ _ (fun _ => ?_)).trans ?_) | (refine (State.settleBar_fixed _ _ _ _ (fun _ _ _ => ?_)).trans ?_) | (refine (State.runCmd_fixed _ _ _ (fun _ _ _ => ?_)).trans ?_) | (refine (State.carryConf_fixed _ _ _ _ _ (fun _ => ?_)).trans ?_) | (refine (State.onI2c_fixed _ _ _ (fun _ => ?_)).trans ?_) | (refine (State.inRecovery_fixed _ _ _ (fun _ => ?_)).trans ?_) | (refine (State.mailboxWrite_fixed _ _ _ (fun _ => ?_)).trans ?_) | (refine (State.vfMailbox_fixed _ _ (fun _ => ?_)).trans ?_) | (refine (State.orReserved_fixed _ _ _ _ (fun _ => ?_)).trans ?_) | (refine (State.sqSetup_fixed _ _ _ _ (fun _ => ?_)).trans ?_) | (refine (State.onSq_fixed _ _ _ _ (fun _ _ => ?_)).trans ?_) | (refine (State.onCq_fixed _ _ _ _ (fun _ _ => ?_)).trans ?_) | (refine (State.endRead_fixed _ _ _ (fun _ => ?_)).trans ?_) | simp +zetaDelta only [State.fixed_mk, State.fixed_eta, apply_ite State.fixed] | simp +zetaDelta [*])
@[simp] theorem State.dispatchOne_fixed (x0 : State) (x1 : Nat) : (State.dispatchOne x0 x1).fixed = x0.fixed := by
  unfold State.dispatchOne
  all_goals repeat' (first | (simp +zetaDelta [*]; done) | (split <;> try (rename_i h_; have k_ := pair_arg h_; simp at k_)) | (refine fold_to (fun _ _ => ?_) ?_) | (refine fold2_to (fun _ _ => ?_) ?_) | (refine fold1_to (fun _ _ => ?_) ?_) | (refine fold22_to (fun _ _ => ?_) ?_) | simp +zetaDelta only [State.fixed_mk, State.fixed_eta, apply_ite State.fixed] | simp +zetaDelta [*])
theorem execDispatchRead_fixed (x0 : Nat) (x1 : State) : ∀ t, (execDispatchRead x0 x1) = .next t → t.fixed = x1.fixed := by
  rintro t ⟨⟩
  simp
@[simp] theorem State.endOp_fixed (x0 : State) (x1 : Nat) : (State.endOp x0 x1).fixed = x0.fixed := by
  unfold State.endOp
  all_goals repeat' (first | (simp +zetaDelta [*]; done) | (split <;> try (rename_i h_; have k_ := pair_arg h_; simp at k_)) | (refine fold_to (fun _ _ => ?_) ?_) | (refine fold2_to (fun _ _ => ?_) ?_) | (refine fold1_to (fun _ _ => ?_) ?_) | (refine fold22_to (fun _ _ => ?_) ?_) | simp +zetaDelta only [State.fixed_mk, State.fixed_eta, apply_ite State.fixed] | simp +zetaDelta [*])
theorem execEnd_fixed (x0 : Nat) (x1 : State) : ∀ t, (execEnd x0 x1) = .next t → t.fixed = x1.fixed := by
  rintro t ⟨⟩
  simp
@[simp] theorem State.shareChain_fixed (x0 : State) (x1 : Nat) (x2 : Nat) (x3 : List Byte) : (State.shareChain x0 x1 x2 x3).2.fixed = x0.fixed := by
  unfold State.shareChain
  repeat' (first | (simp +zetaDelta [*]; done) | split)
@[simp] theorem State.splitPieces_fixed (x0 : State) (x1 : Nat) (x2 : Tbl (Option Byte)) (x3 : Nat) (x4 : Nat) (x5 : Nat) (x6 : Nat) (x7 : Nat) : (State.splitPieces x0 x1 x2 x3 x4 x5 x6 x7).2.fixed = x0.fixed := by
  fun_induction State.splitPieces x0 x1 x2 x3 x4 x5 x6 x7 <;> simp +zetaDelta [*]
@[simp] theorem State.bodyGather_fixed (x0 : State) (x1 : Nat) (x2 : Tbl (Option Byte)) (x3 : BodyFetch) : (State.bodyGather x0 x1 x2 x3).2.fixed = x0.fixed := by
  unfold State.bodyGather
  all_goals repeat' (first | (simp +zetaDelta [*]; done) | (split <;> try (rename_i h_; have k_ := pair_arg h_; simp at k_)) | (refine fold_to (fun _ _ => ?_) ?_) | (refine fold2_to (fun _ _ => ?_) ?_) | (refine fold1_to (fun _ _ => ?_) ?_) | (refine fold22_to (fun _ _ => ?_) ?_) | simp +zetaDelta only [State.fixed_mk, State.fixed_eta, apply_ite State.fixed] | simp +zetaDelta [*])
@[simp] theorem State.bodyRead_fixed (x0 : State) (x1 : Nat) : (State.bodyRead x0 x1).fixed = x0.fixed := by
  unfold State.bodyRead
  all_goals repeat' (first | (simp +zetaDelta [*]; done) | (split <;> try (rename_i h_; have k_ := pair_arg h_; simp at k_)) | (refine fold_to (fun _ _ => ?_) ?_) | (refine fold2_to (fun _ _ => ?_) ?_) | (refine fold1_to (fun _ _ => ?_) ?_) | (refine fold22_to (fun _ _ => ?_) ?_) | simp +zetaDelta only [State.fixed_mk, State.fixed_eta, apply_ite State.fixed] | simp +zetaDelta [*])
theorem execBodyReadDone_fixed (x0 : Nat) (x1 : State) : ∀ t, (execBodyReadDone x0 x1) = .next t → t.fixed = x1.fixed := by
  rintro t ⟨⟩
  split <;> simp
@[simp] theorem State.takeOperation_fixed (x0 : State) (x1 : Packet) : (State.takeOperation x0 x1).2.fixed = x0.fixed := by
  unfold State.takeOperation
  dsimp only
  split
  · rfl
  · split
    · split
      · simp
      · split
        · simp
        · dsimp only
          split <;> simp
    · split
      · rfl
      · dsimp only
        split <;> simp
@[simp] theorem State.drained_fixed (x0 : State) (x1 : ℕ) : (State.drained x0 x1).fixed = x0.fixed := by
  unfold State.drained
  repeat' (first | (simp +zetaDelta [*]; done) | split | dsimp only)
@[simp] theorem State.drainAll_fixed (x0 : State) : (State.drainAll x0).fixed = x0.fixed := by
  unfold State.drainAll
  all_goals repeat' (first | (simp +zetaDelta [*]; done) | (split <;> try (rename_i h_; have k_ := pair_arg h_; simp at k_)) | (refine fold_to (fun _ _ => ?_) ?_) | (refine fold2_to (fun _ _ => ?_) ?_) | (refine fold1_to (fun _ _ => ?_) ?_) | (refine fold22_to (fun _ _ => ?_) ?_) | (refine (State.startXferBy_fixed _ _ _ (fun _ _ => ?_)).trans ?_) | (refine (State.newXferBy_fixed _ _ _ _ _ (fun _ _ => ?_)).trans ?_) | (refine (State.request_fixed _ _ _ _ (fun _ => ?_)).trans ?_) | (refine (State.hostWrite_fixed _ _ _ _ (fun _ => ?_)).trans ?_) | (refine (State.hostLoad_fixed _ _ _ _ (fun _ => ?_)).trans ?_) | (refine (State.atOnce_fixed _ _ (fun _ => ?_)).trans ?_) | (refine (State.settleBar_fixed _ _ _ _ (fun _ _ _ => ?_)).trans ?_) | (refine (State.runCmd_fixed _ _ _ (fun _ _ _ => ?_)).trans ?_) | (refine (State.carryConf_fixed _ _ _ _ _ (fun _ => ?_)).trans ?_) | (refine (State.onI2c_fixed _ _ _ (fun _ => ?_)).trans ?_) | (refine (State.inRecovery_fixed _ _ _ (fun _ => ?_)).trans ?_) | (refine (State.mailboxWrite_fixed _ _ _ (fun _ => ?_)).trans ?_) | (refine (State.vfMailbox_fixed _ _ (fun _ => ?_)).trans ?_) | (refine (State.orReserved_fixed _ _ _ _ (fun _ => ?_)).trans ?_) | (refine (State.sqSetup_fixed _ _ _ _ (fun _ => ?_)).trans ?_) | (refine (State.onSq_fixed _ _ _ _ (fun _ _ => ?_)).trans ?_) | (refine (State.onCq_fixed _ _ _ _ (fun _ _ => ?_)).trans ?_) | (refine (State.endRead_fixed _ _ _ (fun _ => ?_)).trans ?_) | simp +zetaDelta only [State.fixed_mk, State.fixed_eta, apply_ite State.fixed] | simp +zetaDelta [*])
@[simp] theorem State.takeAbort_fixed (x0 : State) (x1 : Packet) : (State.takeAbort x0 x1).2.fixed = x0.fixed := by
  unfold State.takeAbort
  repeat' (first | (simp +zetaDelta [*]; done) | split | dsimp only)
@[simp] theorem State.takeReport_fixed (x0 : State) (x1 : Packet) : (State.takeReport x0 x1).2.fixed = x0.fixed := by
  unfold State.takeReport
  all_goals repeat' (first | (simp +zetaDelta [*]; done) | (split <;> try (rename_i h_; have k_ := pair_arg h_; simp at k_)) | (refine fold_to (fun _ _ => ?_) ?_) | (refine fold2_to (fun _ _ => ?_) ?_) | (refine fold1_to (fun _ _ => ?_) ?_) | (refine fold22_to (fun _ _ => ?_) ?_) | simp +zetaDelta only [State.fixed_mk, State.fixed_eta, apply_ite State.fixed] | simp +zetaDelta [*])
@[simp] theorem State.takeLaunch_fixed (x0 : State) (x1 : Packet) : (State.takeLaunch x0 x1).2.fixed = x0.fixed := by
  unfold State.takeLaunch
  split <;> simp
@[simp] theorem State.wakeStands_fixed (x0 : State) (x1 : Nat) : (State.wakeStands x0 x1).fixed = x0.fixed := by
  simp only [State.wakeStands]
  exact fold_to (fun _ _ => by simp) (by simp)
@[simp] theorem State.reached_fixed (x0 : State) (x1 : List ℕ) : (State.reached x0 x1).2.fixed = x0.fixed := by
  fun_induction State.reached x0 x1
  all_goals repeat' (first | (simp +zetaDelta [*]; done) | (split <;> try (rename_i h_; have k_ := pair_arg h_; simp at k_)) | (refine fold_to (fun _ _ => ?_) ?_) | (refine fold2_to (fun _ _ => ?_) ?_) | (refine fold1_to (fun _ _ => ?_) ?_) | (refine fold22_to (fun _ _ => ?_) ?_) | (refine (State.startXferBy_fixed _ _ _ (fun _ _ => ?_)).trans ?_) | (refine (State.newXferBy_fixed _ _ _ _ _ (fun _ _ => ?_)).trans ?_) | (refine (State.request_fixed _ _ _ _ (fun _ => ?_)).trans ?_) | (refine (State.hostWrite_fixed _ _ _ _ (fun _ => ?_)).trans ?_) | (refine (State.hostLoad_fixed _ _ _ _ (fun _ => ?_)).trans ?_) | (refine (State.atOnce_fixed _ _ (fun _ => ?_)).trans ?_) | (refine (State.settleBar_fixed _ _ _ _ (fun _ _ _ => ?_)).trans ?_) | (refine (State.runCmd_fixed _ _ _ (fun _ _ _ => ?_)).trans ?_) | (refine (State.carryConf_fixed _ _ _ _ _ (fun _ => ?_)).trans ?_) | (refine (State.onI2c_fixed _ _ _ (fun _ => ?_)).trans ?_) | (refine (State.inRecovery_fixed _ _ _ (fun _ => ?_)).trans ?_) | (refine (State.mailboxWrite_fixed _ _ _ (fun _ => ?_)).trans ?_) | (refine (State.vfMailbox_fixed _ _ (fun _ => ?_)).trans ?_) | (refine (State.orReserved_fixed _ _ _ _ (fun _ => ?_)).trans ?_) | (refine (State.sqSetup_fixed _ _ _ _ (fun _ => ?_)).trans ?_) | (refine (State.onSq_fixed _ _ _ _ (fun _ _ => ?_)).trans ?_) | (refine (State.onCq_fixed _ _ _ _ (fun _ _ => ?_)).trans ?_) | (refine (State.endRead_fixed _ _ _ (fun _ => ?_)).trans ?_) | simp +zetaDelta only [State.fixed_mk, State.fixed_eta, apply_ite State.fixed] | simp +zetaDelta [*])
@[simp] theorem State.stageSram_fixed (x0 : State) (x1 : List ℕ) : (State.stageSram x0 x1).fixed = x0.fixed := by
  unfold State.stageSram
  all_goals repeat' (first | (simp +zetaDelta [*]; done) | (split <;> try (rename_i h_; have k_ := pair_arg h_; simp at k_)) | (refine fold_to (fun _ _ => ?_) ?_) | (refine fold2_to (fun _ _ => ?_) ?_) | (refine fold1_to (fun _ _ => ?_) ?_) | (refine fold22_to (fun _ _ => ?_) ?_) | (refine (State.startXferBy_fixed _ _ _ (fun _ _ => ?_)).trans ?_) | (refine (State.newXferBy_fixed _ _ _ _ _ (fun _ _ => ?_)).trans ?_) | (refine (State.request_fixed _ _ _ _ (fun _ => ?_)).trans ?_) | (refine (State.hostWrite_fixed _ _ _ _ (fun _ => ?_)).trans ?_) | (refine (State.hostLoad_fixed _ _ _ _ (fun _ => ?_)).trans ?_) | (refine (State.atOnce_fixed _ _ (fun _ => ?_)).trans ?_) | (refine (State.settleBar_fixed _ _ _ _ (fun _ _ _ => ?_)).trans ?_) | (refine (State.runCmd_fixed _ _ _ (fun _ _ _ => ?_)).trans ?_) | (refine (State.carryConf_fixed _ _ _ _ _ (fun _ => ?_)).trans ?_) | (refine (State.onI2c_fixed _ _ _ (fun _ => ?_)).trans ?_) | (refine (State.inRecovery_fixed _ _ _ (fun _ => ?_)).trans ?_) | (refine (State.mailboxWrite_fixed _ _ _ (fun _ => ?_)).trans ?_) | (refine (State.vfMailbox_fixed _ _ (fun _ => ?_)).trans ?_) | (refine (State.orReserved_fixed _ _ _ _ (fun _ => ?_)).trans ?_) | (refine (State.sqSetup_fixed _ _ _ _ (fun _ => ?_)).trans ?_) | (refine (State.onSq_fixed _ _ _ _ (fun _ _ => ?_)).trans ?_) | (refine (State.onCq_fixed _ _ _ _ (fun _ _ => ?_)).trans ?_) | (refine (State.endRead_fixed _ _ _ (fun _ => ?_)).trans ?_) | simp +zetaDelta only [State.fixed_mk, State.fixed_eta, apply_ite State.fixed] | simp +zetaDelta [*])
@[simp] theorem State.readSram_fixed (x0 : State) (x1 : List ℕ) : (State.readSram x0 x1).2.fixed = x0.fixed := by simp [State.readSram]
@[simp] theorem State.grantOne_fixed (x0 : State) : (State.grantOne x0).fixed = x0.fixed := by
  unfold State.grantOne
  split
  · rfl
  · dsimp only
    split
    · simp
    · split <;> simp
theorem execStandGrant_fixed (x0 : State) : ∀ t, (execStandGrant x0) = .next t → t.fixed = x0.fixed := by
  rintro t ⟨⟩
  split <;> simp
@[simp] theorem State.replayOp_fixed (x0 : State) (x1 : Nat) : (State.replayOp x0 x1).fixed = x0.fixed := by
  unfold State.replayOp
  repeat' (first | (simp +zetaDelta [*]; done) | split)
@[simp] theorem State.stopOp_fixed (x0 : State) (x1 : ℕ) (x2 : OpEntry) : (State.stopOp x0 x1 x2).fixed = x0.fixed := by
  unfold State.stopOp
  all_goals repeat' (first | (simp +zetaDelta [*]; done) | (split <;> try (rename_i h_; have k_ := pair_arg h_; simp at k_)) | (refine fold_to (fun _ _ => ?_) ?_) | (refine fold2_to (fun _ _ => ?_) ?_) | (refine fold1_to (fun _ _ => ?_) ?_) | (refine fold22_to (fun _ _ => ?_) ?_) | (refine (State.startXferBy_fixed _ _ _ (fun _ _ => ?_)).trans ?_) | (refine (State.newXferBy_fixed _ _ _ _ _ (fun _ _ => ?_)).trans ?_) | (refine (State.request_fixed _ _ _ _ (fun _ => ?_)).trans ?_) | (refine (State.hostWrite_fixed _ _ _ _ (fun _ => ?_)).trans ?_) | (refine (State.hostLoad_fixed _ _ _ _ (fun _ => ?_)).trans ?_) | (refine (State.atOnce_fixed _ _ (fun _ => ?_)).trans ?_) | (refine (State.settleBar_fixed _ _ _ _ (fun _ _ _ => ?_)).trans ?_) | (refine (State.runCmd_fixed _ _ _ (fun _ _ _ => ?_)).trans ?_) | (refine (State.carryConf_fixed _ _ _ _ _ (fun _ => ?_)).trans ?_) | (refine (State.onI2c_fixed _ _ _ (fun _ => ?_)).trans ?_) | (refine (State.inRecovery_fixed _ _ _ (fun _ => ?_)).trans ?_) | (refine (State.mailboxWrite_fixed _ _ _ (fun _ => ?_)).trans ?_) | (refine (State.vfMailbox_fixed _ _ (fun _ => ?_)).trans ?_) | (refine (State.orReserved_fixed _ _ _ _ (fun _ => ?_)).trans ?_) | (refine (State.sqSetup_fixed _ _ _ _ (fun _ => ?_)).trans ?_) | (refine (State.onSq_fixed _ _ _ _ (fun _ _ => ?_)).trans ?_) | (refine (State.onCq_fixed _ _ _ _ (fun _ _ => ?_)).trans ?_) | (refine (State.endRead_fixed _ _ _ (fun _ => ?_)).trans ?_) | simp +zetaDelta only [State.fixed_mk, State.fixed_eta, apply_ite State.fixed] | simp +zetaDelta [*])
@[simp] theorem State.interrupt_fixed (x0 : State) (x1 : ℕ) : (State.interrupt x0 x1).fixed = x0.fixed := by
  unfold State.interrupt
  repeat' (first | (simp +zetaDelta [*]; done) | split | dsimp only)
@[simp] theorem State.clearTile_fixed (x0 : State) (x1 : Nat) : (State.clearTile x0 x1).fixed = x0.fixed := by simp [State.clearTile]
@[simp] theorem State.capChange_fixed (x0 : State) (x1 : Nat) : (State.capChange x0 x1).fixed = x0.fixed := by simp [State.capChange]
@[simp] theorem State.loseTile_fixed (x0 : State) (x1 : Nat) : (State.loseTile x0 x1).fixed = x0.fixed := by
  simp only [State.loseTile]
  exact fold_to (fun _ _ => by simp) (by simp)
@[simp] theorem State.faultTile_fixed (x0 : State) (x1 : Nat) (x2 : Nat) : (State.faultTile x0 x1 x2).fixed = x0.fixed := by
  unfold State.faultTile
  all_goals repeat' (first | (simp +zetaDelta [*]; done) | (split <;> try (rename_i h_; have k_ := pair_arg h_; simp at k_)) | (refine fold_to (fun _ _ => ?_) ?_) | (refine fold2_to (fun _ _ => ?_) ?_) | (refine fold1_to (fun _ _ => ?_) ?_) | (refine fold22_to (fun _ _ => ?_) ?_) | simp +zetaDelta only [State.fixed_mk, State.fixed_eta, apply_ite State.fixed] | simp +zetaDelta [*])
theorem State.issueAsig_fixed (x0 : State) (x1 : OpEntry) : ∀ t, (State.issueAsig x0 x1) = some t → t.fixed = x0.fixed := by
  intro t h
  unfold State.issueAsig at h
  split at h
  · cases h; rfl
  · dsimp only at h
    split at h
    · split at h
      · cases h; simp
      · cases h
    · split at h <;> cases h <;> simp
@[simp] theorem State.finishOp_fixed (x0 : State) (x1 : Nat) (x2 : OpEntry) : (State.finishOp x0 x1 x2).fixed = x0.fixed := by
  unfold State.finishOp
  split
  · rfl
  · split
    · dsimp only
      split
      · simp
      · split
        · rw [State.freeCtx_fixed]
          refine fold_to (fun _ _ => by simp) ?_
          simp
        · simp
    · split
      · rename_i h
        have := State.issueAsig_fixed _ _ _ h
        simpa using this
      · rfl
@[simp] theorem State.opComplete_fixed (x0 : State) (x1 : ℕ) (x2 : Check) : (State.opComplete x0 x1 x2).fixed = x0.fixed := by
  unfold State.opComplete
  repeat' (first | (simp +zetaDelta [*]; done) | split | dsimp only)
@[simp] theorem State.increment_fixed (x0 : State) (x1 : BitVec 10) (x2 : BitVec 16) (x3 : Bool) (x4 : Bool) : (State.increment x0 x1 x2 x3 x4).fixed = x0.fixed := by
  unfold State.increment
  all_goals repeat' (first | (simp +zetaDelta [*]; done) | (split <;> try (rename_i h_; have k_ := pair_arg h_; simp at k_)) | (refine fold_to (fun _ _ => ?_) ?_) | (refine fold2_to (fun _ _ => ?_) ?_) | (refine fold1_to (fun _ _ => ?_) ?_) | (refine fold22_to (fun _ _ => ?_) ?_) | simp +zetaDelta only [State.fixed_mk, State.fixed_eta, apply_ite State.fixed] | simp +zetaDelta [*])
theorem execCompletionIncrement_fixed (x0 : BitVec 10) (x1 : BitVec 16) (x2 : Bool) (x3 : Bool) (x4 : State) : ∀ t, (execCompletionIncrement x0 x1 x2 x3 x4) = .next t → t.fixed = x4.fixed := by
  rintro t ⟨⟩
  split <;> simp
@[simp] theorem State.beat_fixed (x0 : State) (x1 : ℕ) : (State.beat x0 x1).fixed = x0.fixed := by
  unfold State.beat
  repeat' (first | (simp +zetaDelta [*]; done) | split | dsimp only)

end Sys2Proof.Machine
end

