-- ==== Sys2Proof/Laws/KeptControl.lean ====
section
/-! SUPPORT. What the operations of Machine/Control.lean keep: the queue and the fuse bank. -/

namespace Sys2Proof.Machine

set_option linter.all false

theorem execNop_fixed (x0 : Nat) (x1 : State) : ∀ t, (execNop x0 x1) = .next t → t.fixed = x1.fixed := by
  rintro t ⟨⟩
  split <;> simp
@[simp] theorem State.cfeSignal_fixed (x0 : State) (x1 : Nat) (x2 : OpEntry) (x3 : Nat) (x4 : BitVec 2) (x5 : BitVec 16) : (State.cfeSignal x0 x1 x2 x3 x4 x5).fixed = x0.fixed := by
  unfold State.cfeSignal
  all_goals repeat' (first | (simp +zetaDelta [*]; done) | (split <;> try (rename_i h_; have k_ := pair_arg h_; simp at k_)) | (refine fold_to (fun _ _ => ?_) ?_) | (refine fold2_to (fun _ _ => ?_) ?_) | (refine fold1_to (fun _ _ => ?_) ?_) | (refine fold22_to (fun _ _ => ?_) ?_) | simp +zetaDelta only [State.fixed_mk, State.fixed_eta, apply_ite State.fixed] | simp +zetaDelta [*])
theorem execSetFlag_fixed (x0 : Nat) (x1 : State) : ∀ t, (execSetFlag x0 x1) = .next t → t.fixed = x1.fixed := by
  rintro t ⟨⟩
  split <;> simp
theorem execClearFlag_fixed (x0 : Nat) (x1 : State) : ∀ t, (execClearFlag x0 x1) = .next t → t.fixed = x1.fixed := by
  rintro t ⟨⟩
  split <;> simp
theorem execTallyAdd_fixed (x0 : Nat) (x1 : State) : ∀ t, (execTallyAdd x0 x1) = .next t → t.fixed = x1.fixed := by
  rintro t ⟨⟩
  split <;> simp
theorem execBarrierArrive_fixed (x0 : Nat) (x1 : State) : ∀ t, (execBarrierArrive x0 x1) = .next t → t.fixed = x1.fixed := by
  rintro t ⟨⟩
  split <;> simp
@[simp] theorem State.access_fixed (x0 : State) (x1 : Nat) (x2 : Nat) (x3 : Nat) : (State.access x0 x1 x2 x3).2.fixed = x0.fixed := by simp [State.access]
@[simp] theorem State.register_fixed (x0 : State) (x1 : Nat) (x2 : Nat) (x3 : List (Nat × Nat)) (x4 : Cond) (x5 : Nat) : (State.register x0 x1 x2 x3 x4 x5).fixed = x0.fixed := by
  unfold State.register
  all_goals repeat' (first | (simp +zetaDelta [*]; done) | (split <;> try (rename_i h_; have k_ := pair_arg h_; simp at k_)) | (refine fold_to (fun _ _ => ?_) ?_) | (refine fold2_to (fun _ _ => ?_) ?_) | (refine fold1_to (fun _ _ => ?_) ?_) | (refine fold22_to (fun _ _ => ?_) ?_) | simp +zetaDelta only [State.fixed_mk, State.fixed_eta, apply_ite State.fixed] | simp +zetaDelta [*])
theorem execWait_fixed (x0 : Nat) (x1 : State) : ∀ t, (execWait x0 x1) = .next t → t.fixed = x1.fixed := by
  rintro t ⟨⟩
  split <;> simp
theorem execTallyWait_fixed (x0 : Nat) (x1 : State) : ∀ t, (execTallyWait x0 x1) = .next t → t.fixed = x1.fixed := by
  rintro t ⟨⟩
  split <;> simp
theorem execTallyWaitSpace_fixed (x0 : Nat) (x1 : State) : ∀ t, (execTallyWaitSpace x0 x1) = .next t → t.fixed = x1.fixed := by
  rintro t ⟨⟩
  split <;> simp
@[simp] theorem State.readObject_fixed (x0 : State) (x1 : Nat) (x2 : Nat) (x3 : Nat) (x4 : Nat) : (State.readObject x0 x1 x2 x3 x4).2.fixed = x0.fixed := by
  unfold State.readObject
  all_goals repeat' (first | (simp +zetaDelta [*]; done) | (split <;> try (rename_i h_; have k_ := pair_arg h_; simp at k_)) | (refine fold_to (fun _ _ => ?_) ?_) | (refine fold2_to (fun _ _ => ?_) ?_) | (refine fold1_to (fun _ _ => ?_) ?_) | (refine fold22_to (fun _ _ => ?_) ?_) | simp +zetaDelta only [State.fixed_mk, State.fixed_eta, apply_ite State.fixed] | simp +zetaDelta [*])
@[simp] theorem State.cfeWrite_fixed (x0 : State) (x1 : ℕ) (x2 : ℕ) (x3 : List Byte) : (State.cfeWrite x0 x1 x2 x3).fixed = x0.fixed := by
  unfold State.cfeWrite
  repeat' (first | (simp +zetaDelta [*]; done) | split | dsimp only)
theorem execTest_fixed (x0 : Nat) (x1 : State) : ∀ t, (execTest x0 x1) = .next t → t.fixed = x1.fixed := by
  rintro t ⟨⟩
  repeat' (first | (simp +zetaDelta [*]; done) | (split <;> try (rename_i h_; have k_ := pair_arg h_; simp at k_)) | (refine fold_to (fun _ _ => ?_) ?_) | (refine fold2_to (fun _ _ => ?_) ?_) | (refine fold1_to (fun _ _ => ?_) ?_) | (refine fold22_to (fun _ _ => ?_) ?_) | simp +zetaDelta only [State.fixed_mk, State.fixed_eta, apply_ite State.fixed] | simp +zetaDelta [*])
theorem execSignalPeer_fixed (x0 : Nat) (x1 : State) : ∀ t, (execSignalPeer x0 x1) = .next t → t.fixed = x1.fixed := by
  rintro t ⟨⟩
  split <;> simp
theorem execTimestamp_fixed (x0 : Nat) (x1 : State) : ∀ t, (execTimestamp x0 x1) = .next t → t.fixed = x1.fixed := by
  rintro t ⟨⟩
  split <;> simp
@[simp] theorem State.flushRead_fixed (x0 : State) (x1 : Nat) (x2 : OpEntry) (x3 : ChipId × Nat) : (State.flushRead x0 x1 x2 x3).fixed = x0.fixed := by
  unfold State.flushRead
  split <;> simp
theorem execFenceGlobal_fixed (x0 : Nat) (x1 : State) : ∀ t, (execFenceGlobal x0 x1) = .next t → t.fixed = x1.fixed := by
  rintro t ⟨⟩
  repeat' (first | (simp +zetaDelta [*]; done) | (split <;> try (rename_i h_; have k_ := pair_arg h_; simp at k_)) | (refine fold_to (fun _ _ => ?_) ?_) | (refine fold2_to (fun _ _ => ?_) ?_) | (refine fold1_to (fun _ _ => ?_) ?_) | (refine fold22_to (fun _ _ => ?_) ?_) | simp +zetaDelta only [State.fixed_mk, State.fixed_eta, apply_ite State.fixed] | simp +zetaDelta [*])
theorem execChain_fixed (x0 : Nat) (x1 : State) : ∀ t, (execChain x0 x1) = .next t → t.fixed = x1.fixed := by
  rintro t ⟨⟩
  split <;> simp
@[simp] theorem State.enqueue_fixed (x0 : State) (x1 : Nat) (x2 : OpEntry) : (State.enqueue x0 x1 x2).fixed = x0.fixed := by
  unfold State.enqueue
  all_goals repeat' (first | (simp +zetaDelta [*]; done) | (split <;> try (rename_i h_; have k_ := pair_arg h_; simp at k_)) | (refine fold_to (fun _ _ => ?_) ?_) | (refine fold2_to (fun _ _ => ?_) ?_) | (refine fold1_to (fun _ _ => ?_) ?_) | (refine fold22_to (fun _ _ => ?_) ?_) | simp +zetaDelta only [State.fixed_mk, State.fixed_eta, apply_ite State.fixed] | simp +zetaDelta [*])
theorem execCondEnqueue_fixed (x0 : Nat) (x1 : State) : ∀ t, (execCondEnqueue x0 x1) = .next t → t.fixed = x1.fixed := by
  rintro t ⟨⟩
  repeat' (first | (simp +zetaDelta [*]; done) | (split <;> try (rename_i h_; have k_ := pair_arg h_; simp at k_)) | (refine fold_to (fun _ _ => ?_) ?_) | (refine fold2_to (fun _ _ => ?_) ?_) | (refine fold1_to (fun _ _ => ?_) ?_) | (refine fold22_to (fun _ _ => ?_) ?_) | simp +zetaDelta only [State.fixed_mk, State.fixed_eta, apply_ite State.fixed] | simp +zetaDelta [*])
theorem execCondEnqueuePush_fixed (x0 : Nat) (x1 : State) : ∀ t, (execCondEnqueuePush x0 x1) = .next t → t.fixed = x1.fixed := by
  rintro t ⟨⟩
  repeat' (first | (simp +zetaDelta [*]; done) | split)
@[simp] theorem State.copyGranules_fixed (x0 : State) (x1 x2 : Nat) (x3 : OpEntry) (x4 x5 x6 : Nat) (x7 : List (Nat × Nat)) : (State.copyGranules x0 x1 x2 x3 x4 x5 x6 x7).2.fixed = x0.fixed := by
  induction x7 generalizing x0 with
  | nil => rfl
  | cons p ps ih =>
    simp only [State.copyGranules]
    split
    all_goals
      split
      · rfl
      · split <;> (rename_i h; have k_ := pair_arg h; simp at k_)
        · exact k_
        · split
          · simp [k_]
          · rw [ih, State.updOp_fixed]
            refine fold_to (fun _ _ => by simp) ?_
            simp [k_]
theorem execCopy_fixed (x0 : ℕ) (x1 : State) : ∀ t, (execCopy x0 x1) = .next t → t.fixed = x1.fixed := by
  rintro t ⟨⟩
  all_goals repeat' (first | (simp +zetaDelta [*]; done) | (split <;> try (rename_i h_; have k_ := pair_arg h_; simp at k_)) | (refine fold_to (fun _ _ => ?_) ?_) | (refine fold2_to (fun _ _ => ?_) ?_) | (refine fold1_to (fun _ _ => ?_) ?_) | (refine fold22_to (fun _ _ => ?_) ?_) | (refine (State.startXferBy_fixed _ _ _ (fun _ _ => ?_)).trans ?_) | (refine (State.newXferBy_fixed _ _ _ _ _ (fun _ _ => ?_)).trans ?_) | (refine (State.request_fixed _ _ _ _ (fun _ => ?_)).trans ?_) | (refine (State.hostWrite_fixed _ _ _ _ (fun _ => ?_)).trans ?_) | (refine (State.hostLoad_fixed _ _ _ _ (fun _ => ?_)).trans ?_) | (refine (State.atOnce_fixed _ _ (fun _ => ?_)).trans ?_) | (refine (State.settleBar_fixed _ _ _ _ (fun _ _ _ => ?_)).trans ?_) | (refine (State.runCmd_fixed _ _ _ (fun _ _ _ => ?_)).trans ?_) | (refine (State.carryConf_fixed _ _ _ _ _ (fun _ => ?_)).trans ?_) | (refine (State.onI2c_fixed _ _ _ (fun _ => ?_)).trans ?_) | (refine (State.inRecovery_fixed _ _ _ (fun _ => ?_)).trans ?_) | (refine (State.mailboxWrite_fixed _ _ _ (fun _ => ?_)).trans ?_) | (refine (State.vfMailbox_fixed _ _ (fun _ => ?_)).trans ?_) | (refine (State.orReserved_fixed _ _ _ _ (fun _ => ?_)).trans ?_) | (refine (State.sqSetup_fixed _ _ _ _ (fun _ => ?_)).trans ?_) | (refine (State.onSq_fixed _ _ _ _ (fun _ _ => ?_)).trans ?_) | (refine (State.onCq_fixed _ _ _ _ (fun _ _ => ?_)).trans ?_) | (refine (State.endRead_fixed _ _ _ (fun _ => ?_)).trans ?_) | simp +zetaDelta only [State.fixed_mk, State.fixed_eta, apply_ite State.fixed] | simp +zetaDelta [*])

end Sys2Proof.Machine
end

