-- ==== Sys2Proof/Laws/KeptLaunch.lean ====
section
/-! SUPPORT. What the operations of Machine/Launch.lean keep: the queue and the fuse bank. -/

namespace Sys2Proof.Machine

set_option linter.all false

@[simp] theorem State.checkOpers_fixed (x0 : State) (x1 : Nat) (x2 : List Oper) : (State.checkOpers x0 x1 x2).2.fixed = x0.fixed := by
  induction x2 generalizing x0 with
  | nil => rfl
  | cons o os ih =>
    simp only [State.checkOpers]
    split
    · exact ih x0
    · split <;> (rename_i k; have k_ := pair_arg k; simp at k_)
      · exact k_
      · exact (ih _).trans k_
@[simp] theorem State.readOpers_fixed (x0 : State) (x1 : Nat) (x2 : OpEntry) (x3 : List Oper) : (State.readOpers x0 x1 x2 x3).2.fixed = x0.fixed := by
  unfold State.readOpers
  all_goals repeat' (first | (simp +zetaDelta [*]; done) | (split <;> try (rename_i h_; have k_ := pair_arg h_; simp at k_)) | (refine fold_to (fun _ _ => ?_) ?_) | (refine fold2_to (fun _ _ => ?_) ?_) | (refine fold1_to (fun _ _ => ?_) ?_) | (refine fold22_to (fun _ _ => ?_) ?_) | simp +zetaDelta only [State.fixed_mk, State.fixed_eta, apply_ite State.fixed] | simp +zetaDelta [*])
@[simp] theorem State.freeRuns_fixed (x0 : State) (x1 : List (ℕ × List Byte)) : (State.freeRuns x0 x1).2.fixed = x0.fixed := by
  fun_induction State.freeRuns x0 x1
  all_goals repeat' (first | (simp +zetaDelta [*]; done) | (split <;> try (rename_i h_; have k_ := pair_arg h_; simp at k_)) | (refine fold_to (fun _ _ => ?_) ?_) | (refine fold2_to (fun _ _ => ?_) ?_) | (refine fold1_to (fun _ _ => ?_) ?_) | (refine fold22_to (fun _ _ => ?_) ?_) | (refine (State.startXferBy_fixed _ _ _ (fun _ _ => ?_)).trans ?_) | (refine (State.newXferBy_fixed _ _ _ _ _ (fun _ _ => ?_)).trans ?_) | (refine (State.request_fixed _ _ _ _ (fun _ => ?_)).trans ?_) | (refine (State.hostWrite_fixed _ _ _ _ (fun _ => ?_)).trans ?_) | (refine (State.hostLoad_fixed _ _ _ _ (fun _ => ?_)).trans ?_) | (refine (State.atOnce_fixed _ _ (fun _ => ?_)).trans ?_) | (refine (State.settleBar_fixed _ _ _ _ (fun _ _ _ => ?_)).trans ?_) | (refine (State.runCmd_fixed _ _ _ (fun _ _ _ => ?_)).trans ?_) | (refine (State.carryConf_fixed _ _ _ _ _ (fun _ => ?_)).trans ?_) | (refine (State.onI2c_fixed _ _ _ (fun _ => ?_)).trans ?_) | (refine (State.inRecovery_fixed _ _ _ (fun _ => ?_)).trans ?_) | (refine (State.mailboxWrite_fixed _ _ _ (fun _ => ?_)).trans ?_) | (refine (State.vfMailbox_fixed _ _ (fun _ => ?_)).trans ?_) | (refine (State.orReserved_fixed _ _ _ _ (fun _ => ?_)).trans ?_) | (refine (State.sqSetup_fixed _ _ _ _ (fun _ => ?_)).trans ?_) | (refine (State.onSq_fixed _ _ _ _ (fun _ _ => ?_)).trans ?_) | (refine (State.onCq_fixed _ _ _ _ (fun _ _ => ?_)).trans ?_) | (refine (State.endRead_fixed _ _ _ (fun _ => ?_)).trans ?_) | simp +zetaDelta only [State.fixed_mk, State.fixed_eta, apply_ite State.fixed] | simp +zetaDelta [*])
@[simp] theorem State.settled_fixed (x0 : State) (x1 : OpEntry) (x2 : List Oper) (x3 : List Oper) (x4 : List (List (ℕ × List Byte))) : (State.settled x0 x1 x2 x3 x4).2.fixed = x0.fixed := by
  unfold State.settled
  all_goals repeat' (first | (simp +zetaDelta [*]; done) | (split <;> try (rename_i h_; have k_ := pair_arg h_; simp at k_)) | (refine fold_to (fun _ _ => ?_) ?_) | (refine fold2_to (fun _ _ => ?_) ?_) | (refine fold1_to (fun _ _ => ?_) ?_) | (refine fold22_to (fun _ _ => ?_) ?_) | (refine (State.startXferBy_fixed _ _ _ (fun _ _ => ?_)).trans ?_) | (refine (State.newXferBy_fixed _ _ _ _ _ (fun _ _ => ?_)).trans ?_) | (refine (State.request_fixed _ _ _ _ (fun _ => ?_)).trans ?_) | (refine (State.hostWrite_fixed _ _ _ _ (fun _ => ?_)).trans ?_) | (refine (State.hostLoad_fixed _ _ _ _ (fun _ => ?_)).trans ?_) | (refine (State.atOnce_fixed _ _ (fun _ => ?_)).trans ?_) | (refine (State.settleBar_fixed _ _ _ _ (fun _ _ _ => ?_)).trans ?_) | (refine (State.runCmd_fixed _ _ _ (fun _ _ _ => ?_)).trans ?_) | (refine (State.carryConf_fixed _ _ _ _ _ (fun _ => ?_)).trans ?_) | (refine (State.onI2c_fixed _ _ _ (fun _ => ?_)).trans ?_) | (refine (State.inRecovery_fixed _ _ _ (fun _ => ?_)).trans ?_) | (refine (State.mailboxWrite_fixed _ _ _ (fun _ => ?_)).trans ?_) | (refine (State.vfMailbox_fixed _ _ (fun _ => ?_)).trans ?_) | (refine (State.orReserved_fixed _ _ _ _ (fun _ => ?_)).trans ?_) | (refine (State.sqSetup_fixed _ _ _ _ (fun _ => ?_)).trans ?_) | (refine (State.onSq_fixed _ _ _ _ (fun _ _ => ?_)).trans ?_) | (refine (State.onCq_fixed _ _ _ _ (fun _ _ => ?_)).trans ?_) | (refine (State.endRead_fixed _ _ _ (fun _ => ?_)).trans ?_) | simp +zetaDelta only [State.fixed_mk, State.fixed_eta, apply_ite State.fixed] | simp +zetaDelta [*])
@[simp] theorem State.runPlan_fixed (x0 : State) (x1 : Nat) (x2 : OpEntry) (x3 : Plan) : (State.runPlan x0 x1 x2 x3).fixed = x0.fixed := by
  unfold State.runPlan
  all_goals repeat' (first | (simp +zetaDelta [*]; done) | (split <;> try (rename_i h_; have k_ := pair_arg h_; simp at k_)) | (refine fold_to (fun _ _ => ?_) ?_) | (refine fold2_to (fun _ _ => ?_) ?_) | (refine fold1_to (fun _ _ => ?_) ?_) | (refine fold22_to (fun _ _ => ?_) ?_) | simp +zetaDelta only [State.fixed_mk, State.fixed_eta, apply_ite State.fixed] | simp +zetaDelta [*])
@[simp] theorem State.runLaunch_fixed (x0 : State) (x1 : Nat) (x2 : Nat) (x3 : Nat → List Byte → OpEntry → Option Plan) : (State.runLaunch x0 x1 x2 x3).fixed = x0.fixed := by
  unfold State.runLaunch
  repeat' (first | (simp +zetaDelta [*]; done) | split)
theorem execMatmul_fixed (x0 : Nat) (x1 : State) : ∀ t, (execMatmul x0 x1) = .next t → t.fixed = x1.fixed := by
  rintro t ⟨⟩
  simp
theorem execConv_fixed (x0 : Nat) (x1 : State) : ∀ t, (execConv x0 x1) = .next t → t.fixed = x1.fixed := by
  rintro t ⟨⟩
  simp
theorem execQuantize_fixed (x0 : Nat) (x1 : State) : ∀ t, (execQuantize x0 x1) = .next t → t.fixed = x1.fixed := by
  rintro t ⟨⟩
  simp
theorem execDequantize_fixed (x0 : Nat) (x1 : State) : ∀ t, (execDequantize x0 x1) = .next t → t.fixed = x1.fixed := by
  rintro t ⟨⟩
  simp

end Sys2Proof.Machine
end

