-- ==== Sys2Proof/Laws/KeptVector.lean ====
section
/-! SUPPORT. What the operations of Machine/Vector.lean keep: the queue and the fuse bank. -/

namespace Sys2Proof.Machine

set_option linter.all false

theorem execAttention_fixed (x0 : Nat) (x1 : State) : ∀ t, (execAttention x0 x1) = .next t → t.fixed = x1.fixed := by
  rintro t ⟨⟩
  simp
theorem execNorm_fixed (x0 : Nat) (x1 : State) : ∀ t, (execNorm x0 x1) = .next t → t.fixed = x1.fixed := by
  rintro t ⟨⟩
  simp
theorem execSoftmax_fixed (x0 : Nat) (x1 : State) : ∀ t, (execSoftmax x0 x1) = .next t → t.fixed = x1.fixed := by
  rintro t ⟨⟩
  simp
theorem execElementwise_fixed (x0 : Nat) (x1 : State) : ∀ t, (execElementwise x0 x1) = .next t → t.fixed = x1.fixed := by
  rintro t ⟨⟩
  simp
theorem execReduce_fixed (x0 : Nat) (x1 : State) : ∀ t, (execReduce x0 x1) = .next t → t.fixed = x1.fixed := by
  rintro t ⟨⟩
  simp
theorem execGather_fixed (x0 : Nat) (x1 : State) : ∀ t, (execGather x0 x1) = .next t → t.fixed = x1.fixed := by
  rintro t ⟨⟩
  simp
theorem execScatter_fixed (x0 : Nat) (x1 : State) : ∀ t, (execScatter x0 x1) = .next t → t.fixed = x1.fixed := by
  rintro t ⟨⟩
  simp
theorem execSample_fixed (x0 : Nat) (x1 : State) : ∀ t, (execSample x0 x1) = .next t → t.fixed = x1.fixed := by
  rintro t ⟨⟩
  simp
theorem execCopyTransform_fixed (x0 : Nat) (x1 : State) : ∀ t, (execCopyTransform x0 x1) = .next t → t.fixed = x1.fixed := by
  rintro t ⟨⟩
  simp

end Sys2Proof.Machine
end

