-- ==== Sys2Proof/Laws/KeptReport.lean ====
section
/-! SUPPORT. What the operations of Machine/Report.lean keep: the queue and the fuse bank. -/

namespace Sys2Proof.Machine

set_option linter.all false

@[simp] theorem State.result_fixed (x0 : State) (x1 : Nat) (x2 : Nat) : (State.result x0 x1 x2).fixed = x0.fixed := by simp [State.result]
@[simp] theorem State.capChanges_fixed (x0 : State) (x1 : List Nat) : (State.capChanges x0 x1).fixed = x0.fixed := by
  simp only [State.capChanges]
  exact fold_to (fun _ _ => by simp) (by simp)
@[simp] theorem State.flushBootLog_fixed (x0 : State) : (State.flushBootLog x0).fixed = x0.fixed := by
  unfold State.flushBootLog
  all_goals repeat' (first | (simp +zetaDelta [*]; done) | (split <;> try (rename_i h_; have k_ := pair_arg h_; simp at k_)) | (refine fold_to (fun _ _ => ?_) ?_) | (refine fold2_to (fun _ _ => ?_) ?_) | (refine fold1_to (fun _ _ => ?_) ?_) | (refine fold22_to (fun _ _ => ?_) ?_) | simp +zetaDelta only [State.fixed_mk, State.fixed_eta, apply_ite State.fixed] | simp +zetaDelta [*])
@[simp] theorem State.trimReserves_fixed (x0 : State) : (State.trimReserves x0).fixed = x0.fixed := by simp [State.trimReserves]
@[simp] theorem State.commitShadow_fixed (x0 : State) : (State.commitShadow x0).fixed = x0.fixed := by
  unfold State.commitShadow
  all_goals repeat' (first | (simp +zetaDelta [*]; done) | (split <;> try (rename_i h_; have k_ := pair_arg h_; simp at k_)) | (refine fold_to (fun _ _ => ?_) ?_) | (refine fold2_to (fun _ _ => ?_) ?_) | (refine fold1_to (fun _ _ => ?_) ?_) | (refine fold22_to (fun _ _ => ?_) ?_) | simp +zetaDelta only [State.fixed_mk, State.fixed_eta, apply_ite State.fixed] | simp +zetaDelta [*])
@[simp] theorem State.unlock_fixed (x0 : State) : (State.unlock x0).fixed = x0.fixed := by simp [State.unlock]
@[simp] theorem State.abandonShadow_fixed (x0 : State) : (State.abandonShadow x0).fixed = x0.fixed := by simp [State.abandonShadow]
@[simp] theorem State.grantLock_fixed (x0 : State) (x1 : BitVec 3) (x2 : BitVec 8) (x3 : Bool) : (State.grantLock x0 x1 x2 x3).fixed = x0.fixed := by simp [State.grantLock]
@[simp] theorem State.flushRsp_fixed (x0 : State) (x1 : Nat) : (State.flushRsp x0 x1).fixed = x0.fixed := by
  induction x1 generalizing x0 with
  | zero => rfl
  | succ n ih =>
    simp only [State.flushRsp]
    split
    · rfl
    · split
      · rfl
      · rw [ih]; simp
@[simp] theorem State.notify_fixed (x0 : State) (x1 : List Byte) : (State.notify x0 x1).fixed = x0.fixed := by simp [State.notify]
@[simp] theorem State.lockBrokenNotice_fixed (x0 : State) (x1 : BitVec 3) (x2 : BitVec 16) : (State.lockBrokenNotice x0 x1 x2).fixed = x0.fixed := by
  unfold State.lockBrokenNotice
  split <;> simp
@[simp] theorem State.breakLock_fixed (x0 : State) (x1 : List (BitVec 3)) : (State.breakLock x0 x1).fixed = x0.fixed := by
  unfold State.breakLock
  split <;> simp

end Sys2Proof.Machine
end

