-- ==== Sys2Proof/Laws/KeptStaging.lean ====
section
/-! SUPPORT. What the operations of Machine/Staging.lean keep: the queue and the fuse bank. -/

namespace Sys2Proof.Machine

set_option linter.all false

@[simp] theorem State.noteRemote_fixed (x0 : State) (x1 : Nat) (x2 : List Byte) : (State.noteRemote x0 x1 x2).fixed = x0.fixed := by simp [State.noteRemote]

end Sys2Proof.Machine
end

