-- ==== Sys2Proof/Laws/KeptTakeover.lean ====
section
/-! SUPPORT. What the operations of Machine/Takeover.lean keep: the queue and the fuse bank. -/

namespace Sys2Proof.Machine

set_option linter.all false

@[simp] theorem State.giveVectors_fixed (x0 : State) (x1 : Nat) (x2 : Nat) : (State.giveVectors x0 x1 x2).fixed = x0.fixed := by simp [State.giveVectors]
@[simp] theorem State.makeInst_fixed (x0 : State) (x1 : Nat) (x2 : List Byte) : (State.makeInst x0 x1 x2).fixed = x0.fixed := by simp [State.makeInst]
@[simp] theorem State.dropInst_fixed (x0 : State) (x1 : Nat) : (State.dropInst x0 x1).fixed = x0.fixed := by simp [State.dropInst]
@[simp] theorem State.mirrorCommand_fixed (x0 : State) (x1 : List Byte) : (State.mirrorCommand x0 x1).fixed = x0.fixed := by
  unfold State.mirrorCommand
  split <;> simp
@[simp] theorem State.mirrorConfig_fixed (x0 : State) (x1 : Nat) (x2 : List Byte) : (State.mirrorConfig x0 x1 x2).fixed = x0.fixed := by
  unfold State.mirrorConfig
  all_goals repeat' (first | (simp +zetaDelta [*]; done) | (split <;> try (rename_i h_; have k_ := pair_arg h_; simp at k_)) | (refine fold_to (fun _ _ => ?_) ?_) | (refine fold2_to (fun _ _ => ?_) ?_) | (refine fold1_to (fun _ _ => ?_) ?_) | (refine fold22_to (fun _ _ => ?_) ?_) | simp +zetaDelta only [State.fixed_mk, State.fixed_eta, apply_ite State.fixed] | simp +zetaDelta [*])
@[simp] theorem State.updMirror_fixed (x0 : State) (x1 : Nat) (x2 : Nat) (x3 : Mirror → Mirror) : (State.updMirror x0 x1 x2 x3).fixed = x0.fixed := by simp [State.updMirror]
@[simp] theorem State.mirrorRecord_fixed (x0 : State) (x1 : Nat) (x2 : Nat) (x3 : List Byte) : (State.mirrorRecord x0 x1 x2 x3).fixed = x0.fixed := by
  unfold State.mirrorRecord
  all_goals repeat' (first | (simp +zetaDelta [*]; done) | (split <;> try (rename_i h_; have k_ := pair_arg h_; simp at k_)) | (refine fold_to (fun _ _ => ?_) ?_) | (refine fold2_to (fun _ _ => ?_) ?_) | (refine fold1_to (fun _ _ => ?_) ?_) | (refine fold22_to (fun _ _ => ?_) ?_) | simp +zetaDelta only [State.fixed_mk, State.fixed_eta, apply_ite State.fixed] | simp +zetaDelta [*])
@[simp] theorem State.applyRec_fixed (x0 : State) (x1 : JRec) : (State.applyRec x0 x1).fixed = x0.fixed := by
  unfold State.applyRec
  all_goals repeat' (first | (simp +zetaDelta [*]; done) | (split <;> try (rename_i h_; have k_ := pair_arg h_; simp at k_)) | (refine fold_to (fun _ _ => ?_) ?_) | (refine fold2_to (fun _ _ => ?_) ?_) | (refine fold1_to (fun _ _ => ?_) ?_) | (refine fold22_to (fun _ _ => ?_) ?_) | simp +zetaDelta only [State.fixed_mk, State.fixed_eta, apply_ite State.fixed] | simp +zetaDelta [*])
@[simp] theorem State.reconcile_fixed (x0 : State) (x1 : Nat) : (State.reconcile x0 x1).fixed = x0.fixed := by
  unfold State.reconcile
  all_goals repeat' (first | (simp +zetaDelta [*]; done) | (split <;> try (rename_i h_; have k_ := pair_arg h_; simp at k_)) | (refine fold_to (fun _ _ => ?_) ?_) | (refine fold2_to (fun _ _ => ?_) ?_) | (refine fold1_to (fun _ _ => ?_) ?_) | (refine fold22_to (fun _ _ => ?_) ?_) | simp +zetaDelta only [State.fixed_mk, State.fixed_eta, apply_ite State.fixed] | simp +zetaDelta [*])
@[simp] theorem State.rewriteRecord_fixed (x0 : State) (x1 : Nat) (x2 : BitVec 32) (x3 : List Byte) : (State.rewriteRecord x0 x1 x2 x3).fixed = x0.fixed := by simp [State.rewriteRecord]
@[simp] theorem State.takeMirror_fixed (x0 : State) (x1 : List (Nat × Nat)) (x2 : Mirror) : (State.takeMirror x0 x1 x2).fixed = x0.fixed := by
  unfold State.takeMirror
  dsimp only
  cases x2.record with
  | some r => exact (apply_ite State.fixed _ _ _).trans (by simp)
  | none =>
    dsimp only
    split
    · simp
    · split
      · simp
      · split
        · split <;> simp
        · simp
@[simp] theorem State.takeGuilt_fixed (x0 : State) (x1 : Nat) : (State.takeGuilt x0 x1).fixed = x0.fixed := by
  unfold State.takeGuilt
  repeat' (first | (simp +zetaDelta [*]; done) | split)
@[simp] theorem State.freshCauses_fixed (x0 : State) : (State.freshCauses x0).fixed = x0.fixed := by
  simp only [State.freshCauses]
  exact fold_to (fun _ _ => by simp) (by simp)
@[simp] theorem State.becomeFront_fixed (x0 : State) : (State.becomeFront x0).fixed = x0.fixed := by
  unfold State.becomeFront
  all_goals repeat' (first | (simp +zetaDelta [*]; done) | (split <;> try (rename_i h_; have k_ := pair_arg h_; simp at k_)) | (refine fold_to (fun _ _ => ?_) ?_) | (refine fold2_to (fun _ _ => ?_) ?_) | (refine fold1_to (fun _ _ => ?_) ?_) | (refine fold22_to (fun _ _ => ?_) ?_) | simp +zetaDelta only [State.fixed_mk, State.fixed_eta, apply_ite State.fixed] | simp +zetaDelta [*])
@[simp] theorem State.mirrorsDone_fixed (x0 : State) : (State.mirrorsDone x0).fixed = x0.fixed := by
  unfold State.mirrorsDone
  all_goals repeat' (first | (simp +zetaDelta [*]; done) | (split <;> try (rename_i h_; have k_ := pair_arg h_; simp at k_)) | (refine fold_to (fun _ _ => ?_) ?_) | (refine fold2_to (fun _ _ => ?_) ?_) | (refine fold1_to (fun _ _ => ?_) ?_) | (refine fold22_to (fun _ _ => ?_) ?_) | simp +zetaDelta only [State.fixed_mk, State.fixed_eta, apply_ite State.fixed] | simp +zetaDelta [*])
@[simp] theorem State.takeOver_fixed (x0 : State) (x1 : ChipId) : (State.takeOver x0 x1).fixed = x0.fixed := by
  unfold State.takeOver
  extract_lets s2 cs vecs runs s3 s4 ns s5 s6 s7 got s8 s9
  have h2 : s2.fixed = x0.fixed := by simp only [s2, State.freshCauses_fixed, State.becomeFront_fixed]
  have h3 : s3.fixed = x0.fixed := fold_to (fun _ _ => by simp) h2
  have h4 : s4.fixed = x0.fixed := fold_to (fun _ _ => by simp) h3
  have h5 : s5.fixed = x0.fixed := fold_to (fun _ _ => by simp) h4
  have h6 : s6.fixed = x0.fixed := fold_to (fun _ _ => by simp) h5
  have h7 : s7.fixed = x0.fixed := fold_to (fun _ _ => by simp) h6
  have h8 : s8.fixed = x0.fixed := fold_to (fun _ _ => by simp) h7
  have h9 : s9.fixed = x0.fixed := fold_to (fun _ _ => by simp) ((State.mirrorsDone_fixed _).trans h8)
  exact fold_to (fun _ _ => by simp) ((State.event_fixed ..).trans h9)

end Sys2Proof.Machine
end

