-- ==== Sys2Proof/Laws/KeptInstStop.lean ====
section
/-! SUPPORT. What the operations of Machine/InstStop.lean keep: the queue and the fuse bank. -/

namespace Sys2Proof.Machine

set_option linter.all false

@[simp] theorem State.journalCommand_fixed (x0 : State) (x1 : List Byte) : (State.journalCommand x0 x1).fixed = x0.fixed := by
  simp only [State.journalCommand]
  exact fold_to (fun _ _ => by simp) (by simp)
@[simp] theorem State.endPending_fixed (x0 : State) (x1 : Nat) (x2 : Nat) (x3 : List Byte) : (State.endPending x0 x1 x2 x3).fixed = x0.fixed := by
  unfold State.endPending
  split <;> simp
@[simp] theorem State.orphan_fixed (x0 : State) (x1 : Nat) : (State.orphan x0 x1).fixed = x0.fixed := by simp [State.orphan]
@[simp] theorem State.stopCtx_fixed (x0 : State) (x1 : Nat) : (State.stopCtx x0 x1).fixed = x0.fixed := by
  unfold State.stopCtx
  all_goals repeat' (first | (simp +zetaDelta [*]; done) | (split <;> try (rename_i h_; have k_ := pair_arg h_; simp at k_)) | (refine fold_to (fun _ _ => ?_) ?_) | (refine fold2_to (fun _ _ => ?_) ?_) | (refine fold1_to (fun _ _ => ?_) ?_) | (refine fold22_to (fun _ _ => ?_) ?_) | simp +zetaDelta only [State.fixed_mk, State.fixed_eta, apply_ite State.fixed] | simp +zetaDelta [*])
@[simp] theorem State.stopLocal_fixed (x0 : State) (x1 : Nat) : (State.stopLocal x0 x1).fixed = x0.fixed := by
  simp only [State.stopLocal]
  exact fold_to (fun _ _ => by simp) (by simp)
@[simp] theorem State.resetObjects_fixed (x0 : State) (x1 : Nat) : (State.resetObjects x0 x1).fixed = x0.fixed := by simp [State.resetObjects]
@[simp] theorem State.purgeLocal_fixed (x0 : State) (x1 : Nat) (x2 : BitVec 7) : (State.purgeLocal x0 x1 x2).fixed = x0.fixed := by
  simp only [State.purgeLocal]
  exact fold_to (fun _ _ => by simp) (by simp)
@[simp] theorem State.journalRings_fixed (x0 : State) (x1 : Nat) : (State.journalRings x0 x1).fixed = x0.fixed := by
  unfold State.journalRings
  all_goals repeat' (first | (simp +zetaDelta [*]; done) | (split <;> try (rename_i h_; have k_ := pair_arg h_; simp at k_)) | (refine fold_to (fun _ _ => ?_) ?_) | (refine fold2_to (fun _ _ => ?_) ?_) | (refine fold1_to (fun _ _ => ?_) ?_) | (refine fold22_to (fun _ _ => ?_) ?_) | simp +zetaDelta only [State.fixed_mk, State.fixed_eta, apply_ite State.fixed] | simp +zetaDelta [*])
@[simp] theorem State.resetFn_fixed (x0 : State) (x1 : Nat) : (State.resetFn x0 x1).fixed = x0.fixed := by simp [State.resetFn]
@[simp] theorem State.resetQueues_fixed (x0 : State) : (State.resetQueues x0).fixed = x0.fixed := by simp [State.resetQueues]
@[simp] theorem State.finishFlr_fixed (x0 : State) (x1 : Nat) : (State.finishFlr x0 x1).fixed = x0.fixed := by
  unfold State.finishFlr
  dsimp only
  rw [State.notify_fixed]
  split <;> simp <;> exact fold_to (fun _ _ => by simp) rfl
@[simp] theorem State.purgeAnswered_fixed (x0 : State) (x1 : Nat) (x2 : ChipId) : (State.purgeAnswered x0 x1 x2).fixed = x0.fixed := by
  unfold State.purgeAnswered
  all_goals repeat' (first | (simp +zetaDelta [*]; done) | (split <;> try (rename_i h_; have k_ := pair_arg h_; simp at k_)) | (refine fold_to (fun _ _ => ?_) ?_) | (refine fold2_to (fun _ _ => ?_) ?_) | (refine fold1_to (fun _ _ => ?_) ?_) | (refine fold22_to (fun _ _ => ?_) ?_) | simp +zetaDelta only [State.fixed_mk, State.fixed_eta, apply_ite State.fixed] | simp +zetaDelta [*])
@[simp] theorem State.purgeAll_fixed (x0 : State) (x1 : Nat) : (State.purgeAll x0 x1).fixed = x0.fixed := by
  unfold State.purgeAll
  all_goals repeat' (first | (simp +zetaDelta [*]; done) | (split <;> try (rename_i h_; have k_ := pair_arg h_; simp at k_)) | (refine fold_to (fun _ _ => ?_) ?_) | (refine fold2_to (fun _ _ => ?_) ?_) | (refine fold1_to (fun _ _ => ?_) ?_) | (refine fold22_to (fun _ _ => ?_) ?_) | simp +zetaDelta only [State.fixed_mk, State.fixed_eta, apply_ite State.fixed] | simp +zetaDelta [*])
@[simp] theorem State.stopAnswered_fixed (x0 : State) (x1 : Nat) (x2 : ChipId) : (State.stopAnswered x0 x1 x2).fixed = x0.fixed := by
  unfold State.stopAnswered
  all_goals repeat' (first | (simp +zetaDelta [*]; done) | (split <;> try (rename_i h_; have k_ := pair_arg h_; simp at k_)) | (refine fold_to (fun _ _ => ?_) ?_) | (refine fold2_to (fun _ _ => ?_) ?_) | (refine fold1_to (fun _ _ => ?_) ?_) | (refine fold22_to (fun _ _ => ?_) ?_) | simp +zetaDelta only [State.fixed_mk, State.fixed_eta, apply_ite State.fixed] | simp +zetaDelta [*])
@[simp] theorem State.answerStops_fixed (x0 : State) : (State.answerStops x0).fixed = x0.fixed := by
  unfold State.answerStops
  all_goals repeat' (first | (simp +zetaDelta [*]; done) | (split <;> try (rename_i h_; have k_ := pair_arg h_; simp at k_)) | (refine fold_to (fun _ _ => ?_) ?_) | (refine fold2_to (fun _ _ => ?_) ?_) | (refine fold1_to (fun _ _ => ?_) ?_) | (refine fold22_to (fun _ _ => ?_) ?_) | simp +zetaDelta only [State.fixed_mk, State.fixed_eta, apply_ite State.fixed] | simp +zetaDelta [*])
@[simp] theorem State.stopsWithout_fixed (x0 : State) (x1 : ChipId) : (State.stopsWithout x0 x1).fixed = x0.fixed := by
  simp only [State.stopsWithout]
  exact fold_to (fun _ _ => by simp) (by simp)
@[simp] theorem State.beginStop_fixed (x0 : State) (x1 : Nat) : (State.beginStop x0 x1).fixed = x0.fixed := by
  unfold State.beginStop
  dsimp only
  simp only [State.answerStops_fixed, State.stopLocal_fixed]
  exact fold_to (fun _ _ => by simp) (by simp)
@[simp] theorem State.closeFn_fixed (x0 : State) (x1 : ℕ) : (State.closeFn x0 x1).fixed = x0.fixed := by simp [State.closeFn]
@[simp] theorem State.flrHost_fixed (x0 : State) (x1 : Nat) : (State.flrHost x0 x1).fixed = x0.fixed := by simp [State.flrHost]
@[simp] theorem State.flrInst_fixed (x0 : State) (x1 : ℕ) : (State.flrInst x0 x1).fixed = x0.fixed := by
  unfold State.flrInst
  repeat' (first | (simp +zetaDelta [*]; done) | split | dsimp only)
@[simp] theorem State.flrAway_fixed (x0 : State) (x1 : ℕ) : (State.flrAway x0 x1).fixed = x0.fixed := by
  unfold State.flrAway
  repeat' (first | (simp +zetaDelta [*]; done) | split | dsimp only)
@[simp] theorem State.flrFn_fixed (x0 : State) (x1 : Nat) : (State.flrFn x0 x1).fixed = x0.fixed := by
  unfold State.flrFn
  repeat' (first | (simp +zetaDelta [*]; done) | split)
@[simp] theorem State.pfNext_fixed (x0 : State) : (State.pfNext x0).fixed = x0.fixed := by
  unfold State.pfNext
  split <;> simp
@[simp] theorem State.disableVfs_fixed (x0 : State) : (State.disableVfs x0).fixed = x0.fixed := by
  simp only [State.disableVfs]
  exact fold_to (fun _ _ => by simp) (by simp)
@[simp] theorem State.flrManager_fixed (x0 : State) : (State.flrManager x0).fixed = x0.fixed := by
  unfold State.flrManager
  repeat' (first | (simp +zetaDelta [*]; done) | split | dsimp only)
@[simp] theorem State.takeFlr_fixed (x0 : State) (x1 : ChipId) (x2 : ℕ) : (State.takeFlr x0 x1 x2).fixed = x0.fixed := by
  unfold State.takeFlr
  repeat' (first | (simp +zetaDelta [*]; done) | split | dsimp only)
@[simp] theorem State.flrPf_fixed (x0 : State) : (State.flrPf x0).fixed = x0.fixed := by
  unfold State.flrPf
  all_goals repeat' (first | (simp +zetaDelta [*]; done) | (split <;> try (rename_i h_; have k_ := pair_arg h_; simp at k_)) | (refine fold_to (fun _ _ => ?_) ?_) | (refine fold2_to (fun _ _ => ?_) ?_) | (refine fold1_to (fun _ _ => ?_) ?_) | (refine fold22_to (fun _ _ => ?_) ?_) | simp +zetaDelta only [State.fixed_mk, State.fixed_eta, apply_ite State.fixed] | simp +zetaDelta [*])
theorem execFunctionLevelReset_fixed (x0 : Nat) (x1 : State) : ∀ t, (execFunctionLevelReset x0 x1) = .next t → t.fixed = x1.fixed := by
  rintro t ⟨⟩
  repeat' (first | (simp +zetaDelta [*]; done) | split)
theorem execVfDisable_fixed (x0 : State) : ∀ t, (execVfDisable x0) = .next t → t.fixed = x0.fixed := by
  rintro t ⟨⟩
  split <;> simp
theorem execPfFlr_fixed (x0 : State) : ∀ t, (execPfFlr x0) = .next t → t.fixed = x0.fixed := by
  rintro t ⟨⟩
  split <;> simp
@[simp] theorem State.linkLost_fixed (x0 : State) : (State.linkLost x0).fixed = x0.fixed := by simp [State.linkLost]
theorem execHotReset_fixed (x0 : Bool) (x1 : State) : ∀ t, (execHotReset x0 x1) = .next t → t.fixed = x1.fixed := by
  rintro t ⟨⟩
  all_goals repeat' (first | (simp +zetaDelta [*]; done) | (split <;> try (rename_i h_; have k_ := pair_arg h_; simp at k_)) | (refine fold_to (fun _ _ => ?_) ?_) | (refine fold2_to (fun _ _ => ?_) ?_) | (refine fold1_to (fun _ _ => ?_) ?_) | (refine fold22_to (fun _ _ => ?_) ?_) | (refine (State.startXferBy_fixed _ _ _ (fun _ _ => ?_)).trans ?_) | (refine (State.newXferBy_fixed _ _ _ _ _ (fun _ _ => ?_)).trans ?_) | (refine (State.request_fixed _ _ _ _ (fun _ => ?_)).trans ?_) | (refine (State.hostWrite_fixed _ _ _ _ (fun _ => ?_)).trans ?_) | (refine (State.hostLoad_fixed _ _ _ _ (fun _ => ?_)).trans ?_) | (refine (State.atOnce_fixed _ _ (fun _ => ?_)).trans ?_) | (refine (State.settleBar_fixed _ _ _ _ (fun _ _ _ => ?_)).trans ?_) | (refine (State.runCmd_fixed _ _ _ (fun _ _ _ => ?_)).trans ?_) | (refine (State.carryConf_fixed _ _ _ _ _ (fun _ => ?_)).trans ?_) | (refine (State.onI2c_fixed _ _ _ (fun _ => ?_)).trans ?_) | (refine (State.inRecovery_fixed _ _ _ (fun _ => ?_)).trans ?_) | (refine (State.mailboxWrite_fixed _ _ _ (fun _ => ?_)).trans ?_) | (refine (State.vfMailbox_fixed _ _ (fun _ => ?_)).trans ?_) | (refine (State.orReserved_fixed _ _ _ _ (fun _ => ?_)).trans ?_) | (refine (State.sqSetup_fixed _ _ _ _ (fun _ => ?_)).trans ?_) | (refine (State.onSq_fixed _ _ _ _ (fun _ _ => ?_)).trans ?_) | (refine (State.onCq_fixed _ _ _ _ (fun _ _ => ?_)).trans ?_) | (refine (State.endRead_fixed _ _ _ (fun _ => ?_)).trans ?_) | simp +zetaDelta only [State.fixed_mk, State.fixed_eta, apply_ite State.fixed] | simp +zetaDelta [*])
@[simp] theorem State.takeStop_fixed (x0 : State) (x1 : Nat) : (State.takeStop x0 x1).fixed = x0.fixed := by simp [State.takeStop]
@[simp] theorem State.takePurge_fixed (x0 : State) (x1 : ChipId) (x2 : ℕ) (x3 : BitVec 7) : (State.takePurge x0 x1 x2 x3).fixed = x0.fixed := by
  unfold State.takePurge
  repeat' (first | (simp +zetaDelta [*]; done) | split | dsimp only)

end Sys2Proof.Machine
end

