-- ==== Sys2Proof/Laws/KeptContext.lean ====
section
/-! SUPPORT. What the operations of Machine/Context.lean keep: the queue and the fuse bank. -/

namespace Sys2Proof.Machine

set_option linter.all false

@[simp] theorem State.objImages_fixed (x0 : State) (x1 : ChipId) (x2 : List (Nat × Nat)) : (State.objImages x0 x1 x2).2.fixed = x0.fixed := by
  induction x2 generalizing x0 with
  | nil => rfl
  | cons o os ih =>
    simp only [State.objImages]
    rw [ih]
    split <;> simp
@[simp] theorem State.drImages_fixed (x0 : State) (x1 : ChipId) (x2 : Nat) : (State.drImages x0 x1 x2).2.fixed = x0.fixed := by
  unfold State.drImages
  split <;> simp
@[simp] theorem State.chipSections_fixed (x0 : State) (x1 : Nat) (x2 : Bool) (x3 : List ChipId) : (State.chipSections x0 x1 x2 x3).2.fixed = x0.fixed := by
  induction x3 generalizing x0 with
  | nil => rfl
  | cons o os ih =>
    simp only [State.chipSections]
    rw [ih]
    split <;> simp
@[simp] theorem State.image_fixed (x0 : State) (x1 : Nat) : (State.image x0 x1).2.fixed = x0.fixed := by simp [State.image]
@[simp] theorem State.putObj_fixed (x0 : State) (x1 : Nat × Nat × Nat × Nat) : (State.putObj x0 x1).fixed = x0.fixed := by
  unfold State.putObj
  split <;> simp
@[simp] theorem State.putSection_fixed (x0 : State) (x1 : Nat) (x2 : Nat × Nat × List Byte) : (State.putSection x0 x1 x2).fixed = x0.fixed := by
  unfold State.putSection
  all_goals repeat' (first | (simp +zetaDelta [*]; done) | (split <;> try (rename_i h_; have k_ := pair_arg h_; simp at k_)) | (refine fold_to (fun _ _ => ?_) ?_) | (refine fold2_to (fun _ _ => ?_) ?_) | (refine fold1_to (fun _ _ => ?_) ?_) | (refine fold22_to (fun _ _ => ?_) ?_) | simp +zetaDelta only [State.fixed_mk, State.fixed_eta, apply_ite State.fixed] | simp +zetaDelta [*])
@[simp] theorem State.restoreHere_fixed (x0 : State) (x1 : Nat) (x2 : List Byte) : (State.restoreHere x0 x1 x2).fixed = x0.fixed := by
  unfold State.restoreHere
  all_goals repeat' (first | (simp +zetaDelta [*]; done) | (split <;> try (rename_i h_; have k_ := pair_arg h_; simp at k_)) | (refine fold_to (fun _ _ => ?_) ?_) | (refine fold2_to (fun _ _ => ?_) ?_) | (refine fold1_to (fun _ _ => ?_) ?_) | (refine fold22_to (fun _ _ => ?_) ?_) | simp +zetaDelta only [State.fixed_mk, State.fixed_eta, apply_ite State.fixed] | simp +zetaDelta [*])

end Sys2Proof.Machine
end

