-- ==== Sys2Proof/Laws/KeptConf.lean ====
section
/-! SUPPORT. What the operations of Machine/Conf.lean keep: the queue and the fuse bank. -/

namespace Sys2Proof.Machine

set_option linter.all false

@[simp] theorem State.fillKey_fixed (x0 : State) (x1 : Nat) : (State.fillKey x0 x1).fixed = x0.fixed := by
  unfold State.fillKey
  split <;> simp
@[simp] theorem State.zeroRanges_fixed (x0 : State) (x1 : List (Nat × Nat)) : (State.zeroRanges x0 x1).fixed = x0.fixed := by simp [State.zeroRanges]
@[simp] theorem State.forgetConf_fixed (x0 : State) (x1 : Nat) : (State.forgetConf x0 x1).fixed = x0.fixed := by simp [State.forgetConf]
theorem State.newTable_fixed (x0 : State) (x1 : Nat) : ∀ r, (State.newTable x0 x1) = some r → r.2.fixed = x0.fixed := by
  intro r h
  unfold State.newTable at h
  dsimp only at h
  split at h <;> cases h
  simp
theorem State.nextLevel_fixed (x0 : State) (x1 : Nat) (x2 : Nat) : ∀ r, (State.nextLevel x0 x1 x2) = some r → r.2.fixed = x0.fixed := by
  intro r h
  unfold State.nextLevel at h
  dsimp only at h
  split at h
  · split at h <;> cases h
    rfl
  · split at h <;> cases h
    rename_i k
    have := State.newTable_fixed _ _ _ k
    simpa using this
@[simp] theorem State.uncachePage_fixed (x0 : State) (x1 : Nat) (x2 : Nat) : (State.uncachePage x0 x1 x2).fixed = x0.fixed := by
  unfold State.uncachePage
  all_goals repeat' (first | (simp +zetaDelta [*]; done) | (split <;> try (rename_i h_; have k_ := pair_arg h_; simp at k_)) | (refine fold_to (fun _ _ => ?_) ?_) | (refine fold2_to (fun _ _ => ?_) ?_) | (refine fold1_to (fun _ _ => ?_) ?_) | (refine fold22_to (fun _ _ => ?_) ?_) | simp +zetaDelta only [State.fixed_mk, State.fixed_eta, apply_ite State.fixed] | simp +zetaDelta [*])
theorem State.mapPage_fixed (x0 : State) (x1 : Nat) (x2 : Nat) (x3 : Nat) (x4 : Nat) (x5 : Bool) (x6 : Bool) : ∀ t, (State.mapPage x0 x1 x2 x3 x4 x5 x6) = some t → t.fixed = x0.fixed := by
  intro t h
  unfold State.mapPage at h
  split at h
  · cases h
  · rename_i k1
    have e1 := State.nextLevel_fixed _ _ _ _ k1
    split at h
    · cases h
    · rename_i k2
      have e2 := State.nextLevel_fixed _ _ _ _ k2
      cases h
      exact (State.uncachePage_fixed _ _ _).trans ((State.pokes_fixed _ _ _).trans (e2.trans e1))
theorem State.mapPages_fixed (x0 : State) (x1 : Nat) (x2 : Nat) (x3 : Bool) (x4 : Bool) (x5 : Nat) (x6 : Nat) (x7 : Nat) : ∀ t, (State.mapPages x0 x1 x2 x3 x4 x5 x6 x7) = some t → t.fixed = x0.fixed := by
  induction x5 generalizing x0 x6 x7 with
  | zero => intro t h; cases h; rfl
  | succ n ih =>
    intro t h
    simp only [State.mapPages] at h
    split at h
    · cases h
    · rename_i k
      exact (ih _ _ _ t h).trans (State.mapPage_fixed _ _ _ _ _ _ _ _ k)
@[simp] theorem State.unmapTable_fixed (x0 : State) (x1 : List Nat) (x2 : Nat) : (State.unmapTable x0 x1 x2).fixed = x0.fixed := by
  unfold State.unmapTable
  exact fold_to (fun _ _ => by dsimp only; split <;> simp) rfl
@[simp] theorem State.unmapPages_fixed (x0 : State) (x1 : Nat) (x2 : List Nat) : (State.unmapPages x0 x1 x2).fixed = x0.fixed := by
  simp only [State.unmapPages]
  exact fold_to (fun _ _ => by simp) (by simp)
@[simp] theorem State.measure_fixed (x0 : State) (x1 : Nat) (x2 : List Byte) : (State.measure x0 x1 x2).fixed = x0.fixed := by simp [State.measure]
@[simp] theorem State.extendMr_fixed (x0 : State) (x1 : Nat) (x2 : List Byte) : (State.extendMr x0 x1 x2).fixed = x0.fixed := by simp [State.extendMr]
@[simp] theorem State.confCreateHere_fixed (x0 : State) (x1 : Nat) : (State.confCreateHere x0 x1).fixed = x0.fixed := by
  unfold State.confCreateHere
  dsimp only
  split
  · rename_i k
    split at k
    · cases k
    · have := State.newTable_fixed _ _ _ k
      simpa using this
  · simp
@[simp] theorem State.confAssignHere_fixed (x0 : State) (x1 : Nat) (x2 : List Byte) : (State.confAssignHere x0 x1 x2).fixed = x0.fixed := by
  unfold State.confAssignHere
  split <;> simp
theorem State.confMapHere_fixed (x0 : State) (x1 : Nat) (x2 : List Byte) : ∀ t, (State.confMapHere x0 x1 x2) = some t → t.fixed = x0.fixed := by
  intro t h
  unfold State.confMapHere at h
  dsimp only at h
  split at h
  · cases h
  · exact State.mapPages_fixed _ _ _ _ _ _ _ _ _ h
@[simp] theorem State.confReleaseHere_fixed (x0 : State) (x1 : Nat) (x2 : List Byte) : (State.confReleaseHere x0 x1 x2).fixed = x0.fixed := by simp [State.confReleaseHere]
@[simp] theorem State.confPart_fixed (x0 : State) (x1 : Nat) (x2 : Nat) (x3 : List Byte) (x4 : Bool) : (State.confPart x0 x1 x2 x3 x4).fixed = x0.fixed := by
  unfold State.confPart
  split
  · simp
  · split <;> simp
  · rw [State.measure_fixed]
    cases h : (if x4 then x0.confMapHere x2 x3 else none) with
    | none => rfl
    | some t =>
      split at h
      · exact State.confMapHere_fixed _ _ _ _ h
      · cases h
  · simp
  · split <;> simp
  · rfl

end Sys2Proof.Machine
end

