-- ==== Sys2Proof/Laws/KeptParts.lean ====
section
/-! SUPPORT. What the operations of Machine/Parts.lean keep: the queue and the fuse bank. -/

namespace Sys2Proof.Machine

set_option linter.all false

@[simp] theorem State.resetObj_fixed (x0 : State) (x1 : Nat) (x2 : Nat) : (State.resetObj x0 x1 x2).fixed = x0.fixed := by simp [State.resetObj]
@[simp] theorem State.resetNamed_fixed (x0 : State) (x1 : Nat) (x2 : List Byte) : (State.resetNamed x0 x1 x2).fixed = x0.fixed := by
  simp only [State.resetNamed]
  exact fold_to (fun _ _ => by simp) (by simp)
@[simp] theorem State.destroyHere_fixed (x0 : State) (x1 : Nat) : (State.destroyHere x0 x1).fixed = x0.fixed := by
  unfold State.destroyHere
  all_goals repeat' (first | (simp +zetaDelta [*]; done) | (split <;> try (rename_i h_; have k_ := pair_arg h_; simp at k_)) | (refine fold_to (fun _ _ => ?_) ?_) | (refine fold2_to (fun _ _ => ?_) ?_) | (refine fold1_to (fun _ _ => ?_) ?_) | (refine fold22_to (fun _ _ => ?_) ?_) | simp +zetaDelta only [State.fixed_mk, State.fixed_eta, apply_ite State.fixed] | simp +zetaDelta [*])
@[simp] theorem State.dlogPart_fixed (x0 : State) (x1 : Nat) (x2 : Nat) : (State.dlogPart x0 x1 x2).fixed = x0.fixed := by
  unfold State.dlogPart
  split <;> simp
@[simp] theorem State.cmdPart_fixed (x0 : State) (x1 : CmdPart) : (State.cmdPart x0 x1).fixed = x0.fixed := by
  unfold State.cmdPart
  all_goals repeat' (first | (simp +zetaDelta [*]; done) | (split <;> try (rename_i h_; have k_ := pair_arg h_; simp at k_)) | (refine fold_to (fun _ _ => ?_) ?_) | (refine fold2_to (fun _ _ => ?_) ?_) | (refine fold1_to (fun _ _ => ?_) ?_) | (refine fold22_to (fun _ _ => ?_) ?_) | simp +zetaDelta only [State.fixed_mk, State.fixed_eta, apply_ite State.fixed] | simp +zetaDelta [*])

end Sys2Proof.Machine
end

