-- ==== Sys2Proof/Laws/KeptRoots.lean ====
section
/-! SUPPORT. What the operations of Machine/Roots.lean keep: the queue and the fuse bank. -/

namespace Sys2Proof.Machine

set_option linter.all false

@[simp] theorem State.stageRoute_fixed (x0 : State) (x1 : Nat) (x2 : Word64) : (State.stageRoute x0 x1 x2).fixed = x0.fixed := by
  unfold State.stageRoute
  repeat' (first | (simp +zetaDelta [*]; done) | split)
@[simp] theorem State.stageTables_fixed (x0 : State) (x1 : List ChipId) : (State.stageTables x0 x1).fixed = x0.fixed := by
  unfold State.stageTables
  all_goals repeat' (first | (simp +zetaDelta [*]; done) | (split <;> try (rename_i h_; have k_ := pair_arg h_; simp at k_)) | (refine fold_to (fun _ _ => ?_) ?_) | (refine fold2_to (fun _ _ => ?_) ?_) | (refine fold1_to (fun _ _ => ?_) ?_) | (refine fold22_to (fun _ _ => ?_) ?_) | simp +zetaDelta only [State.fixed_mk, State.fixed_eta, apply_ite State.fixed] | simp +zetaDelta [*])
@[simp] theorem State.loseShare_fixed (x0 : State) (x1 : ChipId) (x2 : Nat) : (State.loseShare x0 x1 x2).fixed = x0.fixed := by
  unfold State.loseShare
  repeat' (first | (simp +zetaDelta [*]; done) | split)
@[simp] theorem State.acksWithout_fixed (x0 : State) (x1 : ChipId) : (State.acksWithout x0 x1).fixed = x0.fixed := by
  unfold State.acksWithout
  all_goals repeat' (first | (simp +zetaDelta [*]; done) | (split <;> try (rename_i h_; have k_ := pair_arg h_; simp at k_)) | (refine fold_to (fun _ _ => ?_) ?_) | (refine fold2_to (fun _ _ => ?_) ?_) | (refine fold1_to (fun _ _ => ?_) ?_) | (refine fold22_to (fun _ _ => ?_) ?_) | simp +zetaDelta only [State.fixed_mk, State.fixed_eta, apply_ite State.fixed] | simp +zetaDelta [*])
@[simp] theorem State.collsWithout_fixed (x0 : State) (x1 : ChipId) : (State.collsWithout x0 x1).fixed = x0.fixed := by
  simp only [State.collsWithout]
  exact fold_to (fun _ _ => by simp) (by simp)
@[simp] theorem State.invalWithout_fixed (x0 : State) (x1 : ChipId) : (State.invalWithout x0 x1).fixed = x0.fixed := by
  unfold State.invalWithout
  split <;> simp
@[simp] theorem State.forgetChip_fixed (x0 : State) (x1 : ChipId) : (State.forgetChip x0 x1).fixed = x0.fixed := by
  unfold State.forgetChip
  all_goals repeat' (first | (simp +zetaDelta [*]; done) | (split <;> try (rename_i h_; have k_ := pair_arg h_; simp at k_)) | (refine fold_to (fun _ _ => ?_) ?_) | (refine fold2_to (fun _ _ => ?_) ?_) | (refine fold1_to (fun _ _ => ?_) ?_) | (refine fold22_to (fun _ _ => ?_) ?_) | simp +zetaDelta only [State.fixed_mk, State.fixed_eta, apply_ite State.fixed] | simp +zetaDelta [*])
@[simp] theorem State.loseChip_fixed (x0 : State) (x1 : ChipId) : (State.loseChip x0 x1).fixed = x0.fixed := by
  unfold State.loseChip
  split
  · rfl
  · simp only [State.drainAll_fixed, State.invalWithout_fixed, State.collsWithout_fixed, State.acksWithout_fixed]
    refine fold_to (fun _ _ => by simp) (fold_to (fun _ _ => by simp) (fold_to (fun _ _ => by simp) (by simp)))
@[simp] theorem State.unheld_fixed (x0 : State) : (State.unheld x0).fixed = x0.fixed := by
  simp only [State.unheld]
  exact fold_to (fun _ _ => by simp) (by simp)
@[simp] theorem State.prepareLocal_fixed (x0 : State) (x1 : List ChipId) : (State.prepareLocal x0 x1).fixed = x0.fixed := by
  unfold State.prepareLocal
  have h1 : (x1.foldl State.loseChip x0).fixed = x0.fixed := fold_to (fun _ _ => by simp) rfl
  have h4 : ∀ (c : Bool) (t : State), (if c = true then x1.foldl State.stopsWithout t else t).fixed = t.fixed := by
    intro c t; split
    · exact fold_to (fun _ _ => by simp) rfl
    · rfl
  simp only [State.pfNext_fixed, State.answerStops_fixed, h4]
  split <;> split <;> simp [h1]
@[simp] theorem State.swapRoutes_fixed (x0 : State) : (State.swapRoutes x0).fixed = x0.fixed := by simp [State.swapRoutes]
@[simp] theorem State.enroll_fixed (x0 : State) (x1 : Roster) : (State.enroll x0 x1).fixed = x0.fixed := by simp [State.enroll]
@[simp] theorem State.meetPartners_fixed (x0 : State) (x1 : Links) : (State.meetPartners x0 x1).fixed = x0.fixed := by
  unfold State.meetPartners
  all_goals repeat' (first | (simp +zetaDelta [*]; done) | (split <;> try (rename_i h_; have k_ := pair_arg h_; simp at k_)) | (refine fold_to (fun _ _ => ?_) ?_) | (refine fold2_to (fun _ _ => ?_) ?_) | (refine fold1_to (fun _ _ => ?_) ?_) | (refine fold22_to (fun _ _ => ?_) ?_) | (refine (State.startXferBy_fixed _ _ _ (fun _ _ => ?_)).trans ?_) | (refine (State.newXferBy_fixed _ _ _ _ _ (fun _ _ => ?_)).trans ?_) | (refine (State.request_fixed _ _ _ _ (fun _ => ?_)).trans ?_) | (refine (State.hostWrite_fixed _ _ _ _ (fun _ => ?_)).trans ?_) | (refine (State.hostLoad_fixed _ _ _ _ (fun _ => ?_)).trans ?_) | (refine (State.atOnce_fixed _ _ (fun _ => ?_)).trans ?_) | (refine (State.settleBar_fixed _ _ _ _ (fun _ _ _ => ?_)).trans ?_) | (refine (State.runCmd_fixed _ _ _ (fun _ _ _ => ?_)).trans ?_) | (refine (State.carryConf_fixed _ _ _ _ _ (fun _ => ?_)).trans ?_) | (refine (State.onI2c_fixed _ _ _ (fun _ => ?_)).trans ?_) | (refine (State.inRecovery_fixed _ _ _ (fun _ => ?_)).trans ?_) | (refine (State.mailboxWrite_fixed _ _ _ (fun _ => ?_)).trans ?_) | (refine (State.vfMailbox_fixed _ _ (fun _ => ?_)).trans ?_) | (refine (State.orReserved_fixed _ _ _ _ (fun _ => ?_)).trans ?_) | (refine (State.sqSetup_fixed _ _ _ _ (fun _ => ?_)).trans ?_) | (refine (State.onSq_fixed _ _ _ _ (fun _ _ => ?_)).trans ?_) | (refine (State.onCq_fixed _ _ _ _ (fun _ _ => ?_)).trans ?_) | (refine (State.endRead_fixed _ _ _ (fun _ => ?_)).trans ?_) | simp +zetaDelta only [State.fixed_mk, State.fixed_eta, apply_ite State.fixed] | simp +zetaDelta [*])
@[simp] theorem State.holdStrangers_fixed (x0 : State) (x1 : Links) : (State.holdStrangers x0 x1).fixed = x0.fixed := by simp [State.holdStrangers]
@[simp] theorem State.tellGuilt_fixed (x0 : State) (x1 : ChipId) : (State.tellGuilt x0 x1).fixed = x0.fixed := by
  unfold State.tellGuilt
  all_goals repeat' (first | (simp +zetaDelta [*]; done) | (split <;> try (rename_i h_; have k_ := pair_arg h_; simp at k_)) | (refine fold_to (fun _ _ => ?_) ?_) | (refine fold2_to (fun _ _ => ?_) ?_) | (refine fold1_to (fun _ _ => ?_) ?_) | (refine fold22_to (fun _ _ => ?_) ?_) | (refine (State.startXferBy_fixed _ _ _ (fun _ _ => ?_)).trans ?_) | (refine (State.newXferBy_fixed _ _ _ _ _ (fun _ _ => ?_)).trans ?_) | (refine (State.request_fixed _ _ _ _ (fun _ => ?_)).trans ?_) | (refine (State.hostWrite_fixed _ _ _ _ (fun _ => ?_)).trans ?_) | (refine (State.hostLoad_fixed _ _ _ _ (fun _ => ?_)).trans ?_) | (refine (State.atOnce_fixed _ _ (fun _ => ?_)).trans ?_) | (refine (State.settleBar_fixed _ _ _ _ (fun _ _ _ => ?_)).trans ?_) | (refine (State.runCmd_fixed _ _ _ (fun _ _ _ => ?_)).trans ?_) | (refine (State.carryConf_fixed _ _ _ _ _ (fun _ => ?_)).trans ?_) | (refine (State.onI2c_fixed _ _ _ (fun _ => ?_)).trans ?_) | (refine (State.inRecovery_fixed _ _ _ (fun _ => ?_)).trans ?_) | (refine (State.mailboxWrite_fixed _ _ _ (fun _ => ?_)).trans ?_) | (refine (State.vfMailbox_fixed _ _ (fun _ => ?_)).trans ?_) | (refine (State.orReserved_fixed _ _ _ _ (fun _ => ?_)).trans ?_) | (refine (State.sqSetup_fixed _ _ _ _ (fun _ => ?_)).trans ?_) | (refine (State.onSq_fixed _ _ _ _ (fun _ _ => ?_)).trans ?_) | (refine (State.onCq_fixed _ _ _ _ (fun _ _ => ?_)).trans ?_) | (refine (State.endRead_fixed _ _ _ (fun _ => ?_)).trans ?_) | simp +zetaDelta only [State.fixed_mk, State.fixed_eta, apply_ite State.fixed] | simp +zetaDelta [*])
@[simp] theorem State.commitLocal_fixed (x0 : State) (x1 : Word32) (x2 : Bool) (x3 : Option Roster) (x4 : Option CmdPart) (x5 : Bool) : (State.commitLocal x0 x1 x2 x3 x4 x5).fixed = x0.fixed := by
  unfold State.commitLocal
  all_goals repeat' (first | (simp +zetaDelta [*]; done) | (split <;> try (rename_i h_; have k_ := pair_arg h_; simp at k_)) | (refine fold_to (fun _ _ => ?_) ?_) | (refine fold2_to (fun _ _ => ?_) ?_) | (refine fold1_to (fun _ _ => ?_) ?_) | (refine fold22_to (fun _ _ => ?_) ?_) | simp +zetaDelta only [State.fixed_mk, State.fixed_eta, apply_ite State.fixed] | simp +zetaDelta [*])
@[simp] theorem State.commandEnd_fixed (x0 : State) (x1 : Nat) (x2 : Nat) : (State.commandEnd x0 x1 x2).fixed = x0.fixed := by
  unfold State.commandEnd
  repeat' (first | (simp +zetaDelta [*]; done) | split)
@[simp] theorem State.finishEpoch_fixed (x0 : State) : (State.finishEpoch x0).fixed = x0.fixed := by
  unfold State.finishEpoch
  split
  · rfl
  · rename_i use _
    cases use <;> simp <;> (try split) <;> (try simp) <;> exact fold_to (fun _ _ => by simp) (by simp)
@[simp] theorem State.prepare_fixed (x0 : State) (x1 : EpochUse) (x2 : List ChipId) : (State.prepare x0 x1 x2).fixed = x0.fixed := by
  unfold State.prepare
  dsimp only
  split <;> simp
@[simp] theorem State.startRouting_fixed (x0 : State) : (State.startRouting x0).fixed = x0.fixed := by
  unfold State.startRouting
  repeat' (first | (simp +zetaDelta [*]; done) | split)
@[simp] theorem State.rootNext_fixed (x0 : State) : (State.rootNext x0).fixed = x0.fixed := by
  unfold State.rootNext
  split <;> simp
@[simp] theorem State.awaitWithout_fixed (x0 : State) (x1 : ChipId) : (State.awaitWithout x0 x1).fixed = x0.fixed := by
  unfold State.awaitWithout
  all_goals repeat' (first | (simp +zetaDelta [*]; done) | (split <;> try (rename_i h_; have k_ := pair_arg h_; simp at k_)) | (refine fold_to (fun _ _ => ?_) ?_) | (refine fold2_to (fun _ _ => ?_) ?_) | (refine fold1_to (fun _ _ => ?_) ?_) | (refine fold22_to (fun _ _ => ?_) ?_) | simp +zetaDelta only [State.fixed_mk, State.fixed_eta, apply_ite State.fixed] | simp +zetaDelta [*])
@[simp] theorem State.portDown_fixed (x0 : State) (x1 : ChipId) (x2 : Nat) : (State.portDown x0 x1 x2).fixed = x0.fixed := by
  unfold State.portDown
  split <;> simp
@[simp] theorem State.portLeft_fixed (x0 : State) (x1 : ℕ) : (State.portLeft x0 x1).fixed = x0.fixed := by
  unfold State.portLeft
  repeat' (first | (simp +zetaDelta [*]; done) | split | dsimp only)
@[simp] theorem State.fencePorts_fixed (x0 : State) (x1 : ChipId) : (State.fencePorts x0 x1).fixed = x0.fixed := by
  unfold State.fencePorts
  all_goals repeat' (first | (simp +zetaDelta [*]; done) | (split <;> try (rename_i h_; have k_ := pair_arg h_; simp at k_)) | (refine fold_to (fun _ _ => ?_) ?_) | (refine fold2_to (fun _ _ => ?_) ?_) | (refine fold1_to (fun _ _ => ?_) ?_) | (refine fold22_to (fun _ _ => ?_) ?_) | simp +zetaDelta only [State.fixed_mk, State.fixed_eta, apply_ite State.fixed] | simp +zetaDelta [*])
@[simp] theorem State.fenceAround_fixed (x0 : State) (x1 : ChipId) : (State.fenceAround x0 x1).fixed = x0.fixed := by
  unfold State.fenceAround
  all_goals repeat' (first | (simp +zetaDelta [*]; done) | (split <;> try (rename_i h_; have k_ := pair_arg h_; simp at k_)) | (refine fold_to (fun _ _ => ?_) ?_) | (refine fold2_to (fun _ _ => ?_) ?_) | (refine fold1_to (fun _ _ => ?_) ?_) | (refine fold22_to (fun _ _ => ?_) ?_) | simp +zetaDelta only [State.fixed_mk, State.fixed_eta, apply_ite State.fixed] | simp +zetaDelta [*])
@[simp] theorem State.declareLost_fixed (x0 : State) (x1 : ChipId) : (State.declareLost x0 x1).fixed = x0.fixed := by
  unfold State.declareLost
  split <;> simp

end Sys2Proof.Machine
end

