-- ==== Sys2Proof/Laws/KeptCmdEpoch.lean ====
section
/-! SUPPORT. What the operations of Machine/CmdEpoch.lean keep: the queue and the fuse bank. -/

namespace Sys2Proof.Machine

set_option linter.all false

@[simp] theorem State.abandonCommand_fixed (x0 : State) (x1 : Nat) (x2 : Nat) : (State.abandonCommand x0 x1 x2).fixed = x0.fixed := by
  unfold State.abandonCommand
  all_goals repeat' (first | (simp +zetaDelta [*]; done) | (split <;> try (rename_i h_; have k_ := pair_arg h_; simp at k_)) | (refine fold_to (fun _ _ => ?_) ?_) | (refine fold2_to (fun _ _ => ?_) ?_) | (refine fold1_to (fun _ _ => ?_) ?_) | (refine fold22_to (fun _ _ => ?_) ?_) | simp +zetaDelta only [State.fixed_mk, State.fixed_eta, apply_ite State.fixed] | simp +zetaDelta [*])
@[simp] theorem State.lockNext_fixed (x0 : State) (x1 : Nat) (x2 : List Byte) (x3 : Nat) : (State.lockNext x0 x1 x2 x3).fixed = x0.fixed := by
  induction x3 generalizing x0 with
  | zero => rfl
  | succ n ih =>
    simp only [State.lockNext]
    split
    · split <;> simp
    · split
      · split
        · simp
        · rw [ih]; simp
      · simp
@[simp] theorem State.lockAnswer_fixed (x0 : State) (x1 : ChipId) (x2 : Bool) : (State.lockAnswer x0 x1 x2).fixed = x0.fixed := by
  unfold State.lockAnswer
  all_goals repeat' (first | (simp +zetaDelta [*]; done) | (split <;> try (rename_i h_; have k_ := pair_arg h_; simp at k_)) | (refine fold_to (fun _ _ => ?_) ?_) | (refine fold2_to (fun _ _ => ?_) ?_) | (refine fold1_to (fun _ _ => ?_) ?_) | (refine fold22_to (fun _ _ => ?_) ?_) | (refine (State.startXferBy_fixed _ _ _ (fun _ _ => ?_)).trans ?_) | (refine (State.newXferBy_fixed _ _ _ _ _ (fun _ _ => ?_)).trans ?_) | (refine (State.request_fixed _ _ _ _ (fun _ => ?_)).trans ?_) | (refine (State.hostWrite_fixed _ _ _ _ (fun _ => ?_)).trans ?_) | (refine (State.hostLoad_fixed _ _ _ _ (fun _ => ?_)).trans ?_) | (refine (State.atOnce_fixed _ _ (fun _ => ?_)).trans ?_) | (refine (State.settleBar_fixed _ _ _ _ (fun _ _ _ => ?_)).trans ?_) | (refine (State.runCmd_fixed _ _ _ (fun _ _ _ => ?_)).trans ?_) | (refine (State.carryConf_fixed _ _ _ _ _ (fun _ => ?_)).trans ?_) | (refine (State.onI2c_fixed _ _ _ (fun _ => ?_)).trans ?_) | (refine (State.inRecovery_fixed _ _ _ (fun _ => ?_)).trans ?_) | (refine (State.mailboxWrite_fixed _ _ _ (fun _ => ?_)).trans ?_) | (refine (State.vfMailbox_fixed _ _ (fun _ => ?_)).trans ?_) | (refine (State.orReserved_fixed _ _ _ _ (fun _ => ?_)).trans ?_) | (refine (State.sqSetup_fixed _ _ _ _ (fun _ => ?_)).trans ?_) | (refine (State.onSq_fixed _ _ _ _ (fun _ _ => ?_)).trans ?_) | (refine (State.onCq_fixed _ _ _ _ (fun _ _ => ?_)).trans ?_) | (refine (State.endRead_fixed _ _ _ (fun _ => ?_)).trans ?_) | simp +zetaDelta only [State.fixed_mk, State.fixed_eta, apply_ite State.fixed] | simp +zetaDelta [*])
@[simp] theorem State.beginCommand_fixed (x0 : State) (x1 : Nat) : (State.beginCommand x0 x1).fixed = x0.fixed := by
  unfold State.beginCommand
  split <;> simp
@[simp] theorem State.rootGo_fixed (x0 : State) : (State.rootGo x0).fixed = x0.fixed := by
  unfold State.rootGo
  all_goals repeat' (first | (simp +zetaDelta [*]; done) | (split <;> try (rename_i h_; have k_ := pair_arg h_; simp at k_)) | (refine fold_to (fun _ _ => ?_) ?_) | (refine fold2_to (fun _ _ => ?_) ?_) | (refine fold1_to (fun _ _ => ?_) ?_) | (refine fold22_to (fun _ _ => ?_) ?_) | simp +zetaDelta only [State.fixed_mk, State.fixed_eta, apply_ite State.fixed] | simp +zetaDelta [*])
@[simp] theorem State.commandRefused_fixed (x0 : State) (x1 : ℕ) : (State.commandRefused x0 x1).fixed = x0.fixed := by
  unfold State.commandRefused
  repeat' (first | (simp +zetaDelta [*]; done) | split | dsimp only)
@[simp] theorem State.queueCommand_fixed (x0 : State) (x1 : Nat) : (State.queueCommand x0 x1).fixed = x0.fixed := by simp [State.queueCommand]

end Sys2Proof.Machine
end

