-- ==== Sys2Proof/Laws/KeptDomain.lean ====
section
/-! SUPPORT. What the operations of Machine/Domain.lean keep: the queue and the fuse bank. -/

namespace Sys2Proof.Machine

set_option linter.all false

@[simp] theorem State.announceKey_fixed (x0 : State) : (State.announceKey x0).fixed = x0.fixed := by simp [State.announceKey]
@[simp] theorem State.candidate_fixed (x0 : State) : (State.candidate x0).fixed = x0.fixed := by simp [State.candidate]
@[simp] theorem State.reportUp_fixed (x0 : State) (x1 : ℕ) (x2 : List Report) : (State.reportUp x0 x1 x2).fixed = x0.fixed := by
  unfold State.reportUp
  all_goals repeat' (first | (simp +zetaDelta [*]; done) | (split <;> try (rename_i h_; have k_ := pair_arg h_; simp at k_)) | (refine fold_to (fun _ _ => ?_) ?_) | (refine fold2_to (fun _ _ => ?_) ?_) | (refine fold1_to (fun _ _ => ?_) ?_) | (refine fold22_to (fun _ _ => ?_) ?_) | (refine (State.startXferBy_fixed _ _ _ (fun _ _ => ?_)).trans ?_) | (refine (State.newXferBy_fixed _ _ _ _ _ (fun _ _ => ?_)).trans ?_) | (refine (State.request_fixed _ _ _ _ (fun _ => ?_)).trans ?_) | (refine (State.hostWrite_fixed _ _ _ _ (fun _ => ?_)).trans ?_) | (refine (State.hostLoad_fixed _ _ _ _ (fun _ => ?_)).trans ?_) | (refine (State.atOnce_fixed _ _ (fun _ => ?_)).trans ?_) | (refine (State.settleBar_fixed _ _ _ _ (fun _ _ _ => ?_)).trans ?_) | (refine (State.runCmd_fixed _ _ _ (fun _ _ _ => ?_)).trans ?_) | (refine (State.carryConf_fixed _ _ _ _ _ (fun _ => ?_)).trans ?_) | (refine (State.onI2c_fixed _ _ _ (fun _ => ?_)).trans ?_) | (refine (State.inRecovery_fixed _ _ _ (fun _ => ?_)).trans ?_) | (refine (State.mailboxWrite_fixed _ _ _ (fun _ => ?_)).trans ?_) | (refine (State.vfMailbox_fixed _ _ (fun _ => ?_)).trans ?_) | (refine (State.orReserved_fixed _ _ _ _ (fun _ => ?_)).trans ?_) | (refine (State.sqSetup_fixed _ _ _ _ (fun _ => ?_)).trans ?_) | (refine (State.onSq_fixed _ _ _ _ (fun _ _ => ?_)).trans ?_) | (refine (State.onCq_fixed _ _ _ _ (fun _ _ => ?_)).trans ?_) | (refine (State.endRead_fixed _ _ _ (fun _ => ?_)).trans ?_) | simp +zetaDelta only [State.fixed_mk, State.fixed_eta, apply_ite State.fixed] | simp +zetaDelta [*])
@[simp] theorem State.giveUpRoot_fixed (x0 : State) : (State.giveUpRoot x0).fixed = x0.fixed := by
  unfold State.giveUpRoot
  repeat' (first | (simp +zetaDelta [*]; done) | split | dsimp only)
@[simp] theorem State.takeKey_fixed (x0 : State) (x1 : Nat) (x2 : Word64) : (State.takeKey x0 x1 x2).fixed = x0.fixed := by
  unfold State.takeKey
  all_goals repeat' (first | (simp +zetaDelta [*]; done) | (split <;> try (rename_i h_; have k_ := pair_arg h_; simp at k_)) | (refine fold_to (fun _ _ => ?_) ?_) | (refine fold2_to (fun _ _ => ?_) ?_) | (refine fold1_to (fun _ _ => ?_) ?_) | (refine fold22_to (fun _ _ => ?_) ?_) | simp +zetaDelta only [State.fixed_mk, State.fixed_eta, apply_ite State.fixed] | simp +zetaDelta [*])
@[simp] theorem State.takeElect_fixed (x0 : State) (x1 : ℕ) (x2 : Word64) : (State.takeElect x0 x1 x2).fixed = x0.fixed := by
  unfold State.takeElect
  repeat' (first | (simp +zetaDelta [*]; done) | split | dsimp only)
@[simp] theorem State.portUp_fixed (x0 : State) (x1 : Nat) : (State.portUp x0 x1).fixed = x0.fixed := by
  unfold State.portUp
  all_goals repeat' (first | (simp +zetaDelta [*]; done) | (split <;> try (rename_i h_; have k_ := pair_arg h_; simp at k_)) | (refine fold_to (fun _ _ => ?_) ?_) | (refine fold2_to (fun _ _ => ?_) ?_) | (refine fold1_to (fun _ _ => ?_) ?_) | (refine fold22_to (fun _ _ => ?_) ?_) | simp +zetaDelta only [State.fixed_mk, State.fixed_eta, apply_ite State.fixed] | simp +zetaDelta [*])
@[simp] theorem State.keyRaised_fixed (x0 : State) : (State.keyRaised x0).fixed = x0.fixed := by
  unfold State.keyRaised
  split <;> simp
theorem execRootTimer_fixed (x0 : State) : ∀ t, (execRootTimer x0) = .next t → t.fixed = x0.fixed := by
  rintro t ⟨⟩
  split <;> simp
@[simp] theorem State.takeParent_fixed (x0 : State) (x1 : ℕ) : (State.takeParent x0 x1).fixed = x0.fixed := by
  unfold State.takeParent
  repeat' (first | (simp +zetaDelta [*]; done) | split | dsimp only)
@[simp] theorem State.takeDiscReport_fixed (x0 : State) (x1 : ℕ) (x2 : Report) : (State.takeDiscReport x0 x1 x2).fixed = x0.fixed := by
  unfold State.takeDiscReport
  repeat' (first | (simp +zetaDelta [*]; done) | split | dsimp only)
@[simp] theorem State.formOne_fixed (x0 : State) (x1 : ChipId) (x2 : Nat) : (State.formOne x0 x1 x2).fixed = x0.fixed := by simp [State.formOne]
theorem execFormationWaitExpiry_fixed (x0 : State) : ∀ t, (execFormationWaitExpiry x0) = .next t → t.fixed = x0.fixed := by
  rintro t ⟨⟩
  split <;> simp
theorem execAssignTimeout_fixed (x0 : State) : ∀ t, (execAssignTimeout x0) = .next t → t.fixed = x0.fixed := by
  rintro t ⟨⟩
  split <;> simp
@[simp] theorem State.formCommit_fixed (x0 : State) : (State.formCommit x0).fixed = x0.fixed := by
  unfold State.formCommit
  all_goals repeat' (first | (simp +zetaDelta [*]; done) | (split <;> try (rename_i h_; have k_ := pair_arg h_; simp at k_)) | (refine fold_to (fun _ _ => ?_) ?_) | (refine fold2_to (fun _ _ => ?_) ?_) | (refine fold1_to (fun _ _ => ?_) ?_) | (refine fold22_to (fun _ _ => ?_) ?_) | simp +zetaDelta only [State.fixed_mk, State.fixed_eta, apply_ite State.fixed] | simp +zetaDelta [*])
@[simp] theorem State.closeCollection_fixed (x0 : State) : (State.closeCollection x0).fixed = x0.fixed := by
  unfold State.closeCollection
  all_goals repeat' (first | (simp +zetaDelta [*]; done) | (split <;> try (rename_i h_; have k_ := pair_arg h_; simp at k_)) | (refine fold_to (fun _ _ => ?_) ?_) | (refine fold2_to (fun _ _ => ?_) ?_) | (refine fold1_to (fun _ _ => ?_) ?_) | (refine fold22_to (fun _ _ => ?_) ?_) | simp +zetaDelta only [State.fixed_mk, State.fixed_eta, apply_ite State.fixed] | simp +zetaDelta [*])
theorem execCollectionClose_fixed (x0 : Nat) (x1 : Nat) (x2 : State) : ∀ t, (execCollectionClose x0 x1 x2) = .next t → t.fixed = x2.fixed := by
  rintro t ⟨⟩
  split <;> simp
@[simp] theorem State.takeAssign_fixed (x0 : State) (x1 : ℕ) (x2 : BitVec 48) (x3 : ChipId) (x4 : Word32) : (State.takeAssign x0 x1 x2 x3 x4).fixed = x0.fixed := by
  unfold State.takeAssign
  repeat' (first | (simp +zetaDelta [*]; done) | split | dsimp only)
@[simp] theorem State.takeReject_fixed (x0 : State) (x1 : ℕ) (x2 : BitVec 48) (x3 : BitVec 8) : (State.takeReject x0 x1 x2 x3).fixed = x0.fixed := by
  unfold State.takeReject
  repeat' (first | (simp +zetaDelta [*]; done) | split | dsimp only)
@[simp] theorem State.takeReady_fixed (x0 : State) (x1 : ℕ) (x2 : BitVec 48) : (State.takeReady x0 x1 x2).fixed = x0.fixed := by
  unfold State.takeReady
  repeat' (first | (simp +zetaDelta [*]; done) | split | dsimp only)
@[simp] theorem State.takePrepareAck_fixed (x0 : State) (x1 : ChipId) (x2 : Word32) (x3 : ℕ) : (State.takePrepareAck x0 x1 x2 x3).fixed = x0.fixed := by
  unfold State.takePrepareAck
  repeat' (first | (simp +zetaDelta [*]; done) | split | dsimp only)
@[simp] theorem State.prepareAnswer_fixed (x0 : State) : (State.prepareAnswer x0).fixed = x0.fixed := by
  unfold State.prepareAnswer
  repeat' (first | (simp +zetaDelta [*]; done) | split | dsimp only)
@[simp] theorem State.takePrepare_fixed (x0 : State) (x1 : ChipId) (x2 : Word32) (x3 : List ChipId) (x4 : Option CmdPart) : (State.takePrepare x0 x1 x2 x3 x4).fixed = x0.fixed := by
  unfold State.takePrepare
  repeat' (first | (simp +zetaDelta [*]; done) | split | dsimp only)
@[simp] theorem State.takeCommit_fixed (x0 : State) (x1 : ChipId) (x2 : Word32) (x3 : Bool) (x4 : Option Roster) (x5 : Option CmdPart) : (State.takeCommit x0 x1 x2 x3 x4 x5).fixed = x0.fixed := by
  unfold State.takeCommit
  repeat' (first | (simp +zetaDelta [*]; done) | split | dsimp only)
@[simp] theorem State.takePortLeft_fixed (x0 : State) (x1 : ChipId) (x2 : ℕ) : (State.takePortLeft x0 x1 x2).fixed = x0.fixed := by
  unfold State.takePortLeft
  repeat' (first | (simp +zetaDelta [*]; done) | split | dsimp only)
@[simp] theorem State.lossAtRoot_fixed (x0 : State) (x1 : ChipId) (x2 : Bool) : (State.lossAtRoot x0 x1 x2).fixed = x0.fixed := by
  unfold State.lossAtRoot
  repeat' (first | (simp +zetaDelta [*]; done) | split | dsimp only)
@[simp] theorem State.takeFence_fixed (x0 : State) (x1 : ChipId) (x2 : ChipId) : (State.takeFence x0 x1 x2).fixed = x0.fixed := by
  unfold State.takeFence
  repeat' (first | (simp +zetaDelta [*]; done) | split | dsimp only)
theorem execFenceReceived_fixed (x0 : List Nat) (x1 : State) : ∀ t, (execFenceReceived x0 x1) = .next t → t.fixed = x1.fixed := by
  rintro t ⟨⟩
  split <;> simp

end Sys2Proof.Machine
end

