-- ==== Sys2Proof/Laws/KeptPair.lean ====
section
/-! SUPPORT. What the operations of Machine/Pair.lean keep: the queue and the fuse bank. -/

namespace Sys2Proof.Machine

set_option linter.all false

@[simp] theorem State.newXferOn_fixed (x0 : State) (x1 : Nat) (x2 : ChipId) (x3 : Packet) : (State.newXferOn x0 x1 x2 x3).fixed = x0.fixed := by
  unfold State.newXferOn
  split <;> simp
theorem execBeatTimer_fixed (x0 : State) : ∀ t, (execBeatTimer x0) = .next t → t.fixed = x0.fixed := by
  rintro t ⟨⟩
  repeat' (first | (simp +zetaDelta [*]; done) | (split <;> try (rename_i h_; have k_ := pair_arg h_; simp at k_)) | (refine fold_to (fun _ _ => ?_) ?_) | (refine fold2_to (fun _ _ => ?_) ?_) | (refine fold1_to (fun _ _ => ?_) ?_) | (refine fold22_to (fun _ _ => ?_) ?_) | simp +zetaDelta only [State.fixed_mk, State.fixed_eta, apply_ite State.fixed] | simp +zetaDelta [*])
@[simp] theorem State.takeBeat_fixed (x0 : State) (x1 : Option Nat) (x2 : Packet) : (State.takeBeat x0 x1 x2).fixed = x0.fixed := by
  unfold State.takeBeat
  repeat' (first | (simp +zetaDelta [*]; done) | split)
@[simp] theorem State.appliedIndices_fixed (x0 : State) (x1 : List JRec) : (State.appliedIndices x0 x1).fixed = x0.fixed := by
  unfold State.appliedIndices
  all_goals repeat' (first | (simp +zetaDelta [*]; done) | (split <;> try (rename_i h_; have k_ := pair_arg h_; simp at k_)) | (refine fold_to (fun _ _ => ?_) ?_) | (refine fold2_to (fun _ _ => ?_) ?_) | (refine fold1_to (fun _ _ => ?_) ?_) | (refine fold22_to (fun _ _ => ?_) ?_) | simp +zetaDelta only [State.fixed_mk, State.fixed_eta, apply_ite State.fixed] | simp +zetaDelta [*])
@[simp] theorem State.journalApplied_fixed (x0 : State) (x1 : Word32) : (State.journalApplied x0 x1).fixed = x0.fixed := by
  unfold State.journalApplied
  all_goals repeat' (first | (simp +zetaDelta [*]; done) | (split <;> try (rename_i h_; have k_ := pair_arg h_; simp at k_)) | (refine fold_to (fun _ _ => ?_) ?_) | (refine fold2_to (fun _ _ => ?_) ?_) | (refine fold1_to (fun _ _ => ?_) ?_) | (refine fold22_to (fun _ _ => ?_) ?_) | simp +zetaDelta only [State.fixed_mk, State.fixed_eta, apply_ite State.fixed] | simp +zetaDelta [*])
@[simp] theorem State.takeEcho_fixed (x0 : State) (x1 : Packet) : (State.takeEcho x0 x1).fixed = x0.fixed := by
  unfold State.takeEcho
  all_goals repeat' (first | (simp +zetaDelta [*]; done) | (split <;> try (rename_i h_; have k_ := pair_arg h_; simp at k_)) | (refine fold_to (fun _ _ => ?_) ?_) | (refine fold2_to (fun _ _ => ?_) ?_) | (refine fold1_to (fun _ _ => ?_) ?_) | (refine fold22_to (fun _ _ => ?_) ?_) | simp +zetaDelta only [State.fixed_mk, State.fixed_eta, apply_ite State.fixed] | simp +zetaDelta [*])
@[simp] theorem State.claimWon_fixed (x0 : State) (x1 : List (Nat × List (List Byte))) : (State.claimWon x0 x1).fixed = x0.fixed := by
  unfold State.claimWon
  all_goals repeat' (first | (simp +zetaDelta [*]; done) | (split <;> try (rename_i h_; have k_ := pair_arg h_; simp at k_)) | (refine fold_to (fun _ _ => ?_) ?_) | (refine fold2_to (fun _ _ => ?_) ?_) | (refine fold1_to (fun _ _ => ?_) ?_) | (refine fold22_to (fun _ _ => ?_) ?_) | simp +zetaDelta only [State.fixed_mk, State.fixed_eta, apply_ite State.fixed] | simp +zetaDelta [*])
@[simp] theorem State.countGrant_fixed (x0 : State) (x1 : ChipId) (x2 : List (Nat × List (List Byte))) : (State.countGrant x0 x1 x2).fixed = x0.fixed := by
  unfold State.countGrant
  all_goals repeat' (first | (simp +zetaDelta [*]; done) | (split <;> try (rename_i h_; have k_ := pair_arg h_; simp at k_)) | (refine fold_to (fun _ _ => ?_) ?_) | (refine fold2_to (fun _ _ => ?_) ?_) | (refine fold1_to (fun _ _ => ?_) ?_) | (refine fold22_to (fun _ _ => ?_) ?_) | simp +zetaDelta only [State.fixed_mk, State.fixed_eta, apply_ite State.fixed] | simp +zetaDelta [*])
@[simp] theorem State.vote_fixed (x0 : State) (x1 : ChipId) (x2 : Word32) : (State.vote x0 x1 x2).2.fixed = x0.fixed := by
  unfold State.vote
  all_goals repeat' (first | (simp +zetaDelta [*]; done) | (split <;> try (rename_i h_; have k_ := pair_arg h_; simp at k_)) | (refine fold_to (fun _ _ => ?_) ?_) | (refine fold2_to (fun _ _ => ?_) ?_) | (refine fold1_to (fun _ _ => ?_) ?_) | (refine fold22_to (fun _ _ => ?_) ?_) | simp +zetaDelta only [State.fixed_mk, State.fixed_eta, apply_ite State.fixed] | simp +zetaDelta [*])
@[simp] theorem State.startClaim_fixed (x0 : State) : (State.startClaim x0).fixed = x0.fixed := by
  unfold State.startClaim
  all_goals repeat' (first | (simp +zetaDelta [*]; done) | (split <;> try (rename_i h_; have k_ := pair_arg h_; simp at k_)) | (refine fold_to (fun _ _ => ?_) ?_) | (refine fold2_to (fun _ _ => ?_) ?_) | (refine fold1_to (fun _ _ => ?_) ?_) | (refine fold22_to (fun _ _ => ?_) ?_) | simp +zetaDelta only [State.fixed_mk, State.fixed_eta, apply_ite State.fixed] | simp +zetaDelta [*])
@[simp] theorem State.takeClaim_fixed (x0 : State) (x1 : Packet) : (State.takeClaim x0 x1).fixed = x0.fixed := by
  unfold State.takeClaim
  split <;> simp
@[simp] theorem State.takeGrant_fixed (x0 : State) (x1 : Packet) (x2 : List (Nat × List (List Byte))) : (State.takeGrant x0 x1 x2).fixed = x0.fixed := by
  unfold State.takeGrant
  split <;> simp
@[simp] theorem State.takeDeny_fixed (x0 : State) (x1 : Packet) : (State.takeDeny x0 x1).fixed = x0.fixed := by
  unfold State.takeDeny
  split <;> simp
theorem execLeaseLapse_fixed (x0 : State) : ∀ t, (execLeaseLapse x0) = .next t → t.fixed = x0.fixed := by
  rintro t ⟨⟩
  split <;> simp
@[simp] theorem State.lossDetected_fixed (x0 : State) : (State.lossDetected x0).fixed = x0.fixed := by
  unfold State.lossDetected
  split <;> simp
theorem execHeartbeatLoss_fixed (x0 : State) : ∀ t, (execHeartbeatLoss x0) = .next t → t.fixed = x0.fixed := by
  rintro t ⟨⟩
  simp
@[simp] theorem State.heardDeclare_fixed (x0 : State) (x1 : ChipId) (x2 : ChipId) : (State.heardDeclare x0 x1 x2).fixed = x0.fixed := by
  unfold State.heardDeclare
  repeat' (first | (simp +zetaDelta [*]; done) | split | dsimp only)
theorem execClaimTimeout_fixed (x0 : State) : ∀ t, (execClaimTimeout x0) = .next t → t.fixed = x0.fixed := by
  rintro t ⟨⟩
  split <;> simp
theorem execJournalEpochClose_fixed (x0 : State) : ∀ t, (execJournalEpochClose x0) = .next t → t.fixed = x0.fixed := by
  rintro t ⟨⟩
  split <;> simp
@[simp] theorem State.applyEpochs_fixed (x0 : Nat) (x1 : State) : (State.applyEpochs x0 x1).fixed = x1.fixed := by
  induction x0 generalizing x1 with
  | zero => rfl
  | succ n ih =>
    simp only [State.applyEpochs]
    split
    · rfl
    · split
      · rfl
      · split
        · rw [ih]
          simp only [State.fixed_mk, State.fixed_eta]
          exact fold_to (fun _ _ => by simp) (by simp)
        · simp
@[simp] theorem State.takeJournal_fixed (x0 : State) (x1 : Packet) : (State.takeJournal x0 x1).fixed = x0.fixed := by
  unfold State.takeJournal
  all_goals repeat' (first | (simp +zetaDelta [*]; done) | (split <;> try (rename_i h_; have k_ := pair_arg h_; simp at k_)) | (refine fold_to (fun _ _ => ?_) ?_) | (refine fold2_to (fun _ _ => ?_) ?_) | (refine fold1_to (fun _ _ => ?_) ?_) | (refine fold22_to (fun _ _ => ?_) ?_) | simp +zetaDelta only [State.fixed_mk, State.fixed_eta, apply_ite State.fixed] | simp +zetaDelta [*])
@[simp] theorem State.takeForward_fixed (x0 : State) (x1 : Packet) : (State.takeForward x0 x1).fixed = x0.fixed := by
  unfold State.takeForward
  split <;> simp

end Sys2Proof.Machine
end

