-- ==== Sys2Proof/Laws/KeptAnswers.lean ====
section
/-! SUPPORT. What the operations of Machine/Answers.lean keep: the queue and the fuse bank. -/

namespace Sys2Proof.Machine

set_option linter.all false

@[simp] theorem State.dropLeaves_fixed (x0 : State) (x1 : Nat) (x2 : Bool) (x3 : Nat) (x4 : Nat) : (State.dropLeaves x0 x1 x2 x3 x4).fixed = x0.fixed := by simp [State.dropLeaves]
@[simp] theorem State.invalEnd_fixed (x0 : State) (x1 : BitVec 2) : (State.invalEnd x0 x1).fixed = x0.fixed := by simp [State.invalEnd]
@[simp] theorem State.takeInvalDone_fixed (x0 : State) (x1 : ChipId) : (State.takeInvalDone x0 x1).fixed = x0.fixed := by
  unfold State.takeInvalDone
  repeat' (first | (simp +zetaDelta [*]; done) | split | dsimp only)
@[simp] theorem State.invalCheck_fixed (x0 : State) : (State.invalCheck x0).fixed = x0.fixed := by
  unfold State.invalCheck
  repeat' (first | (simp +zetaDelta [*]; done) | split | dsimp only)
@[simp] theorem State.invalHere_fixed (x0 : State) (x1 : ℕ) (x2 : Bool) (x3 : ℕ) (x4 : ℕ) : (State.invalHere x0 x1 x2 x3 x4).fixed = x0.fixed := by simp [State.invalHere]
@[simp] theorem State.afterAnswer_fixed (x0 : State) : (State.afterAnswer x0).fixed = x0.fixed := by simp [State.afterAnswer]
theorem execXferAck_fixed (x0 : Packet) (x1 : State) : ∀ t, (execXferAck x0 x1) = .next t → t.fixed = x1.fixed := by
  rintro t ⟨⟩
  repeat' (first | (simp +zetaDelta [*]; done) | split)
theorem execAbortAck_fixed (x0 : Packet) (x1 : State) : ∀ t, (execAbortAck x0 x1) = .next t → t.fixed = x1.fixed := by
  rintro t ⟨⟩
  repeat' (first | (simp +zetaDelta [*]; done) | split)
theorem execReadRsp_fixed (x0 : Packet) (x1 : State) : ∀ t, (execReadRsp x0 x1) = .next t → t.fixed = x1.fixed := by
  rintro t ⟨⟩
  repeat' (first | (simp +zetaDelta [*]; done) | split)
theorem execE2eNakCrc_fixed (x0 : Packet) (x1 : State) : ∀ t, (execE2eNakCrc x0 x1) = .next t → t.fixed = x1.fixed := by
  rintro t ⟨⟩
  repeat' (first | (simp +zetaDelta [*]; done) | split)
theorem execE2eNakStale_fixed (x0 : Packet) (x1 : BitVec 8) (x2 : State) : ∀ t, (execE2eNakStale x0 x1 x2) = .next t → t.fixed = x2.fixed := by
  rintro t ⟨⟩
  repeat' (first | (simp +zetaDelta [*]; done) | split)
theorem execE2eNakRetryLater_fixed (x0 : Packet) (x1 : State) : ∀ t, (execE2eNakRetryLater x0 x1) = .next t → t.fixed = x1.fixed := by
  rintro t ⟨⟩
  repeat' (first | (simp +zetaDelta [*]; done) | split)
theorem execRetryLaterResend_fixed (x0 : ChipId) (x1 : BitVec 24) (x2 : State) : ∀ t, (execRetryLaterResend x0 x1 x2) = .next t → t.fixed = x2.fixed := by
  rintro t ⟨⟩
  repeat' (first | (simp +zetaDelta [*]; done) | split)
theorem execE2eNakAbandoned_fixed (x0 : Packet) (x1 : State) : ∀ t, (execE2eNakAbandoned x0 x1) = .next t → t.fixed = x1.fixed := by
  rintro t ⟨⟩
  repeat' (first | (simp +zetaDelta [*]; done) | split)
@[simp] theorem State.unresponsive_fixed (x0 : State) (x1 : Xfer) : (State.unresponsive x0 x1).fixed = x0.fixed := by
  unfold State.unresponsive
  repeat' (first | (simp +zetaDelta [*]; done) | split | dsimp only)
@[simp] theorem State.sendAgain_fixed (x0 : State) (x1 : Xfer) : (State.sendAgain x0 x1).fixed = x0.fixed := by
  unfold State.sendAgain
  repeat' (first | (simp +zetaDelta [*]; done) | split | dsimp only)
theorem execXferAckTimeout_fixed (x0 : ChipId) (x1 : BitVec 24) (x2 : State) : ∀ t, (execXferAckTimeout x0 x1 x2) = .next t → t.fixed = x2.fixed := by
  rintro t ⟨⟩
  repeat' (first | (simp +zetaDelta [*]; done) | (split <;> try (rename_i h_; have k_ := pair_arg h_; simp at k_)) | (refine fold_to (fun _ _ => ?_) ?_) | (refine fold2_to (fun _ _ => ?_) ?_) | (refine fold1_to (fun _ _ => ?_) ?_) | (refine fold22_to (fun _ _ => ?_) ?_) | simp +zetaDelta only [State.fixed_mk, State.fixed_eta, apply_ite State.fixed] | simp +zetaDelta [*])

end Sys2Proof.Machine
end

