-- ==== Sys2Proof/Laws/KeptManager.lean ====
section
/-! SUPPORT. What the operations of Machine/Manager.lean keep: the queue and the fuse bank. -/

namespace Sys2Proof.Machine

set_option linter.all false

@[simp] theorem State.lockOp_fixed (x0 : State) (x1 : BitVec 3) (x2 : Bool) (x3 : Nat) : (State.lockOp x0 x1 x2 x3).fixed = x0.fixed := by
  unfold State.lockOp
  repeat' (first | (simp +zetaDelta [*]; done) | split)
theorem execSeqlockAcquire_fixed (x0 : BitVec 3) (x1 : State) : ∀ t, (execSeqlockAcquire x0 x1) = .next t → t.fixed = x1.fixed := by
  rintro t ⟨⟩
  split <;> simp
theorem execSeqlockCommit_fixed (x0 : BitVec 3) (x1 : State) : ∀ t, (execSeqlockCommit x0 x1) = .next t → t.fixed = x1.fixed := by
  rintro t ⟨⟩
  split <;> simp
theorem execSeqlockAbandon_fixed (x0 : BitVec 3) (x1 : State) : ∀ t, (execSeqlockAbandon x0 x1) = .next t → t.fixed = x1.fixed := by
  rintro t ⟨⟩
  split <;> simp
@[simp] theorem State.takeCmd_fixed (x0 : State) : (State.takeCmd x0).fixed = x0.fixed := by simp [State.takeCmd]
@[simp] theorem State.respond_fixed (x0 : State) (x1 : List Byte) (x2 : Nat) (x3 : List Byte) : (State.respond x0 x1 x2 x3).fixed = x0.fixed := by simp [State.respond]
@[simp] theorem State.settleQueue_fixed (x0 : State) (x1 : Nat) : (State.settleQueue x0 x1).fixed = x0.fixed := by
  fun_induction State.settleQueue x0 x1 <;> simp_all
theorem State.runCmd_fixed (s : State) (op : Nat) (f : State → Nat → List Byte → State) (h : ∀ t i m, (f t i m).fixed = t.fixed) : (s.runCmd op f).fixed = s.fixed := by
  unfold State.runCmd
  split
  · split
    · simp [h]
    · rfl
  · rfl
@[simp] theorem State.refuseQueue_fixed (x0 : State) (x1 : Nat) : (State.refuseQueue x0 x1).fixed = x0.fixed := by
  fun_induction State.refuseQueue x0 x1 <;> simp_all
@[simp] theorem State.commandDb_fixed (x0 : State) (x1 : Word32) : (State.commandDb x0 x1).fixed = x0.fixed := by
  unfold State.commandDb
  all_goals repeat' (first | (simp +zetaDelta [*]; done) | (split <;> try (rename_i h_; have k_ := pair_arg h_; simp at k_)) | (refine fold_to (fun _ _ => ?_) ?_) | (refine fold2_to (fun _ _ => ?_) ?_) | (refine fold1_to (fun _ _ => ?_) ?_) | (refine fold22_to (fun _ _ => ?_) ?_) | simp +zetaDelta only [State.fixed_mk, State.fixed_eta, apply_ite State.fixed] | simp +zetaDelta [*])
theorem execCommandDoorbell_fixed (x0 : Word32) (x1 : State) : ∀ t, (execCommandDoorbell x0 x1) = .next t → t.fixed = x1.fixed := by
  rintro t ⟨⟩
  split <;> simp
@[simp] theorem State.pendCmd_fixed (x0 : State) (x1 : Nat) (x2 : List Byte) : (State.pendCmd x0 x1 x2).fixed = x0.fixed := by simp [State.pendCmd]
@[simp] theorem State.doCreate_fixed (x0 : State) (x1 : Nat) (x2 : List Byte) : (State.doCreate x0 x1 x2).fixed = x0.fixed := by
  unfold State.doCreate
  repeat' (first | (simp +zetaDelta [*]; done) | split)
theorem execCreate_fixed (x0 : State) : ∀ t, (execCreate x0) = .next t → t.fixed = x0.fixed := by
  rintro t ⟨⟩
  exact State.runCmd_fixed _ _ _ (fun _ _ _ => by simp)
@[simp] theorem State.changeVectors_fixed (x0 : State) (x1 : Nat) (x2 : Nat) : (State.changeVectors x0 x1 x2).fixed = x0.fixed := by
  unfold State.changeVectors
  split <;> simp
@[simp] theorem State.doSetVectors_fixed (x0 : State) (x1 : Nat) (x2 : List Byte) : (State.doSetVectors x0 x1 x2).fixed = x0.fixed := by
  unfold State.doSetVectors
  repeat' (first | (simp +zetaDelta [*]; done) | split)
theorem execSetVectors_fixed (x0 : State) : ∀ t, (execSetVectors x0) = .next t → t.fixed = x0.fixed := by
  rintro t ⟨⟩
  exact State.runCmd_fixed _ _ _ (fun _ _ _ => by simp)
@[simp] theorem State.carry_fixed (x0 : State) (x1 : Nat) (x2 : List Byte) : (State.carry x0 x1 x2).fixed = x0.fixed := by
  unfold State.carry
  repeat' (first | (simp +zetaDelta [*]; done) | split)
@[simp] theorem State.csetCmd_fixed (x0 : State) (x1 : Nat) (x2 : List Byte) (x3 : Bool) (x4 : Bool) (x5 : Bool) (x6 : Bool) (x7 : List InstState) : (State.csetCmd x0 x1 x2 x3 x4 x5 x6 x7).fixed = x0.fixed := by
  unfold State.csetCmd
  repeat' (first | (simp +zetaDelta [*]; done) | split)
@[simp] theorem State.doSetStands_fixed (x0 : State) (x1 : Nat) (x2 : List Byte) : (State.doSetStands x0 x1 x2).fixed = x0.fixed := by simp [State.doSetStands]
@[simp] theorem State.doSetDrrings_fixed (x0 : State) (x1 : Nat) (x2 : List Byte) : (State.doSetDrrings x0 x1 x2).fixed = x0.fixed := by simp [State.doSetDrrings]
@[simp] theorem State.doObjAssign_fixed (x0 : State) (x1 : Nat) (x2 : List Byte) : (State.doObjAssign x0 x1 x2).fixed = x0.fixed := by simp [State.doObjAssign]
@[simp] theorem State.doShareGroup_fixed (x0 : State) (x1 : Nat) (x2 : List Byte) : (State.doShareGroup x0 x1 x2).fixed = x0.fixed := by simp [State.doShareGroup]
@[simp] theorem State.doObjReset_fixed (x0 : State) (x1 : Nat) (x2 : List Byte) : (State.doObjReset x0 x1 x2).fixed = x0.fixed := by simp [State.doObjReset]
@[simp] theorem State.doXltRoot_fixed (x0 : State) (x1 : Nat) (x2 : List Byte) : (State.doXltRoot x0 x1 x2).fixed = x0.fixed := by simp [State.doXltRoot]
@[simp] theorem State.doHostSlot_fixed (x0 : State) (x1 : Nat) (x2 : List Byte) : (State.doHostSlot x0 x1 x2).fixed = x0.fixed := by simp [State.doHostSlot]
theorem execSetStands_fixed (x0 : State) : ∀ t, (execSetStands x0) = .next t → t.fixed = x0.fixed := by
  rintro t ⟨⟩
  exact State.runCmd_fixed _ _ _ (fun _ _ _ => by simp)
theorem execSetDrrings_fixed (x0 : State) : ∀ t, (execSetDrrings x0) = .next t → t.fixed = x0.fixed := by
  rintro t ⟨⟩
  exact State.runCmd_fixed _ _ _ (fun _ _ _ => by simp)
theorem execObjAssign_fixed (x0 : State) : ∀ t, (execObjAssign x0) = .next t → t.fixed = x0.fixed := by
  rintro t ⟨⟩
  exact State.runCmd_fixed _ _ _ (fun _ _ _ => by simp)
theorem execShareGroup_fixed (x0 : State) : ∀ t, (execShareGroup x0) = .next t → t.fixed = x0.fixed := by
  rintro t ⟨⟩
  exact State.runCmd_fixed _ _ _ (fun _ _ _ => by simp)
theorem execObjReset_fixed (x0 : State) : ∀ t, (execObjReset x0) = .next t → t.fixed = x0.fixed := by
  rintro t ⟨⟩
  exact State.runCmd_fixed _ _ _ (fun _ _ _ => by simp)
theorem execXltRoot_fixed (x0 : State) : ∀ t, (execXltRoot x0) = .next t → t.fixed = x0.fixed := by
  rintro t ⟨⟩
  exact State.runCmd_fixed _ _ _ (fun _ _ _ => by simp)
theorem execHostSlot_fixed (x0 : State) : ∀ t, (execHostSlot x0) = .next t → t.fixed = x0.fixed := by
  rintro t ⟨⟩
  exact State.runCmd_fixed _ _ _ (fun _ _ _ => by simp)
@[simp] theorem State.doQuery_fixed (x0 : State) (x1 : Nat) (x2 : List Byte) : (State.doQuery x0 x1 x2).fixed = x0.fixed := by
  unfold State.doQuery
  repeat' (first | (simp +zetaDelta [*]; done) | split)
theorem execQuery_fixed (x0 : State) : ∀ t, (execQuery x0) = .next t → t.fixed = x0.fixed := by
  rintro t ⟨⟩
  exact State.runCmd_fixed _ _ _ (fun _ _ _ => by simp)
@[simp] theorem State.doDestroy_fixed (x0 : State) (x1 : Nat) (x2 : List Byte) : (State.doDestroy x0 x1 x2).fixed = x0.fixed := by
  unfold State.doDestroy
  repeat' (first | (simp +zetaDelta [*]; done) | split)
theorem execDestroy_fixed (x0 : State) : ∀ t, (execDestroy x0) = .next t → t.fixed = x0.fixed := by
  rintro t ⟨⟩
  exact State.runCmd_fixed _ _ _ (fun _ _ _ => by simp)
@[simp] theorem State.doQuiesce_fixed (x0 : State) (x1 : Nat) (x2 : List Byte) : (State.doQuiesce x0 x1 x2).fixed = x0.fixed := by
  unfold State.doQuiesce
  split <;> simp
theorem execQuiesce_fixed (x0 : State) : ∀ t, (execQuiesce x0) = .next t → t.fixed = x0.fixed := by
  rintro t ⟨⟩
  exact State.runCmd_fixed _ _ _ (fun _ _ _ => by simp)
theorem execQuiesceComplete_fixed (x0 : Nat) (x1 : State) : ∀ t, (execQuiesceComplete x0 x1) = .next t → t.fixed = x1.fixed := by
  rintro t ⟨⟩
  split <;> simp
@[simp] theorem State.doResume_fixed (x0 : State) (x1 : Nat) (x2 : List Byte) : (State.doResume x0 x1 x2).fixed = x0.fixed := by
  unfold State.doResume
  all_goals repeat' (first | (simp +zetaDelta [*]; done) | (split <;> try (rename_i h_; have k_ := pair_arg h_; simp at k_)) | (refine fold_to (fun _ _ => ?_) ?_) | (refine fold2_to (fun _ _ => ?_) ?_) | (refine fold1_to (fun _ _ => ?_) ?_) | (refine fold22_to (fun _ _ => ?_) ?_) | simp +zetaDelta only [State.fixed_mk, State.fixed_eta, apply_ite State.fixed] | simp +zetaDelta [*])
theorem execResume_fixed (x0 : State) : ∀ t, (execResume x0) = .next t → t.fixed = x0.fixed := by
  rintro t ⟨⟩
  exact State.runCmd_fixed _ _ _ (fun _ _ _ => by simp)
@[simp] theorem State.pendThen_fixed (x0 : State) (x1 : List Byte) (x2 : Nat) (x3 : List Byte) : (State.pendThen x0 x1 x2 x3).fixed = x0.fixed := by simp [State.pendThen]
@[simp] theorem State.storeImage_fixed (x0 : State) (x1 : Nat) (x2 : List Byte) : (State.storeImage x0 x1 x2).fixed = x0.fixed := by
  simp only [State.storeImage]
  exact fold_to (fun _ _ => by simp) (by simp)
@[simp] theorem State.doSave_fixed (x0 : State) (x1 : Nat) (x2 : List Byte) : (State.doSave x0 x1 x2).fixed = x0.fixed := by
  unfold State.doSave
  all_goals repeat' (first | (simp +zetaDelta [*]; done) | (split <;> try (rename_i h_; have k_ := pair_arg h_; simp at k_)) | (refine fold_to (fun _ _ => ?_) ?_) | (refine fold2_to (fun _ _ => ?_) ?_) | (refine fold1_to (fun _ _ => ?_) ?_) | (refine fold22_to (fun _ _ => ?_) ?_) | simp +zetaDelta only [State.fixed_mk, State.fixed_eta, apply_ite State.fixed] | simp +zetaDelta [*])
theorem execSave_fixed (x0 : State) : ∀ t, (execSave x0) = .next t → t.fixed = x0.fixed := by
  rintro t ⟨⟩
  exact State.runCmd_fixed _ _ _ (fun _ _ _ => by simp)
@[simp] theorem State.loadPiece_fixed (x0 : State) (x1 : List Byte) (x2 : Nat × Nat) : (State.loadPiece x0 x1 x2).2.fixed = x0.fixed := by
  unfold State.loadPiece
  all_goals repeat' (first | (simp +zetaDelta [*]; done) | (split <;> try (rename_i h_; have k_ := pair_arg h_; simp at k_)) | (refine fold_to (fun _ _ => ?_) ?_) | (refine fold2_to (fun _ _ => ?_) ?_) | (refine fold1_to (fun _ _ => ?_) ?_) | (refine fold22_to (fun _ _ => ?_) ?_) | simp +zetaDelta only [State.fixed_mk, State.fixed_eta, apply_ite State.fixed] | simp +zetaDelta [*])
@[simp] theorem State.loadPieces_fixed (x0 : State) (x1 : Nat) (x2 : List Byte) (x3 : List (Nat × Nat)) : (State.loadPieces x0 x1 x2 x3).2.fixed = x0.fixed := by
  fun_induction State.loadPieces x0 x1 x2 x3
  all_goals repeat' (first | (simp +zetaDelta [*]; done) | (split <;> try (rename_i h_; have k_ := pair_arg h_; simp at k_)) | (refine fold_to (fun _ _ => ?_) ?_) | (refine fold2_to (fun _ _ => ?_) ?_) | (refine fold1_to (fun _ _ => ?_) ?_) | (refine fold22_to (fun _ _ => ?_) ?_) | simp +zetaDelta only [State.fixed_mk, State.fixed_eta, apply_ite State.fixed] | simp +zetaDelta [*])
@[simp] theorem State.doRestore_fixed (x0 : List Byte) (x1 : State) (x2 : Nat) (x3 : List Byte) : (State.doRestore x0 x1 x2 x3).fixed = x1.fixed := by
  unfold State.doRestore
  all_goals repeat' (first | (simp +zetaDelta [*]; done) | (split <;> try (rename_i h_; have k_ := pair_arg h_; simp at k_)) | (refine fold_to (fun _ _ => ?_) ?_) | (refine fold2_to (fun _ _ => ?_) ?_) | (refine fold1_to (fun _ _ => ?_) ?_) | (refine fold22_to (fun _ _ => ?_) ?_) | simp +zetaDelta only [State.fixed_mk, State.fixed_eta, apply_ite State.fixed] | simp +zetaDelta [*])
theorem execRestore_fixed (x0 : List Byte) (x1 : State) : ∀ t, (execRestore x0 x1) = .next t → t.fixed = x1.fixed := by
  rintro t ⟨⟩
  exact State.runCmd_fixed _ _ _ (fun _ _ _ => by simp)
@[simp] theorem State.doDlog_fixed (x0 : Nat) (x1 : State) (x2 : Nat) (x3 : List Byte) : (State.doDlog x0 x1 x2 x3).fixed = x1.fixed := by
  unfold State.doDlog
  repeat' (first | (simp +zetaDelta [*]; done) | split)
@[simp] theorem State.runDlog_fixed (x0 : State) (x1 : Nat) : (State.runDlog x0 x1).fixed = x0.fixed := by
  unfold State.runDlog
  split
  · split
    · exact State.runCmd_fixed _ _ _ (fun _ _ _ => by simp)
    · rfl
  · rfl
theorem execDlogEnable_fixed (x0 : State) : ∀ t, (execDlogEnable x0) = .next t → t.fixed = x0.fixed := by
  rintro t ⟨⟩
  simp
theorem execDlogClear_fixed (x0 : State) : ∀ t, (execDlogClear x0) = .next t → t.fixed = x0.fixed := by
  rintro t ⟨⟩
  simp
theorem execDlogFlush_fixed (x0 : State) : ∀ t, (execDlogFlush x0) = .next t → t.fixed = x0.fixed := by
  rintro t ⟨⟩
  simp
theorem execDlogDisable_fixed (x0 : State) : ∀ t, (execDlogDisable x0) = .next t → t.fixed = x0.fixed := by
  rintro t ⟨⟩
  simp
@[simp] theorem State.dlogRelease_fixed (x0 : State) : (State.dlogRelease x0).fixed = x0.fixed := by
  unfold State.dlogRelease
  all_goals repeat' (first | (simp +zetaDelta [*]; done) | (split <;> try (rename_i h_; have k_ := pair_arg h_; simp at k_)) | (refine fold_to (fun _ _ => ?_) ?_) | (refine fold2_to (fun _ _ => ?_) ?_) | (refine fold1_to (fun _ _ => ?_) ?_) | (refine fold22_to (fun _ _ => ?_) ?_) | (refine (State.startXferBy_fixed _ _ _ (fun _ _ => ?_)).trans ?_) | (refine (State.newXferBy_fixed _ _ _ _ _ (fun _ _ => ?_)).trans ?_) | (refine (State.request_fixed _ _ _ _ (fun _ => ?_)).trans ?_) | (refine (State.hostWrite_fixed _ _ _ _ (fun _ => ?_)).trans ?_) | (refine (State.hostLoad_fixed _ _ _ _ (fun _ => ?_)).trans ?_) | (refine (State.atOnce_fixed _ _ (fun _ => ?_)).trans ?_) | (refine (State.settleBar_fixed _ _ _ _ (fun _ _ _ => ?_)).trans ?_) | (refine (State.runCmd_fixed _ _ _ (fun _ _ _ => ?_)).trans ?_) | (refine (State.carryConf_fixed _ _ _ _ _ (fun _ => ?_)).trans ?_) | (refine (State.onI2c_fixed _ _ _ (fun _ => ?_)).trans ?_) | (refine (State.inRecovery_fixed _ _ _ (fun _ => ?_)).trans ?_) | (refine (State.mailboxWrite_fixed _ _ _ (fun _ => ?_)).trans ?_) | (refine (State.vfMailbox_fixed _ _ (fun _ => ?_)).trans ?_) | (refine (State.orReserved_fixed _ _ _ _ (fun _ => ?_)).trans ?_) | (refine (State.sqSetup_fixed _ _ _ _ (fun _ => ?_)).trans ?_) | (refine (State.onSq_fixed _ _ _ _ (fun _ _ => ?_)).trans ?_) | (refine (State.onCq_fixed _ _ _ _ (fun _ _ => ?_)).trans ?_) | (refine (State.endRead_fixed _ _ _ (fun _ => ?_)).trans ?_) | simp +zetaDelta only [State.fixed_mk, State.fixed_eta, apply_ite State.fixed] | simp +zetaDelta [*])
theorem execDlogRoom_fixed (x0 : State) : ∀ t, (execDlogRoom x0) = .next t → t.fixed = x0.fixed := by
  rintro t ⟨⟩
  split <;> simp

end Sys2Proof.Machine
end

