-- ==== Sys2Proof/Laws/KeptPorts.lean ====
section
/-! SUPPORT. What the operations of Machine/Ports.lean keep: the queue and the fuse bank. -/

namespace Sys2Proof.Machine

set_option linter.all false

@[simp] theorem State.sendTs_fixed (x0 : State) (x1 : Nat) : (State.sendTs x0 x1).fixed = x0.fixed := by simp [State.sendTs]
@[simp] theorem State.trainIn_fixed (x0 : State) (x1 : Nat) (x2 : TrainState) : (State.trainIn x0 x1 x2).fixed = x0.fixed := by simp [State.trainIn]
@[simp] theorem State.portGone_fixed (x0 : State) (x1 : Nat) (x2 : Bool) : (State.portGone x0 x1 x2).fixed = x0.fixed := by
  unfold State.portGone
  all_goals repeat' (first | (simp +zetaDelta [*]; done) | (split <;> try (rename_i h_; have k_ := pair_arg h_; simp at k_)) | (refine fold_to (fun _ _ => ?_) ?_) | (refine fold2_to (fun _ _ => ?_) ?_) | (refine fold1_to (fun _ _ => ?_) ?_) | (refine fold22_to (fun _ _ => ?_) ?_) | simp +zetaDelta only [State.fixed_mk, State.fixed_eta, apply_ite State.fixed] | simp +zetaDelta [*])
@[simp] theorem State.retrain_fixed (x0 : State) (x1 : Nat) : (State.retrain x0 x1).fixed = x0.fixed := by
  unfold State.retrain
  all_goals repeat' (first | (simp +zetaDelta [*]; done) | (split <;> try (rename_i h_; have k_ := pair_arg h_; simp at k_)) | (refine fold_to (fun _ _ => ?_) ?_) | (refine fold2_to (fun _ _ => ?_) ?_) | (refine fold1_to (fun _ _ => ?_) ?_) | (refine fold22_to (fun _ _ => ?_) ?_) | simp +zetaDelta only [State.fixed_mk, State.fixed_eta, apply_ite State.fixed] | simp +zetaDelta [*])
@[simp] theorem State.takeDown_fixed (x0 : State) (x1 : Nat) : (State.takeDown x0 x1).fixed = x0.fixed := by
  unfold State.takeDown
  all_goals repeat' (first | (simp +zetaDelta [*]; done) | (split <;> try (rename_i h_; have k_ := pair_arg h_; simp at k_)) | (refine fold_to (fun _ _ => ?_) ?_) | (refine fold2_to (fun _ _ => ?_) ?_) | (refine fold1_to (fun _ _ => ?_) ?_) | (refine fold22_to (fun _ _ => ?_) ?_) | simp +zetaDelta only [State.fixed_mk, State.fixed_eta, apply_ite State.fixed] | simp +zetaDelta [*])
theorem execBlockLockLoss_fixed (x0 : Nat) (x1 : State) : ∀ t, (execBlockLockLoss x0 x1) = .next t → t.fixed = x1.fixed := by
  rintro t ⟨⟩
  split <;> simp
theorem execLaneLoss_fixed (x0 : Nat) (x1 : State) : ∀ t, (execLaneLoss x0 x1) = .next t → t.fixed = x1.fixed := by
  rintro t ⟨⟩
  split <;> simp
theorem execDownReceived_fixed (x0 : Nat) (x1 : State) : ∀ t, (execDownReceived x0 x1) = .next t → t.fixed = x1.fixed := by
  rintro t ⟨⟩
  split <;> simp
@[simp] theorem State.sendLcw_fixed (x0 : State) (x1 : Nat) (x2 : Bool) : (State.sendLcw x0 x1 x2).fixed = x0.fixed := by simp [State.sendLcw]
@[simp] theorem State.sendLcws_fixed (x0 : ℕ) (x1 : ℕ) (x2 : State) : (State.sendLcws x0 x1 x2).fixed = x2.fixed := by
  fun_induction State.sendLcws x0 x1 x2 <;> simp_all
@[simp] theorem State.trained_fixed (x0 : State) (x1 : Nat) (x2 : TrainSet) : (State.trained x0 x1 x2).fixed = x0.fixed := by
  unfold State.trained
  all_goals repeat' (first | (simp +zetaDelta [*]; done) | (split <;> try (rename_i h_; have k_ := pair_arg h_; simp at k_)) | (refine fold_to (fun _ _ => ?_) ?_) | (refine fold2_to (fun _ _ => ?_) ?_) | (refine fold1_to (fun _ _ => ?_) ?_) | (refine fold22_to (fun _ _ => ?_) ?_) | simp +zetaDelta only [State.fixed_mk, State.fixed_eta, apply_ite State.fixed] | simp +zetaDelta [*])
@[simp] theorem State.advance_fixed (x0 : State) (x1 : Nat) (x2 : TrainSet) (x3 : TrainSet) (x4 : BitVec 2) : (State.advance x0 x1 x2 x3 x4).fixed = x0.fixed := by
  simp only [State.advance]
  split
  · rfl
  · split <;> simp
theorem execTrainingAdvance_fixed (x0 : Nat) (x1 : Block) (x2 : Block) (x3 : State) : ∀ t, (execTrainingAdvance x0 x1 x2 x3) = .next t → t.fixed = x3.fixed := by
  rintro t ⟨⟩
  split <;> simp
theorem execTrainingTimeout_fixed (x0 : Nat) (x1 : State) : ∀ t, (execTrainingTimeout x0 x1) = .next t → t.fixed = x1.fixed := by
  rintro t ⟨⟩
  repeat' (first | (simp +zetaDelta [*]; done) | (split <;> try (rename_i h_; have k_ := pair_arg h_; simp at k_)) | (refine fold_to (fun _ _ => ?_) ?_) | (refine fold2_to (fun _ _ => ?_) ?_) | (refine fold1_to (fun _ _ => ?_) ?_) | (refine fold22_to (fun _ _ => ?_) ?_) | simp +zetaDelta only [State.fixed_mk, State.fixed_eta, apply_ite State.fixed] | simp +zetaDelta [*])
theorem execTrainingBackoff_fixed (x0 : Nat) (x1 : State) : ∀ t, (execTrainingBackoff x0 x1) = .next t → t.fixed = x1.fixed := by
  rintro t ⟨⟩
  split <;> simp
@[simp] theorem State.resend_fixed (x0 : State) (x1 : Nat) : (State.resend x0 x1).fixed = x0.fixed := by
  unfold State.resend
  all_goals repeat' (first | (simp +zetaDelta [*]; done) | (split <;> try (rename_i h_; have k_ := pair_arg h_; simp at k_)) | (refine fold_to (fun _ _ => ?_) ?_) | (refine fold2_to (fun _ _ => ?_) ?_) | (refine fold1_to (fun _ _ => ?_) ?_) | (refine fold22_to (fun _ _ => ?_) ?_) | simp +zetaDelta only [State.fixed_mk, State.fixed_eta, apply_ite State.fixed] | simp +zetaDelta [*])
@[simp] theorem State.takeLcw_fixed (x0 : State) (x1 : Nat) (x2 : Lcw) : (State.takeLcw x0 x1 x2).fixed = x0.fixed := by
  unfold State.takeLcw
  all_goals repeat' (first | (simp +zetaDelta [*]; done) | (split <;> try (rename_i h_; have k_ := pair_arg h_; simp at k_)) | (refine fold_to (fun _ _ => ?_) ?_) | (refine fold2_to (fun _ _ => ?_) ?_) | (refine fold1_to (fun _ _ => ?_) ?_) | (refine fold22_to (fun _ _ => ?_) ?_) | simp +zetaDelta only [State.fixed_mk, State.fixed_eta, apply_ite State.fixed] | simp +zetaDelta [*])
@[simp] theorem State.takeGroup_fixed (x0 : State) (x1 : Nat) (x2 : List Flit) (x3 : BitVec 12) : (State.takeGroup x0 x1 x2 x3).fixed = x0.fixed := by
  unfold State.takeGroup
  all_goals repeat' (first | (simp +zetaDelta [*]; done) | (split <;> try (rename_i h_; have k_ := pair_arg h_; simp at k_)) | (refine fold_to (fun _ _ => ?_) ?_) | (refine fold2_to (fun _ _ => ?_) ?_) | (refine fold1_to (fun _ _ => ?_) ?_) | (refine fold22_to (fun _ _ => ?_) ?_) | simp +zetaDelta only [State.fixed_mk, State.fixed_eta, apply_ite State.fixed] | simp +zetaDelta [*])
@[simp] theorem State.refuseGroup_fixed (x0 : State) (x1 : Nat) (x2 : Bool) : (State.refuseGroup x0 x1 x2).fixed = x0.fixed := by
  unfold State.refuseGroup
  split <;> simp
@[simp] theorem State.groupIn_fixed (x0 : State) (x1 : Nat) (x2 : List Flit) (x3 : Bool) (x4 : Lcw) : (State.groupIn x0 x1 x2 x3 x4).fixed = x0.fixed := by
  unfold State.groupIn
  repeat' (first | (simp +zetaDelta [*]; done) | (split <;> try (rename_i h_; have k_ := pair_arg h_; simp at k_)) | (refine fold_to (fun _ _ => ?_) ?_) | (refine fold2_to (fun _ _ => ?_) ?_) | (refine fold1_to (fun _ _ => ?_) ?_) | (refine fold22_to (fun _ _ => ?_) ?_) | simp +zetaDelta only [State.fixed_mk, State.fixed_eta, apply_ite State.fixed] | simp +zetaDelta [*])
theorem execFlitGroup_fixed (x0 : Nat) (x1 : List (Block × Block)) (x2 : State) : ∀ t, (execFlitGroup x0 x1 x2) = .next t → t.fixed = x2.fixed := by
  rintro t ⟨⟩
  repeat' (first | (simp; done) | split)
theorem execReplayTimeout_fixed (x0 : Nat) (x1 : State) : ∀ t, (execReplayTimeout x0 x1) = .next t → t.fixed = x1.fixed := by
  rintro t ⟨⟩
  split <;> simp
theorem execResendLimit_fixed (x0 : Nat) (x1 : Bool) (x2 : State) : ∀ t, (execResendLimit x0 x1 x2) = .next t → t.fixed = x2.fixed := by
  rintro t ⟨⟩
  repeat' (first | (simp +zetaDelta [*]; done) | split)
theorem execAckDeadline_fixed (x0 : Nat) (x1 : State) : ∀ t, (execAckDeadline x0 x1) = .next t → t.fixed = x1.fixed := by
  rintro t ⟨⟩
  split <;> simp

end Sys2Proof.Machine
end

