-- ==== Sys2Proof/Laws/KeptMemFaults.lean ====
section
/-! SUPPORT. What the operations of Machine/MemFaults.lean keep: the queue and the fuse bank. -/

namespace Sys2Proof.Machine

set_option linter.all false

theorem execScrubPass_fixed (x0 : State) : ∀ t, (execScrubPass x0) = .next t → t.fixed = x0.fixed := by
  rintro t ⟨⟩
  repeat' (first | (simp +zetaDelta [*]; done) | (split <;> try (rename_i h_; have k_ := pair_arg h_; simp at k_)) | (refine fold_to (fun _ _ => ?_) ?_) | (refine fold2_to (fun _ _ => ?_) ?_) | (refine fold1_to (fun _ _ => ?_) ?_) | (refine fold22_to (fun _ _ => ?_) ?_) | simp +zetaDelta only [State.fixed_mk, State.fixed_eta, apply_ite State.fixed] | simp +zetaDelta [*])
@[simp] theorem State.scrubTile_fixed (x0 : List Nat) (x1 : State) (x2 : Nat) : (State.scrubTile x0 x1 x2).fixed = x1.fixed := by
  unfold State.scrubTile
  all_goals repeat' (first | (simp +zetaDelta [*]; done) | (split <;> try (rename_i h_; have k_ := pair_arg h_; simp at k_)) | (refine fold_to (fun _ _ => ?_) ?_) | (refine fold2_to (fun _ _ => ?_) ?_) | (refine fold1_to (fun _ _ => ?_) ?_) | (refine fold22_to (fun _ _ => ?_) ?_) | simp +zetaDelta only [State.fixed_mk, State.fixed_eta, apply_ite State.fixed] | simp +zetaDelta [*])
theorem execSramScrub_fixed (x0 : List Nat) (x1 : State) : ∀ t, (execSramScrub x0 x1) = .next t → t.fixed = x1.fixed := by
  rintro t ⟨⟩
  repeat' (first | (simp +zetaDelta [*]; done) | (split <;> try (rename_i h_; have k_ := pair_arg h_; simp at k_)) | (refine fold_to (fun _ _ => ?_) ?_) | (refine fold2_to (fun _ _ => ?_) ?_) | (refine fold1_to (fun _ _ => ?_) ?_) | (refine fold22_to (fun _ _ => ?_) ?_) | simp +zetaDelta only [State.fixed_mk, State.fixed_eta, apply_ite State.fixed] | simp +zetaDelta [*])
theorem execWckRetrain_fixed (x0 : BitVec 8) (x1 : State) : ∀ t, (execWckRetrain x0 x1) = .next t → t.fixed = x1.fixed := by
  rintro t ⟨⟩
  split <;> simp
@[simp] theorem State.setReq_fixed (x0 : State) (x1 : Nat) (x2 : LocalReq) : (State.setReq x0 x1 x2).fixed = x0.fixed := by simp [State.setReq]
theorem execPartHoldExpiry_fixed (x0 : Nat) (x1 : State) : ∀ t, (execPartHoldExpiry x0 x1) = .next t → t.fixed = x1.fixed := by
  rintro t ⟨⟩
  repeat' (first | (simp +zetaDelta [*]; done) | split)
theorem execLocalRetry_fixed (x0 : Nat) (x1 : State) : ∀ t, (execLocalRetry x0 x1) = .next t → t.fixed = x1.fixed := by
  rintro t ⟨⟩
  repeat' (first | (simp +zetaDelta [*]; done) | split)
theorem execPartTimeout_fixed (x0 : Nat) (x1 : Part) (x2 : BitVec 8) (x3 : State) : ∀ t, (execPartTimeout x0 x1 x2 x3) = .next t → t.fixed = x3.fixed := by
  rintro t ⟨⟩
  repeat' (first | (simp +zetaDelta [*]; done) | split)
@[simp] theorem State.invalGo_fixed (x0 : State) : (State.invalGo x0).fixed = x0.fixed := by
  unfold State.invalGo
  all_goals repeat' (first | (simp +zetaDelta [*]; done) | (split <;> try (rename_i h_; have k_ := pair_arg h_; simp at k_)) | (refine fold_to (fun _ _ => ?_) ?_) | (refine fold2_to (fun _ _ => ?_) ?_) | (refine fold1_to (fun _ _ => ?_) ?_) | (refine fold22_to (fun _ _ => ?_) ?_) | simp +zetaDelta only [State.fixed_mk, State.fixed_eta, apply_ite State.fixed] | simp +zetaDelta [*])
@[simp] theorem State.invalCtl_fixed (x0 : State) (x1 : Word64) : (State.invalCtl x0 x1).fixed = x0.fixed := by
  unfold State.invalCtl
  all_goals repeat' (first | (simp +zetaDelta [*]; done) | (split <;> try (rename_i h_; have k_ := pair_arg h_; simp at k_)) | (refine fold_to (fun _ _ => ?_) ?_) | (refine fold2_to (fun _ _ => ?_) ?_) | (refine fold1_to (fun _ _ => ?_) ?_) | (refine fold22_to (fun _ _ => ?_) ?_) | simp +zetaDelta only [State.fixed_mk, State.fixed_eta, apply_ite State.fixed] | simp +zetaDelta [*])
theorem execXltInvalGo_fixed (x0 : Word64) (x1 : State) : ∀ t, (execXltInvalGo x0 x1) = .next t → t.fixed = x1.fixed := by
  rintro t ⟨⟩
  split <;> simp

end Sys2Proof.Machine
end

