-- ==== Sys2Proof/Laws/KeptSecure.lean ====
section
/-! SUPPORT. What the operations of Machine/Secure.lean keep: the queue and the fuse bank. -/

namespace Sys2Proof.Machine

set_option linter.all false

@[simp] theorem State.carryConf_fixed (s : State) (i : Nat) (m : List Byte) (here : State → State) (one : Bool) (h : ∀ t, (here t).fixed = t.fixed) :
    (s.carryConf i m here one).fixed = s.fixed := by
  unfold State.carryConf
  split <;> simp [h]
@[simp] theorem State.doConfCreate_fixed (x0 : State) (x1 : Nat) (x2 : List Byte) : (State.doConfCreate x0 x1 x2).fixed = x0.fixed := by
  unfold State.doConfCreate
  repeat' (first | (simp +zetaDelta [*]; done) | split | dsimp only)
@[simp] theorem State.doConfAssign_fixed (x0 : State) (x1 : Nat) (x2 : List Byte) : (State.doConfAssign x0 x1 x2).fixed = x0.fixed := by
  unfold State.doConfAssign
  repeat' (first | (simp +zetaDelta [*]; done) | split | dsimp only)
@[simp] theorem State.doConfMap_fixed (x0 : State) (x1 : Nat) (x2 : List Byte) : (State.doConfMap x0 x1 x2).fixed = x0.fixed := by
  unfold State.doConfMap
  repeat' (first | (simp +zetaDelta [*]; done) | split | dsimp only)
@[simp] theorem State.loadTargets_fixed (x0 : State) (x1 : Nat) (x2 : List (Nat × Nat)) : (State.loadTargets x0 x1 x2).2.fixed = x0.fixed := by
  induction x2 generalizing x0 with
  | nil => rfl
  | cons p ps ih =>
    simp only [State.loadTargets]
    split <;> (rename_i k; have k_ := pair_arg k; simp at k_)
    · split
      · split <;> (rename_i k2; have k3 := pair_arg k2; simp [ih] at k3) <;> exact k3.trans k_
      · exact k_
    · exact k_
@[simp] theorem State.writeLoaded_fixed (x0 : State) (x1 : Nat) (x2 : List (Nat × Nat)) (x3 : List Byte) : (State.writeLoaded x0 x1 x2 x3).fixed = x0.fixed := by
  fun_induction State.writeLoaded x0 x1 x2 x3 <;> simp_all
@[simp] theorem State.doConfLoad_fixed (x0 : List Byte) (x1 : State) (x2 : Nat) (x3 : List Byte) : (State.doConfLoad x0 x1 x2 x3).fixed = x1.fixed := by
  unfold State.doConfLoad
  all_goals repeat' (first | (simp +zetaDelta [*]; done) | (split <;> try (rename_i h_; have k_ := pair_arg h_; simp at k_)) | (refine fold_to (fun _ _ => ?_) ?_) | (refine fold2_to (fun _ _ => ?_) ?_) | (refine fold1_to (fun _ _ => ?_) ?_) | (refine fold22_to (fun _ _ => ?_) ?_) | simp +zetaDelta only [State.fixed_mk, State.fixed_eta, apply_ite State.fixed] | simp +zetaDelta [*])
@[simp] theorem State.doConfFinalize_fixed (x0 : State) (x1 : Nat) (x2 : List Byte) : (State.doConfFinalize x0 x1 x2).fixed = x0.fixed := by
  unfold State.doConfFinalize
  repeat' (first | (simp +zetaDelta [*]; done) | split | dsimp only)
@[simp] theorem State.doConfRelease_fixed (x0 : State) (x1 : Nat) (x2 : List Byte) : (State.doConfRelease x0 x1 x2).fixed = x0.fixed := by
  unfold State.doConfRelease
  repeat' (first | (simp +zetaDelta [*]; done) | split | dsimp only)
theorem execConfCreate_fixed (x0 : State) : ∀ t, (execConfCreate x0) = .next t → t.fixed = x0.fixed := by
  rintro t ⟨⟩
  exact State.runCmd_fixed _ _ _ (fun _ _ _ => by simp)
theorem execConfAssign_fixed (x0 : State) : ∀ t, (execConfAssign x0) = .next t → t.fixed = x0.fixed := by
  rintro t ⟨⟩
  exact State.runCmd_fixed _ _ _ (fun _ _ _ => by simp)
theorem execConfMap_fixed (x0 : State) : ∀ t, (execConfMap x0) = .next t → t.fixed = x0.fixed := by
  rintro t ⟨⟩
  exact State.runCmd_fixed _ _ _ (fun _ _ _ => by simp)
theorem execConfLoad_fixed (x0 : List Byte) (x1 : State) : ∀ t, (execConfLoad x0 x1) = .next t → t.fixed = x1.fixed := by
  rintro t ⟨⟩
  exact State.runCmd_fixed _ _ _ (fun _ _ _ => by simp)
theorem execConfFinalize_fixed (x0 : State) : ∀ t, (execConfFinalize x0) = .next t → t.fixed = x0.fixed := by
  rintro t ⟨⟩
  exact State.runCmd_fixed _ _ _ (fun _ _ _ => by simp)
theorem execConfRelease_fixed (x0 : State) : ∀ t, (execConfRelease x0) = .next t → t.fixed = x0.fixed := by
  rintro t ⟨⟩
  exact State.runCmd_fixed _ _ _ (fun _ _ _ => by simp)
@[simp] theorem State.doAttest_fixed (x0 : State) (x1 : Nat) (x2 : List Byte) : (State.doAttest x0 x1 x2).fixed = x0.fixed := by
  unfold State.doAttest
  repeat' (first | (simp +zetaDelta [*]; done) | split)
theorem execAttest_fixed (x0 : State) : ∀ t, (execAttest x0) = .next t → t.fixed = x0.fixed := by
  rintro t ⟨⟩
  exact State.runCmd_fixed _ _ _ (fun _ _ _ => by simp)
@[simp] theorem State.zeroizeNow_fixed (x0 : State) (x1 : Nat) (x2 : Bool) : (State.zeroizeNow x0 x1 x2).fixed = x0.fixed := by
  unfold State.zeroizeNow
  split <;> simp
@[simp] theorem State.coEnd_fixed (x0 : State) (x1 : BitVec 2) : (State.coEnd x0 x1).fixed = x0.fixed := by simp [State.coEnd]
@[simp] theorem State.zeroizeTake_fixed (x0 : State) : (State.zeroizeTake x0).fixed = x0.fixed := by
  unfold State.zeroizeTake
  split <;> simp
@[simp] theorem State.dbgSubmit_fixed (x0 : State) : (State.dbgSubmit x0).fixed = x0.fixed := by
  unfold State.dbgSubmit
  all_goals repeat' (first | (simp +zetaDelta [*]; done) | (split <;> try (rename_i h_; have k_ := pair_arg h_; simp at k_)) | (refine fold_to (fun _ _ => ?_) ?_) | (refine fold2_to (fun _ _ => ?_) ?_) | (refine fold1_to (fun _ _ => ?_) ?_) | (refine fold22_to (fun _ _ => ?_) ?_) | simp +zetaDelta only [State.fixed_mk, State.fixed_eta, apply_ite State.fixed] | simp +zetaDelta [*])
theorem execDebugUnlock_fixed (x0 : State) : ∀ t, (execDebugUnlock x0) = .next t → t.fixed = x0.fixed := by
  rintro t ⟨⟩
  split <;> simp
/-- A commit of minimum SVNs keeps the relation: no minimum falls. -/
theorem State.svnTake_keeps (s : State) : s.Keeps s.svnTake := by
  unfold State.svnTake
  dsimp only
  split
  · exact State.keeps_of (by simp)
  · split
    · exact State.keeps_of (by simp)
    · rename_i h _
      refine State.Keeps.trans (t := { s.coEnd 1 with fuses := { s.fuses with svnMin := Tbl.set 0 s.fuses.svnMin (leAt s.coBytes 1 1) (BitVec.ofNat 8 (leAt s.coBytes 2 1)) } }) ?_ (State.keeps_of (by simp))
      refine ⟨rfl, rfl, fun k => ?_⟩
      simp only [Bool.or_eq_true, not_or, decide_eq_true_eq, Nat.not_lt] at h
      have hs := (s.imageOfType (leAt s.coBytes 1 1)).svn.isLt
      by_cases e : k = leAt s.coBytes 1 1
      · subst e
        by_cases z : BitVec.ofNat 8 (leAt s.coBytes 2 1) = 0
        · have z2 := congrArg BitVec.toNat z
          simp only [BitVec.toNat_ofNat, BitVec.ofNat_eq_ofNat] at z2
          omega
        · simp only [Tbl.get_set_same _ _ _ _ z, BitVec.toNat_ofNat]
          omega
      · rw [Tbl.get_set_other _ _ _ _ _ e]
theorem State.coSubmit_keeps (s : State) : s.Keeps s.coSubmit := by
  unfold State.coSubmit
  split
  · exact State.keeps_of (by simp)
  · split
    · exact s.svnTake_keeps
    · exact State.keeps_of (by simp)
    · exact State.keeps_of (by simp)
theorem execSvnCommit_keeps (s t : State) (h : execSvnCommit s = .next t) : s.Keeps t := by
  cases h
  split
  · exact s.coSubmit_keeps
  · exact State.keeps_of rfl
theorem execZeroize_keeps (s t : State) (h : execZeroize s = .next t) : s.Keeps t := by
  cases h
  split
  · exact s.coSubmit_keeps
  · exact State.keeps_of rfl

end Sys2Proof.Machine
end

