-- ==== Sys2Proof/Laws/KeptPower.lean ====
section
/-! SUPPORT. What the operations of Machine/Power.lean keep: the queue and the fuse bank. -/

namespace Sys2Proof.Machine

set_option linter.all false

@[simp] theorem State.portRequest_fixed (x0 : State) (x1 : Nat) (x2 : Nat) : (State.portRequest x0 x1 x2).fixed = x0.fixed := by
  unfold State.portRequest
  all_goals repeat' (first | (simp +zetaDelta [*]; done) | (split <;> try (rename_i h_; have k_ := pair_arg h_; simp at k_)) | (refine fold_to (fun _ _ => ?_) ?_) | (refine fold2_to (fun _ _ => ?_) ?_) | (refine fold1_to (fun _ _ => ?_) ?_) | (refine fold22_to (fun _ _ => ?_) ?_) | simp +zetaDelta only [State.fixed_mk, State.fixed_eta, apply_ite State.fixed] | simp +zetaDelta [*])
@[simp] theorem State.unitRequest_fixed (x0 : State) (x1 : Nat) (x2 : Nat) : (State.unitRequest x0 x1 x2).fixed = x0.fixed := by
  unfold State.unitRequest
  exact State.request_fixed _ _ _ _ (fun _ => by split <;> simp)
theorem execPwrAuto_fixed (x0 : Nat) (x1 : State) : ∀ t, (execPwrAuto x0 x1) = .next t → t.fixed = x1.fixed := by
  rintro t ⟨⟩
  split <;> simp
theorem execPwrNoSleep_fixed (x0 : Nat) (x1 : State) : ∀ t, (execPwrNoSleep x0 x1) = .next t → t.fixed = x1.fixed := by
  rintro t ⟨⟩
  split <;> simp
theorem execPwrPark_fixed (x0 : Nat) (x1 : State) : ∀ t, (execPwrPark x0 x1) = .next t → t.fixed = x1.fixed := by
  rintro t ⟨⟩
  split <;> simp
@[simp] theorem State.hibStatus_fixed (x0 : State) (x1 : BitVec 2) : (State.hibStatus x0 x1).fixed = x0.fixed := by simp [State.hibStatus]
@[simp] theorem State.hibernate_fixed (x0 : State) : (State.hibernate x0).fixed = x0.fixed := by
  unfold State.hibernate
  all_goals repeat' (first | (simp +zetaDelta [*]; done) | (split <;> try (rename_i h_; have k_ := pair_arg h_; simp at k_)) | (refine fold_to (fun _ _ => ?_) ?_) | (refine fold2_to (fun _ _ => ?_) ?_) | (refine fold1_to (fun _ _ => ?_) ?_) | (refine fold22_to (fun _ _ => ?_) ?_) | simp +zetaDelta only [State.fixed_mk, State.fixed_eta, apply_ite State.fixed] | simp +zetaDelta [*])
@[simp] theorem State.hibernateEnter_fixed (x0 : State) : (State.hibernateEnter x0).fixed = x0.fixed := by
  unfold State.hibernateEnter
  repeat' (first | (simp +zetaDelta [*]; done) | split)
theorem execHibernateEnter_fixed (x0 : State) : ∀ t, (execHibernateEnter x0) = .next t → t.fixed = x0.fixed := by
  rintro t ⟨⟩
  simp
theorem execHibernateExit_fixed (x0 : BitVec 2) (x1 : State) : ∀ t, (execHibernateExit x0 x1) = .next t → t.fixed = x1.fixed := by
  rintro t ⟨⟩
  repeat' (first | (simp +zetaDelta [*]; done) | split)
theorem execWakeEdge_fixed (x0 : State) : ∀ t, (execWakeEdge x0) = .next t → t.fixed = x0.fixed := by
  rintro t ⟨⟩
  split <;> simp
theorem execTileRetentionTimer_fixed (x0 : Nat) (x1 : State) : ∀ t, (execTileRetentionTimer x0 x1) = .next t → t.fixed = x1.fixed := by
  rintro t ⟨⟩
  split <;> simp
theorem execSelfRefreshTimer_fixed (x0 : State) : ∀ t, (execSelfRefreshTimer x0) = .next t → t.fixed = x0.fixed := by
  rintro t ⟨⟩
  split <;> simp
@[simp] theorem State.slow_fixed (x0 : State) (x1 : Nat) (x2 : Nat) (x3 : Nat) : (State.slow x0 x1 x2 x3).fixed = x0.fixed := by
  unfold State.slow
  all_goals repeat' (first | (simp +zetaDelta [*]; done) | (split <;> try (rename_i h_; have k_ := pair_arg h_; simp at k_)) | (refine fold_to (fun _ _ => ?_) ?_) | (refine fold2_to (fun _ _ => ?_) ?_) | (refine fold1_to (fun _ _ => ?_) ?_) | (refine fold22_to (fun _ _ => ?_) ?_) | simp +zetaDelta only [State.fixed_mk, State.fixed_eta, apply_ite State.fixed] | simp +zetaDelta [*])
@[simp] theorem State.quicken_fixed (x0 : State) (x1 : Nat) : (State.quicken x0 x1).fixed = x0.fixed := by simp [State.quicken]
theorem execThermalThrottleStep_fixed (x0 : Nat) (x1 : BitVec 12) (x2 : State) : ∀ t, (execThermalThrottleStep x0 x1 x2) = .next t → t.fixed = x2.fixed := by
  rintro t ⟨⟩
  repeat' (first | (simp +zetaDelta [*]; done) | (split <;> try (rename_i h_; have k_ := pair_arg h_; simp at k_)) | (refine fold_to (fun _ _ => ?_) ?_) | (refine fold2_to (fun _ _ => ?_) ?_) | (refine fold1_to (fun _ _ => ?_) ?_) | (refine fold22_to (fun _ _ => ?_) ?_) | simp +zetaDelta only [State.fixed_mk, State.fixed_eta, apply_ite State.fixed] | simp +zetaDelta [*])
theorem execJunctionHold_fixed (x0 : BitVec 12) (x1 : State) : ∀ t, (execJunctionHold x0 x1) = .next t → t.fixed = x1.fixed := by
  rintro t ⟨⟩
  repeat' (first | (simp +zetaDelta [*]; done) | (split <;> try (rename_i h_; have k_ := pair_arg h_; simp at k_)) | (refine fold_to (fun _ _ => ?_) ?_) | (refine fold2_to (fun _ _ => ?_) ?_) | (refine fold1_to (fun _ _ => ?_) ?_) | (refine fold22_to (fun _ _ => ?_) ?_) | simp +zetaDelta only [State.fixed_mk, State.fixed_eta, apply_ite State.fixed] | simp +zetaDelta [*])
@[simp] theorem State.sampled_fixed (x0 : State) (x1 : ℕ) : (State.sampled x0 x1).fixed = x0.fixed := by simp [State.sampled]
@[simp] theorem State.overPower_fixed (x0 : State) (x1 : ℕ) : (State.overPower x0 x1).fixed = x0.fixed := by
  unfold State.overPower
  dsimp only
  all_goals repeat' (first | (simp +zetaDelta [*]; done) | (split <;> try (rename_i h_; have k_ := pair_arg h_; simp at k_)) | (refine fold_to (fun _ _ => ?_) ?_) | (refine fold2_to (fun _ _ => ?_) ?_) | (refine fold1_to (fun _ _ => ?_) ?_) | (refine fold22_to (fun _ _ => ?_) ?_) | (refine (State.startXferBy_fixed _ _ _ (fun _ _ => ?_)).trans ?_) | (refine (State.newXferBy_fixed _ _ _ _ _ (fun _ _ => ?_)).trans ?_) | (refine (State.request_fixed _ _ _ _ (fun _ => ?_)).trans ?_) | (refine (State.hostWrite_fixed _ _ _ _ (fun _ => ?_)).trans ?_) | (refine (State.hostLoad_fixed _ _ _ _ (fun _ => ?_)).trans ?_) | (refine (State.atOnce_fixed _ _ (fun _ => ?_)).trans ?_) | (refine (State.settleBar_fixed _ _ _ _ (fun _ _ _ => ?_)).trans ?_) | (refine (State.runCmd_fixed _ _ _ (fun _ _ _ => ?_)).trans ?_) | (refine (State.carryConf_fixed _ _ _ _ _ (fun _ => ?_)).trans ?_) | (refine (State.onI2c_fixed _ _ _ (fun _ => ?_)).trans ?_) | (refine (State.inRecovery_fixed _ _ _ (fun _ => ?_)).trans ?_) | (refine (State.mailboxWrite_fixed _ _ _ (fun _ => ?_)).trans ?_) | (refine (State.vfMailbox_fixed _ _ (fun _ => ?_)).trans ?_) | (refine (State.orReserved_fixed _ _ _ _ (fun _ => ?_)).trans ?_) | (refine (State.sqSetup_fixed _ _ _ _ (fun _ => ?_)).trans ?_) | (refine (State.onSq_fixed _ _ _ _ (fun _ _ => ?_)).trans ?_) | (refine (State.onCq_fixed _ _ _ _ (fun _ _ => ?_)).trans ?_) | (refine (State.endRead_fixed _ _ _ (fun _ => ?_)).trans ?_) | simp +zetaDelta only [State.fixed_mk, State.fixed_eta, apply_ite State.fixed] | simp +zetaDelta [*])
@[simp] theorem State.underPower_fixed (x0 : State) (x1 : ℕ) : (State.underPower x0 x1).fixed = x0.fixed := by
  unfold State.underPower
  repeat' (first | (simp +zetaDelta [*]; done) | split | dsimp only)
theorem execPowerSample_fixed (x0 : ℕ) (x1 : State) : ∀ t, (execPowerSample x0 x1) = .next t → t.fixed = x1.fixed := by
  rintro t ⟨⟩
  repeat' (first | (simp +zetaDelta [*]; done) | split | dsimp only)
@[simp] theorem State.setCclkMax_fixed (x0 : State) (x1 : BitVec 11) : (State.setCclkMax x0 x1).fixed = x0.fixed := by simp [State.setCclkMax]
theorem execTimeRecalibrate_fixed (x0 : Nat) (x1 : State) : ∀ t, (execTimeRecalibrate x0 x1) = .next t → t.fixed = x1.fixed := by
  rintro t ⟨⟩
  split <;> simp
theorem execTsyncEdge_fixed (x0 : State) : ∀ t, (execTsyncEdge x0) = .next t → t.fixed = x0.fixed := by
  rintro t ⟨⟩
  repeat' (first | (simp +zetaDelta [*]; done) | (split <;> try (rename_i h_; have k_ := pair_arg h_; simp at k_)) | (refine fold_to (fun _ _ => ?_) ?_) | (refine fold2_to (fun _ _ => ?_) ?_) | (refine fold1_to (fun _ _ => ?_) ?_) | (refine fold22_to (fun _ _ => ?_) ?_) | simp +zetaDelta only [State.fixed_mk, State.fixed_eta, apply_ite State.fixed] | simp +zetaDelta [*])

end Sys2Proof.Machine
end

