-- ==== Sys2Proof/Laws/KeptSafety.lean ====
section
/-! SUPPORT. What the operations of Machine/Safety.lean keep: the queue and the fuse bank. -/

namespace Sys2Proof.Machine

set_option linter.all false

@[simp] theorem State.arm_fixed (x0 : State) : (State.arm x0).fixed = x0.fixed := by
  unfold State.arm
  all_goals repeat' (first | (simp +zetaDelta [*]; done) | (split <;> try (rename_i h_; have k_ := pair_arg h_; simp at k_)) | (refine fold_to (fun _ _ => ?_) ?_) | (refine fold2_to (fun _ _ => ?_) ?_) | (refine fold1_to (fun _ _ => ?_) ?_) | (refine fold22_to (fun _ _ => ?_) ?_) | simp +zetaDelta only [State.fixed_mk, State.fixed_eta, apply_ite State.fixed] | simp +zetaDelta [*])
theorem execSafeArm_fixed (x0 : State) : ∀ t, (execSafeArm x0) = .next t → t.fixed = x0.fixed := by
  rintro t ⟨⟩
  split <;> simp
theorem execSafeDisarm_fixed (x0 : State) : ∀ t, (execSafeDisarm x0) = .next t → t.fixed = x0.fixed := by
  rintro t ⟨⟩
  split <;> simp
@[simp] theorem State.testPulse_fixed (x0 : State) : (State.testPulse x0).fixed = x0.fixed := by simp [State.testPulse]
theorem execSafeTest_fixed (x0 : State) : ∀ t, (execSafeTest x0) = .next t → t.fixed = x0.fixed := by
  rintro t ⟨⟩
  split <;> simp
theorem execSafeTestEnd_fixed (x0 : Bool) (x1 : State) : ∀ t, (execSafeTestEnd x0 x1) = .next t → t.fixed = x1.fixed := by
  rintro t ⟨⟩
  split <;> simp
@[simp] theorem State.statusClear_fixed (x0 : State) (x1 : Word32) : (State.statusClear x0 x1).fixed = x0.fixed := by simp [State.statusClear]
theorem execSafeStatusClear_fixed (x0 : Word32) (x1 : State) : ∀ t, (execSafeStatusClear x0 x1) = .next t → t.fixed = x1.fixed := by
  rintro t ⟨⟩
  split <;> simp
@[simp] theorem State.probeSignal_fixed (x0 : State) (x1 : Word32) (x2 : BitVec 2) : (State.probeSignal x0 x1 x2).fixed = x0.fixed := by simp [State.probeSignal]
@[simp] theorem State.framePage_fixed (x0 : State) (x1 : Nat) : (State.framePage x0 x1).2.fixed = x0.fixed := by simp [State.framePage]
@[simp] theorem State.frameOk_fixed (x0 : State) (x1 : List Nat) : (State.frameOk x0 x1).2.fixed = x0.fixed := by
  fun_induction State.frameOk x0 x1 <;> simp +zetaDelta [*]
@[simp] theorem State.probeMismatch_fixed (x0 : State) (x1 : Nat) : (State.probeMismatch x0 x1).fixed = x0.fixed := by simp [State.probeMismatch]
theorem execProbeRun_fixed (x0 : State) : ∀ t, (execProbeRun x0) = .next t → t.fixed = x0.fixed := by
  rintro t ⟨⟩
  repeat' (first | (simp +zetaDelta [*]; done) | (split <;> try (rename_i h_; have k_ := pair_arg h_; simp at k_)) | (refine fold_to (fun _ _ => ?_) ?_) | (refine fold2_to (fun _ _ => ?_) ?_) | (refine fold1_to (fun _ _ => ?_) ?_) | (refine fold22_to (fun _ _ => ?_) ?_) | simp +zetaDelta only [State.fixed_mk, State.fixed_eta, apply_ite State.fixed] | simp +zetaDelta [*])
theorem execProbeStandGrant_fixed (x0 : Nat) (x1 : State) : ∀ t, (execProbeStandGrant x0 x1) = .next t → t.fixed = x1.fixed := by
  rintro t ⟨⟩
  repeat' (first | (simp +zetaDelta [*]; done) | split)
@[simp] theorem State.probePass_fixed (x0 : State) : (State.probePass x0).fixed = x0.fixed := by
  unfold State.probePass
  all_goals repeat' (first | (simp +zetaDelta [*]; done) | (split <;> try (rename_i h_; have k_ := pair_arg h_; simp at k_)) | (refine fold_to (fun _ _ => ?_) ?_) | (refine fold2_to (fun _ _ => ?_) ?_) | (refine fold1_to (fun _ _ => ?_) ?_) | (refine fold22_to (fun _ _ => ?_) ?_) | simp +zetaDelta only [State.fixed_mk, State.fixed_eta, apply_ite State.fixed] | simp +zetaDelta [*])
theorem execProbeCompare_fixed (x0 : Verdict) (x1 : State) : ∀ t, (execProbeCompare x0 x1) = .next t → t.fixed = x1.fixed := by
  rintro t ⟨⟩
  repeat' (first | (simp +zetaDelta [*]; done) | split)
theorem execProbeLate_fixed (x0 : State) : ∀ t, (execProbeLate x0) = .next t → t.fixed = x0.fixed := by
  rintro t ⟨⟩
  split <;> simp
theorem execSafeStateEnter_fixed (x0 : BitVec 8) (x1 : BitVec 8) (x2 : State) : ∀ t, (execSafeStateEnter x0 x1 x2) = .next t → t.fixed = x2.fixed := by
  rintro t ⟨⟩
  split <;> simp
theorem execSafetyWatchdog_fixed (x0 : State) : ∀ t, (execSafetyWatchdog x0) = .next t → t.fixed = x0.fixed := by
  rintro t ⟨⟩
  split <;> simp
theorem execClockLoss_fixed (x0 : Nat) (x1 : State) : ∀ t, (execClockLoss x0 x1) = .next t → t.fixed = x1.fixed := by
  rintro t ⟨⟩
  split <;> simp

end Sys2Proof.Machine
end

