-- ==== Sys2Proof/Laws/KeptStart.lean ====
section
/-! SUPPORT. What the operations of Machine/Start.lean keep: the queue and the fuse bank. -/

namespace Sys2Proof.Machine

set_option linter.all false

@[simp] theorem State.chipReset_fixed (x0 : State) (x1 : Bool) : (State.chipReset x0 x1).fixed = x0.fixed := by simp [State.chipReset]
@[simp] theorem State.allIncs_fixed (x0 : State) (x1 : BitVec 8 → BitVec 8) : (State.allIncs x0 x1).fixed = x0.fixed := by simp [State.allIncs]
@[simp] theorem State.leaveReset_fixed (x0 : State) : (State.leaveReset x0).fixed = x0.fixed := by
  unfold State.leaveReset
  split <;> simp
@[simp] theorem State.begin__fixed (x0 : State) (x1 : BitVec 2) : (State.begin_ x0 x1).fixed = x0.fixed := by simp [State.begin_]
@[simp] theorem State.coldIfFree_fixed (x0 : State) (x1 : BitVec 2) : (State.coldIfFree x0 x1).fixed = x0.fixed := by
  unfold State.coldIfFree
  split <;> simp
@[simp] theorem State.allPortsDown_fixed (x0 : State) : (State.allPortsDown x0).fixed = x0.fixed := by simp [State.allPortsDown]
@[simp] theorem State.linkDown_fixed (x0 : State) : (State.linkDown x0).fixed = x0.fixed := by simp [State.linkDown]
@[simp] theorem State.stopFailed_fixed (x0 : State) (x1 : Nat) (x2 : Nat) : (State.stopFailed x0 x1 x2).fixed = x0.fixed := by
  unfold State.stopFailed
  all_goals repeat' (first | (simp +zetaDelta [*]; done) | (split <;> try (rename_i h_; have k_ := pair_arg h_; simp at k_)) | (refine fold_to (fun _ _ => ?_) ?_) | (refine fold2_to (fun _ _ => ?_) ?_) | (refine fold1_to (fun _ _ => ?_) ?_) | (refine fold22_to (fun _ _ => ?_) ?_) | simp +zetaDelta only [State.fixed_mk, State.fixed_eta, apply_ite State.fixed] | simp +zetaDelta [*])
@[simp] theorem State.stopRecovery_fixed (x0 : State) (x1 : Nat) (x2 : Nat) : (State.stopRecovery x0 x1 x2).fixed = x0.fixed := by simp [State.stopRecovery]
theorem execPowerUpAon_fixed (x0 : State) : ∀ t, (execPowerUpAon x0) = .next t → t.fixed = x0.fixed := by
  rintro t ⟨⟩
  simp
theorem execSysRstAssert_fixed (x0 : State) : ∀ t, (execSysRstAssert x0) = .next t → t.fixed = x0.fixed := by
  rintro t ⟨⟩
  simp
theorem execSysRstRelease_fixed (x0 : BitVec 2) (x1 : BitVec 3) (x2 : BitVec 1) (x3 : State) : ∀ t, (execSysRstRelease x0 x1 x2 x3) = .next t → t.fixed = x3.fixed := by
  intro t h
  unfold execSysRstRelease at h
  split at h
  · cases h; rfl
  · split at h
    · cases h
    · cases h; simp
@[simp] theorem State.endpointReset_fixed (x0 : State) : (State.endpointReset x0).fixed = x0.fixed := by
  unfold State.endpointReset
  split <;> simp
theorem execPerstAssert_fixed (x0 : State) : ∀ t, (execPerstAssert x0) = .next t → t.fixed = x0.fixed := by
  rintro t ⟨⟩
  split <;> simp
theorem execPerstSafeReset_fixed (x0 : State) : ∀ t, (execPerstSafeReset x0) = .next t → t.fixed = x0.fixed := by
  rintro t ⟨⟩
  split <;> simp
@[simp] theorem State.beginLink_fixed (x0 : State) : (State.beginLink x0).fixed = x0.fixed := by
  unfold State.beginLink
  split <;> simp
theorem execPerstDeassert_fixed (x0 : State) : ∀ t, (execPerstDeassert x0) = .next t → t.fixed = x0.fixed := by
  rintro t ⟨⟩
  simp
theorem execSupplyExcursion_fixed (x0 : Nat) (x1 : State) : ∀ t, (execSupplyExcursion x0 x1) = .next t → t.fixed = x1.fixed := by
  rintro t ⟨⟩
  split <;> simp
theorem execSupplyCollapse_fixed (x0 : State) : ∀ t, (execSupplyCollapse x0) = .next t → t.fixed = x0.fixed := by
  rintro t ⟨⟩
  split <;> simp
theorem execSupplyReturn_fixed (x0 : State) : ∀ t, (execSupplyReturn x0) = .next t → t.fixed = x0.fixed := by
  rintro t ⟨⟩
  split <;> simp
theorem execSafeHoldExpiry_fixed (x0 : State) : ∀ t, (execSafeHoldExpiry x0) = .next t → t.fixed = x0.fixed := by
  rintro t ⟨⟩
  split <;> simp

end Sys2Proof.Machine
end

