-- ==== Sys2Proof/Laws/KeptRom.lean ====
section
/-! SUPPORT. What the operations of Machine/Rom.lean keep: the queue and the fuse bank. -/

namespace Sys2Proof.Machine

set_option linter.all false

@[simp] theorem State.takeImage_fixed (x0 : State) (x1 : Nat) (x2 : List Byte) : (State.takeImage x0 x1 x2).fixed = x0.fixed := by simp [State.takeImage]
@[simp] theorem State.loadImage_fixed (x0 : State) (x1 : List Byte) (x2 : Nat) (x3 : List Byte) (x4 : List Byte) : (State.loadImage x0 x1 x2 x3 x4).2.fixed = x0.fixed := by
  unfold State.loadImage
  repeat' (first | (simp +zetaDelta [*]; done) | split | dsimp only)
@[simp] theorem State.deriveKeys_fixed (x0 : State) : (State.deriveKeys x0).fixed = x0.fixed := by simp [State.deriveKeys]
@[simp] theorem State.issueAk_fixed (x0 : State) : (State.issueAk x0).fixed = x0.fixed := by
  unfold State.issueAk
  repeat' (first | (simp +zetaDelta [*]; done) | split | dsimp only)
@[simp] theorem State.romBoot_fixed (x0 : State) (x1 : List Byte) (x2 : List (List Byte)) : (State.romBoot x0 x1 x2).fixed = x0.fixed := by
  unfold State.romBoot
  repeat' (first | (simp +zetaDelta [*]; done) | split | dsimp only)
theorem execBootRom_fixed (x0 : Option (BitVec 8)) (x1 : List Byte) (x2 : List (List Byte)) (x3 : State) : ∀ t, (execBootRom x0 x1 x2 x3) = .next t → t.fixed = x3.fixed := by
  rintro t ⟨⟩
  split
  · rfl
  · split <;> simp
@[simp] theorem State.trainAll_fixed (x0 : State) : (State.trainAll x0).fixed = x0.fixed := by simp [State.trainAll]
@[simp] theorem State.confirmAll_fixed (x0 : State) : (State.confirmAll x0).fixed = x0.fixed := by
  unfold State.confirmAll
  repeat' (first | (simp +zetaDelta [*]; done) | split | dsimp only)
theorem execMemtrain_fixed (x0 : Option (BitVec 4 × BitVec 4)) (x1 : State) : ∀ t, (execMemtrain x0 x1) = .next t → t.fixed = x1.fixed := by
  rintro t ⟨⟩
  repeat' (first | (simp +zetaDelta [*]; done) | split)
theorem execMeminit_fixed (x0 : State) : ∀ t, (execMeminit x0) = .next t → t.fixed = x0.fixed := by
  rintro t ⟨⟩
  split <;> simp
@[simp] theorem State.baseMap_fixed (x0 : State) (x1 : List Nat) : (State.baseMap x0 x1).fixed = x0.fixed := by
  simp only [State.baseMap]
  exact fold_to (fun _ _ => by simp) (by simp)
@[simp] theorem State.repairTile_fixed (x0 : State) (x1 : Nat) : (State.repairTile x0 x1).fixed = x0.fixed := by
  unfold State.repairTile
  split <;> simp
theorem execBist_fixed (x0 : List Nat) (x1 : List Nat) (x2 : Option (Bool × Nat)) (x3 : State) : ∀ t, (execBist x0 x1 x2 x3) = .next t → t.fixed = x3.fixed := by
  rintro t ⟨⟩
  repeat' (first | (simp +zetaDelta [*]; done) | (split <;> try (rename_i h_; have k_ := pair_arg h_; simp at k_)) | (refine fold_to (fun _ _ => ?_) ?_) | (refine fold2_to (fun _ _ => ?_) ?_) | (refine fold1_to (fun _ _ => ?_) ?_) | (refine fold22_to (fun _ _ => ?_) ?_) | simp +zetaDelta only [State.fixed_mk, State.fixed_eta, apply_ite State.fixed] | simp +zetaDelta [*])
@[simp] theorem State.applyConfig_fixed (x0 : State) (x1 : List Byte) : (State.applyConfig x0 x1).fixed = x0.fixed := by simp [State.applyConfig]
@[simp] theorem State.startImage_fixed (x0 : State) (x1 : List Byte) (x2 : List (List Byte)) (x3 : Nat) : (State.startImage x0 x1 x2 x3).2.fixed = x0.fixed := by
  unfold State.startImage
  all_goals repeat' (first | (simp +zetaDelta [*]; done) | (split <;> try (rename_i h_; have k_ := pair_arg h_; simp at k_)) | (refine fold_to (fun _ _ => ?_) ?_) | (refine fold2_to (fun _ _ => ?_) ?_) | (refine fold1_to (fun _ _ => ?_) ?_) | (refine fold22_to (fun _ _ => ?_) ?_) | simp +zetaDelta only [State.fixed_mk, State.fixed_eta, apply_ite State.fixed] | simp +zetaDelta [*])
@[simp] theorem State.startImages_fixed (x0 : State) (x1 : List Byte) (x2 : List (List Byte)) (x3 : List Nat) : (State.startImages x0 x1 x2 x3).2.fixed = x0.fixed := by
  fun_induction State.startImages x0 x1 x2 x3 <;> simp +zetaDelta [*]
@[simp] theorem State.imagesRest_fixed (x0 : State) (x1 : List Byte) (x2 : Bool) : (State.imagesRest x0 x1 x2).fixed = x0.fixed := by
  unfold State.imagesRest
  repeat' (first | (simp +zetaDelta [*]; done) | split | dsimp only)
theorem execImages_fixed (x0 : List (List Byte)) (x1 : Bool) (x2 : State) : ∀ t, (execImages x0 x1 x2) = .next t → t.fixed = x2.fixed := by
  rintro t ⟨⟩
  repeat' (first | (simp +zetaDelta [*]; done) | (split <;> try (rename_i h_; have k_ := pair_arg h_; simp at k_)) | (refine fold_to (fun _ _ => ?_) ?_) | (refine fold2_to (fun _ _ => ?_) ?_) | (refine fold1_to (fun _ _ => ?_) ?_) | (refine fold22_to (fun _ _ => ?_) ?_) | simp +zetaDelta only [State.fixed_mk, State.fixed_eta, apply_ite State.fixed] | simp +zetaDelta [*])
@[simp] theorem State.injectFail_fixed (x0 : State) (x1 : Nat) (x2 : Nat) : (State.injectFail x0 x1 x2).fixed = x0.fixed := by simp [State.injectFail]
@[simp] theorem State.injectTile_fixed (x0 : State) (x1 : Nat) : (State.injectTile x0 x1).fixed = x0.fixed := by
  unfold State.injectTile
  all_goals repeat' (first | (simp +zetaDelta [*]; done) | (split <;> try (rename_i h_; have k_ := pair_arg h_; simp at k_)) | (refine fold_to (fun _ _ => ?_) ?_) | (refine fold2_to (fun _ _ => ?_) ?_) | (refine fold1_to (fun _ _ => ?_) ?_) | (refine fold22_to (fun _ _ => ?_) ?_) | simp +zetaDelta only [State.fixed_mk, State.fixed_eta, apply_ite State.fixed] | simp +zetaDelta [*])
@[simp] theorem State.injections_fixed (x0 : State) (x1 : List (Nat × Nat)) : (State.injections x0 x1).fixed = x0.fixed := by
  induction x1 generalizing x0 with
  | nil => simp [State.injections]
  | cons p t ih =>
    simp only [State.injections]
    repeat' (first | (simp [ih]; done) | split)
theorem execInject_fixed (x0 : List (Nat × Nat)) (x1 : State) : ∀ t, (execInject x0 x1) = .next t → t.fixed = x1.fixed := by
  rintro t ⟨⟩
  split <;> simp
theorem execFabric_fixed (x0 : State) : ∀ t, (execFabric x0) = .next t → t.fixed = x0.fixed := by
  rintro t ⟨⟩
  repeat' (first | (simp +zetaDelta [*]; done) | (split <;> try (rename_i h_; have k_ := pair_arg h_; simp at k_)) | (refine fold_to (fun _ _ => ?_) ?_) | (refine fold2_to (fun _ _ => ?_) ?_) | (refine fold1_to (fun _ _ => ?_) ?_) | (refine fold22_to (fun _ _ => ?_) ?_) | simp +zetaDelta only [State.fixed_mk, State.fixed_eta, apply_ite State.fixed] | simp +zetaDelta [*])
@[simp] theorem State.tellSafe_fixed (x0 : State) : (State.tellSafe x0).fixed = x0.fixed := by
  unfold State.tellSafe
  split <;> simp
@[simp] theorem State.tellCollapse_fixed (x0 : State) : (State.tellCollapse x0).fixed = x0.fixed := by
  unfold State.tellCollapse
  split <;> simp
@[simp] theorem State.frontClear_fixed (x0 : State) : (State.frontClear x0).fixed = x0.fixed := by
  unfold State.frontClear
  all_goals repeat' (first | (simp +zetaDelta [*]; done) | (split <;> try (rename_i h_; have k_ := pair_arg h_; simp at k_)) | (refine fold_to (fun _ _ => ?_) ?_) | (refine fold2_to (fun _ _ => ?_) ?_) | (refine fold1_to (fun _ _ => ?_) ?_) | (refine fold22_to (fun _ _ => ?_) ?_) | simp +zetaDelta only [State.fixed_mk, State.fixed_eta, apply_ite State.fixed] | simp +zetaDelta [*])
@[simp] theorem State.frontEnd_fixed (x0 : State) : (State.frontEnd x0).fixed = x0.fixed := by
  unfold State.frontEnd
  dsimp only
  have h : ∀ t : State, ((List.range 64).foldl State.fillKey t.frontClear).fixed = t.fixed := fun t => fold_to (fun _ _ => by simp) (by simp)
  split <;> split <;> simp [h]
theorem execFrontend_fixed (x0 : State) : ∀ t, (execFrontend x0) = .next t → t.fixed = x0.fixed := by
  rintro t ⟨⟩
  split <;> simp
theorem execPcieLinkUp_fixed (x0 : BitVec 3) (x1 : BitVec 3) (x2 : State) : ∀ t, (execPcieLinkUp x0 x1 x2) = .next t → t.fixed = x2.fixed := by
  rintro t ⟨⟩
  repeat' (first | (simp +zetaDelta [*]; done) | (split <;> try (rename_i h_; have k_ := pair_arg h_; simp at k_)) | (refine fold_to (fun _ _ => ?_) ?_) | (refine fold2_to (fun _ _ => ?_) ?_) | (refine fold1_to (fun _ _ => ?_) ?_) | (refine fold22_to (fun _ _ => ?_) ?_) | simp +zetaDelta only [State.fixed_mk, State.fixed_eta, apply_ite State.fixed] | simp +zetaDelta [*])
theorem execEventRingRoom_fixed (x0 : State) : ∀ t, (execEventRingRoom x0) = .next t → t.fixed = x0.fixed := by
  rintro t ⟨⟩
  split <;> simp
@[simp] theorem State.onI2c_fixed (x0 : State) (x1 : BitVec 7) (x2 : State → State) (h2 : ∀ t, (x2 t).fixed = t.fixed) : (State.onI2c x0 x1 x2).fixed = x0.fixed := by
  unfold State.onI2c
  repeat' (first | (simp +zetaDelta [*]; done) | split | dsimp only)
theorem execI2cBootReport_fixed (x0 : BitVec 7) (x1 : State) : ∀ t, (execI2cBootReport x0 x1) = .next t → t.fixed = x1.fixed := by
  rintro t ⟨⟩
  repeat' (first | (simp +zetaDelta [*]; done) | split | dsimp only)
@[simp] theorem State.inRecovery_fixed (s : State) (a : BitVec 7) (f : State → State) (h : ∀ t, (f t).fixed = t.fixed) : (s.inRecovery a f).fixed = s.fixed := by
  unfold State.inRecovery
  refine State.onI2c_fixed _ _ _ (fun t => ?_)
  split
  · exact h t
  · simp
theorem execFlashAddr_fixed (x0 : BitVec 7) (x1 : Word32) (x2 : State) : ∀ t, (execFlashAddr x0 x1 x2) = .next t → t.fixed = x2.fixed := by
  rintro t ⟨⟩
  exact State.inRecovery_fixed _ _ _ (fun _ => by repeat' (first | (simp; done) | split | dsimp only))
theorem execFlashRead_fixed (x0 : BitVec 7) (x1 : ℕ) (x2 : State) : ∀ t, (execFlashRead x0 x1 x2) = .next t → t.fixed = x2.fixed := by
  rintro t ⟨⟩
  repeat' (first | (simp +zetaDelta [*]; done) | split | dsimp only)
@[simp] theorem State.program_fixed (x0 : State) (x1 : List Byte) : (State.program x0 x1).fixed = x0.fixed := by simp [State.program]
theorem execFlashProgram_fixed (x0 : BitVec 7) (x1 : List Byte) (x2 : State) : ∀ t, (execFlashProgram x0 x1 x2) = .next t → t.fixed = x2.fixed := by
  rintro t ⟨⟩
  all_goals repeat' (first | (simp +zetaDelta [*]; done) | (split <;> try (rename_i h_; have k_ := pair_arg h_; simp at k_)) | (refine fold_to (fun _ _ => ?_) ?_) | (refine fold2_to (fun _ _ => ?_) ?_) | (refine fold1_to (fun _ _ => ?_) ?_) | (refine fold22_to (fun _ _ => ?_) ?_) | (refine (State.startXferBy_fixed _ _ _ (fun _ _ => ?_)).trans ?_) | (refine (State.newXferBy_fixed _ _ _ _ _ (fun _ _ => ?_)).trans ?_) | (refine (State.request_fixed _ _ _ _ (fun _ => ?_)).trans ?_) | (refine (State.hostWrite_fixed _ _ _ _ (fun _ => ?_)).trans ?_) | (refine (State.hostLoad_fixed _ _ _ _ (fun _ => ?_)).trans ?_) | (refine (State.atOnce_fixed _ _ (fun _ => ?_)).trans ?_) | (refine (State.settleBar_fixed _ _ _ _ (fun _ _ _ => ?_)).trans ?_) | (refine (State.runCmd_fixed _ _ _ (fun _ _ _ => ?_)).trans ?_) | (refine (State.carryConf_fixed _ _ _ _ _ (fun _ => ?_)).trans ?_) | (refine (State.onI2c_fixed _ _ _ (fun _ => ?_)).trans ?_) | (refine (State.inRecovery_fixed _ _ _ (fun _ => ?_)).trans ?_) | (refine (State.mailboxWrite_fixed _ _ _ (fun _ => ?_)).trans ?_) | (refine (State.vfMailbox_fixed _ _ (fun _ => ?_)).trans ?_) | (refine (State.orReserved_fixed _ _ _ _ (fun _ => ?_)).trans ?_) | (refine (State.sqSetup_fixed _ _ _ _ (fun _ => ?_)).trans ?_) | (refine (State.onSq_fixed _ _ _ _ (fun _ _ => ?_)).trans ?_) | (refine (State.onCq_fixed _ _ _ _ (fun _ _ => ?_)).trans ?_) | (refine (State.endRead_fixed _ _ _ (fun _ => ?_)).trans ?_) | simp +zetaDelta only [State.fixed_mk, State.fixed_eta, apply_ite State.fixed] | simp +zetaDelta [*])
theorem execFlashErase_fixed (x0 : BitVec 7) (x1 : Byte) (x2 : State) : ∀ t, (execFlashErase x0 x1 x2) = .next t → t.fixed = x2.fixed := by
  rintro t ⟨⟩
  exact State.inRecovery_fixed _ _ _ (fun _ => by repeat' (first | (simp; done) | split | dsimp only))
theorem execFlashStatus_fixed (x0 : BitVec 7) (x2 : State) : ∀ t, (execFlashStatus x0 x2) = .next t → t.fixed = x2.fixed := by
  rintro t ⟨⟩
  exact State.inRecovery_fixed _ _ _ (fun _ => by repeat' (first | (simp; done) | split | dsimp only))
theorem execI2cRestart_fixed (x0 : BitVec 7) (x1 : Byte) (x2 : State) : ∀ t, (execI2cRestart x0 x1 x2) = .next t → t.fixed = x2.fixed := by
  rintro t ⟨⟩
  exact State.onI2c_fixed _ _ _ (fun _ => by repeat' (first | (simp; done) | split | dsimp only))
theorem execI2cBusTimeout_fixed (x0 : State) : ∀ t, (execI2cBusTimeout x0) = .next t → t.fixed = x0.fixed := by
  rintro t ⟨⟩
  simp

end Sys2Proof.Machine
end

