-- ==== Sys2Proof/Laws/KeptRegRead.lean ====
section
/-! SUPPORT. What the operations of Machine/RegRead.lean keep: the queue and the fuse bank. -/

namespace Sys2Proof.Machine

set_option linter.all false

@[simp] theorem State.mgmtRead_fixed (x0 : State) (x1 : Nat) (x2 : Bool) : (State.mgmtRead x0 x1 x2).2.fixed = x0.fixed := by
  unfold State.mgmtRead
  repeat' (first | (simp +zetaDelta [*]; done) | split)

end Sys2Proof.Machine
end

