-- ==== Sys2Proof/Laws/KeptMailbox.lean ====
section
/-! SUPPORT. What the operations of Machine/Mailbox.lean keep: the queue and the fuse bank. -/

namespace Sys2Proof.Machine

set_option linter.all false

@[simp] theorem State.causes_fixed (x0 : State) (x1 : Nat) (x2 : Nat) (x3 : Nat) : (State.causes x0 x1 x2 x3).fixed = x0.fixed := by
  fun_induction State.causes x0 x1 x2 x3 <;> simp_all
@[simp] theorem State.outDoorbell_fixed (x0 : State) (x1 : Nat) (x2 : Word32) : (State.outDoorbell x0 x1 x2).fixed = x0.fixed := by
  unfold State.outDoorbell
  all_goals repeat' (first | (simp +zetaDelta [*]; done) | (split <;> try (rename_i h_; have k_ := pair_arg h_; simp at k_)) | (refine fold_to (fun _ _ => ?_) ?_) | (refine fold2_to (fun _ _ => ?_) ?_) | (refine fold1_to (fun _ _ => ?_) ?_) | (refine fold22_to (fun _ _ => ?_) ?_) | simp +zetaDelta only [State.fixed_mk, State.fixed_eta, apply_ite State.fixed] | simp +zetaDelta [*])
@[simp] theorem State.inConsume_fixed (x0 : State) (x1 : Nat) (x2 : Word32) : (State.inConsume x0 x1 x2).fixed = x0.fixed := by
  unfold State.inConsume
  all_goals repeat' (first | (simp +zetaDelta [*]; done) | (split <;> try (rename_i h_; have k_ := pair_arg h_; simp at k_)) | (refine fold_to (fun _ _ => ?_) ?_) | (refine fold2_to (fun _ _ => ?_) ?_) | (refine fold1_to (fun _ _ => ?_) ?_) | (refine fold22_to (fun _ _ => ?_) ?_) | simp +zetaDelta only [State.fixed_mk, State.fixed_eta, apply_ite State.fixed] | simp +zetaDelta [*])
@[simp] theorem State.mailboxWrite_fixed (s : State) (fn : Nat) (f : State → State) (h : ∀ t, (f t).fixed = t.fixed) : (s.mailboxWrite fn f).fixed = s.fixed := by
  unfold State.mailboxWrite
  exact State.hostWrite_fixed _ _ _ _ (fun t => by split <;> simp [h])
theorem execMbxOutDoorbell_fixed (x0 : Nat) (x1 : Word32) (x2 : State) : ∀ t, (execMbxOutDoorbell x0 x1 x2) = .next t → t.fixed = x2.fixed := by
  rintro t ⟨⟩
  simp
theorem execMbxInConsume_fixed (x0 : Nat) (x1 : Word32) (x2 : State) : ∀ t, (execMbxInConsume x0 x1 x2) = .next t → t.fixed = x2.fixed := by
  rintro t ⟨⟩
  simp
@[simp] theorem State.vfMailbox_fixed (s : State) (f : State → State) (h : ∀ t, (f t).fixed = t.fixed) : (s.vfMailbox f).fixed = s.fixed := by
  unfold State.vfMailbox
  split <;> simp [h]
@[simp] theorem State.vfInProduce_fixed (x0 : State) (x1 : Nat) (x2 : Word32) : (State.vfInProduce x0 x1 x2).fixed = x0.fixed := by
  unfold State.vfInProduce
  all_goals repeat' (first | (simp +zetaDelta [*]; done) | (split <;> try (rename_i h_; have k_ := pair_arg h_; simp at k_)) | (refine fold_to (fun _ _ => ?_) ?_) | (refine fold2_to (fun _ _ => ?_) ?_) | (refine fold1_to (fun _ _ => ?_) ?_) | (refine fold22_to (fun _ _ => ?_) ?_) | simp +zetaDelta only [State.fixed_mk, State.fixed_eta, apply_ite State.fixed] | simp +zetaDelta [*])
@[simp] theorem State.vfOutConsume_fixed (x0 : State) (x1 : Nat) (x2 : Word32) : (State.vfOutConsume x0 x1 x2).fixed = x0.fixed := by
  unfold State.vfOutConsume
  all_goals repeat' (first | (simp +zetaDelta [*]; done) | (split <;> try (rename_i h_; have k_ := pair_arg h_; simp at k_)) | (refine fold_to (fun _ _ => ?_) ?_) | (refine fold2_to (fun _ _ => ?_) ?_) | (refine fold1_to (fun _ _ => ?_) ?_) | (refine fold22_to (fun _ _ => ?_) ?_) | simp +zetaDelta only [State.fixed_mk, State.fixed_eta, apply_ite State.fixed] | simp +zetaDelta [*])
@[simp] theorem State.rspConsume_fixed (x0 : State) (x1 : Word32) : (State.rspConsume x0 x1).fixed = x0.fixed := by
  unfold State.rspConsume
  split <;> simp
theorem execMbxVfInProduce_fixed (x0 : Nat) (x1 : Word32) (x2 : State) : ∀ t, (execMbxVfInProduce x0 x1 x2) = .next t → t.fixed = x2.fixed := by
  rintro t ⟨⟩
  split <;> simp
theorem execMbxVfOutConsume_fixed (x0 : Nat) (x1 : Word32) (x2 : State) : ∀ t, (execMbxVfOutConsume x0 x1 x2) = .next t → t.fixed = x2.fixed := by
  rintro t ⟨⟩
  split <;> simp
theorem execMbxRspConsume_fixed (x0 : Word32) (x1 : State) : ∀ t, (execMbxRspConsume x0 x1) = .next t → t.fixed = x1.fixed := by
  rintro t ⟨⟩
  split <;> simp

end Sys2Proof.Machine
end

