-- ==== Sys2Proof/Laws/KeptRegWrite.lean ====
section
/-! SUPPORT. What the operations of Machine/RegWrite.lean keep: the queue and the fuse bank. -/

namespace Sys2Proof.Machine

set_option linter.all false

@[simp] theorem State.shadowWrite_fixed (x0 : State) (x1 : BitVec 3) (x2 : Bool) (x3 : Nat) (x4 : Nat) (x5 : CfgSet → CfgSet) : (State.shadowWrite x0 x1 x2 x3 x4 x5).fixed = x0.fixed := by
  unfold State.shadowWrite
  repeat' (first | (simp +zetaDelta [*]; done) | split)
@[simp] theorem State.shadowField_fixed (x0 : State) (x1 : BitVec 3) (x2 : Bool) (x3 : Nat) (x4 : Nat) (x5 : Bool) (x6 : CfgSet → CfgSet) : (State.shadowField x0 x1 x2 x3 x4 x5 x6).fixed = x0.fixed := by
  unfold State.shadowField
  repeat' (first | (simp +zetaDelta [*]; done) | split)
@[simp] theorem State.orReserved_fixed (s : State) (b : Nat) (ok : Bool) (f : State → State) (h : ∀ t, (f t).fixed = t.fixed) : (s.orReserved b ok f).fixed = s.fixed := by
  unfold State.orReserved
  split <;> simp [h]
@[simp] theorem State.errClear_fixed (x0 : State) (x1 : Nat) (x2 : Word32) : (State.errClear x0 x1 x2).fixed = x0.fixed := by simp [State.errClear]
@[simp] theorem State.cePut_fixed (x0 : State) (x1 : Nat) (x2 : Nat) (x3 : Nat) (x4 : Word32) : (State.cePut x0 x1 x2 x3 x4).fixed = x0.fixed := by
  unfold State.cePut
  repeat' (first | (simp; done) | split | dsimp only | (refine State.orReserved_fixed _ _ _ _ (fun _ => ?_)) | (refine State.vfMailbox_fixed _ _ (fun _ => ?_)))
@[simp] theorem State.rmtWrite__fixed (x0 : State) (x1 : Mgr → Mgr) : (State.rmtWrite_ x0 x1).fixed = x0.fixed := by
  unfold State.rmtWrite_
  split <;> simp
@[simp] theorem State.fePut64_fixed (x0 : State) (x1 : BitVec 3) (x2 : Bool) (x3 : Nat) (x4 : Word64) : (State.fePut64 x0 x1 x2 x3 x4).fixed = x0.fixed := by
  unfold State.fePut64
  repeat' (first | (simp +zetaDelta [*]; done) | split)
@[simp] theorem State.fePut32_fixed (x0 : State) (x1 : BitVec 3) (x2 : Bool) (x3 : Nat) (x4 : Word32) : (State.fePut32 x0 x1 x2 x3 x4).fixed = x0.fixed := by
  unfold State.fePut32
  repeat' (first | (simp; done) | split | dsimp only | (refine State.orReserved_fixed _ _ _ _ (fun _ => ?_)) | (refine State.vfMailbox_fixed _ _ (fun _ => ?_)))
@[simp] theorem State.mbxPut64_fixed (x0 : State) (x1 : Nat) (x2 : Word64) : (State.mbxPut64 x0 x1 x2).fixed = x0.fixed := by
  unfold State.mbxPut64
  repeat' (first | (simp; done) | split | dsimp only | (refine State.orReserved_fixed _ _ _ _ (fun _ => ?_)) | (refine State.vfMailbox_fixed _ _ (fun _ => ?_)))
@[simp] theorem State.mbxPut32_fixed (x0 : State) (x1 : Nat) (x2 : Word32) : (State.mbxPut32 x0 x1 x2).fixed = x0.fixed := by
  unfold State.mbxPut32
  split <;> simp
@[simp] theorem State.galPut64_fixed (x0 : State) (x1 : BitVec 3) (x2 : Bool) (x3 : Bool) (x4 : ℕ) (x5 : Word64) : (State.galPut64 x0 x1 x2 x3 x4 x5).fixed = x0.fixed := by
  unfold State.galPut64
  all_goals repeat' (first | (simp +zetaDelta [*]; done) | (split <;> try (rename_i h_; have k_ := pair_arg h_; simp at k_)) | (refine fold_to (fun _ _ => ?_) ?_) | (refine fold2_to (fun _ _ => ?_) ?_) | (refine fold1_to (fun _ _ => ?_) ?_) | (refine fold22_to (fun _ _ => ?_) ?_) | (refine (State.startXferBy_fixed _ _ _ (fun _ _ => ?_)).trans ?_) | (refine (State.newXferBy_fixed _ _ _ _ _ (fun _ _ => ?_)).trans ?_) | (refine (State.request_fixed _ _ _ _ (fun _ => ?_)).trans ?_) | (refine (State.hostWrite_fixed _ _ _ _ (fun _ => ?_)).trans ?_) | (refine (State.hostLoad_fixed _ _ _ _ (fun _ => ?_)).trans ?_) | (refine (State.atOnce_fixed _ _ (fun _ => ?_)).trans ?_) | (refine (State.settleBar_fixed _ _ _ _ (fun _ _ _ => ?_)).trans ?_) | (refine (State.runCmd_fixed _ _ _ (fun _ _ _ => ?_)).trans ?_) | (refine (State.carryConf_fixed _ _ _ _ _ (fun _ => ?_)).trans ?_) | (refine (State.onI2c_fixed _ _ _ (fun _ => ?_)).trans ?_) | (refine (State.inRecovery_fixed _ _ _ (fun _ => ?_)).trans ?_) | (refine (State.mailboxWrite_fixed _ _ _ (fun _ => ?_)).trans ?_) | (refine (State.vfMailbox_fixed _ _ (fun _ => ?_)).trans ?_) | (refine (State.orReserved_fixed _ _ _ _ (fun _ => ?_)).trans ?_) | (refine (State.sqSetup_fixed _ _ _ _ (fun _ => ?_)).trans ?_) | (refine (State.onSq_fixed _ _ _ _ (fun _ _ => ?_)).trans ?_) | (refine (State.onCq_fixed _ _ _ _ (fun _ _ => ?_)).trans ?_) | (refine (State.endRead_fixed _ _ _ (fun _ => ?_)).trans ?_) | simp +zetaDelta only [State.fixed_mk, State.fixed_eta, apply_ite State.fixed] | simp +zetaDelta [*])
@[simp] theorem State.galPut32_fixed (x0 : State) (x1 : BitVec 3) (x2 : Bool) (x3 : Nat) (x4 : Word32) : (State.galPut32 x0 x1 x2 x3 x4).fixed = x0.fixed := by
  unfold State.galPut32
  repeat' (first | (simp +zetaDelta [*]; done) | split)
@[simp] theorem State.invalPut_fixed (x0 : State) (x1 : Xlt → Xlt) : (State.invalPut x0 x1).fixed = x0.fixed := by
  unfold State.invalPut
  split <;> simp
@[simp] theorem State.invalCset_fixed (x0 : State) (x1 : Bool) (x2 : Word64) : (State.invalCset x0 x1 x2).fixed = x0.fixed := by
  unfold State.invalCset
  repeat' (first | (simp +zetaDelta [*]; done) | split | dsimp only)
@[simp] theorem State.xltPut64_fixed (x0 : State) (x1 : BitVec 3) (x2 : Bool) (x3 : Bool) (x4 : ℕ) (x5 : Word64) : (State.xltPut64 x0 x1 x2 x3 x4 x5).fixed = x0.fixed := by
  unfold State.xltPut64
  all_goals repeat' (first | (simp +zetaDelta [*]; done) | (split <;> try (rename_i h_; have k_ := pair_arg h_; simp at k_)) | (refine fold_to (fun _ _ => ?_) ?_) | (refine fold2_to (fun _ _ => ?_) ?_) | (refine fold1_to (fun _ _ => ?_) ?_) | (refine fold22_to (fun _ _ => ?_) ?_) | (refine (State.startXferBy_fixed _ _ _ (fun _ _ => ?_)).trans ?_) | (refine (State.newXferBy_fixed _ _ _ _ _ (fun _ _ => ?_)).trans ?_) | (refine (State.request_fixed _ _ _ _ (fun _ => ?_)).trans ?_) | (refine (State.hostWrite_fixed _ _ _ _ (fun _ => ?_)).trans ?_) | (refine (State.hostLoad_fixed _ _ _ _ (fun _ => ?_)).trans ?_) | (refine (State.atOnce_fixed _ _ (fun _ => ?_)).trans ?_) | (refine (State.settleBar_fixed _ _ _ _ (fun _ _ _ => ?_)).trans ?_) | (refine (State.runCmd_fixed _ _ _ (fun _ _ _ => ?_)).trans ?_) | (refine (State.carryConf_fixed _ _ _ _ _ (fun _ => ?_)).trans ?_) | (refine (State.onI2c_fixed _ _ _ (fun _ => ?_)).trans ?_) | (refine (State.inRecovery_fixed _ _ _ (fun _ => ?_)).trans ?_) | (refine (State.mailboxWrite_fixed _ _ _ (fun _ => ?_)).trans ?_) | (refine (State.vfMailbox_fixed _ _ (fun _ => ?_)).trans ?_) | (refine (State.orReserved_fixed _ _ _ _ (fun _ => ?_)).trans ?_) | (refine (State.sqSetup_fixed _ _ _ _ (fun _ => ?_)).trans ?_) | (refine (State.onSq_fixed _ _ _ _ (fun _ _ => ?_)).trans ?_) | (refine (State.onCq_fixed _ _ _ _ (fun _ _ => ?_)).trans ?_) | (refine (State.endRead_fixed _ _ _ (fun _ => ?_)).trans ?_) | simp +zetaDelta only [State.fixed_mk, State.fixed_eta, apply_ite State.fixed] | simp +zetaDelta [*])
@[simp] theorem State.xltPut32_fixed (x0 : State) (x1 : BitVec 3) (x2 : Bool) (x3 : Nat) (x4 : Word32) : (State.xltPut32 x0 x1 x2 x3 x4).fixed = x0.fixed := by
  unfold State.xltPut32
  repeat' (first | (simp +zetaDelta [*]; done) | split)
@[simp] theorem State.memPut32_fixed (x0 : State) (x1 : Nat) (x2 : Word32) : (State.memPut32 x0 x1 x2).fixed = x0.fixed := by
  unfold State.memPut32
  repeat' (first | (simp; done) | split | dsimp only | (refine State.orReserved_fixed _ _ _ _ (fun _ => ?_)) | (refine State.vfMailbox_fixed _ _ (fun _ => ?_)))
@[simp] theorem State.fabPut64_fixed (x0 : State) (x1 : BitVec 3) (x2 : Bool) (x3 : Nat) (x4 : Word64) : (State.fabPut64 x0 x1 x2 x3 x4).fixed = x0.fixed := by
  unfold State.fabPut64
  split <;> simp
@[simp] theorem State.fabPut32_fixed (x0 : State) (x1 : BitVec 3) (x2 : Bool) (x3 : Nat) (x4 : Word32) : (State.fabPut32 x0 x1 x2 x3 x4).fixed = x0.fixed := by
  unfold State.fabPut32
  repeat' (first | (simp; done) | split | dsimp only | (refine State.orReserved_fixed _ _ _ _ (fun _ => ?_)) | (refine State.vfMailbox_fixed _ _ (fun _ => ?_)))
@[simp] theorem State.unarmed_fixed (x0 : State) (x1 : Safe → Safe) : (State.unarmed x0 x1).fixed = x0.fixed := by
  unfold State.unarmed
  split <;> simp
@[simp] theorem State.safeCtl_fixed (x0 : State) (x1 : Word32) : (State.safeCtl x0 x1).fixed = x0.fixed := by
  unfold State.safeCtl
  all_goals repeat' (first | (simp +zetaDelta [*]; done) | (split <;> try (rename_i h_; have k_ := pair_arg h_; simp at k_)) | (refine fold_to (fun _ _ => ?_) ?_) | (refine fold2_to (fun _ _ => ?_) ?_) | (refine fold1_to (fun _ _ => ?_) ?_) | (refine fold22_to (fun _ _ => ?_) ?_) | simp +zetaDelta only [State.fixed_mk, State.fixed_eta, apply_ite State.fixed] | simp +zetaDelta [*])
@[simp] theorem State.safePut64_fixed (x0 : State) (x1 : Nat) (x2 : Word64) : (State.safePut64 x0 x1 x2).fixed = x0.fixed := by
  unfold State.safePut64
  split <;> simp
@[simp] theorem State.safePut32_fixed (x0 : State) (x1 : Nat) (x2 : Word32) : (State.safePut32 x0 x1 x2).fixed = x0.fixed := by
  unfold State.safePut32
  repeat' (first | (simp; done) | split | dsimp only | (refine State.orReserved_fixed _ _ _ _ (fun _ => ?_)) | (refine State.vfMailbox_fixed _ _ (fun _ => ?_)))
@[simp] theorem State.secPut64_fixed (x0 : State) (x1 : Nat) (x2 : Word64) : (State.secPut64 x0 x1 x2).fixed = x0.fixed := by
  unfold State.secPut64
  split <;> simp
@[simp] theorem State.hibernateOp_fixed (x0 : State) (x1 : Nat) : (State.hibernateOp x0 x1).fixed = x0.fixed := by
  unfold State.hibernateOp
  repeat' (first | (simp +zetaDelta [*]; done) | split)
@[simp] theorem State.pwrPut32_fixed (x0 : State) (x1 : Nat) (x2 : Word32) : (State.pwrPut32 x0 x1 x2).fixed = x0.fixed := by
  unfold State.pwrPut32
  repeat' (first | (simp; done) | split | dsimp only | (refine State.orReserved_fixed _ _ _ _ (fun _ => ?_)) | (refine State.vfMailbox_fixed _ _ (fun _ => ?_)))
@[simp] theorem State.clkPut32_fixed (x0 : State) (x1 : Nat) (x2 : Word32) : (State.clkPut32 x0 x1 x2).fixed = x0.fixed := by
  unfold State.clkPut32
  repeat' (first | (simp; done) | split | dsimp only | (refine State.orReserved_fixed _ _ _ _ (fun _ => ?_)) | (refine State.vfMailbox_fixed _ _ (fun _ => ?_)))
@[simp] theorem State.clkPut64_fixed (x0 : State) (x1 : Nat) (x2 : Word64) : (State.clkPut64 x0 x1 x2).fixed = x0.fixed := by
  unfold State.clkPut64
  split <;> simp
@[simp] theorem State.dbgPut64_fixed (x0 : State) (x1 : Nat) (x2 : Word64) : (State.dbgPut64 x0 x1 x2).fixed = x0.fixed := by
  unfold State.dbgPut64
  split <;> simp
@[simp] theorem State.dbgPut32_fixed (x0 : State) (x1 : Nat) (x2 : Word32) : (State.dbgPut32 x0 x1 x2).fixed = x0.fixed := by
  unfold State.dbgPut32
  split <;> simp
@[simp] theorem State.put64_fixed (x0 : State) (x1 : BitVec 3) (x2 : Bool) (x3 : Bool) (x4 : ℕ) (x5 : ℕ) (x6 : Word64) : (State.put64 x0 x1 x2 x3 x4 x5 x6).fixed = x0.fixed := by
  unfold State.put64
  all_goals repeat' (first | (simp +zetaDelta [*]; done) | (split <;> try (rename_i h_; have k_ := pair_arg h_; simp at k_)) | (refine fold_to (fun _ _ => ?_) ?_) | (refine fold2_to (fun _ _ => ?_) ?_) | (refine fold1_to (fun _ _ => ?_) ?_) | (refine fold22_to (fun _ _ => ?_) ?_) | (refine (State.startXferBy_fixed _ _ _ (fun _ _ => ?_)).trans ?_) | (refine (State.newXferBy_fixed _ _ _ _ _ (fun _ _ => ?_)).trans ?_) | (refine (State.request_fixed _ _ _ _ (fun _ => ?_)).trans ?_) | (refine (State.hostWrite_fixed _ _ _ _ (fun _ => ?_)).trans ?_) | (refine (State.hostLoad_fixed _ _ _ _ (fun _ => ?_)).trans ?_) | (refine (State.atOnce_fixed _ _ (fun _ => ?_)).trans ?_) | (refine (State.settleBar_fixed _ _ _ _ (fun _ _ _ => ?_)).trans ?_) | (refine (State.runCmd_fixed _ _ _ (fun _ _ _ => ?_)).trans ?_) | (refine (State.carryConf_fixed _ _ _ _ _ (fun _ => ?_)).trans ?_) | (refine (State.onI2c_fixed _ _ _ (fun _ => ?_)).trans ?_) | (refine (State.inRecovery_fixed _ _ _ (fun _ => ?_)).trans ?_) | (refine (State.mailboxWrite_fixed _ _ _ (fun _ => ?_)).trans ?_) | (refine (State.vfMailbox_fixed _ _ (fun _ => ?_)).trans ?_) | (refine (State.orReserved_fixed _ _ _ _ (fun _ => ?_)).trans ?_) | (refine (State.sqSetup_fixed _ _ _ _ (fun _ => ?_)).trans ?_) | (refine (State.onSq_fixed _ _ _ _ (fun _ _ => ?_)).trans ?_) | (refine (State.onCq_fixed _ _ _ _ (fun _ _ => ?_)).trans ?_) | (refine (State.endRead_fixed _ _ _ (fun _ => ?_)).trans ?_) | simp +zetaDelta only [State.fixed_mk, State.fixed_eta, apply_ite State.fixed] | simp +zetaDelta [*])
theorem State.secPut32_keeps (s : State) (o : Nat) (v : Word32) : s.Keeps (s.secPut32 o v) := by
  unfold State.secPut32
  split
  · exact s.coSubmit_keeps
  · exact State.keeps_of rfl
theorem State.put32_keeps (s : State) (agent : BitVec 3) (behalf : Bool) (b o : Nat) (v : Word32) : s.Keeps (s.put32 agent behalf b o v) := by
  unfold State.put32
  repeat' (first | exact s.secPut32_keeps o v | (refine State.keeps_of ?_; simp; done) | split)
theorem State.mgmtWrite4_keeps (s : State) (agent : BitVec 3) (behalf : Bool) (off : Nat) (v : Word32) : s.Keeps (s.mgmtWrite4 agent behalf off v) := by
  unfold State.mgmtWrite4
  dsimp only
  repeat' (first | exact State.put32_keeps _ _ _ _ _ _ | (refine State.keeps_of ?_; simp; done) | split)
theorem State.mgmtWrite_keeps (s : State) (agent : BitVec 3) (behalf : Bool) (off : Nat) (wide : Bool) (v : Word64) : s.Keeps (s.mgmtWrite agent behalf off wide v) := by
  unfold State.mgmtWrite
  repeat' (first | exact State.mgmtWrite4_keeps _ _ _ _ _ | exact (State.mgmtWrite4_keeps _ _ _ _ _).trans (State.mgmtWrite4_keeps _ _ _ _ _) | (refine State.keeps_of ?_; simp; done) | split)

end Sys2Proof.Machine
end

