-- ==== Sys2Proof/Laws/KeptRemote.lean ====
section
/-! SUPPORT. What the operations of Machine/Remote.lean keep: the queue and the fuse bank. -/

namespace Sys2Proof.Machine

set_option linter.all false

@[simp] theorem State.dropMgrLocks_fixed (x0 : State) : (State.dropMgrLocks x0).fixed = x0.fixed := by simp [State.dropMgrLocks]
@[simp] theorem State.epochCtl_fixed (x0 : State) (x1 : Nat) : (State.epochCtl x0 x1).fixed = x0.fixed := by
  unfold State.epochCtl
  repeat' (first | (simp +zetaDelta [*]; done) | split)
@[simp] theorem State.rmtEnd_fixed (x0 : State) (x1 : BitVec 3) : (State.rmtEnd x0 x1).fixed = x0.fixed := by simp [State.rmtEnd]
@[simp] theorem State.noteMgrLock_fixed (x0 : State) (x1 : ChipId) (x2 : Nat) (x3 : Nat) : (State.noteMgrLock x0 x1 x2 x3).fixed = x0.fixed := by
  unfold State.noteMgrLock
  repeat' (first | (simp +zetaDelta [*]; done) | split)
@[simp] theorem State.rmtDone_fixed (x0 : State) (x1 : Word64) (x2 : Bool) : (State.rmtDone x0 x1 x2).fixed = x0.fixed := by
  unfold State.rmtDone
  all_goals repeat' (first | (simp +zetaDelta [*]; done) | (split <;> try (rename_i h_; have k_ := pair_arg h_; simp at k_)) | (refine fold_to (fun _ _ => ?_) ?_) | (refine fold2_to (fun _ _ => ?_) ?_) | (refine fold1_to (fun _ _ => ?_) ?_) | (refine fold22_to (fun _ _ => ?_) ?_) | simp +zetaDelta only [State.fixed_mk, State.fixed_eta, apply_ite State.fixed] | simp +zetaDelta [*])
@[simp] theorem State.takeMgmtAnswer_fixed (x0 : State) (x1 : ChipId) (x2 : BitVec 24) (x3 : Word64) (x4 : Bool) : (State.takeMgmtAnswer x0 x1 x2 x3 x4).fixed = x0.fixed := by
  unfold State.takeMgmtAnswer
  repeat' (first | (simp +zetaDelta [*]; done) | split | dsimp only)
theorem execEpochCtlCommit_fixed (x0 : State) : ∀ t, (execEpochCtlCommit x0) = .next t → t.fixed = x0.fixed := by
  rintro t ⟨⟩
  split <;> simp
theorem execEpochCtlAbandon_fixed (x0 : State) : ∀ t, (execEpochCtlAbandon x0) = .next t → t.fixed = x0.fixed := by
  rintro t ⟨⟩
  split <;> simp
theorem State.mgmtPut_keeps (s : State) (agent : BitVec 3) (behalf : Bool) (off : Nat) (wide : Bool) (v : Word64) : s.Keeps (s.mgmtPut agent behalf off wide v) := by
  unfold State.mgmtPut
  have h := s.mgmtWrite_keeps agent behalf off wide v
  dsimp only
  split
  · exact h.then_ (by simp)
  · split
    · exact h.then_ (by simp)
    · exact h
theorem State.tried_keeps (s : State) (agent : BitVec 3) (behalf : Bool) (off : Nat) (wide : Bool) (v : Word64) : s.Keeps (s.tried agent behalf off wide v).2 :=
  s.mgmtPut_keeps agent behalf off wide v
theorem State.rmtGo_keeps (s : State) : s.Keeps s.rmtGo := by
  unfold State.rmtGo
  dsimp only
  split
  · split <;> exact State.keeps_of (by simp [State.rmtEnd])
  · split
    · split
      · exact ((State.keeps_of (t := { s with mgr := { s.mgr with rmtBusy := true } }) rfl).trans
          (State.tried_keeps _ _ _ _ _ _)).then_ ((State.rmtEnd_fixed _ _).trans rfl)
      · exact State.keeps_of (by simp)
    · split
      · exact State.keeps_of (by simp)
      · split <;> exact State.keeps_of (by simp)
theorem State.managerWrite_keeps (s : State) (off : Nat) (wide : Bool) (v : Word64) : s.Keeps (s.managerWrite off wide v) := by
  unfold State.managerWrite
  dsimp only
  split
  · exact (State.mgmtPut_keeps _ _ _ _ _ _).trans (State.rmtGo_keeps _)
  · exact State.mgmtPut_keeps _ _ _ _ _ _
theorem State.rmtCtl_keeps (s : State) (write wide : Bool) : s.Keeps (s.rmtCtl write wide) := by
  unfold State.rmtCtl
  split
  · exact State.managerWrite_keeps _ _ _ _
  · exact State.keeps_of rfl
theorem execRmtRead_keeps (w : Bool) (s t : State) (h : execRmtRead w s = .next t) : s.Keeps t := by
  cases h; exact State.rmtCtl_keeps _ _ _
theorem execRmtWrite_keeps (w : Bool) (s t : State) (h : execRmtWrite w s = .next t) : s.Keeps t := by
  cases h; exact State.rmtCtl_keeps _ _ _

end Sys2Proof.Machine
end

