-- ==== Sys2Proof/Laws/KeptInstWin.lean ====
section
/-! SUPPORT. What the operations of Machine/InstWin.lean keep: the queue and the fuse bank. -/

namespace Sys2Proof.Machine

set_option linter.all false

@[simp] theorem State.vecselPut_fixed (x0 : State) (x1 : Nat) (x2 : Bool) (x3 : Word64) : (State.vecselPut x0 x1 x2 x3).fixed = x0.fixed := by
  unfold State.vecselPut
  cases x2 <;> rfl
@[simp] theorem State.errStatusClear_fixed (x0 : State) (x1 : Nat) (x2 : Word32) : (State.errStatusClear x0 x1 x2).fixed = x0.fixed := by simp [State.errStatusClear]
@[simp] theorem State.causeClear_fixed (x0 : State) (x1 : Nat) (x2 : Nat) (x3 : Word64) (x4 : Word64) : (State.causeClear x0 x1 x2 x3 x4).fixed = x0.fixed := by
  unfold State.causeClear
  split <;> simp
@[simp] theorem State.signalPost_fixed (x0 : State) (x1 : Nat) (x2 : Word64) : (State.signalPost x0 x1 x2).fixed = x0.fixed := by simp [State.signalPost]
@[simp] theorem State.instSignal_fixed (x0 : State) (x1 : Nat) (x2 : Word64) : (State.instSignal x0 x1 x2).fixed = x0.fixed := by
  unfold State.instSignal
  split <;> simp
theorem execInstSignal_fixed (x0 : Nat) (x1 : Word64) (x2 : State) : ∀ t, (execInstSignal x0 x1 x2) = .next t → t.fixed = x2.fixed := by
  rintro t ⟨⟩
  repeat' (first | (simp; done) | split | dsimp only | (refine State.hostWrite_fixed _ _ _ _ (fun _ => ?_)) | (refine State.hostLoad_fixed _ _ _ _ (fun _ => ?_)) | (refine State.sqSetup_fixed _ _ _ _ (fun _ => ?_)) | (refine State.onSq_fixed _ _ _ _ (fun _ _ => ?_)) | (refine State.onCq_fixed _ _ _ _ (fun _ _ => ?_)) | (refine fold_to (fun _ _ => ?_) ?_))
theorem execInstFence_fixed (x0 : Nat) (x1 : State) : ∀ t, (execInstFence x0 x1) = .next t → t.fixed = x1.fixed := by
  rintro t ⟨⟩
  repeat' (first | (simp; done) | split | dsimp only | (refine State.hostWrite_fixed _ _ _ _ (fun _ => ?_)) | (refine State.hostLoad_fixed _ _ _ _ (fun _ => ?_)) | (refine State.sqSetup_fixed _ _ _ _ (fun _ => ?_)) | (refine State.onSq_fixed _ _ _ _ (fun _ _ => ?_)) | (refine State.onCq_fixed _ _ _ _ (fun _ _ => ?_)) | (refine fold_to (fun _ _ => ?_) ?_))
theorem execInstFenceDone_fixed (x0 : Nat) (x1 : State) : ∀ t, (execInstFenceDone x0 x1) = .next t → t.fixed = x1.fixed := by
  rintro t ⟨⟩
  split <;> simp
@[simp] theorem State.objSel_fixed (x0 : State) (x1 : Nat) (x2 : Word32) : (State.objSel x0 x1 x2).fixed = x0.fixed := by simp [State.objSel]
theorem execObjSelWrite_fixed (x0 : Nat) (x1 : Word32) (x2 : State) : ∀ t, (execObjSelWrite x0 x1 x2) = .next t → t.fixed = x2.fixed := by
  rintro t ⟨⟩
  repeat' (first | (simp; done) | split | dsimp only | (refine State.hostWrite_fixed _ _ _ _ (fun _ => ?_)) | (refine State.hostLoad_fixed _ _ _ _ (fun _ => ?_)) | (refine State.sqSetup_fixed _ _ _ _ (fun _ => ?_)) | (refine State.onSq_fixed _ _ _ _ (fun _ _ => ?_)) | (refine State.onCq_fixed _ _ _ _ (fun _ _ => ?_)) | (refine fold_to (fun _ _ => ?_) ?_))
@[simp] theorem State.sampleObj_fixed (x0 : State) (x1 : Nat) : (State.sampleObj x0 x1).fixed = x0.fixed := by
  unfold State.sampleObj
  all_goals repeat' (first | (simp +zetaDelta [*]; done) | (split <;> try (rename_i h_; have k_ := pair_arg h_; simp at k_)) | (refine fold_to (fun _ _ => ?_) ?_) | (refine fold2_to (fun _ _ => ?_) ?_) | (refine fold1_to (fun _ _ => ?_) ?_) | (refine fold22_to (fun _ _ => ?_) ?_) | simp +zetaDelta only [State.fixed_mk, State.fixed_eta, apply_ite State.fixed] | simp +zetaDelta [*])
@[simp] theorem State.sqCfgPut_fixed (x0 : State) (x1 : Nat) (x2 : Nat) (x3 : Word32) : (State.sqCfgPut x0 x1 x2 x3).fixed = x0.fixed := by simp [State.sqCfgPut]
@[simp] theorem State.sqRunPut_fixed (x0 : State) (x1 : Nat) (x2 : Word64) : (State.sqRunPut x0 x1 x2).fixed = x0.fixed := by
  unfold State.sqRunPut
  split <;> simp
@[simp] theorem State.sqSetup_fixed (s : State) (fn n : Nat) (f : State → State) (h : ∀ t, (f t).fixed = t.fixed) : (s.sqSetup fn n f).fixed = s.fixed := by
  unfold State.sqSetup
  split <;> simp [h]
@[simp] theorem State.sqPut64_fixed (x0 : State) (x1 : Nat) (x2 : Nat) (x3 : Nat) (x4 : Word64) : (State.sqPut64 x0 x1 x2 x3 x4).fixed = x0.fixed := by
  unfold State.sqPut64
  repeat' (first | (simp; done) | split | dsimp only | (refine State.hostWrite_fixed _ _ _ _ (fun _ => ?_)) | (refine State.hostLoad_fixed _ _ _ _ (fun _ => ?_)) | (refine State.sqSetup_fixed _ _ _ _ (fun _ => ?_)) | (refine State.onSq_fixed _ _ _ _ (fun _ _ => ?_)) | (refine State.onCq_fixed _ _ _ _ (fun _ _ => ?_)) | (refine fold_to (fun _ _ => ?_) ?_))
@[simp] theorem State.sqPair_fixed (x0 : State) (x1 : ℕ) (x2 : ℕ) (x3 : Word64) : (State.sqPair x0 x1 x2 x3).fixed = x0.fixed := by
  unfold State.sqPair
  repeat' (first | (simp +zetaDelta [*]; done) | split | dsimp only)
@[simp] theorem State.sqPut32_fixed (x0 : State) (x1 : Nat) (x2 : Nat) (x3 : Nat) (x4 : Word32) : (State.sqPut32 x0 x1 x2 x3 x4).fixed = x0.fixed := by
  unfold State.sqPut32
  repeat' (first | (simp; done) | split | dsimp only | (refine State.hostWrite_fixed _ _ _ _ (fun _ => ?_)) | (refine State.hostLoad_fixed _ _ _ _ (fun _ => ?_)) | (refine State.sqSetup_fixed _ _ _ _ (fun _ => ?_)) | (refine State.onSq_fixed _ _ _ _ (fun _ _ => ?_)) | (refine State.onCq_fixed _ _ _ _ (fun _ _ => ?_)) | (refine fold_to (fun _ _ => ?_) ?_))
@[simp] theorem State.cqPut64_fixed (x0 : State) (x1 : Nat) (x2 : Nat) (x3 : Nat) (x4 : Word64) : (State.cqPut64 x0 x1 x2 x3 x4).fixed = x0.fixed := by
  unfold State.cqPut64
  repeat' (first | (simp +zetaDelta [*]; done) | split)
@[simp] theorem State.cqRun_fixed (x0 : State) (x1 : Nat) (x2 : Cq → Cq) : (State.cqRun x0 x1 x2).fixed = x0.fixed := by
  unfold State.cqRun
  split <;> simp
@[simp] theorem State.cqPut32_fixed (x0 : State) (x1 : Nat) (x2 : Nat) (x3 : Nat) (x4 : Word32) : (State.cqPut32 x0 x1 x2 x3 x4).fixed = x0.fixed := by
  unfold State.cqPut32
  split <;> simp
@[simp] theorem State.onSq_fixed (s : State) (fn r : Nat) (f : State → Nat → State) (h : ∀ t n, (f t n).fixed = t.fixed) : (s.onSq fn r f).fixed = s.fixed := by
  unfold State.onSq
  repeat' (first | (simp [h]; done) | split)
@[simp] theorem State.onCq_fixed (s : State) (fn r : Nat) (f : State → Nat → State) (h : ∀ t n, (f t n).fixed = t.fixed) : (s.onCq fn r f).fixed = s.fixed := by
  unfold State.onCq
  repeat' (first | (simp [h]; done) | split)
@[simp] theorem State.unmask_fixed (x0 : State) (x1 : Nat) (x2 : Nat) : (State.unmask x0 x1 x2).fixed = x0.fixed := by
  unfold State.unmask
  split <;> simp
@[simp] theorem State.vecPut_fixed (x0 : State) (x1 : Nat) (x2 : Nat) (x3 : Nat) (x4 : Word32) : (State.vecPut x0 x1 x2 x3 x4).fixed = x0.fixed := by
  unfold State.vecPut
  repeat' (first | (simp +zetaDelta [*]; done) | split)
theorem execMsixUnmask_fixed (x0 : Nat) (x1 : Option Nat) (x2 : State) : ∀ t, (execMsixUnmask x0 x1 x2) = .next t → t.fixed = x2.fixed := by
  rintro t ⟨⟩
  repeat' (first | (simp; done) | split | dsimp only | (refine State.hostWrite_fixed _ _ _ _ (fun _ => ?_)) | (refine State.hostLoad_fixed _ _ _ _ (fun _ => ?_)) | (refine State.sqSetup_fixed _ _ _ _ (fun _ => ?_)) | (refine State.onSq_fixed _ _ _ _ (fun _ _ => ?_)) | (refine State.onCq_fixed _ _ _ _ (fun _ _ => ?_)) | (refine fold_to (fun _ _ => ?_) ?_))
@[simp] theorem State.drSetup_fixed (x0 : State) (x1 : ℕ) (x2 : ℕ) (x3 : Dr → Dr) : (State.drSetup x0 x1 x2 x3).fixed = x0.fixed := by
  unfold State.drSetup
  repeat' (first | (simp +zetaDelta [*]; done) | split | dsimp only)
@[simp] theorem State.drPut4_fixed (x0 : State) (x1 : Nat) (x2 : Nat) (x3 : Nat) (x4 : Word32) : (State.drPut4 x0 x1 x2 x3 x4).fixed = x0.fixed := by
  unfold State.drPut4
  repeat' (first | (simp +zetaDelta [*]; done) | split)
@[simp] theorem State.drPut_fixed (x0 : State) (x1 : ℕ) (x2 : ℕ) (x3 : ℕ) (x4 : Bool) (x5 : Word64) : (State.drPut x0 x1 x2 x3 x4 x5).fixed = x0.fixed := by
  unfold State.drPut
  repeat' (first | (simp +zetaDelta [*]; done) | split | dsimp only)
@[simp] theorem State.drRefused_fixed (x0 : State) (x1 : Nat) (x2 : Bool) (x3 : Bool) : (State.drRefused x0 x1 x2 x3).fixed = x0.fixed := by
  unfold State.drRefused
  split <;> simp
@[simp] theorem State.drAccess_fixed (x0 : State) (x1 : Nat) (x2 : Nat) (x3 : Bool) (x4 : Option Word64) : (State.drAccess x0 x1 x2 x3 x4).fixed = x0.fixed := by
  unfold State.drAccess
  repeat' (first | (simp; done) | split | dsimp only | (refine State.hostWrite_fixed _ _ _ _ (fun _ => ?_)) | (refine State.hostLoad_fixed _ _ _ _ (fun _ => ?_)) | (refine State.sqSetup_fixed _ _ _ _ (fun _ => ?_)) | (refine State.onSq_fixed _ _ _ _ (fun _ _ => ?_)) | (refine State.onCq_fixed _ _ _ _ (fun _ _ => ?_)) | (refine fold_to (fun _ _ => ?_) ?_))
@[simp] theorem State.serveRead_fixed (x0 : State) (x1 : ℕ) (x2 : ℕ) (x3 : Bool) : (State.serveRead x0 x1 x2 x3).fixed = x0.fixed := by
  unfold State.serveRead
  repeat' (first | (simp +zetaDelta [*]; done) | split | dsimp only)
@[simp] theorem State.badRead_fixed (x0 : State) (x1 : ℕ) (x2 : ℕ) : (State.badRead x0 x1 x2).fixed = x0.fixed := by simp [State.badRead]
@[simp] theorem State.instLoad_fixed (x0 : State) (x1 : ℕ) (x2 : ℕ) (x3 : ℕ) : (State.instLoad x0 x1 x2 x3).fixed = x0.fixed := by
  unfold State.instLoad
  all_goals repeat' (first | (simp +zetaDelta [*]; done) | (split <;> try (rename_i h_; have k_ := pair_arg h_; simp at k_)) | (refine fold_to (fun _ _ => ?_) ?_) | (refine fold2_to (fun _ _ => ?_) ?_) | (refine fold1_to (fun _ _ => ?_) ?_) | (refine fold22_to (fun _ _ => ?_) ?_) | (refine (State.startXferBy_fixed _ _ _ (fun _ _ => ?_)).trans ?_) | (refine (State.newXferBy_fixed _ _ _ _ _ (fun _ _ => ?_)).trans ?_) | (refine (State.request_fixed _ _ _ _ (fun _ => ?_)).trans ?_) | (refine (State.hostWrite_fixed _ _ _ _ (fun _ => ?_)).trans ?_) | (refine (State.hostLoad_fixed _ _ _ _ (fun _ => ?_)).trans ?_) | (refine (State.atOnce_fixed _ _ (fun _ => ?_)).trans ?_) | (refine (State.settleBar_fixed _ _ _ _ (fun _ _ _ => ?_)).trans ?_) | (refine (State.runCmd_fixed _ _ _ (fun _ _ _ => ?_)).trans ?_) | (refine (State.carryConf_fixed _ _ _ _ _ (fun _ => ?_)).trans ?_) | (refine (State.onI2c_fixed _ _ _ (fun _ => ?_)).trans ?_) | (refine (State.inRecovery_fixed _ _ _ (fun _ => ?_)).trans ?_) | (refine (State.mailboxWrite_fixed _ _ _ (fun _ => ?_)).trans ?_) | (refine (State.vfMailbox_fixed _ _ (fun _ => ?_)).trans ?_) | (refine (State.orReserved_fixed _ _ _ _ (fun _ => ?_)).trans ?_) | (refine (State.sqSetup_fixed _ _ _ _ (fun _ => ?_)).trans ?_) | (refine (State.onSq_fixed _ _ _ _ (fun _ _ => ?_)).trans ?_) | (refine (State.onCq_fixed _ _ _ _ (fun _ _ => ?_)).trans ?_) | (refine (State.endRead_fixed _ _ _ (fun _ => ?_)).trans ?_) | simp +zetaDelta only [State.fixed_mk, State.fixed_eta, apply_ite State.fixed] | simp +zetaDelta [*])
@[simp] theorem State.serveHeld_fixed (x0 : State) : (State.serveHeld x0).fixed = x0.fixed := by
  unfold State.serveHeld
  repeat' (first | (simp +zetaDelta [*]; done) | split | dsimp only)
theorem execObjRecordRead_fixed (x0 : Nat) (x1 : State) : ∀ t, (execObjRecordRead x0 x1) = .next t → t.fixed = x1.fixed := by
  rintro t ⟨⟩
  repeat' (first | (simp; done) | split | dsimp only | (refine State.hostWrite_fixed _ _ _ _ (fun _ => ?_)) | (refine State.hostLoad_fixed _ _ _ _ (fun _ => ?_)) | (refine State.sqSetup_fixed _ _ _ _ (fun _ => ?_)) | (refine State.onSq_fixed _ _ _ _ (fun _ _ => ?_)) | (refine State.onCq_fixed _ _ _ _ (fun _ _ => ?_)) | (refine fold_to (fun _ _ => ?_) ?_))
theorem execDrRegisterAccess_fixed (x0 : Nat) (x1 : Nat) (x2 : Bool) (x3 : Option Word64) (x4 : State) : ∀ t, (execDrRegisterAccess x0 x1 x2 x3 x4) = .next t → t.fixed = x4.fixed := by
  rintro t ⟨⟩
  repeat' (first | (simp; done) | split | dsimp only | (refine State.hostWrite_fixed _ _ _ _ (fun _ => ?_)) | (refine State.hostLoad_fixed _ _ _ _ (fun _ => ?_)) | (refine State.sqSetup_fixed _ _ _ _ (fun _ => ?_)) | (refine State.onSq_fixed _ _ _ _ (fun _ _ => ?_)) | (refine State.onCq_fixed _ _ _ _ (fun _ _ => ?_)) | (refine fold_to (fun _ _ => ?_) ?_))
@[simp] theorem State.drReplied_fixed (x0 : State) (x1 : ℕ) (x2 : Option Word64) : (State.drReplied x0 x1 x2).fixed = x0.fixed := by
  unfold State.drReplied
  repeat' (first | (simp +zetaDelta [*]; done) | split | dsimp only)
@[simp] theorem State.outSlotPut_fixed (x0 : State) (x1 : Nat) (x2 : Nat) (x3 : Word64) : (State.outSlotPut x0 x1 x2 x3).fixed = x0.fixed := by
  unfold State.outSlotPut
  split <;> simp
@[simp] theorem State.dataCtl_fixed (x0 : State) (x1 : Nat) (x2 : Word64) : (State.dataCtl x0 x1 x2).fixed = x0.fixed := by
  unfold State.dataCtl
  split <;> simp
theorem execDataCtlWrite_fixed (x0 : Nat) (x1 : Word64) (x2 : State) : ∀ t, (execDataCtlWrite x0 x1 x2) = .next t → t.fixed = x2.fixed := by
  rintro t ⟨⟩
  repeat' (first | (simp; done) | split | dsimp only | (refine State.hostWrite_fixed _ _ _ _ (fun _ => ?_)) | (refine State.hostLoad_fixed _ _ _ _ (fun _ => ?_)) | (refine State.sqSetup_fixed _ _ _ _ (fun _ => ?_)) | (refine State.onSq_fixed _ _ _ _ (fun _ _ => ?_)) | (refine State.onCq_fixed _ _ _ _ (fun _ _ => ?_)) | (refine fold_to (fun _ _ => ?_) ?_))
@[simp] theorem State.instPut64_fixed (x0 : State) (x1 : Nat) (x2 : Nat) (x3 : Bool) (x4 : Word64) : (State.instPut64 x0 x1 x2 x3 x4).fixed = x0.fixed := by
  unfold State.instPut64
  repeat' (first | (simp; done) | split | dsimp only | (refine State.hostWrite_fixed _ _ _ _ (fun _ => ?_)) | (refine State.hostLoad_fixed _ _ _ _ (fun _ => ?_)) | (refine State.sqSetup_fixed _ _ _ _ (fun _ => ?_)) | (refine State.onSq_fixed _ _ _ _ (fun _ _ => ?_)) | (refine State.onCq_fixed _ _ _ _ (fun _ _ => ?_)) | (refine fold_to (fun _ _ => ?_) ?_))
@[simp] theorem State.instPut32_fixed (x0 : State) (x1 : Nat) (x2 : Nat) (x3 : Word32) : (State.instPut32 x0 x1 x2 x3).fixed = x0.fixed := by
  unfold State.instPut32
  repeat' (first | (simp; done) | split | dsimp only | (refine State.hostWrite_fixed _ _ _ _ (fun _ => ?_)) | (refine State.hostLoad_fixed _ _ _ _ (fun _ => ?_)) | (refine State.sqSetup_fixed _ _ _ _ (fun _ => ?_)) | (refine State.onSq_fixed _ _ _ _ (fun _ _ => ?_)) | (refine State.onCq_fixed _ _ _ _ (fun _ _ => ?_)) | (refine fold_to (fun _ _ => ?_) ?_))
@[simp] theorem State.instPut4_fixed (x0 : State) (x1 : Nat) (x2 : Nat) (x3 : Word32) : (State.instPut4 x0 x1 x2 x3).fixed = x0.fixed := by
  unfold State.instPut4
  repeat' (first | (simp +zetaDelta [*]; done) | split)
@[simp] theorem State.instPair_fixed (x0 : State) (x1 : ℕ) (x2 : ℕ) (x3 : Word64) : (State.instPair x0 x1 x2 x3).fixed = x0.fixed := by
  unfold State.instPair
  repeat' (first | (simp +zetaDelta [*]; done) | split | dsimp only)
@[simp] theorem State.instPut_fixed (x0 : State) (x1 : Nat) (x2 : Nat) (x3 : Bool) (x4 : Word64) : (State.instPut x0 x1 x2 x3 x4).fixed = x0.fixed := by
  unfold State.instPut
  repeat' (first | (simp +zetaDelta [*]; done) | split)
theorem execInstCauseClear_fixed (x0 : Nat) (x1 : Nat) (x2 : Word64) (x3 : Word64) (x4 : State) : ∀ t, (execInstCauseClear x0 x1 x2 x3 x4) = .next t → t.fixed = x4.fixed := by
  rintro t ⟨⟩
  repeat' (first | (simp; done) | split | dsimp only | (refine State.hostWrite_fixed _ _ _ _ (fun _ => ?_)) | (refine State.hostLoad_fixed _ _ _ _ (fun _ => ?_)) | (refine State.sqSetup_fixed _ _ _ _ (fun _ => ?_)) | (refine State.onSq_fixed _ _ _ _ (fun _ _ => ?_)) | (refine State.onCq_fixed _ _ _ _ (fun _ _ => ?_)) | (refine fold_to (fun _ _ => ?_) ?_))
theorem execErrorStatusClear_fixed (x0 : Nat) (x1 : Word32) (x2 : State) : ∀ t, (execErrorStatusClear x0 x1 x2) = .next t → t.fixed = x2.fixed := by
  rintro t ⟨⟩
  repeat' (first | (simp; done) | split | dsimp only | (refine State.hostWrite_fixed _ _ _ _ (fun _ => ?_)) | (refine State.hostLoad_fixed _ _ _ _ (fun _ => ?_)) | (refine State.sqSetup_fixed _ _ _ _ (fun _ => ?_)) | (refine State.onSq_fixed _ _ _ _ (fun _ _ => ?_)) | (refine State.onCq_fixed _ _ _ _ (fun _ _ => ?_)) | (refine fold_to (fun _ _ => ?_) ?_))

end Sys2Proof.Machine
end

