-- ==== Sys2Proof/Laws/KeptMgmt.lean ====
section
/-! SUPPORT. What the operations of Machine/Mgmt.lean keep: the queue and the fuse bank. -/

namespace Sys2Proof.Machine

set_option linter.all false

@[simp] theorem State.mgmtLoad_fixed (x0 : State) (x1 : ℕ) (x2 : ℕ) : (State.mgmtLoad x0 x1 x2).fixed = x0.fixed := by
  unfold State.mgmtLoad
  repeat' (first | (simp +zetaDelta [*]; done) | split | dsimp only)
theorem execCoNonceRead_fixed (x0 : State) : ∀ t, (execCoNonceRead x0) = .next t → t.fixed = x0.fixed := by
  rintro t ⟨⟩
  simp
theorem execDbgChallengeRead_fixed (x0 : State) : ∀ t, (execDbgChallengeRead x0) = .next t → t.fixed = x0.fixed := by
  rintro t ⟨⟩
  simp
theorem execBlockErrClear_fixed (x0 : Nat) (x1 : Word32) (x2 : State) : ∀ t, (execBlockErrClear x0 x1 x2) = .next t → t.fixed = x2.fixed := by
  rintro t ⟨⟩
  split <;> simp
@[simp] theorem State.tablesDone_fixed (x0 : State) (x1 : Nat) : (State.tablesDone x0 x1).fixed = x0.fixed := by
  unfold State.tablesDone
  repeat' (first | (simp +zetaDelta [*]; done) | split)
@[simp] theorem State.ringAccess_fixed (x0 : State) (x1 : ChipId) (x2 : BitVec 6) (x3 : Word32) (x4 : Nat) (x5 : Bool) (x6 : Option Word64) : (State.ringAccess x0 x1 x2 x3 x4 x5 x6).fixed = x0.fixed := by
  unfold State.ringAccess
  all_goals repeat' (first | (simp +zetaDelta [*]; done) | (split <;> try (rename_i h_; have k_ := pair_arg h_; simp at k_)) | (refine fold_to (fun _ _ => ?_) ?_) | (refine fold2_to (fun _ _ => ?_) ?_) | (refine fold1_to (fun _ _ => ?_) ?_) | (refine fold22_to (fun _ _ => ?_) ?_) | simp +zetaDelta only [State.fixed_mk, State.fixed_eta, apply_ite State.fixed] | simp +zetaDelta [*])
@[simp] theorem State.heardGuilt_fixed (x0 : State) (x1 : ChipId) (x2 : Nat) (x3 : Nat) (x4 : Bool) : (State.heardGuilt x0 x1 x2 x3 x4).fixed = x0.fixed := by
  unfold State.heardGuilt
  split <;> simp
@[simp] theorem State.heardProgress_fixed (x0 : State) (x1 : ChipId) (x2 : BitVec 10) (x3 : BitVec 16) (x4 : Bool) (x5 : Bool) : (State.heardProgress x0 x1 x2 x3 x4 x5).fixed = x0.fixed := by
  unfold State.heardProgress
  repeat' (first | (simp +zetaDelta [*]; done) | split | dsimp only)
theorem State.mgmtHostWrite_keeps (s : State) (off width : Nat) (v : Word64) : s.Keeps (s.mgmtHostWrite off width v) := by
  unfold State.mgmtHostWrite
  repeat' (first | exact State.managerWrite_keeps _ _ _ _ | (refine State.keeps_of ?_; simp; done) | split)
theorem State.mgmtAccess_keeps (s : State) (src : ChipId) (agent : BitVec 3) (behalf : Bool) (off : Nat) (wide : Bool) (w : Option Word64) :
    s.Keeps (s.mgmtAccess src agent behalf off wide w) := by
  unfold State.mgmtAccess
  dsimp only
  split
  · exact State.keeps_of (by simp)
  · rename_i v
    have h := (s.tried_keeps agent behalf off wide v).then_ (State.tablesDone_fixed _ off)
    split
    · exact h.then_ (by simp)
    · split
      · exact h.then_ (by simp)
      · exact h
theorem State.mgmtTake_keeps (s : State) (src : ChipId) (m : CtlMsg) : s.Keeps (s.mgmtTake src m) := by
  cases m with
  | mgmt agent behalf off wide write =>
    change s.Keeps (ite (((agent = 3 || agent = 4) && off.toNat % (if wide then 8 else 4) = 0) = true) _ _)
    generalize ((decide (agent = 3) || decide (agent = 4)) && decide (off.toNat % (if wide then 8 else 4) = 0)) = b
    cases b
    · exact State.keeps_of rfl
    · exact State.mgmtAccess_keeps _ _ _ _ _ _ _
  | ring => exact State.keeps_of (State.ringAccess_fixed _ _ _ _ _ _ _)
  | refused => change s.Keeps (ite _ _ _); exact State.keeps_of (by split <;> simp)
  | guilt => change s.Keeps (ite _ _ _); exact State.keeps_of (by split <;> simp)
  | inval => exact State.keeps_of (State.invalHere_fixed _ _ _ _ _)
  | incRequest => exact State.keeps_of (State.ctl_fixed _ _ _)
  | incAnswer => change s.Keeps (ite _ _ _); exact State.keeps_of (by split <;> simp)
  | lockBroken => change s.Keeps (ite _ _ _); exact State.keeps_of (by split <;> [exact State.notify_fixed _ _; rfl])
  | mgmtAnswer => exact State.keeps_of (State.takeMgmtAnswer_fixed _ _ _ _ _)
  | ringAnswer => exact State.keeps_of (State.drReplied_fixed _ _ _)
  | invalDone => exact State.keeps_of (State.takeInvalDone_fixed _ _)
  | declare => exact State.keeps_of (State.heardDeclare_fixed _ _ _)
  | reserve => exact State.keeps_of (State.setReserve_fixed _ _ _ _)
  | progress => exact State.keeps_of (State.heardProgress_fixed _ _ _ _ _ _)
  | flr => exact State.keeps_of ((State.pfNext_fixed _).trans (State.takeFlr_fixed _ _ _))
  | _ => exact State.keeps_of rfl
theorem State.takeCtl_keeps (s : State) (src : ChipId) (m : CtlMsg) : s.Keeps (s.takeCtl src m) := by
  cases m with
  | prepare => exact State.keeps_of (State.takePrepare_fixed _ _ _ _ _)
  | prepareAck => exact State.keeps_of (State.takePrepareAck_fixed _ _ _ _)
  | commit => exact State.keeps_of (State.takeCommit_fixed _ _ _ _ _ _)
  | portLeft => exact State.keeps_of (State.takePortLeft_fixed _ _ _)
  | fence => exact State.keeps_of (State.takeFence_fixed _ _ _)
  | _ => exact State.mgmtTake_keeps s src _

end Sys2Proof.Machine
end

