-- ==== Sys2Proof/Laws/KeptDebug.lean ====
section
/-! SUPPORT. What the operations of Machine/Debug.lean keep: the queue and the fuse bank. -/

namespace Sys2Proof.Machine

set_option linter.all false

@[simp] theorem State.galleryObj_fixed (x0 : State) (x1 : ℕ) (x2 : ℕ) (x3 : ℕ) (x4 : ℕ) : (State.galleryObj x0 x1 x2 x3 x4).2.fixed = x0.fixed := by simp [State.galleryObj]
@[simp] theorem State.galleryRead_fixed (x0 : State) (x1 : ℕ) (x2 : ℕ) : (State.galleryRead x0 x1 x2).2.fixed = x0.fixed := by
  unfold State.galleryRead
  repeat' (first | (simp +zetaDelta [*]; done) | split | dsimp only)
@[simp] theorem State.debugGet_fixed (x0 : State) (x1 : ℕ) (x2 : ℕ) : (State.debugGet x0 x1 x2).2.fixed = x0.fixed := by
  unfold State.debugGet
  all_goals repeat' (first | (simp +zetaDelta [*]; done) | (split <;> try (rename_i h_; have k_ := pair_arg h_; simp at k_)) | (refine fold_to (fun _ _ => ?_) ?_) | (refine fold2_to (fun _ _ => ?_) ?_) | (refine fold1_to (fun _ _ => ?_) ?_) | (refine fold22_to (fun _ _ => ?_) ?_) | (refine (State.startXferBy_fixed _ _ _ (fun _ _ => ?_)).trans ?_) | (refine (State.newXferBy_fixed _ _ _ _ _ (fun _ _ => ?_)).trans ?_) | (refine (State.request_fixed _ _ _ _ (fun _ => ?_)).trans ?_) | (refine (State.hostWrite_fixed _ _ _ _ (fun _ => ?_)).trans ?_) | (refine (State.hostLoad_fixed _ _ _ _ (fun _ => ?_)).trans ?_) | (refine (State.atOnce_fixed _ _ (fun _ => ?_)).trans ?_) | (refine (State.settleBar_fixed _ _ _ _ (fun _ _ _ => ?_)).trans ?_) | (refine (State.runCmd_fixed _ _ _ (fun _ _ _ => ?_)).trans ?_) | (refine (State.carryConf_fixed _ _ _ _ _ (fun _ => ?_)).trans ?_) | (refine (State.onI2c_fixed _ _ _ (fun _ => ?_)).trans ?_) | (refine (State.inRecovery_fixed _ _ _ (fun _ => ?_)).trans ?_) | (refine (State.mailboxWrite_fixed _ _ _ (fun _ => ?_)).trans ?_) | (refine (State.vfMailbox_fixed _ _ (fun _ => ?_)).trans ?_) | (refine (State.orReserved_fixed _ _ _ _ (fun _ => ?_)).trans ?_) | (refine (State.sqSetup_fixed _ _ _ _ (fun _ => ?_)).trans ?_) | (refine (State.onSq_fixed _ _ _ _ (fun _ _ => ?_)).trans ?_) | (refine (State.onCq_fixed _ _ _ _ (fun _ _ => ?_)).trans ?_) | (refine (State.endRead_fixed _ _ _ (fun _ => ?_)).trans ?_) | simp +zetaDelta only [State.fixed_mk, State.fixed_eta, apply_ite State.fixed] | simp +zetaDelta [*])
theorem State.debugPut_keeps (s : State) (lpa width : Nat) (v : Word64) : s.Keeps (s.debugPut lpa width v) := by
  unfold State.debugPut
  repeat' (first | exact State.mgmtPut_keeps _ _ _ _ _ _ | (refine State.keeps_of ?_; simp; done) | split)
theorem State.debugAccess_keeps (s : State) (lpa width : Nat) (v : Option Word64) : s.Keeps (s.debugAccess lpa width v) := by
  unfold State.debugAccess
  repeat' (first | exact State.debugPut_keeps _ _ _ _ | (refine State.keeps_of ?_; simp; done) | split)
theorem execRegisterWrite_keeps (w : Window) (fn off width : Nat) (v : Option Word64) (s t : State) (h : execRegisterWrite w fn off width v s = .next t) : s.Keeps t := by
  cases h
  split
  · split
    · exact State.mgmtHostWrite_keeps _ _ _ _
    · exact State.keeps_of rfl
  · split
    · exact State.keeps_of (by simp)
    · exact State.keeps_of rfl
  · refine State.keeps_of (State.hostWrite_fixed _ _ _ _ (fun u => ?_))
    split <;> simp
  · exact State.keeps_of (by simp)
  · exact State.debugAccess_keeps _ _ _ _

end Sys2Proof.Machine
end

