-- ==== Sys2Proof/Laws/KeptDataWin.lean ====
section
/-! SUPPORT. What the operations of Machine/DataWin.lean keep: the queue and the fuse bank. -/

namespace Sys2Proof.Machine

set_option linter.all false

@[simp] theorem State.dataAbort_fixed (x0 : State) (x1 : Nat) : (State.dataAbort x0 x1).fixed = x0.fixed := by simp [State.dataAbort]
@[simp] theorem State.dataAbortRead_fixed (x0 : State) (x1 : ℕ) : (State.dataAbortRead x0 x1).fixed = x0.fixed := by simp [State.dataAbortRead]
@[simp] theorem State.dataPieces_fixed (x0 : State) (x1 : Nat) (x2 : Bool) (x3 : List (Nat × Nat)) : (State.dataPieces x0 x1 x2 x3).2.fixed = x0.fixed := by
  induction x3 generalizing x0 with
  | nil => rfl
  | cons p ps ih =>
    simp only [State.dataPieces]
    split <;> (rename_i k; have k_ := pair_arg k; simp at k_)
    · split
      · simp [k_]
      · simp [ih, k_]
    · exact k_
@[simp] theorem State.dataRange_fixed (x0 : State) (x1 : Nat) (x2 : Nat) (x3 : Nat) (x4 : Bool) : (State.dataRange x0 x1 x2 x3 x4).2.fixed = x0.fixed := by
  unfold State.dataRange
  all_goals repeat' (first | (simp +zetaDelta [*]; done) | (split <;> try (rename_i h_; have k_ := pair_arg h_; simp at k_)) | (refine fold_to (fun _ _ => ?_) ?_) | (refine fold2_to (fun _ _ => ?_) ?_) | (refine fold1_to (fun _ _ => ?_) ?_) | (refine fold22_to (fun _ _ => ?_) ?_) | simp +zetaDelta only [State.fixed_mk, State.fixed_eta, apply_ite State.fixed] | simp +zetaDelta [*])
@[simp] theorem State.dataPut_fixed (x0 : State) (x1 : Nat) (x2 : DataAt) (x3 : Nat) (x4 : List Byte) : (State.dataPut x0 x1 x2 x3 x4).fixed = x0.fixed := by
  unfold State.dataPut
  all_goals repeat' (first | (simp +zetaDelta [*]; done) | (split <;> try (rename_i h_; have k_ := pair_arg h_; simp at k_)) | (refine fold_to (fun _ _ => ?_) ?_) | (refine fold2_to (fun _ _ => ?_) ?_) | (refine fold1_to (fun _ _ => ?_) ?_) | (refine fold22_to (fun _ _ => ?_) ?_) | simp +zetaDelta only [State.fixed_mk, State.fixed_eta, apply_ite State.fixed] | simp +zetaDelta [*])
@[simp] theorem State.dataWrite_fixed (x0 : State) (x1 : Nat) (x2 : Nat) (x3 : List (Option Byte)) : (State.dataWrite x0 x1 x2 x3).fixed = x0.fixed := by
  unfold State.dataWrite
  all_goals repeat' (first | (simp +zetaDelta [*]; done) | (split <;> try (rename_i h_; have k_ := pair_arg h_; simp at k_)) | (refine fold_to (fun _ _ => ?_) ?_) | (refine fold2_to (fun _ _ => ?_) ?_) | (refine fold1_to (fun _ _ => ?_) ?_) | (refine fold22_to (fun _ _ => ?_) ?_) | simp +zetaDelta only [State.fixed_mk, State.fixed_eta, apply_ite State.fixed] | simp +zetaDelta [*])
@[simp] theorem State.dataGet_fixed (x0 : State) (x1 : Nat) (x2 : Nat) (x3 : DataAt) : (State.dataGet x0 x1 x2 x3).fixed = x0.fixed := by
  unfold State.dataGet
  all_goals repeat' (first | (simp +zetaDelta [*]; done) | (split <;> try (rename_i h_; have k_ := pair_arg h_; simp at k_)) | (refine fold_to (fun _ _ => ?_) ?_) | (refine fold2_to (fun _ _ => ?_) ?_) | (refine fold1_to (fun _ _ => ?_) ?_) | (refine fold22_to (fun _ _ => ?_) ?_) | simp +zetaDelta only [State.fixed_mk, State.fixed_eta, apply_ite State.fixed] | simp +zetaDelta [*])
@[simp] theorem State.dataRead_fixed (x0 : State) (x1 : Nat) (x2 : Nat) (x3 : Nat) : (State.dataRead x0 x1 x2 x3).fixed = x0.fixed := by
  unfold State.dataRead
  all_goals repeat' (first | (simp +zetaDelta [*]; done) | (split <;> try (rename_i h_; have k_ := pair_arg h_; simp at k_)) | (refine fold_to (fun _ _ => ?_) ?_) | (refine fold2_to (fun _ _ => ?_) ?_) | (refine fold1_to (fun _ _ => ?_) ?_) | (refine fold22_to (fun _ _ => ?_) ?_) | simp +zetaDelta only [State.fixed_mk, State.fixed_eta, apply_ite State.fixed] | simp +zetaDelta [*])
theorem execDataWindowWrite_fixed (x0 : Nat) (x1 : Nat) (x2 : List (Option Byte)) (x3 : State) : ∀ t, (execDataWindowWrite x0 x1 x2 x3) = .next t → t.fixed = x3.fixed := by
  rintro t ⟨⟩
  repeat' (first | (simp; done) | split | dsimp only | (refine State.hostWrite_fixed _ _ _ _ (fun _ => ?_)) | (refine State.hostLoad_fixed _ _ _ _ (fun _ => ?_)) | (refine State.sqSetup_fixed _ _ _ _ (fun _ => ?_)) | (refine State.onSq_fixed _ _ _ _ (fun _ _ => ?_)) | (refine State.onCq_fixed _ _ _ _ (fun _ _ => ?_)) | (refine fold_to (fun _ _ => ?_) ?_))
theorem execDataWindowRead_fixed (x0 : Nat) (x1 : Nat) (x2 : Nat) (x3 : State) : ∀ t, (execDataWindowRead x0 x1 x2 x3) = .next t → t.fixed = x3.fixed := by
  rintro t ⟨⟩
  repeat' (first | (simp; done) | split | dsimp only | (refine State.hostWrite_fixed _ _ _ _ (fun _ => ?_)) | (refine State.hostLoad_fixed _ _ _ _ (fun _ => ?_)) | (refine State.sqSetup_fixed _ _ _ _ (fun _ => ?_)) | (refine State.onSq_fixed _ _ _ _ (fun _ _ => ?_)) | (refine State.onCq_fixed _ _ _ _ (fun _ _ => ?_)) | (refine fold_to (fun _ _ => ?_) ?_))

end Sys2Proof.Machine
end

