-- ==== Sys2Proof/Laws/KeptEndpoint.lean ====
section
/-! SUPPORT. What the operations of Machine/Endpoint.lean keep: the queue and the fuse bank. -/

namespace Sys2Proof.Machine

set_option linter.all false

theorem execBusMasterSet_fixed (x0 : Nat) (x1 : State) : ∀ t, (execBusMasterSet x0 x1) = .next t → t.fixed = x1.fixed := by
  rintro t ⟨⟩
  split <;> simp
@[simp] theorem State.setNumVfs_fixed (x0 : State) (x1 : BitVec 16) : (State.setNumVfs x0 x1).fixed = x0.fixed := by
  unfold State.setNumVfs
  split <;> simp
theorem execNumvfsWrite_fixed (x0 : BitVec 16) (x1 : State) : ∀ t, (execNumvfsWrite x0 x1) = .next t → t.fixed = x1.fixed := by
  rintro t ⟨⟩
  split <;> simp
@[simp] theorem State.poisoned_fixed (x0 : State) (x1 : ℕ) : (State.poisoned x0 x1).fixed = x0.fixed := by
  unfold State.poisoned
  repeat' (first | (simp +zetaDelta [*]; done) | split | dsimp only)
theorem execPoisonedWrite_fixed (x0 : ℕ) (x1 : TlpError) (x2 : State) : ∀ t, (execPoisonedWrite x0 x1 x2) = .next t → t.fixed = x2.fixed := by
  rintro t ⟨⟩
  all_goals repeat' (first | (simp +zetaDelta [*]; done) | (split <;> try (rename_i h_; have k_ := pair_arg h_; simp at k_)) | (refine fold_to (fun _ _ => ?_) ?_) | (refine fold2_to (fun _ _ => ?_) ?_) | (refine fold1_to (fun _ _ => ?_) ?_) | (refine fold22_to (fun _ _ => ?_) ?_) | (refine (State.startXferBy_fixed _ _ _ (fun _ _ => ?_)).trans ?_) | (refine (State.newXferBy_fixed _ _ _ _ _ (fun _ _ => ?_)).trans ?_) | (refine (State.request_fixed _ _ _ _ (fun _ => ?_)).trans ?_) | (refine (State.hostWrite_fixed _ _ _ _ (fun _ => ?_)).trans ?_) | (refine (State.hostLoad_fixed _ _ _ _ (fun _ => ?_)).trans ?_) | (refine (State.atOnce_fixed _ _ (fun _ => ?_)).trans ?_) | (refine (State.settleBar_fixed _ _ _ _ (fun _ _ _ => ?_)).trans ?_) | (refine (State.runCmd_fixed _ _ _ (fun _ _ _ => ?_)).trans ?_) | (refine (State.carryConf_fixed _ _ _ _ _ (fun _ => ?_)).trans ?_) | (refine (State.onI2c_fixed _ _ _ (fun _ => ?_)).trans ?_) | (refine (State.inRecovery_fixed _ _ _ (fun _ => ?_)).trans ?_) | (refine (State.mailboxWrite_fixed _ _ _ (fun _ => ?_)).trans ?_) | (refine (State.vfMailbox_fixed _ _ (fun _ => ?_)).trans ?_) | (refine (State.orReserved_fixed _ _ _ _ (fun _ => ?_)).trans ?_) | (refine (State.sqSetup_fixed _ _ _ _ (fun _ => ?_)).trans ?_) | (refine (State.onSq_fixed _ _ _ _ (fun _ _ => ?_)).trans ?_) | (refine (State.onCq_fixed _ _ _ _ (fun _ _ => ?_)).trans ?_) | (refine (State.endRead_fixed _ _ _ (fun _ => ?_)).trans ?_) | simp +zetaDelta only [State.fixed_mk, State.fixed_eta, apply_ite State.fixed] | simp +zetaDelta [*])
@[simp] theorem State.remoteDone_fixed (x0 : State) (x1 : Packet) : (State.remoteDone x0 x1).fixed = x0.fixed := by
  unfold State.remoteDone
  all_goals repeat' (first | (simp +zetaDelta [*]; done) | (split <;> try (rename_i h_; have k_ := pair_arg h_; simp at k_)) | (refine fold_to (fun _ _ => ?_) ?_) | (refine fold2_to (fun _ _ => ?_) ?_) | (refine fold1_to (fun _ _ => ?_) ?_) | (refine fold22_to (fun _ _ => ?_) ?_) | simp +zetaDelta only [State.fixed_mk, State.fixed_eta, apply_ite State.fixed] | simp +zetaDelta [*])
@[simp] theorem State.dropReads_fixed (x0 : State) (x1 : Packet) : (State.dropReads x0 x1).fixed = x0.fixed := by simp [State.dropReads]
@[simp] theorem State.readEnd_fixed (x0 : State) (x1 : HostFor) (x2 : Option (List Byte)) : (State.readEnd x0 x1 x2).fixed = x0.fixed := by
  unfold State.readEnd
  repeat' (first | (simp +zetaDelta [*]; done) | split | dsimp only)
@[simp] theorem State.endRead_fixed (x0 : State) (x1 : HostRd) (x2 : State → State) (h2 : ∀ t, (x2 t).fixed = t.fixed) : (State.endRead x0 x1 x2).fixed = x0.fixed := by simp [State.endRead, *]
theorem execHostReadComplete_fixed (x0 : ℕ) (x1 : HostReply) (x2 : State) : ∀ t, (execHostReadComplete x0 x1 x2) = .next t → t.fixed = x2.fixed := by
  rintro t ⟨⟩
  repeat' (first | (simp +zetaDelta [*]; done) | split | dsimp only)
theorem execCompletionTimeout_fixed (x0 : ℕ) (x1 : State) : ∀ t, (execCompletionTimeout x0 x1) = .next t → t.fixed = x1.fixed := by
  rintro t ⟨⟩
  repeat' (first | (simp +zetaDelta [*]; done) | split | dsimp only)
@[simp] theorem State.failWaiting_fixed (x0 : State) (x1 : ℕ) : (State.failWaiting x0 x1).fixed = x0.fixed := by
  unfold State.failWaiting
  all_goals repeat' (first | (simp +zetaDelta [*]; done) | (split <;> try (rename_i h_; have k_ := pair_arg h_; simp at k_)) | (refine fold_to (fun _ _ => ?_) ?_) | (refine fold2_to (fun _ _ => ?_) ?_) | (refine fold1_to (fun _ _ => ?_) ?_) | (refine fold22_to (fun _ _ => ?_) ?_) | (refine (State.startXferBy_fixed _ _ _ (fun _ _ => ?_)).trans ?_) | (refine (State.newXferBy_fixed _ _ _ _ _ (fun _ _ => ?_)).trans ?_) | (refine (State.request_fixed _ _ _ _ (fun _ => ?_)).trans ?_) | (refine (State.hostWrite_fixed _ _ _ _ (fun _ => ?_)).trans ?_) | (refine (State.hostLoad_fixed _ _ _ _ (fun _ => ?_)).trans ?_) | (refine (State.atOnce_fixed _ _ (fun _ => ?_)).trans ?_) | (refine (State.settleBar_fixed _ _ _ _ (fun _ _ _ => ?_)).trans ?_) | (refine (State.runCmd_fixed _ _ _ (fun _ _ _ => ?_)).trans ?_) | (refine (State.carryConf_fixed _ _ _ _ _ (fun _ => ?_)).trans ?_) | (refine (State.onI2c_fixed _ _ _ (fun _ => ?_)).trans ?_) | (refine (State.inRecovery_fixed _ _ _ (fun _ => ?_)).trans ?_) | (refine (State.mailboxWrite_fixed _ _ _ (fun _ => ?_)).trans ?_) | (refine (State.vfMailbox_fixed _ _ (fun _ => ?_)).trans ?_) | (refine (State.orReserved_fixed _ _ _ _ (fun _ => ?_)).trans ?_) | (refine (State.sqSetup_fixed _ _ _ _ (fun _ => ?_)).trans ?_) | (refine (State.onSq_fixed _ _ _ _ (fun _ _ => ?_)).trans ?_) | (refine (State.onCq_fixed _ _ _ _ (fun _ _ => ?_)).trans ?_) | (refine (State.endRead_fixed _ _ _ (fun _ => ?_)).trans ?_) | simp +zetaDelta only [State.fixed_mk, State.fixed_eta, apply_ite State.fixed] | simp +zetaDelta [*])
@[simp] theorem State.stopMaster_fixed (x0 : State) (x1 : Nat) (x2 : Bool) : (State.stopMaster x0 x1 x2).fixed = x0.fixed := by
  unfold State.stopMaster
  all_goals repeat' (first | (simp +zetaDelta [*]; done) | (split <;> try (rename_i h_; have k_ := pair_arg h_; simp at k_)) | (refine fold_to (fun _ _ => ?_) ?_) | (refine fold2_to (fun _ _ => ?_) ?_) | (refine fold1_to (fun _ _ => ?_) ?_) | (refine fold22_to (fun _ _ => ?_) ?_) | simp +zetaDelta only [State.fixed_mk, State.fixed_eta, apply_ite State.fixed] | simp +zetaDelta [*])
theorem execBusMasterClear_fixed (x0 : Nat) (x1 : Bool) (x2 : State) : ∀ t, (execBusMasterClear x0 x1 x2) = .next t → t.fixed = x2.fixed := by
  rintro t ⟨⟩
  split <;> simp
@[simp] theorem State.setCfgReg_fixed (x0 : State) (x1 : ℕ) (x2 : Word32) : (State.setCfgReg x0 x1 x2).fixed = x0.fixed := by
  unfold State.setCfgReg
  repeat' (first | (simp +zetaDelta [*]; done) | split | dsimp only)
@[simp] theorem State.configRead_fixed (x0 : State) (x1 : ℕ) (x2 : ℕ) : (State.configRead x0 x1 x2).2.fixed = x0.fixed := by
  unfold State.configRead
  repeat' (first | (simp +zetaDelta [*]; done) | split | dsimp only)
@[simp] theorem State.putCommand_fixed (x0 : State) (x1 : Nat) (x2 : Word32) : (State.putCommand x0 x1 x2).fixed = x0.fixed := by
  unfold State.putCommand
  repeat' (first | (simp +zetaDelta [*]; done) | split)
@[simp] theorem State.putPower_fixed (x0 : State) (x1 : Word32) : (State.putPower x0 x1).fixed = x0.fixed := by
  unfold State.putPower
  split <;> simp
@[simp] theorem State.putDevice_fixed (x0 : State) (x1 : Nat) (x2 : Word32) : (State.putDevice x0 x1 x2).fixed = x0.fixed := by
  unfold State.putDevice
  repeat' (first | (simp +zetaDelta [*]; done) | split)
@[simp] theorem State.putDevice2_fixed (x0 : State) (x1 : ℕ) (x2 : Word32) : (State.putDevice2 x0 x1 x2).fixed = x0.fixed := by
  unfold State.putDevice2
  repeat' (first | (simp +zetaDelta [*]; done) | split | dsimp only)
@[simp] theorem State.putMsix_fixed (x0 : State) (x1 : Nat) (x2 : Word32) : (State.putMsix x0 x1 x2).fixed = x0.fixed := by
  simp only [State.putMsix]
  exact fold_to (fun _ _ => by simp) (by simp)
@[simp] theorem State.putSriov_fixed (x0 : State) (x1 : Word32) : (State.putSriov x0 x1).fixed = x0.fixed := by
  unfold State.putSriov
  all_goals repeat' (first | (simp +zetaDelta [*]; done) | (split <;> try (rename_i h_; have k_ := pair_arg h_; simp at k_)) | (refine fold_to (fun _ _ => ?_) ?_) | (refine fold2_to (fun _ _ => ?_) ?_) | (refine fold1_to (fun _ _ => ?_) ?_) | (refine fold22_to (fun _ _ => ?_) ?_) | simp +zetaDelta only [State.fixed_mk, State.fixed_eta, apply_ite State.fixed] | simp +zetaDelta [*])
theorem State.pfPut_fixed (x0 : State) (x1 : ℕ) (x2 : Word32) : ∀ t, (State.pfPut x0 x1 x2) = some t → t.fixed = x0.fixed := by
  intro t ht
  unfold State.pfPut at ht
  repeat' (first | (cases ht; done) | split at ht)
  all_goals (cases ht; all_goals repeat' (first | (simp +zetaDelta [*]; done) | (split <;> try (rename_i h_; have k_ := pair_arg h_; simp at k_)) | (refine fold_to (fun _ _ => ?_) ?_) | (refine fold2_to (fun _ _ => ?_) ?_) | (refine fold1_to (fun _ _ => ?_) ?_) | (refine fold22_to (fun _ _ => ?_) ?_) | (refine (State.startXferBy_fixed _ _ _ (fun _ _ => ?_)).trans ?_) | (refine (State.newXferBy_fixed _ _ _ _ _ (fun _ _ => ?_)).trans ?_) | (refine (State.request_fixed _ _ _ _ (fun _ => ?_)).trans ?_) | (refine (State.hostWrite_fixed _ _ _ _ (fun _ => ?_)).trans ?_) | (refine (State.hostLoad_fixed _ _ _ _ (fun _ => ?_)).trans ?_) | (refine (State.atOnce_fixed _ _ (fun _ => ?_)).trans ?_) | (refine (State.settleBar_fixed _ _ _ _ (fun _ _ _ => ?_)).trans ?_) | (refine (State.runCmd_fixed _ _ _ (fun _ _ _ => ?_)).trans ?_) | (refine (State.carryConf_fixed _ _ _ _ _ (fun _ => ?_)).trans ?_) | (refine (State.onI2c_fixed _ _ _ (fun _ => ?_)).trans ?_) | (refine (State.inRecovery_fixed _ _ _ (fun _ => ?_)).trans ?_) | (refine (State.mailboxWrite_fixed _ _ _ (fun _ => ?_)).trans ?_) | (refine (State.vfMailbox_fixed _ _ (fun _ => ?_)).trans ?_) | (refine (State.orReserved_fixed _ _ _ _ (fun _ => ?_)).trans ?_) | (refine (State.sqSetup_fixed _ _ _ _ (fun _ => ?_)).trans ?_) | (refine (State.onSq_fixed _ _ _ _ (fun _ _ => ?_)).trans ?_) | (refine (State.onCq_fixed _ _ _ _ (fun _ _ => ?_)).trans ?_) | (refine (State.endRead_fixed _ _ _ (fun _ => ?_)).trans ?_) | simp +zetaDelta only [State.fixed_mk, State.fixed_eta, apply_ite State.fixed] | simp +zetaDelta [*]))
@[simp] theorem State.configPut_fixed (x0 : State) (x1 : Nat) (x2 : Nat) (x3 : Word32) : (State.configPut x0 x1 x2 x3).fixed = x0.fixed := by
  unfold State.configPut
  split <;> simp
@[simp] theorem State.configWrite_fixed (x0 : State) (x1 : Nat) (x2 : Nat) (x3 : Word32) : (State.configWrite x0 x1 x2 x3).fixed = x0.fixed := by
  unfold State.configWrite
  split
  · rename_i k
    split at k
    · exact State.pfPut_fixed _ _ _ _ k
    · cases k
  · simp
theorem execConfigRequest_fixed (x0 : Nat) (x1 : Nat) (x2 : Option Word32) (x3 : State) : ∀ t, (execConfigRequest x0 x1 x2 x3) = .next t → t.fixed = x3.fixed := by
  rintro t ⟨⟩
  repeat' (first | (simp +zetaDelta [*]; done) | split)

end Sys2Proof.Machine
end

