-- ==== Sys2Proof/Laws/KeptDeliver.lean ====
section
/-! SUPPORT. What the operations of Machine/Deliver.lean keep: the queue and the fuse bank. -/

namespace Sys2Proof.Machine

set_option linter.all false

@[simp] theorem State.takeInst_fixed (x0 : State) (x1 : Packet) : (State.takeInst x0 x1).fixed = x0.fixed := by
  unfold State.takeInst
  repeat' (first | (simp +zetaDelta [*]; done) | split)
@[simp] theorem State.takeHeartbeat_fixed (x0 : Option Nat) (x1 : List (Nat × List (List Byte))) (x2 : State) (x3 : Packet) : (State.takeHeartbeat x0 x1 x2 x3).fixed = x2.fixed := by
  unfold State.takeHeartbeat
  split <;> simp
@[simp] theorem State.takeRecords_fixed (x0 : State) (x1 : Packet) : (State.takeRecords x0 x1).fixed = x0.fixed := by
  unfold State.takeRecords
  split <;> simp
@[simp] theorem State.consumed_fixed (x0 : State) (x1 : Nat) (x2 : Packet) : (State.consumed x0 x1 x2).fixed = x0.fixed := by simp [State.consumed]
theorem execPacketReceive_fixed (x0 : ℕ) (x1 : Packet) (x2 : State) : ∀ t, (execPacketReceive x0 x1 x2) = .next t → t.fixed = x2.fixed := by
  rintro t ⟨⟩
  split
  · rfl
  · dsimp only
    split
    · simp
    · split
      · simp
      · split <;> simp
@[simp] theorem State.discAt_fixed (x0 : State) (x1 : ℕ) (x2 : Packet) (x3 : CtlMsg → State) (h : ∀ m, (x3 m).fixed = x0.fixed) : (State.discAt x0 x1 x2 x3).fixed = x0.fixed := by
  unfold State.discAt
  split
  · rfl
  · split
    · simp
    · split
      · exact h _
      · rfl
theorem execElect_fixed (x0 : ℕ) (x1 : Packet) (x2 : State) : ∀ t, (execElect x0 x1 x2) = .next t → t.fixed = x2.fixed := by
  rintro t ⟨⟩
  exact State.discAt_fixed _ _ _ _ (fun m => by split <;> simp)
theorem execParent_fixed (x0 : ℕ) (x1 : Packet) (x2 : State) : ∀ t, (execParent x0 x1 x2) = .next t → t.fixed = x2.fixed := by
  rintro t ⟨⟩
  exact State.discAt_fixed _ _ _ _ (fun m => by split <;> simp)
theorem execReport_fixed (x0 : ℕ) (x1 : Packet) (x2 : State) : ∀ t, (execReport x0 x1 x2) = .next t → t.fixed = x2.fixed := by
  rintro t ⟨⟩
  exact State.discAt_fixed _ _ _ _ (fun m => by split <;> simp)
theorem execAssign_fixed (x0 : ℕ) (x1 : Packet) (x2 : State) : ∀ t, (execAssign x0 x1 x2) = .next t → t.fixed = x2.fixed := by
  rintro t ⟨⟩
  exact State.discAt_fixed _ _ _ _ (fun m => by split <;> simp)
theorem execReject_fixed (x0 : ℕ) (x1 : Packet) (x2 : State) : ∀ t, (execReject x0 x1 x2) = .next t → t.fixed = x2.fixed := by
  rintro t ⟨⟩
  exact State.discAt_fixed _ _ _ _ (fun m => by split <;> simp)
theorem execDiscReady_fixed (x0 : ℕ) (x1 : Packet) (x2 : State) : ∀ t, (execDiscReady x0 x1 x2) = .next t → t.fixed = x2.fixed := by
  rintro t ⟨⟩
  exact State.discAt_fixed _ _ _ _ (fun m => by split <;> simp)
@[simp] theorem State.copySignal_fixed (x0 : State) (x1 : Packet) : (State.copySignal x0 x1).fixed = x0.fixed := by
  unfold State.copySignal
  repeat' (first | (simp +zetaDelta [*]; done) | split | dsimp only)
@[simp] theorem State.takeCopy_fixed (x0 : State) (x1 : Packet) : (State.takeCopy x0 x1).fixed = x0.fixed := by
  unfold State.takeCopy
  all_goals repeat' (first | (simp +zetaDelta [*]; done) | (split <;> try (rename_i h_; have k_ := pair_arg h_; simp at k_)) | (refine fold_to (fun _ _ => ?_) ?_) | (refine fold2_to (fun _ _ => ?_) ?_) | (refine fold1_to (fun _ _ => ?_) ?_) | (refine fold22_to (fun _ _ => ?_) ?_) | simp +zetaDelta only [State.fixed_mk, State.fixed_eta, apply_ite State.fixed] | simp +zetaDelta [*])
@[simp] theorem State.localCopy_fixed (x0 : State) (x1 : Packet) : (State.localCopy x0 x1).fixed = x0.fixed := by
  unfold State.localCopy
  repeat' (first | (simp +zetaDelta [*]; done) | split)
@[simp] theorem State.copies_fixed (x0 : State) (x1 : Word32) (x2 : Nat) (x3 : Packet) : (State.copies x0 x1 x2 x3).fixed = x0.fixed := by
  unfold State.copies
  all_goals repeat' (first | (simp +zetaDelta [*]; done) | (split <;> try (rename_i h_; have k_ := pair_arg h_; simp at k_)) | (refine fold_to (fun _ _ => ?_) ?_) | (refine fold2_to (fun _ _ => ?_) ?_) | (refine fold1_to (fun _ _ => ?_) ?_) | (refine fold22_to (fun _ _ => ?_) ?_) | simp +zetaDelta only [State.fixed_mk, State.fixed_eta, apply_ite State.fixed] | simp +zetaDelta [*])
theorem execMulticastReceive_fixed (x0 : Nat) (x1 : Packet) (x2 : State) : ∀ t, (execMulticastReceive x0 x1 x2) = .next t → t.fixed = x2.fixed := by
  rintro t ⟨⟩
  repeat' (first | (simp +zetaDelta [*]; done) | (split <;> try (rename_i h_; have k_ := pair_arg h_; simp at k_)) | (refine fold_to (fun _ _ => ?_) ?_) | (refine fold2_to (fun _ _ => ?_) ?_) | (refine fold1_to (fun _ _ => ?_) ?_) | (refine fold22_to (fun _ _ => ?_) ?_) | simp +zetaDelta only [State.fixed_mk, State.fixed_eta, apply_ite State.fixed] | simp +zetaDelta [*])
theorem execMulticastHoldExpiry_fixed (x0 : Nat) (x1 : State) : ∀ t, (execMulticastHoldExpiry x0 x1) = .next t → t.fixed = x1.fixed := by
  rintro t ⟨⟩
  split <;> simp
theorem execPartResetHoldExpiry_fixed (x0 : Nat) (x1 : State) : ∀ t, (execPartResetHoldExpiry x0 x1) = .next t → t.fixed = x1.fixed := by
  rintro t ⟨⟩
  split <;> simp
theorem execWindowReclaim_fixed (x0 : ChipId) (x1 : State) : ∀ t, (execWindowReclaim x0 x1) = .next t → t.fixed = x1.fixed := by
  rintro t ⟨⟩
  simp
@[simp] theorem State.nextInc_fixed (x0 : State) (x1 : Part) : (State.nextInc x0 x1).fixed = x0.fixed := by
  unfold State.nextInc
  split <;> simp
@[simp] theorem State.meetReqs_fixed (x0 : State) (x1 : Part) : (State.meetReqs x0 x1).fixed = x0.fixed := by simp [State.meetReqs]
/-- What any packet for this chip does keeps the relation: a MGMT packet may carry the Crypto Officer's token. -/
theorem takeWith_keeps (via : Option Nat) (found : List (Nat × List (List Byte))) (s : State) (p : Packet) : s.Keeps (takeWith via found s p).2 := by
  unfold takeWith
  repeat' (first | exact State.takeCtl_keeps _ _ _ | (refine State.keeps_of ?_; simp; done) | split)
theorem takeAny_keeps (s : State) (p : Packet) : s.Keeps (takeAny s p).2 := takeWith_keeps none [] s p
theorem State.receive_keeps (s : State) (take : Taker) (h : ∀ (t : State) (p : Packet), t.Keeps (take t p).2) (p : Packet) (ok : Bool) : s.Keeps (s.receive take p ok) := by
  unfold State.receive
  split
  · exact (State.deliver_keeps take h s p).then_ (State.afterAnswer_fixed _)
  · exact State.keeps_of rfl
theorem execWritePacket_keeps (p : Packet) (s t : State) (h : execWritePacket p s = .next t) : s.Keeps t := by
  cases h; exact State.receive_keeps _ _ takeAny_keeps _ _
theorem execVoidReceive_keeps (p : Packet) (s t : State) (h : execVoidReceive p s = .next t) : s.Keeps t := by
  cases h; exact State.receive_keeps _ _ takeAny_keeps _ _
theorem execReadReq_keeps (p : Packet) (s t : State) (h : execReadReq p s = .next t) : s.Keeps t := by
  cases h; exact State.receive_keeps _ _ takeAny_keeps _ _
theorem execRemoteLaunchOperation_keeps (p : Packet) (s t : State) (h : execRemoteLaunchOperation p s = .next t) : s.Keeps t := by
  cases h; exact State.receive_keeps _ _ takeAny_keeps _ _
theorem execAbortReceived_keeps (p : Packet) (s t : State) (h : execAbortReceived p s = .next t) : s.Keeps t := by
  cases h; exact State.receive_keeps _ _ takeAny_keeps _ _
theorem execFaultReportReceived_keeps (p : Packet) (s t : State) (h : execFaultReportReceived p s = .next t) : s.Keeps t := by
  cases h; exact State.receive_keeps _ _ takeAny_keeps _ _
theorem execEcho_keeps (p : Packet) (s t : State) (h : execEcho p s = .next t) : s.Keeps t := by
  cases h; exact State.receive_keeps _ _ takeAny_keeps _ _
theorem execClaim_keeps (p : Packet) (s t : State) (h : execClaim p s = .next t) : s.Keeps t := by
  cases h; exact State.receive_keeps _ _ takeAny_keeps _ _
theorem execDeny_keeps (p : Packet) (s t : State) (h : execDeny p s = .next t) : s.Keeps t := by
  cases h; exact State.receive_keeps _ _ takeAny_keeps _ _
theorem execJournal_keeps (p : Packet) (s t : State) (h : execJournal p s = .next t) : s.Keeps t := by
  cases h; exact State.receive_keeps _ _ takeAny_keeps _ _
theorem execJournalForward_keeps (p : Packet) (s t : State) (h : execJournalForward p s = .next t) : s.Keeps t := by
  cases h; exact State.receive_keeps _ _ takeAny_keeps _ _
theorem execInstStop_keeps (p : Packet) (s t : State) (h : execInstStop p s = .next t) : s.Keeps t := by
  cases h; exact State.receive_keeps _ _ takeAny_keeps _ _
theorem execInstStopped_keeps (p : Packet) (s t : State) (h : execInstStopped p s = .next t) : s.Keeps t := by
  cases h; exact State.receive_keeps _ _ takeAny_keeps _ _
theorem execInstPurge_keeps (p : Packet) (s t : State) (h : execInstPurge p s = .next t) : s.Keeps t := by
  cases h; exact State.receive_keeps _ _ takeAny_keeps _ _
theorem execInstPurged_keeps (p : Packet) (s t : State) (h : execInstPurged p s = .next t) : s.Keeps t := by
  cases h; exact State.receive_keeps _ _ takeAny_keeps _ _
theorem execEpochPrepare_keeps (p : Packet) (s t : State) (h : execEpochPrepare p s = .next t) : s.Keeps t := by
  cases h; exact State.receive_keeps _ _ takeAny_keeps _ _
theorem execEpochCommit_keeps (p : Packet) (s t : State) (h : execEpochCommit p s = .next t) : s.Keeps t := by
  cases h; exact State.receive_keeps _ _ takeAny_keeps _ _
theorem execEpochPrepareAck_keeps (p : Packet) (s t : State) (h : execEpochPrepareAck p s = .next t) : s.Keeps t := by
  cases h; exact State.receive_keeps _ _ takeAny_keeps _ _
theorem execPortLeftActive_keeps (p : Packet) (s t : State) (h : execPortLeftActive p s = .next t) : s.Keeps t := by
  cases h; exact State.receive_keeps _ _ takeAny_keeps _ _
theorem execFenceNotice_keeps (p : Packet) (s t : State) (h : execFenceNotice p s = .next t) : s.Keeps t := by
  cases h; exact State.receive_keeps _ _ takeAny_keeps _ _
theorem execDeclarationToStandby_keeps (p : Packet) (s t : State) (h : execDeclarationToStandby p s = .next t) : s.Keeps t := by
  cases h; exact State.receive_keeps _ _ takeAny_keeps _ _
theorem execCollectiveAnnounce_keeps (p : Packet) (s t : State) (h : execCollectiveAnnounce p s = .next t) : s.Keeps t := by
  cases h; exact State.receive_keeps _ _ takeAny_keeps _ _
theorem execCollectiveContribution_keeps (p : Packet) (s t : State) (h : execCollectiveContribution p s = .next t) : s.Keeps t := by
  cases h; exact State.receive_keeps _ _ takeAny_keeps _ _
theorem execReplayContributionRequest_keeps (p : Packet) (s t : State) (h : execReplayContributionRequest p s = .next t) : s.Keeps t := by
  cases h; exact State.receive_keeps _ _ takeAny_keeps _ _
theorem execReplayFailureNotice_keeps (p : Packet) (s t : State) (h : execReplayFailureNotice p s = .next t) : s.Keeps t := by
  cases h; exact State.receive_keeps _ _ takeAny_keeps _ _
theorem execMgmtPacket_keeps (p : Packet) (s t : State) (h : execMgmtPacket p s = .next t) : s.Keeps t := by
  cases h; exact State.receive_keeps _ _ takeAny_keeps _ _
theorem execMgmtAnswer_keeps (p : Packet) (s t : State) (h : execMgmtAnswer p s = .next t) : s.Keeps t := by
  cases h; exact State.receive_keeps _ _ takeAny_keeps _ _
theorem execInvalReport_keeps (p : Packet) (s t : State) (h : execInvalReport p s = .next t) : s.Keeps t := by
  cases h; exact State.receive_keeps _ _ takeAny_keeps _ _
theorem execBeat_keeps (via : Option Nat) (p : Packet) (s t : State) (h : execBeat via p s = .next t) : s.Keeps t := by
  cases h; exact State.receive_keeps _ _ (takeWith_keeps _ _) _ _
theorem execGrant_keeps (p : Packet) (found : List (Nat × List (List Byte))) (s t : State) (h : execGrant p found s = .next t) : s.Keeps t := by
  cases h; exact State.receive_keeps _ _ (takeWith_keeps _ _) _ _
theorem execChipLossDeclare_keeps (chip : ChipId) (by_ : Option Packet) (s t : State) (h : execChipLossDeclare chip by_ s = .next t) : s.Keeps t := by
  cases h
  split
  · exact State.receive_keeps _ _ takeAny_keeps _ _
  · exact State.keeps_of (by split <;> simp)
theorem execRmtReply_keeps (e : RmtEnd) (s t : State) (h : execRmtReply e s = .next t) : s.Keeps t := by
  cases h
  split
  · exact State.receive_keeps _ _ takeAny_keeps _ _
  · exact State.keeps_of (by split <;> simp)
  · exact State.keeps_of (by split <;> simp)
theorem execDrAccessReply_keeps (fn : Nat) (reply : Option Packet) (s t : State) (h : execDrAccessReply fn reply s = .next t) : s.Keeps t := by
  cases h
  split
  · exact State.receive_keeps _ _ takeAny_keeps _ _
  · exact State.keeps_of (by simp)
theorem State.abandon_keeps (s : State) (x : Tracker) : s.Keeps (s.abandon x) := by
  unfold State.abandon
  dsimp only
  refine State.Keeps.trans (State.keeps_of ?_) (State.releaseOrd_keeps takeAny takeAny_keeps _ _)
  cases s.slotOf x.src x.tid <;> simp
theorem execTransferAbandon_keeps (src : ChipId) (tid : BitVec 24) (s t : State) (h : execTransferAbandon src tid s = .next t) : s.Keeps t := by
  cases h
  split
  · split
    · exact (State.abandon_keeps _ _).then_ (State.afterAnswer_fixed _)
    · exact State.keeps_of rfl
  · exact State.keeps_of rfl
theorem State.goOn_keeps (s : State) : s.Keeps s.goOn := (State.releaseOrd_keeps takeAny takeAny_keeps _ s).then_ (State.afterAnswer_fixed _)
theorem execOpComplete_keeps (entry : Nat) (check : Check) (s t : State) (h : execOpComplete entry check s = .next t) : s.Keeps t := by
  cases h; exact (State.keeps_of (by simp)).trans (State.goOn_keeps _)
theorem execProgressBeat_keeps (tile : Nat) (s t : State) (h : execProgressBeat tile s = .next t) : s.Keeps t := by
  cases h
  split
  · exact (State.keeps_of (by simp)).trans (State.goOn_keeps _)
  · exact State.keeps_of rfl
theorem execBeatMissed_keeps (tile : Nat) (s t : State) (h : execBeatMissed tile s = .next t) : s.Keeps t := by
  cases h
  split
  · split
    · exact (State.keeps_of (by simp)).trans (State.goOn_keeps _)
    · exact State.keeps_of rfl
  · exact State.keeps_of rfl
theorem execTileFault_keeps (tile : Nat) (s t : State) (h : execTileFault tile s = .next t) : s.Keeps t := by
  cases h
  split
  · exact (State.keeps_of (by simp)).trans (State.goOn_keeps _)
  · exact State.keeps_of rfl
/-- A fold of an operation that keeps the relation keeps it. -/
theorem fold_keeps {α : Type} {g : State → α → State} (h : ∀ (s : State) (a : α), s.Keeps (g s a)) (l : List α) (s : State) : s.Keeps (l.foldl g s) := by
  induction l generalizing s with
  | nil => exact State.keeps_of rfl
  | cons a l ih => exact (h s a).trans (ih _)
theorem execPartLeavesReset_keeps (part : Part) (begins : Bool) (s t : State) (h : execPartLeavesReset part begins s = .next t) : s.Keeps t := by
  cases h
  split
  · exact State.keeps_of rfl
  · split
    · exact State.keeps_of rfl
    · have h1 : ∀ (l : List HeldPacket) (u : State), u.Keeps (l.foldl (fun s h => State.passOn takeAny s h.packet) u) :=
        fold_keeps (fun s h => State.passOn_keeps takeAny takeAny_keeps s h.packet)
      have h2 : ∀ (l : List HeldPacket) (u : State), u.Keeps (l.foldl (fun s h => s.localCopy h.packet) u) :=
        fold_keeps (fun s h => State.keeps_of (State.localCopy_fixed s h.packet))
      refine State.Keeps.then_ ?_ (State.afterAnswer_fixed _)
      refine State.Keeps.trans ?_ (h2 _ _)
      refine State.Keeps.trans ?_ (h1 _ _)
      exact State.keeps_of (by simp)

end Sys2Proof.Machine
end

