-- ==== Sys2Proof/Laws/KeptIdle.lean ====
section
/-! SUPPORT. What the operations of Machine/Idle.lean keep: the queue and the fuse bank. -/

namespace Sys2Proof.Machine

set_option linter.all false

@[simp] theorem State.tickHangs_fixed (x0 : State) : (State.tickHangs x0).fixed = x0.fixed := by simp [State.tickHangs]
@[simp] theorem State.tickUnits_fixed (x0 : State) : (State.tickUnits x0).fixed = x0.fixed := by simp [State.tickUnits]
@[simp] theorem idle_fixed (x0 : State) : (idle x0).fixed = x0.fixed := by simp [idle]

end Sys2Proof.Machine
end

