-- ==== Sys2Proof/Laws/Shared.lean ====
section
/-! SUPPORT. One lemma for each operation that many meanings share, saying everything the operation can do. -/

namespace Sys2Proof.Machine

/-! ## Host windows -/

/-- A write that reaches the window of a READY chip is what the register does with it. -/
theorem State.hostWrite_reaches {s : State} {fn : Nat} (h : Reaches s fn) (wakes : Bool) (f : State → State) : s.hostWrite fn wakes f = f s := by
  unfold State.hostWrite
  rw [h.1]
  cases wakes <;> simp [State.wake, h.2]

/-- A read that reaches an open window is what the register answers. -/
theorem State.hostLoad_open {s : State} {fn : Nat} (h : s.gate fn = .open_) (len : Nat) (f : State → State) : s.hostLoad fn len f = f s := by
  unfold State.hostLoad
  rw [h]

/-- A write that meets a closed window, or no link, does nothing. -/
theorem State.hostWrite_shut {s : State} {fn : Nat} (h : s.gate fn = .gone ∨ s.gate fn = .closed) (wakes : Bool) (f : State → State) :
    s.hostWrite fn wakes f = s := by
  unfold State.hostWrite
  rcases h with h | h <;> rw [h]

/-! ## Errors, causes and messages: they touch the function's registers, the MSI-X table and what has been sent -/

theorem State.bmeDiscard_touches (s : State) (n : Nat) : ∃ f x, s.bmeDiscard n = { s with fns := f, pcie := { s.pcie with vecs := x } } := by
  unfold State.bmeDiscard
  split
  · exact ⟨s.fns, s.pcie.vecs, rfl⟩
  · dsimp only
    split
    · exact ⟨_, s.pcie.vecs, rfl⟩
    · split
      · exact ⟨_, _, rfl⟩
      · exact ⟨_, s.pcie.vecs, rfl⟩

theorem State.message_touches (s : State) (n v : Nat) :
    ∃ f x h o, s.message n v = { s with fns := f, out := o, pcie := { s.pcie with vecs := x, dlogHeld := h } } := by
  unfold State.message
  split
  · exact ⟨s.fns, s.pcie.vecs, s.pcie.dlogHeld, s.out, rfl⟩
  · split
    · exact ⟨s.fns, _, s.pcie.dlogHeld, s.out, rfl⟩
    · split
      · obtain ⟨f, x, h⟩ := s.bmeDiscard_touches n
        exact ⟨f, x, s.pcie.dlogHeld, s.out, h⟩
      · split
        · split
          · exact ⟨s.fns, s.pcie.vecs, s.pcie.dlogHeld, s.out, rfl⟩
          · exact ⟨s.fns, s.pcie.vecs, _, s.out, rfl⟩
        · exact ⟨s.fns, s.pcie.vecs, s.pcie.dlogHeld, _, rfl⟩

theorem State.cause_touches (s : State) (n c : Nat) :
    ∃ f x h o, s.cause n c = { s with fns := f, out := o, pcie := { s.pcie with vecs := x, dlogHeld := h } } := by
  unfold State.cause
  split
  · exact ⟨s.fns, s.pcie.vecs, s.pcie.dlogHeld, s.out, rfl⟩
  · obtain ⟨f, x, h, o, e⟩ := (s.updFn n (fun f => { f with cause := f.cause ||| BitVec.ofNat 7 (2 ^ c) })).message_touches n ((s.fn n).vecOf c)
    exact ⟨f, x, h, o, e⟩

theorem State.fnError_touches (s : State) (n b : Nat) :
    ∃ f x h o, s.fnError n b = { s with fns := f, out := o, pcie := { s.pcie with vecs := x, dlogHeld := h } } := by
  unfold State.fnError
  dsimp only
  split
  · exact ⟨_, s.pcie.vecs, s.pcie.dlogHeld, s.out, rfl⟩
  · obtain ⟨f, x, h, o, e⟩ := State.cause_touches (s.updFn n (fun f =>
      { f with err := f.err ||| BitVec.ofNat 14 (2 ^ b), errCnt := Tbl.upd 0 f.errCnt b satInc })) n causeError
    exact ⟨f, x, h, o, e⟩

/-! ## Bytes of memory -/

/-- A byte written reads back. -/
theorem State.poke_same (s : State) (a : Nat) (b : Byte) (w : Tbl.wf 0 s.mem.bytes = true) : Tbl.get 0 (s.poke a b).mem.bytes a = b :=
  Tbl.get_set 0 s.mem.bytes none a b w

/-- Every other byte stands. -/
theorem State.poke_other (s : State) (a : Nat) (b : Byte) (k : Nat) (h : k ≠ a) : Tbl.get 0 (s.poke a b).mem.bytes k = Tbl.get 0 s.mem.bytes k :=
  Tbl.get_set_other 0 s.mem.bytes a b k h

/-- A write of a byte keeps the canonical form of memory. -/
theorem State.poke_wf (s : State) (a : Nat) (b : Byte) (w : Mem.wf s.mem = true) : Mem.wf (s.poke a b).mem = true := by
  simp only [Mem.wf, Bool.and_eq_true] at w ⊢
  exact ⟨Tbl.wf_set 0 s.mem.bytes a b w.1, w.2⟩

/-- Bytes outside a run written stand. -/
theorem State.pokes_other (s : State) (a : Nat) (bs : List Byte) (k : Nat) (h : k < a ∨ a + bs.length ≤ k) :
    Tbl.get 0 (s.pokes a bs).mem.bytes k = Tbl.get 0 s.mem.bytes k := by
  induction bs generalizing s a with
  | nil => rfl
  | cons b bs ih =>
    simp only [List.length_cons] at h
    rw [State.pokes, ih (s.poke a b) (a + 1) (by omega), State.poke_other s a b k (by omega)]

/-- A run written keeps the canonical form of memory. -/
theorem State.pokes_wf (s : State) (a : Nat) (bs : List Byte) (w : Mem.wf s.mem = true) : Mem.wf (s.pokes a bs).mem = true := by
  induction bs generalizing s a with
  | nil => exact w
  | cons b bs ih => exact ih (s.poke a b) (a + 1) (s.poke_wf a b w)

/-! ## What is sent goes behind what has been sent -/

/-- A write in the Hall reaches memory alone. -/
theorem State.hallWritten_only (s : State) (ws : List Nat) : ∃ m, s.hallWritten ws = { s with mem := m } := by
  induction ws generalizing s with
  | nil => exact ⟨s.mem, rfl⟩
  | cons w ws ih =>
    obtain ⟨m, h⟩ := ih (s.unflip w)
    exact ⟨m, h⟩

theorem State.draw_fresh (s : State) (w : Nat) : (s.draw w).2 = { s with fresh := s.fresh + 1 } := rfl

end Sys2Proof.Machine
end

