-- ==== Sys2Proof/Laws/State.lean ====
section
/-! SUPPORT. Each update of one part of the state leaves every other part as it was: one lemma per field per update. -/

namespace Sys2Proof.Machine

variable (s : State)

@[simp] theorem State.emit_pending (o : Out) : (s.emit o).pending = s.pending := rfl
@[simp] theorem State.emit_fresh (o : Out) : (s.emit o).fresh = s.fresh := rfl
@[simp] theorem State.emit_fuses (o : Out) : (s.emit o).fuses = s.fuses := rfl
@[simp] theorem State.emit_boot (o : Out) : (s.emit o).boot = s.boot := rfl
@[simp] theorem State.emit_flash (o : Out) : (s.emit o).flash = s.flash := rfl
@[simp] theorem State.emit_pins (o : Out) : (s.emit o).pins = s.pins := rfl
@[simp] theorem State.emit_clk (o : Out) : (s.emit o).clk = s.clk := rfl
@[simp] theorem State.emit_pwr (o : Out) : (s.emit o).pwr = s.pwr := rfl
@[simp] theorem State.emit_hold (o : Out) : (s.emit o).hold = s.hold := rfl
@[simp] theorem State.emit_act (o : Out) : (s.emit o).act = s.act := rfl
@[simp] theorem State.emit_shd (o : Out) : (s.emit o).shd = s.shd := rfl
@[simp] theorem State.emit_lock (o : Out) : (s.emit o).lock = s.lock := rfl
@[simp] theorem State.emit_dom (o : Out) : (s.emit o).dom = s.dom := rfl
@[simp] theorem State.emit_disc (o : Out) : (s.emit o).disc = s.disc := rfl
@[simp] theorem State.emit_rootw (o : Out) : (s.emit o).rootw = s.rootw := rfl
@[simp] theorem State.emit_pair (o : Out) : (s.emit o).pair = s.pair := rfl
@[simp] theorem State.emit_fab (o : Out) : (s.emit o).fab = s.fab := rfl
@[simp] theorem State.emit_mem (o : Out) : (s.emit o).mem = s.mem := rfl
@[simp] theorem State.emit_parts (o : Out) : (s.emit o).parts = s.parts := rfl
@[simp] theorem State.emit_tiles (o : Out) : (s.emit o).tiles = s.tiles := rfl
@[simp] theorem State.emit_xlt (o : Out) : (s.emit o).xlt = s.xlt := rfl
@[simp] theorem State.emit_pcie (o : Out) : (s.emit o).pcie = s.pcie := rfl
@[simp] theorem State.emit_insts (o : Out) : (s.emit o).insts = s.insts := rfl
@[simp] theorem State.emit_fns (o : Out) : (s.emit o).fns = s.fns := rfl
@[simp] theorem State.emit_sqs (o : Out) : (s.emit o).sqs = s.sqs := rfl
@[simp] theorem State.emit_cqs (o : Out) : (s.emit o).cqs = s.cqs := rfl
@[simp] theorem State.emit_drs (o : Out) : (s.emit o).drs = s.drs := rfl
@[simp] theorem State.emit_ctxs (o : Out) : (s.emit o).ctxs = s.ctxs := rfl
@[simp] theorem State.emit_ops (o : Out) : (s.emit o).ops = s.ops := rfl
@[simp] theorem State.emit_slots (o : Out) : (s.emit o).slots = s.slots := rfl
@[simp] theorem State.emit_stands (o : Out) : (s.emit o).stands = s.stands := rfl
@[simp] theorem State.emit_colls (o : Out) : (s.emit o).colls = s.colls := rfl
@[simp] theorem State.emit_orders (o : Out) : (s.emit o).orders = s.orders := rfl
@[simp] theorem State.emit_pass (o : Out) : (s.emit o).pass = s.pass := rfl
@[simp] theorem State.emit_gal (o : Out) : (s.emit o).gal = s.gal := rfl
@[simp] theorem State.emit_evq (o : Out) : (s.emit o).evq = s.evq := rfl
@[simp] theorem State.emit_blkErr (o : Out) : (s.emit o).blkErr = s.blkErr := rfl
@[simp] theorem State.emit_incDrops (o : Out) : (s.emit o).incDrops = s.incDrops := rfl
@[simp] theorem State.emit_mgr (o : Out) : (s.emit o).mgr = s.mgr := rfl
@[simp] theorem State.emit_dlog (o : Out) : (s.emit o).dlog = s.dlog := rfl
@[simp] theorem State.emit_sec (o : Out) : (s.emit o).sec = s.sec := rfl
@[simp] theorem State.emit_safe (o : Out) : (s.emit o).safe = s.safe := rfl
@[simp] theorem State.emit_safest (o : Out) : (s.emit o).safest = s.safest := rfl

@[simp] theorem State.emits_pending (os : List Out) : (s.emits os).pending = s.pending := rfl
@[simp] theorem State.emits_fresh (os : List Out) : (s.emits os).fresh = s.fresh := rfl
@[simp] theorem State.emits_fuses (os : List Out) : (s.emits os).fuses = s.fuses := rfl
@[simp] theorem State.emits_boot (os : List Out) : (s.emits os).boot = s.boot := rfl
@[simp] theorem State.emits_flash (os : List Out) : (s.emits os).flash = s.flash := rfl
@[simp] theorem State.emits_pins (os : List Out) : (s.emits os).pins = s.pins := rfl
@[simp] theorem State.emits_clk (os : List Out) : (s.emits os).clk = s.clk := rfl
@[simp] theorem State.emits_pwr (os : List Out) : (s.emits os).pwr = s.pwr := rfl
@[simp] theorem State.emits_hold (os : List Out) : (s.emits os).hold = s.hold := rfl
@[simp] theorem State.emits_act (os : List Out) : (s.emits os).act = s.act := rfl
@[simp] theorem State.emits_shd (os : List Out) : (s.emits os).shd = s.shd := rfl
@[simp] theorem State.emits_lock (os : List Out) : (s.emits os).lock = s.lock := rfl
@[simp] theorem State.emits_dom (os : List Out) : (s.emits os).dom = s.dom := rfl
@[simp] theorem State.emits_disc (os : List Out) : (s.emits os).disc = s.disc := rfl
@[simp] theorem State.emits_rootw (os : List Out) : (s.emits os).rootw = s.rootw := rfl
@[simp] theorem State.emits_pair (os : List Out) : (s.emits os).pair = s.pair := rfl
@[simp] theorem State.emits_fab (os : List Out) : (s.emits os).fab = s.fab := rfl
@[simp] theorem State.emits_mem (os : List Out) : (s.emits os).mem = s.mem := rfl
@[simp] theorem State.emits_parts (os : List Out) : (s.emits os).parts = s.parts := rfl
@[simp] theorem State.emits_tiles (os : List Out) : (s.emits os).tiles = s.tiles := rfl
@[simp] theorem State.emits_xlt (os : List Out) : (s.emits os).xlt = s.xlt := rfl
@[simp] theorem State.emits_pcie (os : List Out) : (s.emits os).pcie = s.pcie := rfl
@[simp] theorem State.emits_insts (os : List Out) : (s.emits os).insts = s.insts := rfl
@[simp] theorem State.emits_fns (os : List Out) : (s.emits os).fns = s.fns := rfl
@[simp] theorem State.emits_sqs (os : List Out) : (s.emits os).sqs = s.sqs := rfl
@[simp] theorem State.emits_cqs (os : List Out) : (s.emits os).cqs = s.cqs := rfl
@[simp] theorem State.emits_drs (os : List Out) : (s.emits os).drs = s.drs := rfl
@[simp] theorem State.emits_ctxs (os : List Out) : (s.emits os).ctxs = s.ctxs := rfl
@[simp] theorem State.emits_ops (os : List Out) : (s.emits os).ops = s.ops := rfl
@[simp] theorem State.emits_slots (os : List Out) : (s.emits os).slots = s.slots := rfl
@[simp] theorem State.emits_stands (os : List Out) : (s.emits os).stands = s.stands := rfl
@[simp] theorem State.emits_colls (os : List Out) : (s.emits os).colls = s.colls := rfl
@[simp] theorem State.emits_orders (os : List Out) : (s.emits os).orders = s.orders := rfl
@[simp] theorem State.emits_pass (os : List Out) : (s.emits os).pass = s.pass := rfl
@[simp] theorem State.emits_gal (os : List Out) : (s.emits os).gal = s.gal := rfl
@[simp] theorem State.emits_evq (os : List Out) : (s.emits os).evq = s.evq := rfl
@[simp] theorem State.emits_blkErr (os : List Out) : (s.emits os).blkErr = s.blkErr := rfl
@[simp] theorem State.emits_incDrops (os : List Out) : (s.emits os).incDrops = s.incDrops := rfl
@[simp] theorem State.emits_mgr (os : List Out) : (s.emits os).mgr = s.mgr := rfl
@[simp] theorem State.emits_dlog (os : List Out) : (s.emits os).dlog = s.dlog := rfl
@[simp] theorem State.emits_sec (os : List Out) : (s.emits os).sec = s.sec := rfl
@[simp] theorem State.emits_safe (os : List Out) : (s.emits os).safe = s.safe := rfl
@[simp] theorem State.emits_safest (os : List Out) : (s.emits os).safest = s.safest := rfl

@[simp] theorem State.updFn_pending (n : Nat) (f : Fn → Fn) : (s.updFn n f).pending = s.pending := rfl
@[simp] theorem State.updFn_out (n : Nat) (f : Fn → Fn) : (s.updFn n f).out = s.out := rfl
@[simp] theorem State.updFn_fresh (n : Nat) (f : Fn → Fn) : (s.updFn n f).fresh = s.fresh := rfl
@[simp] theorem State.updFn_fuses (n : Nat) (f : Fn → Fn) : (s.updFn n f).fuses = s.fuses := rfl
@[simp] theorem State.updFn_boot (n : Nat) (f : Fn → Fn) : (s.updFn n f).boot = s.boot := rfl
@[simp] theorem State.updFn_flash (n : Nat) (f : Fn → Fn) : (s.updFn n f).flash = s.flash := rfl
@[simp] theorem State.updFn_pins (n : Nat) (f : Fn → Fn) : (s.updFn n f).pins = s.pins := rfl
@[simp] theorem State.updFn_clk (n : Nat) (f : Fn → Fn) : (s.updFn n f).clk = s.clk := rfl
@[simp] theorem State.updFn_pwr (n : Nat) (f : Fn → Fn) : (s.updFn n f).pwr = s.pwr := rfl
@[simp] theorem State.updFn_hold (n : Nat) (f : Fn → Fn) : (s.updFn n f).hold = s.hold := rfl
@[simp] theorem State.updFn_act (n : Nat) (f : Fn → Fn) : (s.updFn n f).act = s.act := rfl
@[simp] theorem State.updFn_shd (n : Nat) (f : Fn → Fn) : (s.updFn n f).shd = s.shd := rfl
@[simp] theorem State.updFn_lock (n : Nat) (f : Fn → Fn) : (s.updFn n f).lock = s.lock := rfl
@[simp] theorem State.updFn_dom (n : Nat) (f : Fn → Fn) : (s.updFn n f).dom = s.dom := rfl
@[simp] theorem State.updFn_disc (n : Nat) (f : Fn → Fn) : (s.updFn n f).disc = s.disc := rfl
@[simp] theorem State.updFn_rootw (n : Nat) (f : Fn → Fn) : (s.updFn n f).rootw = s.rootw := rfl
@[simp] theorem State.updFn_pair (n : Nat) (f : Fn → Fn) : (s.updFn n f).pair = s.pair := rfl
@[simp] theorem State.updFn_fab (n : Nat) (f : Fn → Fn) : (s.updFn n f).fab = s.fab := rfl
@[simp] theorem State.updFn_mem (n : Nat) (f : Fn → Fn) : (s.updFn n f).mem = s.mem := rfl
@[simp] theorem State.updFn_parts (n : Nat) (f : Fn → Fn) : (s.updFn n f).parts = s.parts := rfl
@[simp] theorem State.updFn_tiles (n : Nat) (f : Fn → Fn) : (s.updFn n f).tiles = s.tiles := rfl
@[simp] theorem State.updFn_xlt (n : Nat) (f : Fn → Fn) : (s.updFn n f).xlt = s.xlt := rfl
@[simp] theorem State.updFn_pcie (n : Nat) (f : Fn → Fn) : (s.updFn n f).pcie = s.pcie := rfl
@[simp] theorem State.updFn_insts (n : Nat) (f : Fn → Fn) : (s.updFn n f).insts = s.insts := rfl
@[simp] theorem State.updFn_sqs (n : Nat) (f : Fn → Fn) : (s.updFn n f).sqs = s.sqs := rfl
@[simp] theorem State.updFn_cqs (n : Nat) (f : Fn → Fn) : (s.updFn n f).cqs = s.cqs := rfl
@[simp] theorem State.updFn_drs (n : Nat) (f : Fn → Fn) : (s.updFn n f).drs = s.drs := rfl
@[simp] theorem State.updFn_ctxs (n : Nat) (f : Fn → Fn) : (s.updFn n f).ctxs = s.ctxs := rfl
@[simp] theorem State.updFn_ops (n : Nat) (f : Fn → Fn) : (s.updFn n f).ops = s.ops := rfl
@[simp] theorem State.updFn_slots (n : Nat) (f : Fn → Fn) : (s.updFn n f).slots = s.slots := rfl
@[simp] theorem State.updFn_stands (n : Nat) (f : Fn → Fn) : (s.updFn n f).stands = s.stands := rfl
@[simp] theorem State.updFn_colls (n : Nat) (f : Fn → Fn) : (s.updFn n f).colls = s.colls := rfl
@[simp] theorem State.updFn_orders (n : Nat) (f : Fn → Fn) : (s.updFn n f).orders = s.orders := rfl
@[simp] theorem State.updFn_pass (n : Nat) (f : Fn → Fn) : (s.updFn n f).pass = s.pass := rfl
@[simp] theorem State.updFn_gal (n : Nat) (f : Fn → Fn) : (s.updFn n f).gal = s.gal := rfl
@[simp] theorem State.updFn_evq (n : Nat) (f : Fn → Fn) : (s.updFn n f).evq = s.evq := rfl
@[simp] theorem State.updFn_blkErr (n : Nat) (f : Fn → Fn) : (s.updFn n f).blkErr = s.blkErr := rfl
@[simp] theorem State.updFn_incDrops (n : Nat) (f : Fn → Fn) : (s.updFn n f).incDrops = s.incDrops := rfl
@[simp] theorem State.updFn_mgr (n : Nat) (f : Fn → Fn) : (s.updFn n f).mgr = s.mgr := rfl
@[simp] theorem State.updFn_dlog (n : Nat) (f : Fn → Fn) : (s.updFn n f).dlog = s.dlog := rfl
@[simp] theorem State.updFn_sec (n : Nat) (f : Fn → Fn) : (s.updFn n f).sec = s.sec := rfl
@[simp] theorem State.updFn_safe (n : Nat) (f : Fn → Fn) : (s.updFn n f).safe = s.safe := rfl
@[simp] theorem State.updFn_safest (n : Nat) (f : Fn → Fn) : (s.updFn n f).safest = s.safest := rfl

@[simp] theorem State.updInst_pending (n : Nat) (f : Inst → Inst) : (s.updInst n f).pending = s.pending := rfl
@[simp] theorem State.updInst_out (n : Nat) (f : Inst → Inst) : (s.updInst n f).out = s.out := rfl
@[simp] theorem State.updInst_fresh (n : Nat) (f : Inst → Inst) : (s.updInst n f).fresh = s.fresh := rfl
@[simp] theorem State.updInst_fuses (n : Nat) (f : Inst → Inst) : (s.updInst n f).fuses = s.fuses := rfl
@[simp] theorem State.updInst_boot (n : Nat) (f : Inst → Inst) : (s.updInst n f).boot = s.boot := rfl
@[simp] theorem State.updInst_flash (n : Nat) (f : Inst → Inst) : (s.updInst n f).flash = s.flash := rfl
@[simp] theorem State.updInst_pins (n : Nat) (f : Inst → Inst) : (s.updInst n f).pins = s.pins := rfl
@[simp] theorem State.updInst_clk (n : Nat) (f : Inst → Inst) : (s.updInst n f).clk = s.clk := rfl
@[simp] theorem State.updInst_pwr (n : Nat) (f : Inst → Inst) : (s.updInst n f).pwr = s.pwr := rfl
@[simp] theorem State.updInst_hold (n : Nat) (f : Inst → Inst) : (s.updInst n f).hold = s.hold := rfl
@[simp] theorem State.updInst_act (n : Nat) (f : Inst → Inst) : (s.updInst n f).act = s.act := rfl
@[simp] theorem State.updInst_shd (n : Nat) (f : Inst → Inst) : (s.updInst n f).shd = s.shd := rfl
@[simp] theorem State.updInst_lock (n : Nat) (f : Inst → Inst) : (s.updInst n f).lock = s.lock := rfl
@[simp] theorem State.updInst_dom (n : Nat) (f : Inst → Inst) : (s.updInst n f).dom = s.dom := rfl
@[simp] theorem State.updInst_disc (n : Nat) (f : Inst → Inst) : (s.updInst n f).disc = s.disc := rfl
@[simp] theorem State.updInst_rootw (n : Nat) (f : Inst → Inst) : (s.updInst n f).rootw = s.rootw := rfl
@[simp] theorem State.updInst_pair (n : Nat) (f : Inst → Inst) : (s.updInst n f).pair = s.pair := rfl
@[simp] theorem State.updInst_fab (n : Nat) (f : Inst → Inst) : (s.updInst n f).fab = s.fab := rfl
@[simp] theorem State.updInst_mem (n : Nat) (f : Inst → Inst) : (s.updInst n f).mem = s.mem := rfl
@[simp] theorem State.updInst_parts (n : Nat) (f : Inst → Inst) : (s.updInst n f).parts = s.parts := rfl
@[simp] theorem State.updInst_tiles (n : Nat) (f : Inst → Inst) : (s.updInst n f).tiles = s.tiles := rfl
@[simp] theorem State.updInst_xlt (n : Nat) (f : Inst → Inst) : (s.updInst n f).xlt = s.xlt := rfl
@[simp] theorem State.updInst_pcie (n : Nat) (f : Inst → Inst) : (s.updInst n f).pcie = s.pcie := rfl
@[simp] theorem State.updInst_fns (n : Nat) (f : Inst → Inst) : (s.updInst n f).fns = s.fns := rfl
@[simp] theorem State.updInst_sqs (n : Nat) (f : Inst → Inst) : (s.updInst n f).sqs = s.sqs := rfl
@[simp] theorem State.updInst_cqs (n : Nat) (f : Inst → Inst) : (s.updInst n f).cqs = s.cqs := rfl
@[simp] theorem State.updInst_drs (n : Nat) (f : Inst → Inst) : (s.updInst n f).drs = s.drs := rfl
@[simp] theorem State.updInst_ctxs (n : Nat) (f : Inst → Inst) : (s.updInst n f).ctxs = s.ctxs := rfl
@[simp] theorem State.updInst_ops (n : Nat) (f : Inst → Inst) : (s.updInst n f).ops = s.ops := rfl
@[simp] theorem State.updInst_slots (n : Nat) (f : Inst → Inst) : (s.updInst n f).slots = s.slots := rfl
@[simp] theorem State.updInst_stands (n : Nat) (f : Inst → Inst) : (s.updInst n f).stands = s.stands := rfl
@[simp] theorem State.updInst_colls (n : Nat) (f : Inst → Inst) : (s.updInst n f).colls = s.colls := rfl
@[simp] theorem State.updInst_orders (n : Nat) (f : Inst → Inst) : (s.updInst n f).orders = s.orders := rfl
@[simp] theorem State.updInst_pass (n : Nat) (f : Inst → Inst) : (s.updInst n f).pass = s.pass := rfl
@[simp] theorem State.updInst_gal (n : Nat) (f : Inst → Inst) : (s.updInst n f).gal = s.gal := rfl
@[simp] theorem State.updInst_evq (n : Nat) (f : Inst → Inst) : (s.updInst n f).evq = s.evq := rfl
@[simp] theorem State.updInst_blkErr (n : Nat) (f : Inst → Inst) : (s.updInst n f).blkErr = s.blkErr := rfl
@[simp] theorem State.updInst_incDrops (n : Nat) (f : Inst → Inst) : (s.updInst n f).incDrops = s.incDrops := rfl
@[simp] theorem State.updInst_mgr (n : Nat) (f : Inst → Inst) : (s.updInst n f).mgr = s.mgr := rfl
@[simp] theorem State.updInst_dlog (n : Nat) (f : Inst → Inst) : (s.updInst n f).dlog = s.dlog := rfl
@[simp] theorem State.updInst_sec (n : Nat) (f : Inst → Inst) : (s.updInst n f).sec = s.sec := rfl
@[simp] theorem State.updInst_safe (n : Nat) (f : Inst → Inst) : (s.updInst n f).safe = s.safe := rfl
@[simp] theorem State.updInst_safest (n : Nat) (f : Inst → Inst) : (s.updInst n f).safest = s.safest := rfl

@[simp] theorem State.updSq_pending (n : Nat) (f : Sq → Sq) : (s.updSq n f).pending = s.pending := rfl
@[simp] theorem State.updSq_out (n : Nat) (f : Sq → Sq) : (s.updSq n f).out = s.out := rfl
@[simp] theorem State.updSq_fresh (n : Nat) (f : Sq → Sq) : (s.updSq n f).fresh = s.fresh := rfl
@[simp] theorem State.updSq_fuses (n : Nat) (f : Sq → Sq) : (s.updSq n f).fuses = s.fuses := rfl
@[simp] theorem State.updSq_boot (n : Nat) (f : Sq → Sq) : (s.updSq n f).boot = s.boot := rfl
@[simp] theorem State.updSq_flash (n : Nat) (f : Sq → Sq) : (s.updSq n f).flash = s.flash := rfl
@[simp] theorem State.updSq_pins (n : Nat) (f : Sq → Sq) : (s.updSq n f).pins = s.pins := rfl
@[simp] theorem State.updSq_clk (n : Nat) (f : Sq → Sq) : (s.updSq n f).clk = s.clk := rfl
@[simp] theorem State.updSq_pwr (n : Nat) (f : Sq → Sq) : (s.updSq n f).pwr = s.pwr := rfl
@[simp] theorem State.updSq_hold (n : Nat) (f : Sq → Sq) : (s.updSq n f).hold = s.hold := rfl
@[simp] theorem State.updSq_act (n : Nat) (f : Sq → Sq) : (s.updSq n f).act = s.act := rfl
@[simp] theorem State.updSq_shd (n : Nat) (f : Sq → Sq) : (s.updSq n f).shd = s.shd := rfl
@[simp] theorem State.updSq_lock (n : Nat) (f : Sq → Sq) : (s.updSq n f).lock = s.lock := rfl
@[simp] theorem State.updSq_dom (n : Nat) (f : Sq → Sq) : (s.updSq n f).dom = s.dom := rfl
@[simp] theorem State.updSq_disc (n : Nat) (f : Sq → Sq) : (s.updSq n f).disc = s.disc := rfl
@[simp] theorem State.updSq_rootw (n : Nat) (f : Sq → Sq) : (s.updSq n f).rootw = s.rootw := rfl
@[simp] theorem State.updSq_pair (n : Nat) (f : Sq → Sq) : (s.updSq n f).pair = s.pair := rfl
@[simp] theorem State.updSq_fab (n : Nat) (f : Sq → Sq) : (s.updSq n f).fab = s.fab := rfl
@[simp] theorem State.updSq_mem (n : Nat) (f : Sq → Sq) : (s.updSq n f).mem = s.mem := rfl
@[simp] theorem State.updSq_parts (n : Nat) (f : Sq → Sq) : (s.updSq n f).parts = s.parts := rfl
@[simp] theorem State.updSq_tiles (n : Nat) (f : Sq → Sq) : (s.updSq n f).tiles = s.tiles := rfl
@[simp] theorem State.updSq_xlt (n : Nat) (f : Sq → Sq) : (s.updSq n f).xlt = s.xlt := rfl
@[simp] theorem State.updSq_pcie (n : Nat) (f : Sq → Sq) : (s.updSq n f).pcie = s.pcie := rfl
@[simp] theorem State.updSq_insts (n : Nat) (f : Sq → Sq) : (s.updSq n f).insts = s.insts := rfl
@[simp] theorem State.updSq_fns (n : Nat) (f : Sq → Sq) : (s.updSq n f).fns = s.fns := rfl
@[simp] theorem State.updSq_cqs (n : Nat) (f : Sq → Sq) : (s.updSq n f).cqs = s.cqs := rfl
@[simp] theorem State.updSq_drs (n : Nat) (f : Sq → Sq) : (s.updSq n f).drs = s.drs := rfl
@[simp] theorem State.updSq_ctxs (n : Nat) (f : Sq → Sq) : (s.updSq n f).ctxs = s.ctxs := rfl
@[simp] theorem State.updSq_ops (n : Nat) (f : Sq → Sq) : (s.updSq n f).ops = s.ops := rfl
@[simp] theorem State.updSq_slots (n : Nat) (f : Sq → Sq) : (s.updSq n f).slots = s.slots := rfl
@[simp] theorem State.updSq_stands (n : Nat) (f : Sq → Sq) : (s.updSq n f).stands = s.stands := rfl
@[simp] theorem State.updSq_colls (n : Nat) (f : Sq → Sq) : (s.updSq n f).colls = s.colls := rfl
@[simp] theorem State.updSq_orders (n : Nat) (f : Sq → Sq) : (s.updSq n f).orders = s.orders := rfl
@[simp] theorem State.updSq_pass (n : Nat) (f : Sq → Sq) : (s.updSq n f).pass = s.pass := rfl
@[simp] theorem State.updSq_gal (n : Nat) (f : Sq → Sq) : (s.updSq n f).gal = s.gal := rfl
@[simp] theorem State.updSq_evq (n : Nat) (f : Sq → Sq) : (s.updSq n f).evq = s.evq := rfl
@[simp] theorem State.updSq_blkErr (n : Nat) (f : Sq → Sq) : (s.updSq n f).blkErr = s.blkErr := rfl
@[simp] theorem State.updSq_incDrops (n : Nat) (f : Sq → Sq) : (s.updSq n f).incDrops = s.incDrops := rfl
@[simp] theorem State.updSq_mgr (n : Nat) (f : Sq → Sq) : (s.updSq n f).mgr = s.mgr := rfl
@[simp] theorem State.updSq_dlog (n : Nat) (f : Sq → Sq) : (s.updSq n f).dlog = s.dlog := rfl
@[simp] theorem State.updSq_sec (n : Nat) (f : Sq → Sq) : (s.updSq n f).sec = s.sec := rfl
@[simp] theorem State.updSq_safe (n : Nat) (f : Sq → Sq) : (s.updSq n f).safe = s.safe := rfl
@[simp] theorem State.updSq_safest (n : Nat) (f : Sq → Sq) : (s.updSq n f).safest = s.safest := rfl

@[simp] theorem State.updCq_pending (n : Nat) (f : Cq → Cq) : (s.updCq n f).pending = s.pending := rfl
@[simp] theorem State.updCq_out (n : Nat) (f : Cq → Cq) : (s.updCq n f).out = s.out := rfl
@[simp] theorem State.updCq_fresh (n : Nat) (f : Cq → Cq) : (s.updCq n f).fresh = s.fresh := rfl
@[simp] theorem State.updCq_fuses (n : Nat) (f : Cq → Cq) : (s.updCq n f).fuses = s.fuses := rfl
@[simp] theorem State.updCq_boot (n : Nat) (f : Cq → Cq) : (s.updCq n f).boot = s.boot := rfl
@[simp] theorem State.updCq_flash (n : Nat) (f : Cq → Cq) : (s.updCq n f).flash = s.flash := rfl
@[simp] theorem State.updCq_pins (n : Nat) (f : Cq → Cq) : (s.updCq n f).pins = s.pins := rfl
@[simp] theorem State.updCq_clk (n : Nat) (f : Cq → Cq) : (s.updCq n f).clk = s.clk := rfl
@[simp] theorem State.updCq_pwr (n : Nat) (f : Cq → Cq) : (s.updCq n f).pwr = s.pwr := rfl
@[simp] theorem State.updCq_hold (n : Nat) (f : Cq → Cq) : (s.updCq n f).hold = s.hold := rfl
@[simp] theorem State.updCq_act (n : Nat) (f : Cq → Cq) : (s.updCq n f).act = s.act := rfl
@[simp] theorem State.updCq_shd (n : Nat) (f : Cq → Cq) : (s.updCq n f).shd = s.shd := rfl
@[simp] theorem State.updCq_lock (n : Nat) (f : Cq → Cq) : (s.updCq n f).lock = s.lock := rfl
@[simp] theorem State.updCq_dom (n : Nat) (f : Cq → Cq) : (s.updCq n f).dom = s.dom := rfl
@[simp] theorem State.updCq_disc (n : Nat) (f : Cq → Cq) : (s.updCq n f).disc = s.disc := rfl
@[simp] theorem State.updCq_rootw (n : Nat) (f : Cq → Cq) : (s.updCq n f).rootw = s.rootw := rfl
@[simp] theorem State.updCq_pair (n : Nat) (f : Cq → Cq) : (s.updCq n f).pair = s.pair := rfl
@[simp] theorem State.updCq_fab (n : Nat) (f : Cq → Cq) : (s.updCq n f).fab = s.fab := rfl
@[simp] theorem State.updCq_mem (n : Nat) (f : Cq → Cq) : (s.updCq n f).mem = s.mem := rfl
@[simp] theorem State.updCq_parts (n : Nat) (f : Cq → Cq) : (s.updCq n f).parts = s.parts := rfl
@[simp] theorem State.updCq_tiles (n : Nat) (f : Cq → Cq) : (s.updCq n f).tiles = s.tiles := rfl
@[simp] theorem State.updCq_xlt (n : Nat) (f : Cq → Cq) : (s.updCq n f).xlt = s.xlt := rfl
@[simp] theorem State.updCq_pcie (n : Nat) (f : Cq → Cq) : (s.updCq n f).pcie = s.pcie := rfl
@[simp] theorem State.updCq_insts (n : Nat) (f : Cq → Cq) : (s.updCq n f).insts = s.insts := rfl
@[simp] theorem State.updCq_fns (n : Nat) (f : Cq → Cq) : (s.updCq n f).fns = s.fns := rfl
@[simp] theorem State.updCq_sqs (n : Nat) (f : Cq → Cq) : (s.updCq n f).sqs = s.sqs := rfl
@[simp] theorem State.updCq_drs (n : Nat) (f : Cq → Cq) : (s.updCq n f).drs = s.drs := rfl
@[simp] theorem State.updCq_ctxs (n : Nat) (f : Cq → Cq) : (s.updCq n f).ctxs = s.ctxs := rfl
@[simp] theorem State.updCq_ops (n : Nat) (f : Cq → Cq) : (s.updCq n f).ops = s.ops := rfl
@[simp] theorem State.updCq_slots (n : Nat) (f : Cq → Cq) : (s.updCq n f).slots = s.slots := rfl
@[simp] theorem State.updCq_stands (n : Nat) (f : Cq → Cq) : (s.updCq n f).stands = s.stands := rfl
@[simp] theorem State.updCq_colls (n : Nat) (f : Cq → Cq) : (s.updCq n f).colls = s.colls := rfl
@[simp] theorem State.updCq_orders (n : Nat) (f : Cq → Cq) : (s.updCq n f).orders = s.orders := rfl
@[simp] theorem State.updCq_pass (n : Nat) (f : Cq → Cq) : (s.updCq n f).pass = s.pass := rfl
@[simp] theorem State.updCq_gal (n : Nat) (f : Cq → Cq) : (s.updCq n f).gal = s.gal := rfl
@[simp] theorem State.updCq_evq (n : Nat) (f : Cq → Cq) : (s.updCq n f).evq = s.evq := rfl
@[simp] theorem State.updCq_blkErr (n : Nat) (f : Cq → Cq) : (s.updCq n f).blkErr = s.blkErr := rfl
@[simp] theorem State.updCq_incDrops (n : Nat) (f : Cq → Cq) : (s.updCq n f).incDrops = s.incDrops := rfl
@[simp] theorem State.updCq_mgr (n : Nat) (f : Cq → Cq) : (s.updCq n f).mgr = s.mgr := rfl
@[simp] theorem State.updCq_dlog (n : Nat) (f : Cq → Cq) : (s.updCq n f).dlog = s.dlog := rfl
@[simp] theorem State.updCq_sec (n : Nat) (f : Cq → Cq) : (s.updCq n f).sec = s.sec := rfl
@[simp] theorem State.updCq_safe (n : Nat) (f : Cq → Cq) : (s.updCq n f).safe = s.safe := rfl
@[simp] theorem State.updCq_safest (n : Nat) (f : Cq → Cq) : (s.updCq n f).safest = s.safest := rfl

@[simp] theorem State.updDr_pending (n : Nat) (f : Dr → Dr) : (s.updDr n f).pending = s.pending := rfl
@[simp] theorem State.updDr_out (n : Nat) (f : Dr → Dr) : (s.updDr n f).out = s.out := rfl
@[simp] theorem State.updDr_fresh (n : Nat) (f : Dr → Dr) : (s.updDr n f).fresh = s.fresh := rfl
@[simp] theorem State.updDr_fuses (n : Nat) (f : Dr → Dr) : (s.updDr n f).fuses = s.fuses := rfl
@[simp] theorem State.updDr_boot (n : Nat) (f : Dr → Dr) : (s.updDr n f).boot = s.boot := rfl
@[simp] theorem State.updDr_flash (n : Nat) (f : Dr → Dr) : (s.updDr n f).flash = s.flash := rfl
@[simp] theorem State.updDr_pins (n : Nat) (f : Dr → Dr) : (s.updDr n f).pins = s.pins := rfl
@[simp] theorem State.updDr_clk (n : Nat) (f : Dr → Dr) : (s.updDr n f).clk = s.clk := rfl
@[simp] theorem State.updDr_pwr (n : Nat) (f : Dr → Dr) : (s.updDr n f).pwr = s.pwr := rfl
@[simp] theorem State.updDr_hold (n : Nat) (f : Dr → Dr) : (s.updDr n f).hold = s.hold := rfl
@[simp] theorem State.updDr_act (n : Nat) (f : Dr → Dr) : (s.updDr n f).act = s.act := rfl
@[simp] theorem State.updDr_shd (n : Nat) (f : Dr → Dr) : (s.updDr n f).shd = s.shd := rfl
@[simp] theorem State.updDr_lock (n : Nat) (f : Dr → Dr) : (s.updDr n f).lock = s.lock := rfl
@[simp] theorem State.updDr_dom (n : Nat) (f : Dr → Dr) : (s.updDr n f).dom = s.dom := rfl
@[simp] theorem State.updDr_disc (n : Nat) (f : Dr → Dr) : (s.updDr n f).disc = s.disc := rfl
@[simp] theorem State.updDr_rootw (n : Nat) (f : Dr → Dr) : (s.updDr n f).rootw = s.rootw := rfl
@[simp] theorem State.updDr_pair (n : Nat) (f : Dr → Dr) : (s.updDr n f).pair = s.pair := rfl
@[simp] theorem State.updDr_fab (n : Nat) (f : Dr → Dr) : (s.updDr n f).fab = s.fab := rfl
@[simp] theorem State.updDr_mem (n : Nat) (f : Dr → Dr) : (s.updDr n f).mem = s.mem := rfl
@[simp] theorem State.updDr_parts (n : Nat) (f : Dr → Dr) : (s.updDr n f).parts = s.parts := rfl
@[simp] theorem State.updDr_tiles (n : Nat) (f : Dr → Dr) : (s.updDr n f).tiles = s.tiles := rfl
@[simp] theorem State.updDr_xlt (n : Nat) (f : Dr → Dr) : (s.updDr n f).xlt = s.xlt := rfl
@[simp] theorem State.updDr_pcie (n : Nat) (f : Dr → Dr) : (s.updDr n f).pcie = s.pcie := rfl
@[simp] theorem State.updDr_insts (n : Nat) (f : Dr → Dr) : (s.updDr n f).insts = s.insts := rfl
@[simp] theorem State.updDr_fns (n : Nat) (f : Dr → Dr) : (s.updDr n f).fns = s.fns := rfl
@[simp] theorem State.updDr_sqs (n : Nat) (f : Dr → Dr) : (s.updDr n f).sqs = s.sqs := rfl
@[simp] theorem State.updDr_cqs (n : Nat) (f : Dr → Dr) : (s.updDr n f).cqs = s.cqs := rfl
@[simp] theorem State.updDr_ctxs (n : Nat) (f : Dr → Dr) : (s.updDr n f).ctxs = s.ctxs := rfl
@[simp] theorem State.updDr_ops (n : Nat) (f : Dr → Dr) : (s.updDr n f).ops = s.ops := rfl
@[simp] theorem State.updDr_slots (n : Nat) (f : Dr → Dr) : (s.updDr n f).slots = s.slots := rfl
@[simp] theorem State.updDr_stands (n : Nat) (f : Dr → Dr) : (s.updDr n f).stands = s.stands := rfl
@[simp] theorem State.updDr_colls (n : Nat) (f : Dr → Dr) : (s.updDr n f).colls = s.colls := rfl
@[simp] theorem State.updDr_orders (n : Nat) (f : Dr → Dr) : (s.updDr n f).orders = s.orders := rfl
@[simp] theorem State.updDr_pass (n : Nat) (f : Dr → Dr) : (s.updDr n f).pass = s.pass := rfl
@[simp] theorem State.updDr_gal (n : Nat) (f : Dr → Dr) : (s.updDr n f).gal = s.gal := rfl
@[simp] theorem State.updDr_evq (n : Nat) (f : Dr → Dr) : (s.updDr n f).evq = s.evq := rfl
@[simp] theorem State.updDr_blkErr (n : Nat) (f : Dr → Dr) : (s.updDr n f).blkErr = s.blkErr := rfl
@[simp] theorem State.updDr_incDrops (n : Nat) (f : Dr → Dr) : (s.updDr n f).incDrops = s.incDrops := rfl
@[simp] theorem State.updDr_mgr (n : Nat) (f : Dr → Dr) : (s.updDr n f).mgr = s.mgr := rfl
@[simp] theorem State.updDr_dlog (n : Nat) (f : Dr → Dr) : (s.updDr n f).dlog = s.dlog := rfl
@[simp] theorem State.updDr_sec (n : Nat) (f : Dr → Dr) : (s.updDr n f).sec = s.sec := rfl
@[simp] theorem State.updDr_safe (n : Nat) (f : Dr → Dr) : (s.updDr n f).safe = s.safe := rfl
@[simp] theorem State.updDr_safest (n : Nat) (f : Dr → Dr) : (s.updDr n f).safest = s.safest := rfl

@[simp] theorem State.updCtx_pending (n : Nat) (f : Ctx → Ctx) : (s.updCtx n f).pending = s.pending := rfl
@[simp] theorem State.updCtx_out (n : Nat) (f : Ctx → Ctx) : (s.updCtx n f).out = s.out := rfl
@[simp] theorem State.updCtx_fresh (n : Nat) (f : Ctx → Ctx) : (s.updCtx n f).fresh = s.fresh := rfl
@[simp] theorem State.updCtx_fuses (n : Nat) (f : Ctx → Ctx) : (s.updCtx n f).fuses = s.fuses := rfl
@[simp] theorem State.updCtx_boot (n : Nat) (f : Ctx → Ctx) : (s.updCtx n f).boot = s.boot := rfl
@[simp] theorem State.updCtx_flash (n : Nat) (f : Ctx → Ctx) : (s.updCtx n f).flash = s.flash := rfl
@[simp] theorem State.updCtx_pins (n : Nat) (f : Ctx → Ctx) : (s.updCtx n f).pins = s.pins := rfl
@[simp] theorem State.updCtx_clk (n : Nat) (f : Ctx → Ctx) : (s.updCtx n f).clk = s.clk := rfl
@[simp] theorem State.updCtx_pwr (n : Nat) (f : Ctx → Ctx) : (s.updCtx n f).pwr = s.pwr := rfl
@[simp] theorem State.updCtx_hold (n : Nat) (f : Ctx → Ctx) : (s.updCtx n f).hold = s.hold := rfl
@[simp] theorem State.updCtx_act (n : Nat) (f : Ctx → Ctx) : (s.updCtx n f).act = s.act := rfl
@[simp] theorem State.updCtx_shd (n : Nat) (f : Ctx → Ctx) : (s.updCtx n f).shd = s.shd := rfl
@[simp] theorem State.updCtx_lock (n : Nat) (f : Ctx → Ctx) : (s.updCtx n f).lock = s.lock := rfl
@[simp] theorem State.updCtx_dom (n : Nat) (f : Ctx → Ctx) : (s.updCtx n f).dom = s.dom := rfl
@[simp] theorem State.updCtx_disc (n : Nat) (f : Ctx → Ctx) : (s.updCtx n f).disc = s.disc := rfl
@[simp] theorem State.updCtx_rootw (n : Nat) (f : Ctx → Ctx) : (s.updCtx n f).rootw = s.rootw := rfl
@[simp] theorem State.updCtx_pair (n : Nat) (f : Ctx → Ctx) : (s.updCtx n f).pair = s.pair := rfl
@[simp] theorem State.updCtx_fab (n : Nat) (f : Ctx → Ctx) : (s.updCtx n f).fab = s.fab := rfl
@[simp] theorem State.updCtx_mem (n : Nat) (f : Ctx → Ctx) : (s.updCtx n f).mem = s.mem := rfl
@[simp] theorem State.updCtx_parts (n : Nat) (f : Ctx → Ctx) : (s.updCtx n f).parts = s.parts := rfl
@[simp] theorem State.updCtx_tiles (n : Nat) (f : Ctx → Ctx) : (s.updCtx n f).tiles = s.tiles := rfl
@[simp] theorem State.updCtx_xlt (n : Nat) (f : Ctx → Ctx) : (s.updCtx n f).xlt = s.xlt := rfl
@[simp] theorem State.updCtx_pcie (n : Nat) (f : Ctx → Ctx) : (s.updCtx n f).pcie = s.pcie := rfl
@[simp] theorem State.updCtx_insts (n : Nat) (f : Ctx → Ctx) : (s.updCtx n f).insts = s.insts := rfl
@[simp] theorem State.updCtx_fns (n : Nat) (f : Ctx → Ctx) : (s.updCtx n f).fns = s.fns := rfl
@[simp] theorem State.updCtx_sqs (n : Nat) (f : Ctx → Ctx) : (s.updCtx n f).sqs = s.sqs := rfl
@[simp] theorem State.updCtx_cqs (n : Nat) (f : Ctx → Ctx) : (s.updCtx n f).cqs = s.cqs := rfl
@[simp] theorem State.updCtx_drs (n : Nat) (f : Ctx → Ctx) : (s.updCtx n f).drs = s.drs := rfl
@[simp] theorem State.updCtx_ops (n : Nat) (f : Ctx → Ctx) : (s.updCtx n f).ops = s.ops := rfl
@[simp] theorem State.updCtx_slots (n : Nat) (f : Ctx → Ctx) : (s.updCtx n f).slots = s.slots := rfl
@[simp] theorem State.updCtx_stands (n : Nat) (f : Ctx → Ctx) : (s.updCtx n f).stands = s.stands := rfl
@[simp] theorem State.updCtx_colls (n : Nat) (f : Ctx → Ctx) : (s.updCtx n f).colls = s.colls := rfl
@[simp] theorem State.updCtx_orders (n : Nat) (f : Ctx → Ctx) : (s.updCtx n f).orders = s.orders := rfl
@[simp] theorem State.updCtx_pass (n : Nat) (f : Ctx → Ctx) : (s.updCtx n f).pass = s.pass := rfl
@[simp] theorem State.updCtx_gal (n : Nat) (f : Ctx → Ctx) : (s.updCtx n f).gal = s.gal := rfl
@[simp] theorem State.updCtx_evq (n : Nat) (f : Ctx → Ctx) : (s.updCtx n f).evq = s.evq := rfl
@[simp] theorem State.updCtx_blkErr (n : Nat) (f : Ctx → Ctx) : (s.updCtx n f).blkErr = s.blkErr := rfl
@[simp] theorem State.updCtx_incDrops (n : Nat) (f : Ctx → Ctx) : (s.updCtx n f).incDrops = s.incDrops := rfl
@[simp] theorem State.updCtx_mgr (n : Nat) (f : Ctx → Ctx) : (s.updCtx n f).mgr = s.mgr := rfl
@[simp] theorem State.updCtx_dlog (n : Nat) (f : Ctx → Ctx) : (s.updCtx n f).dlog = s.dlog := rfl
@[simp] theorem State.updCtx_sec (n : Nat) (f : Ctx → Ctx) : (s.updCtx n f).sec = s.sec := rfl
@[simp] theorem State.updCtx_safe (n : Nat) (f : Ctx → Ctx) : (s.updCtx n f).safe = s.safe := rfl
@[simp] theorem State.updCtx_safest (n : Nat) (f : Ctx → Ctx) : (s.updCtx n f).safest = s.safest := rfl

@[simp] theorem State.updOp_pending (n : Nat) (f : OpEntry → OpEntry) : (s.updOp n f).pending = s.pending := rfl
@[simp] theorem State.updOp_out (n : Nat) (f : OpEntry → OpEntry) : (s.updOp n f).out = s.out := rfl
@[simp] theorem State.updOp_fresh (n : Nat) (f : OpEntry → OpEntry) : (s.updOp n f).fresh = s.fresh := rfl
@[simp] theorem State.updOp_fuses (n : Nat) (f : OpEntry → OpEntry) : (s.updOp n f).fuses = s.fuses := rfl
@[simp] theorem State.updOp_boot (n : Nat) (f : OpEntry → OpEntry) : (s.updOp n f).boot = s.boot := rfl
@[simp] theorem State.updOp_flash (n : Nat) (f : OpEntry → OpEntry) : (s.updOp n f).flash = s.flash := rfl
@[simp] theorem State.updOp_pins (n : Nat) (f : OpEntry → OpEntry) : (s.updOp n f).pins = s.pins := rfl
@[simp] theorem State.updOp_clk (n : Nat) (f : OpEntry → OpEntry) : (s.updOp n f).clk = s.clk := rfl
@[simp] theorem State.updOp_pwr (n : Nat) (f : OpEntry → OpEntry) : (s.updOp n f).pwr = s.pwr := rfl
@[simp] theorem State.updOp_hold (n : Nat) (f : OpEntry → OpEntry) : (s.updOp n f).hold = s.hold := rfl
@[simp] theorem State.updOp_act (n : Nat) (f : OpEntry → OpEntry) : (s.updOp n f).act = s.act := rfl
@[simp] theorem State.updOp_shd (n : Nat) (f : OpEntry → OpEntry) : (s.updOp n f).shd = s.shd := rfl
@[simp] theorem State.updOp_lock (n : Nat) (f : OpEntry → OpEntry) : (s.updOp n f).lock = s.lock := rfl
@[simp] theorem State.updOp_dom (n : Nat) (f : OpEntry → OpEntry) : (s.updOp n f).dom = s.dom := rfl
@[simp] theorem State.updOp_disc (n : Nat) (f : OpEntry → OpEntry) : (s.updOp n f).disc = s.disc := rfl
@[simp] theorem State.updOp_rootw (n : Nat) (f : OpEntry → OpEntry) : (s.updOp n f).rootw = s.rootw := rfl
@[simp] theorem State.updOp_pair (n : Nat) (f : OpEntry → OpEntry) : (s.updOp n f).pair = s.pair := rfl
@[simp] theorem State.updOp_fab (n : Nat) (f : OpEntry → OpEntry) : (s.updOp n f).fab = s.fab := rfl
@[simp] theorem State.updOp_mem (n : Nat) (f : OpEntry → OpEntry) : (s.updOp n f).mem = s.mem := rfl
@[simp] theorem State.updOp_parts (n : Nat) (f : OpEntry → OpEntry) : (s.updOp n f).parts = s.parts := rfl
@[simp] theorem State.updOp_tiles (n : Nat) (f : OpEntry → OpEntry) : (s.updOp n f).tiles = s.tiles := rfl
@[simp] theorem State.updOp_xlt (n : Nat) (f : OpEntry → OpEntry) : (s.updOp n f).xlt = s.xlt := rfl
@[simp] theorem State.updOp_pcie (n : Nat) (f : OpEntry → OpEntry) : (s.updOp n f).pcie = s.pcie := rfl
@[simp] theorem State.updOp_insts (n : Nat) (f : OpEntry → OpEntry) : (s.updOp n f).insts = s.insts := rfl
@[simp] theorem State.updOp_fns (n : Nat) (f : OpEntry → OpEntry) : (s.updOp n f).fns = s.fns := rfl
@[simp] theorem State.updOp_sqs (n : Nat) (f : OpEntry → OpEntry) : (s.updOp n f).sqs = s.sqs := rfl
@[simp] theorem State.updOp_cqs (n : Nat) (f : OpEntry → OpEntry) : (s.updOp n f).cqs = s.cqs := rfl
@[simp] theorem State.updOp_drs (n : Nat) (f : OpEntry → OpEntry) : (s.updOp n f).drs = s.drs := rfl
@[simp] theorem State.updOp_ctxs (n : Nat) (f : OpEntry → OpEntry) : (s.updOp n f).ctxs = s.ctxs := rfl
@[simp] theorem State.updOp_slots (n : Nat) (f : OpEntry → OpEntry) : (s.updOp n f).slots = s.slots := rfl
@[simp] theorem State.updOp_stands (n : Nat) (f : OpEntry → OpEntry) : (s.updOp n f).stands = s.stands := rfl
@[simp] theorem State.updOp_colls (n : Nat) (f : OpEntry → OpEntry) : (s.updOp n f).colls = s.colls := rfl
@[simp] theorem State.updOp_orders (n : Nat) (f : OpEntry → OpEntry) : (s.updOp n f).orders = s.orders := rfl
@[simp] theorem State.updOp_pass (n : Nat) (f : OpEntry → OpEntry) : (s.updOp n f).pass = s.pass := rfl
@[simp] theorem State.updOp_gal (n : Nat) (f : OpEntry → OpEntry) : (s.updOp n f).gal = s.gal := rfl
@[simp] theorem State.updOp_evq (n : Nat) (f : OpEntry → OpEntry) : (s.updOp n f).evq = s.evq := rfl
@[simp] theorem State.updOp_blkErr (n : Nat) (f : OpEntry → OpEntry) : (s.updOp n f).blkErr = s.blkErr := rfl
@[simp] theorem State.updOp_incDrops (n : Nat) (f : OpEntry → OpEntry) : (s.updOp n f).incDrops = s.incDrops := rfl
@[simp] theorem State.updOp_mgr (n : Nat) (f : OpEntry → OpEntry) : (s.updOp n f).mgr = s.mgr := rfl
@[simp] theorem State.updOp_dlog (n : Nat) (f : OpEntry → OpEntry) : (s.updOp n f).dlog = s.dlog := rfl
@[simp] theorem State.updOp_sec (n : Nat) (f : OpEntry → OpEntry) : (s.updOp n f).sec = s.sec := rfl
@[simp] theorem State.updOp_safe (n : Nat) (f : OpEntry → OpEntry) : (s.updOp n f).safe = s.safe := rfl
@[simp] theorem State.updOp_safest (n : Nat) (f : OpEntry → OpEntry) : (s.updOp n f).safest = s.safest := rfl

@[simp] theorem State.updPort_pending (n : Nat) (f : Port → Port) : (s.updPort n f).pending = s.pending := rfl
@[simp] theorem State.updPort_out (n : Nat) (f : Port → Port) : (s.updPort n f).out = s.out := rfl
@[simp] theorem State.updPort_fresh (n : Nat) (f : Port → Port) : (s.updPort n f).fresh = s.fresh := rfl
@[simp] theorem State.updPort_fuses (n : Nat) (f : Port → Port) : (s.updPort n f).fuses = s.fuses := rfl
@[simp] theorem State.updPort_boot (n : Nat) (f : Port → Port) : (s.updPort n f).boot = s.boot := rfl
@[simp] theorem State.updPort_flash (n : Nat) (f : Port → Port) : (s.updPort n f).flash = s.flash := rfl
@[simp] theorem State.updPort_pins (n : Nat) (f : Port → Port) : (s.updPort n f).pins = s.pins := rfl
@[simp] theorem State.updPort_clk (n : Nat) (f : Port → Port) : (s.updPort n f).clk = s.clk := rfl
@[simp] theorem State.updPort_pwr (n : Nat) (f : Port → Port) : (s.updPort n f).pwr = s.pwr := rfl
@[simp] theorem State.updPort_hold (n : Nat) (f : Port → Port) : (s.updPort n f).hold = s.hold := rfl
@[simp] theorem State.updPort_act (n : Nat) (f : Port → Port) : (s.updPort n f).act = s.act := rfl
@[simp] theorem State.updPort_shd (n : Nat) (f : Port → Port) : (s.updPort n f).shd = s.shd := rfl
@[simp] theorem State.updPort_lock (n : Nat) (f : Port → Port) : (s.updPort n f).lock = s.lock := rfl
@[simp] theorem State.updPort_dom (n : Nat) (f : Port → Port) : (s.updPort n f).dom = s.dom := rfl
@[simp] theorem State.updPort_disc (n : Nat) (f : Port → Port) : (s.updPort n f).disc = s.disc := rfl
@[simp] theorem State.updPort_rootw (n : Nat) (f : Port → Port) : (s.updPort n f).rootw = s.rootw := rfl
@[simp] theorem State.updPort_pair (n : Nat) (f : Port → Port) : (s.updPort n f).pair = s.pair := rfl
@[simp] theorem State.updPort_mem (n : Nat) (f : Port → Port) : (s.updPort n f).mem = s.mem := rfl
@[simp] theorem State.updPort_parts (n : Nat) (f : Port → Port) : (s.updPort n f).parts = s.parts := rfl
@[simp] theorem State.updPort_tiles (n : Nat) (f : Port → Port) : (s.updPort n f).tiles = s.tiles := rfl
@[simp] theorem State.updPort_xlt (n : Nat) (f : Port → Port) : (s.updPort n f).xlt = s.xlt := rfl
@[simp] theorem State.updPort_pcie (n : Nat) (f : Port → Port) : (s.updPort n f).pcie = s.pcie := rfl
@[simp] theorem State.updPort_insts (n : Nat) (f : Port → Port) : (s.updPort n f).insts = s.insts := rfl
@[simp] theorem State.updPort_fns (n : Nat) (f : Port → Port) : (s.updPort n f).fns = s.fns := rfl
@[simp] theorem State.updPort_sqs (n : Nat) (f : Port → Port) : (s.updPort n f).sqs = s.sqs := rfl
@[simp] theorem State.updPort_cqs (n : Nat) (f : Port → Port) : (s.updPort n f).cqs = s.cqs := rfl
@[simp] theorem State.updPort_drs (n : Nat) (f : Port → Port) : (s.updPort n f).drs = s.drs := rfl
@[simp] theorem State.updPort_ctxs (n : Nat) (f : Port → Port) : (s.updPort n f).ctxs = s.ctxs := rfl
@[simp] theorem State.updPort_ops (n : Nat) (f : Port → Port) : (s.updPort n f).ops = s.ops := rfl
@[simp] theorem State.updPort_slots (n : Nat) (f : Port → Port) : (s.updPort n f).slots = s.slots := rfl
@[simp] theorem State.updPort_stands (n : Nat) (f : Port → Port) : (s.updPort n f).stands = s.stands := rfl
@[simp] theorem State.updPort_colls (n : Nat) (f : Port → Port) : (s.updPort n f).colls = s.colls := rfl
@[simp] theorem State.updPort_orders (n : Nat) (f : Port → Port) : (s.updPort n f).orders = s.orders := rfl
@[simp] theorem State.updPort_pass (n : Nat) (f : Port → Port) : (s.updPort n f).pass = s.pass := rfl
@[simp] theorem State.updPort_gal (n : Nat) (f : Port → Port) : (s.updPort n f).gal = s.gal := rfl
@[simp] theorem State.updPort_evq (n : Nat) (f : Port → Port) : (s.updPort n f).evq = s.evq := rfl
@[simp] theorem State.updPort_blkErr (n : Nat) (f : Port → Port) : (s.updPort n f).blkErr = s.blkErr := rfl
@[simp] theorem State.updPort_incDrops (n : Nat) (f : Port → Port) : (s.updPort n f).incDrops = s.incDrops := rfl
@[simp] theorem State.updPort_mgr (n : Nat) (f : Port → Port) : (s.updPort n f).mgr = s.mgr := rfl
@[simp] theorem State.updPort_dlog (n : Nat) (f : Port → Port) : (s.updPort n f).dlog = s.dlog := rfl
@[simp] theorem State.updPort_sec (n : Nat) (f : Port → Port) : (s.updPort n f).sec = s.sec := rfl
@[simp] theorem State.updPort_safe (n : Nat) (f : Port → Port) : (s.updPort n f).safe = s.safe := rfl
@[simp] theorem State.updPort_safest (n : Nat) (f : Port → Port) : (s.updPort n f).safest = s.safest := rfl

@[simp] theorem State.updFc_pending (n : Nat) (f : FnCfg → FnCfg) : (s.updFc n f).pending = s.pending := rfl
@[simp] theorem State.updFc_out (n : Nat) (f : FnCfg → FnCfg) : (s.updFc n f).out = s.out := rfl
@[simp] theorem State.updFc_fresh (n : Nat) (f : FnCfg → FnCfg) : (s.updFc n f).fresh = s.fresh := rfl
@[simp] theorem State.updFc_fuses (n : Nat) (f : FnCfg → FnCfg) : (s.updFc n f).fuses = s.fuses := rfl
@[simp] theorem State.updFc_boot (n : Nat) (f : FnCfg → FnCfg) : (s.updFc n f).boot = s.boot := rfl
@[simp] theorem State.updFc_flash (n : Nat) (f : FnCfg → FnCfg) : (s.updFc n f).flash = s.flash := rfl
@[simp] theorem State.updFc_pins (n : Nat) (f : FnCfg → FnCfg) : (s.updFc n f).pins = s.pins := rfl
@[simp] theorem State.updFc_clk (n : Nat) (f : FnCfg → FnCfg) : (s.updFc n f).clk = s.clk := rfl
@[simp] theorem State.updFc_pwr (n : Nat) (f : FnCfg → FnCfg) : (s.updFc n f).pwr = s.pwr := rfl
@[simp] theorem State.updFc_hold (n : Nat) (f : FnCfg → FnCfg) : (s.updFc n f).hold = s.hold := rfl
@[simp] theorem State.updFc_act (n : Nat) (f : FnCfg → FnCfg) : (s.updFc n f).act = s.act := rfl
@[simp] theorem State.updFc_shd (n : Nat) (f : FnCfg → FnCfg) : (s.updFc n f).shd = s.shd := rfl
@[simp] theorem State.updFc_lock (n : Nat) (f : FnCfg → FnCfg) : (s.updFc n f).lock = s.lock := rfl
@[simp] theorem State.updFc_dom (n : Nat) (f : FnCfg → FnCfg) : (s.updFc n f).dom = s.dom := rfl
@[simp] theorem State.updFc_disc (n : Nat) (f : FnCfg → FnCfg) : (s.updFc n f).disc = s.disc := rfl
@[simp] theorem State.updFc_rootw (n : Nat) (f : FnCfg → FnCfg) : (s.updFc n f).rootw = s.rootw := rfl
@[simp] theorem State.updFc_pair (n : Nat) (f : FnCfg → FnCfg) : (s.updFc n f).pair = s.pair := rfl
@[simp] theorem State.updFc_fab (n : Nat) (f : FnCfg → FnCfg) : (s.updFc n f).fab = s.fab := rfl
@[simp] theorem State.updFc_mem (n : Nat) (f : FnCfg → FnCfg) : (s.updFc n f).mem = s.mem := rfl
@[simp] theorem State.updFc_parts (n : Nat) (f : FnCfg → FnCfg) : (s.updFc n f).parts = s.parts := rfl
@[simp] theorem State.updFc_tiles (n : Nat) (f : FnCfg → FnCfg) : (s.updFc n f).tiles = s.tiles := rfl
@[simp] theorem State.updFc_xlt (n : Nat) (f : FnCfg → FnCfg) : (s.updFc n f).xlt = s.xlt := rfl
@[simp] theorem State.updFc_insts (n : Nat) (f : FnCfg → FnCfg) : (s.updFc n f).insts = s.insts := rfl
@[simp] theorem State.updFc_fns (n : Nat) (f : FnCfg → FnCfg) : (s.updFc n f).fns = s.fns := rfl
@[simp] theorem State.updFc_sqs (n : Nat) (f : FnCfg → FnCfg) : (s.updFc n f).sqs = s.sqs := rfl
@[simp] theorem State.updFc_cqs (n : Nat) (f : FnCfg → FnCfg) : (s.updFc n f).cqs = s.cqs := rfl
@[simp] theorem State.updFc_drs (n : Nat) (f : FnCfg → FnCfg) : (s.updFc n f).drs = s.drs := rfl
@[simp] theorem State.updFc_ctxs (n : Nat) (f : FnCfg → FnCfg) : (s.updFc n f).ctxs = s.ctxs := rfl
@[simp] theorem State.updFc_ops (n : Nat) (f : FnCfg → FnCfg) : (s.updFc n f).ops = s.ops := rfl
@[simp] theorem State.updFc_slots (n : Nat) (f : FnCfg → FnCfg) : (s.updFc n f).slots = s.slots := rfl
@[simp] theorem State.updFc_stands (n : Nat) (f : FnCfg → FnCfg) : (s.updFc n f).stands = s.stands := rfl
@[simp] theorem State.updFc_colls (n : Nat) (f : FnCfg → FnCfg) : (s.updFc n f).colls = s.colls := rfl
@[simp] theorem State.updFc_orders (n : Nat) (f : FnCfg → FnCfg) : (s.updFc n f).orders = s.orders := rfl
@[simp] theorem State.updFc_pass (n : Nat) (f : FnCfg → FnCfg) : (s.updFc n f).pass = s.pass := rfl
@[simp] theorem State.updFc_gal (n : Nat) (f : FnCfg → FnCfg) : (s.updFc n f).gal = s.gal := rfl
@[simp] theorem State.updFc_evq (n : Nat) (f : FnCfg → FnCfg) : (s.updFc n f).evq = s.evq := rfl
@[simp] theorem State.updFc_blkErr (n : Nat) (f : FnCfg → FnCfg) : (s.updFc n f).blkErr = s.blkErr := rfl
@[simp] theorem State.updFc_incDrops (n : Nat) (f : FnCfg → FnCfg) : (s.updFc n f).incDrops = s.incDrops := rfl
@[simp] theorem State.updFc_mgr (n : Nat) (f : FnCfg → FnCfg) : (s.updFc n f).mgr = s.mgr := rfl
@[simp] theorem State.updFc_dlog (n : Nat) (f : FnCfg → FnCfg) : (s.updFc n f).dlog = s.dlog := rfl
@[simp] theorem State.updFc_sec (n : Nat) (f : FnCfg → FnCfg) : (s.updFc n f).sec = s.sec := rfl
@[simp] theorem State.updFc_safe (n : Nat) (f : FnCfg → FnCfg) : (s.updFc n f).safe = s.safe := rfl
@[simp] theorem State.updFc_safest (n : Nat) (f : FnCfg → FnCfg) : (s.updFc n f).safest = s.safest := rfl

@[simp] theorem State.updUnit_pending (n : Nat) (f : PUnit → PUnit) : (s.updUnit n f).pending = s.pending := rfl
@[simp] theorem State.updUnit_out (n : Nat) (f : PUnit → PUnit) : (s.updUnit n f).out = s.out := rfl
@[simp] theorem State.updUnit_fresh (n : Nat) (f : PUnit → PUnit) : (s.updUnit n f).fresh = s.fresh := rfl
@[simp] theorem State.updUnit_fuses (n : Nat) (f : PUnit → PUnit) : (s.updUnit n f).fuses = s.fuses := rfl
@[simp] theorem State.updUnit_boot (n : Nat) (f : PUnit → PUnit) : (s.updUnit n f).boot = s.boot := rfl
@[simp] theorem State.updUnit_flash (n : Nat) (f : PUnit → PUnit) : (s.updUnit n f).flash = s.flash := rfl
@[simp] theorem State.updUnit_pins (n : Nat) (f : PUnit → PUnit) : (s.updUnit n f).pins = s.pins := rfl
@[simp] theorem State.updUnit_clk (n : Nat) (f : PUnit → PUnit) : (s.updUnit n f).clk = s.clk := rfl
@[simp] theorem State.updUnit_hold (n : Nat) (f : PUnit → PUnit) : (s.updUnit n f).hold = s.hold := rfl
@[simp] theorem State.updUnit_act (n : Nat) (f : PUnit → PUnit) : (s.updUnit n f).act = s.act := rfl
@[simp] theorem State.updUnit_shd (n : Nat) (f : PUnit → PUnit) : (s.updUnit n f).shd = s.shd := rfl
@[simp] theorem State.updUnit_lock (n : Nat) (f : PUnit → PUnit) : (s.updUnit n f).lock = s.lock := rfl
@[simp] theorem State.updUnit_dom (n : Nat) (f : PUnit → PUnit) : (s.updUnit n f).dom = s.dom := rfl
@[simp] theorem State.updUnit_disc (n : Nat) (f : PUnit → PUnit) : (s.updUnit n f).disc = s.disc := rfl
@[simp] theorem State.updUnit_rootw (n : Nat) (f : PUnit → PUnit) : (s.updUnit n f).rootw = s.rootw := rfl
@[simp] theorem State.updUnit_pair (n : Nat) (f : PUnit → PUnit) : (s.updUnit n f).pair = s.pair := rfl
@[simp] theorem State.updUnit_fab (n : Nat) (f : PUnit → PUnit) : (s.updUnit n f).fab = s.fab := rfl
@[simp] theorem State.updUnit_mem (n : Nat) (f : PUnit → PUnit) : (s.updUnit n f).mem = s.mem := rfl
@[simp] theorem State.updUnit_parts (n : Nat) (f : PUnit → PUnit) : (s.updUnit n f).parts = s.parts := rfl
@[simp] theorem State.updUnit_tiles (n : Nat) (f : PUnit → PUnit) : (s.updUnit n f).tiles = s.tiles := rfl
@[simp] theorem State.updUnit_xlt (n : Nat) (f : PUnit → PUnit) : (s.updUnit n f).xlt = s.xlt := rfl
@[simp] theorem State.updUnit_pcie (n : Nat) (f : PUnit → PUnit) : (s.updUnit n f).pcie = s.pcie := rfl
@[simp] theorem State.updUnit_insts (n : Nat) (f : PUnit → PUnit) : (s.updUnit n f).insts = s.insts := rfl
@[simp] theorem State.updUnit_fns (n : Nat) (f : PUnit → PUnit) : (s.updUnit n f).fns = s.fns := rfl
@[simp] theorem State.updUnit_sqs (n : Nat) (f : PUnit → PUnit) : (s.updUnit n f).sqs = s.sqs := rfl
@[simp] theorem State.updUnit_cqs (n : Nat) (f : PUnit → PUnit) : (s.updUnit n f).cqs = s.cqs := rfl
@[simp] theorem State.updUnit_drs (n : Nat) (f : PUnit → PUnit) : (s.updUnit n f).drs = s.drs := rfl
@[simp] theorem State.updUnit_ctxs (n : Nat) (f : PUnit → PUnit) : (s.updUnit n f).ctxs = s.ctxs := rfl
@[simp] theorem State.updUnit_ops (n : Nat) (f : PUnit → PUnit) : (s.updUnit n f).ops = s.ops := rfl
@[simp] theorem State.updUnit_slots (n : Nat) (f : PUnit → PUnit) : (s.updUnit n f).slots = s.slots := rfl
@[simp] theorem State.updUnit_stands (n : Nat) (f : PUnit → PUnit) : (s.updUnit n f).stands = s.stands := rfl
@[simp] theorem State.updUnit_colls (n : Nat) (f : PUnit → PUnit) : (s.updUnit n f).colls = s.colls := rfl
@[simp] theorem State.updUnit_orders (n : Nat) (f : PUnit → PUnit) : (s.updUnit n f).orders = s.orders := rfl
@[simp] theorem State.updUnit_pass (n : Nat) (f : PUnit → PUnit) : (s.updUnit n f).pass = s.pass := rfl
@[simp] theorem State.updUnit_gal (n : Nat) (f : PUnit → PUnit) : (s.updUnit n f).gal = s.gal := rfl
@[simp] theorem State.updUnit_evq (n : Nat) (f : PUnit → PUnit) : (s.updUnit n f).evq = s.evq := rfl
@[simp] theorem State.updUnit_blkErr (n : Nat) (f : PUnit → PUnit) : (s.updUnit n f).blkErr = s.blkErr := rfl
@[simp] theorem State.updUnit_incDrops (n : Nat) (f : PUnit → PUnit) : (s.updUnit n f).incDrops = s.incDrops := rfl
@[simp] theorem State.updUnit_mgr (n : Nat) (f : PUnit → PUnit) : (s.updUnit n f).mgr = s.mgr := rfl
@[simp] theorem State.updUnit_dlog (n : Nat) (f : PUnit → PUnit) : (s.updUnit n f).dlog = s.dlog := rfl
@[simp] theorem State.updUnit_sec (n : Nat) (f : PUnit → PUnit) : (s.updUnit n f).sec = s.sec := rfl
@[simp] theorem State.updUnit_safe (n : Nat) (f : PUnit → PUnit) : (s.updUnit n f).safe = s.safe := rfl
@[simp] theorem State.updUnit_safest (n : Nat) (f : PUnit → PUnit) : (s.updUnit n f).safest = s.safest := rfl

@[simp] theorem State.updTile_pending (n : Nat) (f : Tile → Tile) : (s.updTile n f).pending = s.pending := rfl
@[simp] theorem State.updTile_out (n : Nat) (f : Tile → Tile) : (s.updTile n f).out = s.out := rfl
@[simp] theorem State.updTile_fresh (n : Nat) (f : Tile → Tile) : (s.updTile n f).fresh = s.fresh := rfl
@[simp] theorem State.updTile_fuses (n : Nat) (f : Tile → Tile) : (s.updTile n f).fuses = s.fuses := rfl
@[simp] theorem State.updTile_boot (n : Nat) (f : Tile → Tile) : (s.updTile n f).boot = s.boot := rfl
@[simp] theorem State.updTile_flash (n : Nat) (f : Tile → Tile) : (s.updTile n f).flash = s.flash := rfl
@[simp] theorem State.updTile_pins (n : Nat) (f : Tile → Tile) : (s.updTile n f).pins = s.pins := rfl
@[simp] theorem State.updTile_clk (n : Nat) (f : Tile → Tile) : (s.updTile n f).clk = s.clk := rfl
@[simp] theorem State.updTile_pwr (n : Nat) (f : Tile → Tile) : (s.updTile n f).pwr = s.pwr := rfl
@[simp] theorem State.updTile_hold (n : Nat) (f : Tile → Tile) : (s.updTile n f).hold = s.hold := rfl
@[simp] theorem State.updTile_act (n : Nat) (f : Tile → Tile) : (s.updTile n f).act = s.act := rfl
@[simp] theorem State.updTile_shd (n : Nat) (f : Tile → Tile) : (s.updTile n f).shd = s.shd := rfl
@[simp] theorem State.updTile_lock (n : Nat) (f : Tile → Tile) : (s.updTile n f).lock = s.lock := rfl
@[simp] theorem State.updTile_dom (n : Nat) (f : Tile → Tile) : (s.updTile n f).dom = s.dom := rfl
@[simp] theorem State.updTile_disc (n : Nat) (f : Tile → Tile) : (s.updTile n f).disc = s.disc := rfl
@[simp] theorem State.updTile_rootw (n : Nat) (f : Tile → Tile) : (s.updTile n f).rootw = s.rootw := rfl
@[simp] theorem State.updTile_pair (n : Nat) (f : Tile → Tile) : (s.updTile n f).pair = s.pair := rfl
@[simp] theorem State.updTile_fab (n : Nat) (f : Tile → Tile) : (s.updTile n f).fab = s.fab := rfl
@[simp] theorem State.updTile_mem (n : Nat) (f : Tile → Tile) : (s.updTile n f).mem = s.mem := rfl
@[simp] theorem State.updTile_parts (n : Nat) (f : Tile → Tile) : (s.updTile n f).parts = s.parts := rfl
@[simp] theorem State.updTile_xlt (n : Nat) (f : Tile → Tile) : (s.updTile n f).xlt = s.xlt := rfl
@[simp] theorem State.updTile_pcie (n : Nat) (f : Tile → Tile) : (s.updTile n f).pcie = s.pcie := rfl
@[simp] theorem State.updTile_insts (n : Nat) (f : Tile → Tile) : (s.updTile n f).insts = s.insts := rfl
@[simp] theorem State.updTile_fns (n : Nat) (f : Tile → Tile) : (s.updTile n f).fns = s.fns := rfl
@[simp] theorem State.updTile_sqs (n : Nat) (f : Tile → Tile) : (s.updTile n f).sqs = s.sqs := rfl
@[simp] theorem State.updTile_cqs (n : Nat) (f : Tile → Tile) : (s.updTile n f).cqs = s.cqs := rfl
@[simp] theorem State.updTile_drs (n : Nat) (f : Tile → Tile) : (s.updTile n f).drs = s.drs := rfl
@[simp] theorem State.updTile_ctxs (n : Nat) (f : Tile → Tile) : (s.updTile n f).ctxs = s.ctxs := rfl
@[simp] theorem State.updTile_ops (n : Nat) (f : Tile → Tile) : (s.updTile n f).ops = s.ops := rfl
@[simp] theorem State.updTile_slots (n : Nat) (f : Tile → Tile) : (s.updTile n f).slots = s.slots := rfl
@[simp] theorem State.updTile_stands (n : Nat) (f : Tile → Tile) : (s.updTile n f).stands = s.stands := rfl
@[simp] theorem State.updTile_colls (n : Nat) (f : Tile → Tile) : (s.updTile n f).colls = s.colls := rfl
@[simp] theorem State.updTile_orders (n : Nat) (f : Tile → Tile) : (s.updTile n f).orders = s.orders := rfl
@[simp] theorem State.updTile_pass (n : Nat) (f : Tile → Tile) : (s.updTile n f).pass = s.pass := rfl
@[simp] theorem State.updTile_gal (n : Nat) (f : Tile → Tile) : (s.updTile n f).gal = s.gal := rfl
@[simp] theorem State.updTile_evq (n : Nat) (f : Tile → Tile) : (s.updTile n f).evq = s.evq := rfl
@[simp] theorem State.updTile_blkErr (n : Nat) (f : Tile → Tile) : (s.updTile n f).blkErr = s.blkErr := rfl
@[simp] theorem State.updTile_incDrops (n : Nat) (f : Tile → Tile) : (s.updTile n f).incDrops = s.incDrops := rfl
@[simp] theorem State.updTile_mgr (n : Nat) (f : Tile → Tile) : (s.updTile n f).mgr = s.mgr := rfl
@[simp] theorem State.updTile_dlog (n : Nat) (f : Tile → Tile) : (s.updTile n f).dlog = s.dlog := rfl
@[simp] theorem State.updTile_sec (n : Nat) (f : Tile → Tile) : (s.updTile n f).sec = s.sec := rfl
@[simp] theorem State.updTile_safe (n : Nat) (f : Tile → Tile) : (s.updTile n f).safe = s.safe := rfl
@[simp] theorem State.updTile_safest (n : Nat) (f : Tile → Tile) : (s.updTile n f).safest = s.safest := rfl

@[simp] theorem State.emit_out (o : Out) : (s.emit o).out = s.out ++ [o] := rfl
@[simp] theorem State.emits_out (os : List Out) : (s.emits os).out = s.out ++ os := rfl
@[simp] theorem State.updPort_ports (n : Nat) (f : Port → Port) : (s.updPort n f).fab.ports = Tbl.upd Port.reset s.fab.ports n f := rfl
@[simp] theorem State.updFc_pcieFns (n : Nat) (f : FnCfg → FnCfg) : (s.updFc n f).pcie.fns = Tbl.upd FnCfg.reset s.pcie.fns n f := rfl

end Sys2Proof.Machine
end

