-- ==== Sys2Proof/Laws/Memory.lean ====
section
/-! SUPPORT. Device memory: what leaves it alone, and the canonical form that every operation on it keeps (log 6). -/

namespace Sys2Proof.Machine

set_option linter.all false

/-! ## Events, errors and packets leave memory alone -/

theorem mem_fold {α : Type} {g : State → α → State} {l : List α} {s : State} {r : Mem} (h : ∀ s a, (g s a).mem = s.mem) (h0 : s.mem = r) : (l.foldl g s).mem = r := by
  induction l generalizing s with
  | nil => exact h0
  | cons a t ih => exact ih ((h s a).trans h0)

@[simp] theorem State.draw_mem (x0 : State) (x1 : Nat) : (State.draw x0 x1).2.mem = x0.mem := by simp [State.draw]
@[simp] theorem State.drawBytes_mem (x0 : State) (x1 : ℕ) : (State.drawBytes x0 x1).2.mem = x0.mem := by simp [State.drawBytes]
@[simp] theorem State.updVec_mem (x0 : State) (x1 : ℕ) (x2 : ℕ) (x3 : Vec → Vec) : (State.updVec x0 x1 x2 x3).mem = x0.mem := by simp [State.updVec]
@[simp] theorem State.bmeCount_mem (x0 : State) (x1 : ℕ) : (State.bmeCount x0 x1).mem = x0.mem := by simp [State.bmeCount]
@[simp] theorem State.bmeDiscard_mem (x0 : State) (x1 : ℕ) : (State.bmeDiscard x0 x1).mem = x0.mem := by
  unfold State.bmeDiscard
  repeat' (first | (simp +zetaDelta [*]; done) | split | dsimp only)
@[simp] theorem State.sendWrite_mem (x0 : State) (x1 : ℕ) (x2 : ℕ) (x3 : List Byte) (x4 : Bool) : (State.sendWrite x0 x1 x2 x3 x4).mem = x0.mem := by simp [State.sendWrite]
@[simp] theorem State.dlogPut_mem (x0 : State) (x1 : ℕ) (x2 : ℕ) : (State.dlogPut x0 x1 x2).mem = x0.mem := by
  unfold State.dlogPut
  repeat' (first | (simp +zetaDelta [*]; done) | split | dsimp only)
@[simp] theorem State.dlogAll_mem (x0 : State) (x1 : ℕ) (x2 : List ℕ) : (State.dlogAll x0 x1 x2).1.mem = x0.mem := by
  fun_induction State.dlogAll x0 x1 x2 <;> simp_all
@[simp] theorem State.hold__mem (x0 : State) (x1 : ℕ) (x2 : HeldPost) : (State.hold_ x0 x1 x2).mem = x0.mem := by simp [State.hold_]
@[simp] theorem State.postAs_mem (x0 : State) (x1 : ℕ) (x2 : ℕ) (x3 : List Byte) (x4 : Bool) (x5 : Bool) : (State.postAs x0 x1 x2 x3 x4 x5).mem = x0.mem := by
  unfold State.postAs
  repeat' (first | (simp +zetaDelta [*]; done) | split | dsimp only)
@[simp] theorem State.post_mem (x0 : State) (x1 : ℕ) (x2 : ℕ) (x3 : List Byte) (x4 : Bool) : (State.post x0 x1 x2 x3 x4).mem = x0.mem := by simp [State.post]
@[simp] theorem State.postRing_mem (x0 : State) (x1 : ℕ) (x2 : ℕ) (x3 : List Byte) : (State.postRing x0 x1 x2 x3).mem = x0.mem := by
  unfold State.postRing
  repeat' (first | (simp +zetaDelta [*]; done) | split | dsimp only)
@[simp] theorem State.message_mem (x0 : State) (x1 : ℕ) (x2 : ℕ) : (State.message x0 x1 x2).mem = x0.mem := by
  unfold State.message
  repeat' (first | (simp +zetaDelta [*]; done) | split | dsimp only)
@[simp] theorem State.cause_mem (x0 : State) (x1 : ℕ) (x2 : ℕ) : (State.cause x0 x1 x2).mem = x0.mem := by
  unfold State.cause
  repeat' (first | (simp +zetaDelta [*]; done) | split | dsimp only)
@[simp] theorem State.sendGroup_mem (x0 : State) (x1 : ℕ) (x2 : List (BitVec 12 × Flit)) : (State.sendGroup x0 x1 x2).mem = x0.mem := by simp [State.sendGroup]
@[simp] theorem State.sendFlits_mem (x0 : State) (x1 : ℕ) (x2 : List (BitVec 12 × Flit)) : (State.sendFlits x0 x1 x2).mem = x0.mem := by
  unfold State.sendFlits
  all_goals repeat' (first | (simp +zetaDelta [*]; done) | (split <;> try (rename_i h_; have k_ := congrArg (fun x => x.2.mem) h_; simp at k_)) | (refine mem_fold (fun _ _ => ?_) ?_) | simp +zetaDelta only [apply_ite State.mem] | simp +zetaDelta [*] | dsimp only)
@[simp] theorem State.pumpPort_mem (x0 : State) (x1 : ℕ) : (State.pumpPort x0 x1).mem = x0.mem := by simp [State.pumpPort]
@[simp] theorem State.sendOn_mem (x0 : State) (x1 : ℕ) (x2 : Packet) : (State.sendOn x0 x1 x2).mem = x0.mem := by simp [State.sendOn]
@[simp] theorem State.countDrop_mem (x0 : State) : (State.countDrop x0).mem = x0.mem := by simp [State.countDrop]
@[simp] theorem State.routeOut_mem (x0 : State) (x1 : Packet) (x2 : Option ℕ) : (State.routeOut x0 x1 x2).1.mem = x0.mem := by
  unfold State.routeOut
  all_goals repeat' (first | (simp +zetaDelta [*]; done) | (split <;> try (rename_i h_; have k_ := congrArg (fun x => x.2.mem) h_; simp at k_)) | (refine mem_fold (fun _ _ => ?_) ?_) | simp +zetaDelta only [apply_ite State.mem] | simp +zetaDelta [*] | dsimp only)
@[simp] theorem State.carried_mem (x0 : State) (x1 : Packet) (x2 : List ℕ) : (State.carried x0 x1 x2).mem = x0.mem := by
  unfold State.carried
  repeat' (first | (simp +zetaDelta [*]; done) | split | dsimp only)
@[simp] theorem State.injectQuiet_mem (x0 : State) (x1 : Packet) : (State.injectQuiet x0 x1).mem = x0.mem := by
  unfold State.injectQuiet
  repeat' (first | (simp +zetaDelta [*]; done) | split | dsimp only)
@[simp] theorem State.startXferBy_mem (x0 : State → Packet → State) (x1 : State) (x2 : Xfer) (h0 : ∀ t a, (x0 t a).mem = t.mem) : (State.startXferBy x0 x1 x2).mem = x1.mem := by
  unfold State.startXferBy
  all_goals repeat' (first | (simp +zetaDelta [*]; done) | (split <;> try (rename_i h_; have k_ := congrArg (fun x => x.2.mem) h_; simp at k_)) | (refine mem_fold (fun _ _ => ?_) ?_) | simp +zetaDelta only [apply_ite State.mem] | simp +zetaDelta [*] | dsimp only)
@[simp] theorem State.newXferBy_mem (x0 : State → Packet → State) (x1 : State) (x2 : ChipId) (x3 : Purpose) (x4 : List Packet) (h0 : ∀ t a, (x0 t a).mem = t.mem) : (State.newXferBy x0 x1 x2 x3 x4).mem = x1.mem := by
  unfold State.newXferBy
  repeat' (first | (simp +zetaDelta [*]; done) | split | dsimp only)
@[simp] theorem State.fifoPush_mem (x0 : State) (x1 : ℕ) (x2 : Sig) : (State.fifoPush x0 x1 x2).mem = x0.mem := by simp [State.fifoPush]
@[simp] theorem State.deviceSignal_mem (x0 : State) (x1 : Sig) : (State.deviceSignal x0 x1).mem = x0.mem := by
  unfold State.deviceSignal
  repeat' (first | (simp +zetaDelta [*]; done) | split | dsimp only)
@[simp] theorem State.evqWrite_mem (x0 : State) (x1 : List Byte) : (State.evqWrite x0 x1).mem = x0.mem := by
  unfold State.evqWrite
  repeat' (first | (simp +zetaDelta [*]; done) | split | dsimp only)
@[simp] theorem State.pushEvent_mem (x0 : State) (x1 : List Byte) : (State.pushEvent x0 x1).mem = x0.mem := by
  unfold State.pushEvent
  repeat' (first | (simp +zetaDelta [*]; done) | split | dsimp only)
@[simp] theorem State.event_mem (x0 : State) (x1 : ℕ) (x2 : ℕ) (x3 : ℕ) (x4 : ℕ) (x5 : ℕ) : (State.event x0 x1 x2 x3 x4 x5).mem = x0.mem := by
  unfold State.event
  repeat' (first | (simp +zetaDelta [*]; done) | split | dsimp only)
@[simp] theorem State.safeReport_mem (x0 : State) (x1 : ℕ) : (State.safeReport x0 x1).mem = x0.mem := by simp [State.safeReport]

/-! ## The canonical form -/

/-- The form rests on the bytes, the flips and the tags alone. -/
theorem Mem.wf_same {m n : Mem} (h : Mem.wf m = true) (hb : n.bytes = m.bytes) (hf : n.flips = m.flips) (ht : n.tagDiff = m.tagDiff) : Mem.wf n = true := by
  simp only [Mem.wf] at h ⊢
  rw [hb, hf, ht]; exact h

/-- A word's flips set keep the form. -/
theorem Mem.wf_flips {m : Mem} (h : Mem.wf m = true) (k : Nat) (v : BitVec 72) : Mem.wf { m with flips := Tbl.set 0 m.flips k v } = true := by
  simp only [Mem.wf, Bool.and_eq_true] at h ⊢
  exact ⟨h.1, Tbl.wf_set 0 m.flips k v h.2.1, h.2.2⟩

/-- A group's tag set keeps the form. -/
theorem Mem.wf_tag {m : Mem} (h : Mem.wf m = true) (k : Nat) (v : BitVec 64) : Mem.wf { m with tagDiff := Tbl.set 0 m.tagDiff k v } = true := by
  simp only [Mem.wf, Bool.and_eq_true] at h ⊢
  exact ⟨h.1, h.2.1, Tbl.wf_set 0 m.tagDiff k v h.2.2⟩

/-- A fold of an operation that keeps the form keeps it. -/
theorem wf_fold {α : Type} {g : State → α → State} (h : ∀ s a, Mem.wf s.mem = true → Mem.wf (g s a).mem = true) (l : List α) {s : State} (w : Mem.wf s.mem = true) :
    Mem.wf (l.foldl g s).mem = true := by
  induction l generalizing s with
  | nil => exact w
  | cons a t ih => exact ih (h s a w)

/-- A correctable error counted keeps the form. -/
theorem State.bumpCe_wf (s : State) (n : Nat) (w : Mem.wf s.mem = true) : Mem.wf (s.bumpCe n).mem = true := by
  unfold State.bumpCe
  dsimp only
  split
  · rw [State.safeReport_mem, State.event_mem]; exact Mem.wf_same w rfl rfl rfl
  · exact Mem.wf_same w rfl rfl rfl

/-- A report of an uncorrectable word keeps the form. -/
theorem State.reportUe_wf (s : State) (a : Nat) (w : Mem.wf s.mem = true) : Mem.wf (s.reportUe a).mem = true := by
  unfold State.reportUe
  dsimp only
  rw [State.event_mem]
  split
  · exact Mem.wf_same w rfl rfl rfl
  · split
    · exact Mem.wf_same w rfl rfl rfl
    · exact w

theorem State.unflip_wf (s : State) (a : Nat) (w : Mem.wf s.mem = true) : Mem.wf (s.unflip a).mem = true := Mem.wf_flips w a 0

theorem State.correctTag_wf (s : State) (g : Nat) (w : Mem.wf s.mem = true) : Mem.wf (s.correctTag g).mem = true := by
  unfold State.correctTag
  split
  · exact State.bumpCe_wf _ _ (Mem.wf_tag w g 0)
  · exact w

/-- Correction keeps the form. -/
theorem State.correct_wf (s : State) (ws : List Nat) (w : Mem.wf s.mem = true) : Mem.wf (s.correct ws).mem = true := by
  refine wf_fold (fun s a h => ?_) ws w
  have h1 : Mem.wf (if 8 * a < dramEnd then s.correctTag (groupOf (8 * a)) else s).mem = true := by
    split
    · exact State.correctTag_wf s _ h
    · exact h
  dsimp only
  generalize (if 8 * a < dramEnd then s.correctTag (groupOf (8 * a)) else s) = u at h1 ⊢
  split
  · exact State.bumpCe_wf _ _ (State.unflip_wf u a h1)
  · exact h1

/-- Words read before their content is used keep the form. -/
theorem State.readCheck_wf (s : State) (ws : List Nat) (w : Mem.wf s.mem = true) : Mem.wf (s.readCheck ws).2.mem = true := by
  unfold State.readCheck
  split
  · exact State.reportUe_wf s _ w
  · exact State.correct_wf s ws w

theorem State.wakeMem_wf (s : State) (a : Nat) (w : Mem.wf s.mem = true) : Mem.wf (s.wakeMem a).mem = true := by
  unfold State.wakeMem
  split
  · exact Mem.wf_same w rfl rfl rfl
  · exact w

/-- A change of key keeps the form. -/
theorem State.rekey_wf (s : State) (key : Nat) (bs : List Nat) (w : Mem.wf s.mem = true) : Mem.wf (s.rekey key bs).mem = true := by
  refine wf_fold (fun s a h => ?_) bs w
  dsimp only
  split
  · exact h
  · have h2 : Mem.wf (s.drawBytes 16).2.mem = true := by rw [State.drawBytes_mem]; exact h
    generalize s.drawBytes 16 = r at h2 ⊢
    have k := State.pokes_wf r.2 (16 * a) r.1 h2
    generalize r.2.pokes (16 * a) r.1 = u at k ⊢
    exact Mem.wf_same k rfl rfl rfl

theorem State.peeks_mem (s : State) (key : Nat) (l : List Nat) : (s.peeks key l).2.mem = s.mem := by
  induction l generalizing s with
  | nil => rfl
  | cons a t ih =>
    show ((s.peek key a).2.peeks key t).2.mem = s.mem
    rw [ih]
    unfold State.peek
    dsimp only
    repeat' (first | rfl | split)

/-- A read keeps the form. -/
theorem State.readMem_wf (s : State) (key a n : Nat) (w : Mem.wf s.mem = true) : Mem.wf (s.readMem key a n).2.mem = true := by
  have h := State.readCheck_wf _ (wordsOf a n) (State.wakeMem_wf s a w)
  unfold State.readMem
  split <;> (rename_i e; rw [e] at h)
  · exact h
  · dsimp only
    rw [State.peeks_mem]
    exact h

/-- A write keeps the form. -/
theorem State.writeMem_wf (s : State) (key a : Nat) (bs : List Byte) (w : Mem.wf s.mem = true) : Mem.wf (s.writeMem key a bs).2.mem = true := by
  unfold State.writeMem
  dsimp only
  have h1 := State.correct_wf (s.wakeMem a) ((wordsOf a bs.length).filter (fun w => !coversWord a bs.length w && !s.wordBad w)) (State.wakeMem_wf s a w)
  have h2 : Mem.wf (((wordsOf a bs.length).filter (coversWord a bs.length)).foldl State.unflip
      ((s.wakeMem a).correct ((wordsOf a bs.length).filter (fun w => !coversWord a bs.length w && !s.wordBad w)))).mem = true :=
    wf_fold (fun s b h => State.unflip_wf s b h) _ h1
  have h5 : ∀ (l : List Nat) (t : State), Mem.wf t.mem = true → Mem.wf ((indexed a bs).foldl (fun s e => if l.contains (e.1 / 8) then s else s.poke e.1 e.2) t).mem = true := by
    intro l t ht
    refine wf_fold (fun s e h => ?_) _ ht
    split
    · exact h
    · exact State.poke_wf s e.1 e.2 h
  split
  · refine State.reportUe_wf _ _ (h5 _ _ ?_)
    split
    · exact State.rekey_wf _ _ _ h2
    · exact h2
  · refine h5 _ _ ?_
    split
    · exact State.rekey_wf _ _ _ h2
    · exact h2

end Sys2Proof.Machine
end

