-- ==== Sys2Proof/WellFormed.lean ====
section
/-! DEFINITION. Which commands the outside can send: every operand within the range its row can name. -/

namespace Sys2Proof

open Machine

/-- A function: 0 the physical function, 1 to 63 the virtual functions (04 R199). -/
def fnOk (fn : Nat) : Bool := decide (fn < 64)

/-- A ring of a portal, or of an instance (05). -/
def ringOk (ring : Nat) : Bool := decide (ring < 256)

/-- A fabric port (01 Table 1-2). -/
def portOk (port : Nat) : Bool := decide (port < 24)

/-- A dependency-table entry (07 R363). -/
def entryOk (entry : Nat) : Bool := decide (entry < 4096)

/-- A stream context (07 R350). -/
def ctxOk (ctx : Nat) : Bool := decide (ctx < 1024)

/-- A logical tile (00 R21). -/
def tileOk (tile : Nat) : Bool := decide (tile < 32)

/-- A stand (00 R21). -/
def standOk (stand : Nat) : Bool := decide (stand < 8)

/-- A block of the MGMT window (22 Table 22-1). -/
def blockOk (block : Nat) : Bool := decide (block < 14)

/-- A monitored clock (22 CLK_MON). -/
def clockOk (clock : Nat) : Bool := decide (clock < 7)

/-- A power unit: 0 to 52, and 64 to 97 for physical tiles (22 R943). -/
def unitOk (u : Nat) : Bool := decide (u < 98)

/-- An SMBus block of 1 to 32 bytes (19 Table 19-7). -/
def blockLenOk (n : Nat) : Bool := decide (0 < n ∧ n ≤ 32)

/-- A register access of 1 to 8 bytes within the larger window, 16 MiB (04 R207, Table 4-4); a debugger's, within the 48 bits of an LPA (03 R145). -/
def widthOk (win : Window) (width off : Nat) : Bool :=
  decide (1 ≤ width ∧ width ≤ 8) && decide (off < match win with | .debug => 2 ^ 48 | _ => 0x1000000)

/-- What a packet says fits its type: DISC, EPOCH, FENCE_NOTICE and MGMT say something, a WRITE may be a collective's, no other does (logs 15 to 17). -/
def msgOk (p : Packet) : Bool :=
  match p.msg with
  | some _ => [0x01, 0x10, 0x12, 0x13, 0x15].contains p.type
  | none => !([0x10, 0x12, 0x13, 0x15].contains p.type)

/-- A packet whose payload has the length its header gives; a header-only packet carries none (02 Table 2-5, Table 2-6). -/
def packetOk (p : Packet) : Bool :=
  (decide (p.data.length = p.len.toNat) || (decide (p.type = 2) && p.data.isEmpty)) && msgOk p

/-- The block pairs of a group of 0 to 8 flits, its control word and an ALIGN pair among them (02 R68, R70). -/
def pairsOk (ps : List (Block × Block)) : Bool := decide (1 ≤ ps.length ∧ ps.length ≤ 18)

/-- A host ring of the portal or a device-resident ring of the chip. -/
def ringRefOk : RingRef → Bool
  | .host n => decide (n < 256)
  | .dr n => decide (n < 64)

/-- A part of the chip that holds an incarnation (00 Table 0-3). -/
def partOk : Part → Bool
  | .tile t => decide (t < 32)
  | .cfe => true
  | .bank b => decide (b < 16)
  | .memc => true
  | .port p => decide (p < 24)

/-- A checker's verdict names a logical tile (12 R509). -/
def checkOk : Check → Bool
  | .agree => true
  | .differ t => decide (t < 32)

/-- The command's operands lie in the ranges its row can name. -/
def Instr.wf (i : Instr) : Bool :=
  match i with
  | .sqDoorbell fn ring _ => fnOk fn && ringOk ring
  | .shadowPiPoll ring => ringOk ring
  | .cqDoorbell fn ring _ => fnOk fn && ringOk ring
  | .ringEnable _ fn ring _ => fnOk fn && ringOk ring
  | .registerWrite win fn off width _ => fnOk fn && widthOk win width off
  | .guiltyAck fn _ => fnOk fn
  | .instSignal fn _ => fnOk fn
  | .instFence fn => fnOk fn
  | .instFenceDone fn => fnOk fn
  | .dataWindowWrite fn _ _ => fnOk fn
  | .dataWindowRead fn _ _ => fnOk fn
  | .dataCtlWrite fn _ => fnOk fn
  | .objSelWrite fn _ => fnOk fn
  | .objRecordRead fn => fnOk fn
  | .drRegisterAccess fn _ _ _ => fnOk fn
  | .drAccessReply fn reply => fnOk fn && reply.all packetOk
  | .mbxOutDoorbell fn _ => fnOk fn
  | .mbxInConsume fn _ => fnOk fn
  | .mbxVfInProduce fn _ => fnOk fn
  | .mbxVfOutConsume fn _ => fnOk fn
  | .mbxRspConsume _ => true
  | .instCauseClear fn _ _ _ => fnOk fn
  | .errorStatusClear fn _ => fnOk fn
  | .blockErrClear block _ => blockOk block
  | .msixUnmask fn _ => fnOk fn
  | .coalTimerExpiry ring => ringOk ring
  | .functionLevelReset fn => fnOk fn
  | .vfDisable => true
  | .pfFlr => true
  | .hotReset _ => true
  | .perstAssert => true
  | .perstSafeReset => true
  | .perstDeassert => true
  | .configRequest fn _ _ => fnOk fn
  | .busMasterClear fn _ => fnOk fn
  | .busMasterSet fn => fnOk fn
  | .numvfsWrite _ => true
  | .poisonedWrite fn _ => fnOk fn
  | .hostReadComplete _ _ => true
  | .completionTimeout _ => true
  | .ringFetch ring => ringOk ring
  | .entryJudge ring => ringOk ring
  | .admission => true
  | .checkPass ctx => ctxOk ctx
  | .dispatchRead ctx => ctxOk ctx
  | .remoteLaunchOperation p => packetOk p
  | .bodyReadDone entry => entryOk entry
  | .abortReceived p => packetOk p
  | .faultReportReceived p => packetOk p
  | .abortAck p => packetOk p
  | .tableEntry ctx => ctxOk ctx
  | .standGrant => true
  | .opComplete entry check => entryOk entry && checkOk check
  | .completionIncrement _ _ _ _ => true
  | .hangTimeout ring => ringRefOk ring
  | .nop entry => entryOk entry
  | .end_ ctx => ctxOk ctx
  | .copy entry => entryOk entry
  | .setFlag entry => entryOk entry
  | .clearFlag entry => entryOk entry
  | .test entry => entryOk entry
  | .wait entry => entryOk entry
  | .tallyAdd entry => entryOk entry
  | .tallyWait entry => entryOk entry
  | .tallyWaitSpace entry => entryOk entry
  | .barrierArrive entry => entryOk entry
  | .fenceGlobal entry => entryOk entry
  | .chain entry => entryOk entry
  | .condEnqueue entry => entryOk entry
  | .condEnqueuePush entry => entryOk entry
  | .signalPeer entry => entryOk entry
  | .timestamp entry => entryOk entry
  | .matmul entry => entryOk entry
  | .conv entry => entryOk entry
  | .quantize entry => entryOk entry
  | .dequantize entry => entryOk entry
  | .attention entry => entryOk entry
  | .norm entry => entryOk entry
  | .softmax entry => entryOk entry
  | .elementwise entry => entryOk entry
  | .reduce entry => entryOk entry
  | .gather entry => entryOk entry
  | .scatter entry => entryOk entry
  | .sample entry => entryOk entry
  | .copyTransform entry => entryOk entry
  | .allReduce entry => entryOk entry
  | .reduceScatter entry => entryOk entry
  | .allGather entry => entryOk entry
  | .collectiveAnnounce p => packetOk p
  | .collectiveContribution p => packetOk p
  | .replayContributionRequest p => packetOk p
  | .replayFailureNotice p => packetOk p
  | .waitTimeout entry => entryOk entry
  | .galleryApply => true
  | .fifoRoom => true
  | .blockLockLoss port => portOk port
  | .laneLoss port => portOk port
  | .trainingAdvance port _ _ => portOk port
  | .trainingTimeout port => portOk port
  | .trainingBackoff port => portOk port
  | .downReceived port => portOk port
  | .flitGroup port pairs => portOk port && pairsOk pairs
  | .replayTimeout port => portOk port
  | .resendLimit port _ => portOk port
  | .ackDeadline port => portOk port
  | .packetReceive port p => portOk port && packetOk p
  | .writePacket p => packetOk p
  | .readReq p => packetOk p
  | .readRsp p => packetOk p
  | .xferAck p => packetOk p
  | .e2eNakCrc p => packetOk p
  | .e2eNakStale p _ => packetOk p
  | .e2eNakRetryLater p => packetOk p
  | .retryLaterResend _ _ => true
  | .e2eNakAbandoned p => packetOk p
  | .xferAckTimeout _ _ => true
  | .voidReceive p => packetOk p
  | .multicastReceive port p => portOk port && packetOk p
  | .multicastHoldExpiry _ => true
  | .partResetHoldExpiry _ => true
  | .windowReclaim _ => true
  | .transferAbandon _ _ => true
  | .fenceNotice p => packetOk p
  | .fenceReceived ports => ports.all portOk
  | .elect port p => portOk port && packetOk p
  | .rootTimer => true
  | .parent port p => portOk port && packetOk p
  | .report port p => portOk port && packetOk p
  | .assign port p => portOk port && packetOk p
  | .reject port p => portOk port && packetOk p
  | .discReady port p => portOk port && packetOk p
  | .collectionClose _ _ => true
  | .formationWaitExpiry => true
  | .assignTimeout => true
  | .mgmtPacket p => packetOk p
  | .epochPrepare p => packetOk p
  | .epochCommit p => packetOk p
  | .portLeftActive p => packetOk p
  | .chipLossDeclare _ by_ => by_.all packetOk
  | .beatTimer => true
  | .beat via p => via.all portOk && packetOk p
  | .echo p => packetOk p
  | .leaseLapse => true
  | .heartbeatLoss => true
  | .claim p => packetOk p
  | .grant p _ => packetOk p
  | .deny p => packetOk p
  | .claimTimeout => true
  | .journalEpochClose => true
  | .journal p => packetOk p
  | .journalForward p => packetOk p
  | .instStop p => packetOk p
  | .instStopped p => packetOk p
  | .instPurge p => packetOk p
  | .instPurged p => packetOk p
  | .scrubPass => true
  | .sramScrub _ => true
  | .wckRetrain _ => true
  | .beatMissed tile => tileOk tile
  | .tileFault tile => tileOk tile
  | .partHoldExpiry _ => true
  | .localRetry _ => true
  | .partTimeout entry part _ => entryOk entry && partOk part
  | .xltInvalGo _ => true
  | .invalReport p => packetOk p
  | .create => true
  | .destroy => true
  | .setStands => true
  | .setVectors => true
  | .setDrrings => true
  | .objAssign => true
  | .shareGroup => true
  | .objReset => true
  | .xltRoot => true
  | .hostSlot => true
  | .query => true
  | .quiesce => true
  | .quiesceComplete inst => fnOk inst
  | .resume => true
  | .save => true
  | .restore _ => true
  | .dlogEnable => true
  | .dlogClear => true
  | .dlogFlush => true
  | .dlogDisable => true
  | .dlogRoom => true
  | .confCreate => true
  | .confAssign => true
  | .confMap => true
  | .confLoad _ => true
  | .confFinalize => true
  | .confRelease => true
  | .attest => true
  | .svnCommit => true
  | .zeroize => true
  | .coNonceRead => true
  | .dbgChallengeRead => true
  | .debugUnlock => true
  | .seqlockAcquire _ => true
  | .seqlockCommit _ => true
  | .seqlockAbandon _ => true
  | .rmtRead _ => true
  | .rmtWrite _ => true
  | .rmtReply e => match e with | .answer p => packetOk p | .lost => true | .noReply => true
  | .epochCtlCommit => true
  | .epochCtlAbandon => true
  | .pwrAuto unit_ => unitOk unit_
  | .pwrNoSleep unit_ => unitOk unit_
  | .pwrPark unit_ => unitOk unit_
  | .hibernateEnter => true
  | .hibernateExit _ => true
  | .wakeEdge => true
  | .tileRetentionTimer tile => tileOk tile
  | .selfRefreshTimer => true
  | .thermalThrottleStep unit_ _ => unitOk unit_
  | .junctionHold _ => true
  | .powerSample _ => true
  | .timeRecalibrate _ => true
  | .tsyncEdge => true
  | .safeArm => true
  | .safeDisarm => true
  | .safeTest => true
  | .safeTestEnd _ => true
  | .safeStatusClear _ => true
  | .probeRun => true
  | .probeStandGrant stand => standOk stand
  | .probeCompare _ => true
  | .probeLate => true
  | .safeStateEnter _ _ => true
  | .safeHoldExpiry => true
  | .safetyWatchdog => true
  | .clockLoss clock => clockOk clock
  | .supplyExcursion _ => true
  | .supplyCollapse => true
  | .powerUpAon => true
  | .sysRstAssert => true
  | .sysRstRelease _ _ _ => true
  | .bootRom _ _ _ => true
  | .memtrain _ => true
  | .meminit => true
  | .bist _ _ _ => true
  | .images _ _ => true
  | .inject _ => true
  | .fabric => true
  | .frontend => true
  | .eventRingRoom => true
  | .i2cBootReport _ => true
  | .flashAddr _ _ => true
  | .flashRead _ count => blockLenOk count
  | .flashProgram _ bytes => blockLenOk bytes.length
  | .flashErase _ _ => true
  | .flashStatus _ => true
  | .i2cRestart _ _ => true
  | .i2cBusTimeout => true
  | .epochPrepareAck p => packetOk p
  | .mgmtAnswer p => packetOk p
  | .declarationToStandby p => packetOk p
  | .progressBeat tile => tileOk tile
  | .commandDoorbell _ => true
  | .partLeavesReset part _ => partOk part
  | .pcieLinkUp _ _ => true
  | .supplyReturn => true

end Sys2Proof
end

