-- ==== Sys2Proof/Tests/Slice0.lean ====
section
/-! SUPPORT. Small tests of the model: the check of well-formedness, what single commands do, and states that meet the statements' hypotheses. -/

namespace Sys2Proof.Test

open Sys2Proof Sys2Proof.Machine

set_option Elab.async false

/-- The active front end of a domain of one, in READY, its link up, instance 1 made with one submission ring (ring 2 of the portal), one completion ring
(ring 5) and function 1 open. -/
def fe : State :=
  { State.reset with
    boot := { Boot.reset with state := .ready, served := true, nlevel := 1, perstLow := false }
    pcie := { Pcie.reset with
      up := true, crs := false, vfEn := true, numVfs := 4
      fns := [(0, { FnCfg.reset with bme := true, mse := true, msixEn := true, vecs := 4 }),
              (1, { FnCfg.reset with bme := true, mse := true, msixEn := true, vecs := 4, vecBase := 4 })] }
    dom := { Dom.reset with
      chipId := 1, chipInc := 7, role := .frontEnd, root := true, formed := true, members := [1], frontEnd := 1, rootId := 1 }
    fab := { Fabric.reset with enabled := true }
    tiles := { Tiles.reset with map := (List.range 32).map (fun n => (n, { Tile.reset with phys := BitVec.ofNat 8 n })) }
    insts := [(0, { Inst.reset with state := .ready }),
              (1, { Inst.reset with state := .ready, sqFirst := 2, sqCount := 1, cqFirst := 5, cqCount := 1, rtMax := 1 })]
    sqs := [(2, { Sq.reset with cfg := { Sq.reset.cfg with size := 4, tagBase := 1, base := 0x10000, cq := 0, weight := 1 }, e := 1 })]
    cqs := [(5, { Cq.reset with size := 4, base := 0x20000 })] }

/-- The next state an outcome gives, or the state it started from. -/
def after (o : Host.Outcome State Fault Refusal) : State :=
  match o with
  | .next t => t
  | _ => State.reset

/-- The state after one command on `s`. -/
def run (c : Instr) (s : State) : State := after (exec c s)

/-- The same chip as a member of a domain of two whose front end is chip 2. -/
def mem1 : State :=
  { fe with dom := { fe.dom with role := .member, root := false, members := [1, 2], frontEnd := 2, rootId := 2 } }

/-- `fe` with another submission ring 2. -/
def feSq (q : Sq) : State := { fe with sqs := [(2, q)] }

/-- `fe` with another completion ring 5. -/
def feCq (q : Cq) : State := { fe with cqs := [(5, q)] }

/-- `fe` with one device-resident ring, ring 3 of the chip, given to instance 1. -/
def feDr (d : Dr) : State := { fe with act := { fe.act with drRings := [(1, 0x0103)] }, drs := [(3, d)] }

/-- `fe` with the FE registers of function 1 as given. -/
def feFn (f : Fn) : State := { fe with fns := [(1, f)] }

/-- `fe` with DATA windows. -/
def feData : State := { fe with boot := { fe.boot with cfg := zeros 6 ++ [4] ++ zeros 25 } }

/-- `fe` with instance 1 under construction as a confidential instance. -/
def feHeld : State :=
  { feData with insts := [(1, { fe.inst 1 with conf := true, held := true })] }

theorem test_witness_StepRunsFront : ({ fe with pending := [.instFence 1] } : State).pending = .instFence 1 :: [] := rfl

theorem test_witness_StepIdles :
    fe.pending = [] ∧ fe.clk.hold = 0 ∧ 0 < ({ fe with clk := { fe.clk with hold := 1 } } : State).clk.hold := by decide

theorem test_witness_FusesOnlyRise :
    (∃ t, (∀ k, 0 ≤ (Tbl.get 0 fe.fuses.svnMin k).toNat) ∧ step fe = .next t) ∧
    (∃ t, exec (.instFence 1) fe = .next t) ∧ fuseCommand (.instFence 1) = false :=
  ⟨⟨_, fun _ => Nat.zero_le _, rfl⟩, ⟨_, rfl⟩, rfl⟩

theorem test_witness_CommandsLeaveTheQueue : ∃ t, exec (.instFence 1) fe = .next t := ⟨_, rfl⟩

theorem test_witness_SubmissionDoorbell :
    Reaches fe 1 ∧ fe.isFe = true ∧ fe.sqRing 1 1 = none ∧ fe.sqRing 1 0 = some 2 ∧ (fe.sq 2).cfg.size ≠ 0 ∧
    Reaches mem1 1 ∧ mem1.isFe = false ∧
    Reaches (feSq Sq.reset) 1 ∧ (feSq Sq.reset).sqRing 1 0 = some 2 ∧ ((feSq Sq.reset).sq 2).cfg.size = 0 ∧
    (0 : Word32) = (fe.sq 2).k ∧ 2 ^ 31 ≤ ((0x80000000 : Word32) - (fe.sq 2).k).toNat ∧
    ((17 : Word32) - (fe.sq 2).k).toNat < 2 ^ 31 ∧ 2 ^ (fe.sq 2).cfg.size.toNat < ((17 : Word32) - (fe.sq 2).release).toNat ∧
    (16 : Word32) ≠ (fe.sq 2).k ∧ ((16 : Word32) - (fe.sq 2).release).toNat ≤ 2 ^ (fe.sq 2).cfg.size.toNat := by
  unfold Reaches; decide

theorem test_witness_DisabledRingDoorbell :
    Reaches (feSq Sq.reset) 1 ∧ (feSq Sq.reset).isFe = true ∧ (feSq Sq.reset).sqRing 1 0 = some 2 ∧ ((feSq Sq.reset).sq 2).cfg.size = 0 := by
  unfold Reaches; decide

theorem test_witness_CompletionDoorbell :
    Reaches fe 1 ∧ fe.isFe = true ∧ fe.cqRing 1 1 = none ∧ Reaches mem1 1 ∧ mem1.isFe = false ∧
    Reaches (feCq { fe.cq 5 with wr := 3 }) 1 ∧ (feCq { fe.cq 5 with wr := 3 }).cqRing 1 0 = some 5 ∧
    (let c := (feCq { fe.cq 5 with wr := 3 }).cq 5
     ((3 : Word32) - c.h).toNat ≤ (c.wr - c.h).toNat ∧ (c.wr - c.h).toNat < ((4 : Word32) - c.h).toNat) := by
  unfold Reaches; decide

theorem test_witness_ConsumerAheadRefused :
    Reaches fe 1 ∧ fe.isFe = true ∧ fe.cqRing 1 0 = some 5 ∧ ((fe.cq 5).wr - (fe.cq 5).h).toNat < ((1 : Word32) - (fe.cq 5).h).toNat := by
  unfold Reaches; decide

theorem test_witness_RingEnabling :
    Reaches mem1 1 ∧ mem1.isFe = false ∧ Reaches fe 1 ∧ fe.isFe = true ∧ fe.sqRing 1 1 = none ∧ fe.cqRing 1 1 = none ∧ fe.drRing 1 0 = none ∧
    fe.sqRing 1 0 = some 2 ∧ (fe.sq 2).cfg.size ≠ 0 ∧ fe.cqRing 1 0 = some 5 ∧ (fe.cq 5).size ≠ 0 ∧
    Reaches (feDr { Dr.reset with size := 4 }) 1 ∧ (feDr { Dr.reset with size := 4 }).drRing 1 0 = some 3 ∧
    ((feDr { Dr.reset with size := 4 }).dr 3).size ≠ 0 ∧
    Reaches (feSq Sq.reset) 1 ∧ (feSq Sq.reset).enableHeld 1 = false ∧ ((3 : BitVec 5) < 4 ∨ (16 : BitVec 5) < 3) ∧ (16 : BitVec 5) < 17 ∧
    (feSq Sq.reset).sqRing 1 0 = some 2 ∧ ((feSq Sq.reset).sq 2).cfg.size = 0 ∧ ((feSq Sq.reset).sq 2).cfg.realTime = false ∧
    ¬ (4 : BitVec 5) < 4 ∧ ¬ (16 : BitVec 5) < 4 ∧ ¬ (16 : BitVec 5) < 16 ∧
    Reaches (feCq Cq.reset) 1 ∧ (feCq Cq.reset).cqRing 1 0 = some 5 ∧ ((feCq Cq.reset).cq 5).size = 0 ∧ (feCq Cq.reset).enableHeld 1 = false ∧
    Reaches (feDr Dr.reset) 1 ∧ (feDr Dr.reset).enableHeld 1 = false ∧ ¬ (14 : BitVec 5) < 4 ∧ ¬ (14 : BitVec 5) < 14 ∧
    (feDr Dr.reset).drEntries + 2 ^ (14 : BitVec 5).toNat ≤ 32768 ∧ (feDr Dr.reset).drRing 1 0 = some 3 ∧ ((feDr Dr.reset).dr 3).size = 0 := by
  unfold Reaches; decide

theorem test_witness_FunctionErrorRecords : 13 < 14 ∧ 13 ≠ esBme ∧ (fe.fn 1).err.getLsbD 13 = false := by decide

theorem test_witness_InstanceRegisters :
    Reaches fe 1 ∧ (fe.drGuiltFirst 1).isSome = false ∧ 1 ≤ 4 ∧ fld (0x8000 : Word32).toNat 14 2 ≠ 3 ∧ fld (0xC000 : Word32).toNat 14 2 = 3 ∧
    fe.hasData = false ∧ Reaches feData 1 ∧ feData.hasData = true ∧
    (let s := feDr { Dr.reset with guilty := some { slot := none, written := false, done := false, tag := 1, status := 0 } }
     Reaches s 1 ∧ (s.drGuiltFirst 1).isSome = true) := by unfold Reaches; decide

theorem test_witness_HostSignals :
    Reaches fe 1 ∧ fe.signalGood 0x00000000FFC00000 = false ∧ fe.signalGood 0x0000000500050000 = false ∧
    fe.signalGood 0x000000013FFF0001 = false ∧ fe.signalGood 0x000000003FFF0001 = true ∧
    fe.gate 1 = .open_ ∧ fe.fenceQuiet 1 = true ∧
    (let s : State := { fe with gal := { fe.gal with fifo := [⟨0, 0, 0, 1, 1, none, .host 1⟩] } }
     s.gate 1 = .open_ ∧ s.fenceQuiet 1 = false) ∧
    (let s : State := { fe with pcie := { fe.pcie with fences := [1] } }
     s.pcie.fences.contains 1 = true ∧ s.fenceQuiet 1 = true) := by unfold Reaches; decide

theorem test_witness_ObjectRecordRead :
    fe.gate 1 = .open_ ∧ fe.pcie.posted.any (fun e => e.1 == 1) = false ∧
    (let s : State := { fe with pcie := { fe.pcie with posted := [(1, 1, ⟨0, 0, 0, 1, 1, none, .host 1⟩)] } }
     s.gate 1 = .open_ ∧ s.pcie.posted.any (fun e => e.1 == 1) = true) ∧
    objCount (fld (0x5000 : Word32).toNat 14 2) ≤ fld (0x5000 : Word32).toNat 0 14 ∧ fe.observe.permitted 0 0 1 = false ∧ 4095 < objCount 0 ∧
    (let s : State := { fe with act := { fe.act with flagOwn := [(4095, 1)] } }
     s.observe.permitted 0 4095 1 = true) := by decide +kernel

/-- `mem1`'s domain seen from its front end, chip 1, with a device-resident ring of instance 1 here and one at chip 2 as its DR_SEL names them. -/
def fe2 (sel : Word32) : State :=
  { feDr { Dr.reset with size := 4 } with
    dom := { fe.dom with members := [1, 2] }
    mgr := { fe.mgr with remote := [(2, { CfgSet.reset with drRings := [(1, 0x0100)] })] }
    fns := [(1, { Fn.reset with drSel := sel })] }

theorem test_witness_DeviceRingAccess :
    naturally 0xD08 4 = true ∧ drNamed 0xD08 = true ∧ drNamed 0xE7C = true ∧ drNamed 0xE80 = false ∧
    Reaches (fe2 1) 1 ∧ (fe2 1).isFe = true ∧ drChip 1 = (fe2 1).dom.chipId ∧ (fe2 1).memberList.contains (drChip 1) = true ∧
    drIndex 1 < fld (Tbl.get 0 ((fe2 1).cfgAt (drChip 1)).drRings 1).toNat 8 8 ∧
    Reaches (fe2 2) 1 ∧ drChip 2 ≠ (fe2 2).dom.chipId ∧ (fe2 2).memberList.contains (drChip 2) = true ∧
    drIndex 2 < fld (Tbl.get 0 ((fe2 2).cfgAt (drChip 2)).drRings 1).toNat 8 8 ∧
    Reaches (fe2 3) 1 ∧ (fe2 3).memberList.contains (drChip 3) = false ∧ (fe2 3).memberList.contains (drChip ((fe2 3).fn 1).drSel) = false ∧
    (fe2 3).gate 1 = .open_ ∧ mem1.gate 1 = .open_ ∧ mem1.isFe = false ∧ naturally 0xD0A 4 = false ∧ naturally 0xD0C 8 = false ∧
    ((feFn { Fn.reset with drAccess := [(0xD08, false, false)] }).fn 1).drAccess = (0xD08, false, false) :: [] ∧
    (fe.fn 1).drAccess = [] := by unfold Reaches; decide

/-- Memory holding `bs` from `lpa` on. -/
def cells (lpa : Nat) (bs : List Byte) : List Host.Cell :=
  (bs.zipIdx).filterMap (fun b => if b.1 = 0 then none else some (lpa + b.2, b.1))

/-- `fe` where instance 1 may reach the 64 KiB page of device memory at DVA and LPA 0x100000, which holds `bs`, and 1 MiB of the host through slot 0. -/
def feMem (bs : List Byte) : State :=
  { fe with
    xlt := { fe.xlt with cache := [⟨1, 0x100000, false, 0x000100000010000D⟩] }
    act := { fe.act with slotCtl := [(8, 7)], slotLimit := [(8, 0x10)] }
    mem := { fe.mem with bytes := cells 0x100000 bs } }

/-- `feMem` whose ring 2 polls a shadow index at `dva`. -/
def fePoll (dva : BitVec 48) : State :=
  { feMem [16] with sqs := [(2, { fe.sq 2 with cfg := { (fe.sq 2).cfg with pollUs := 10, shadowPi := dva } })] }

theorem test_witness_ShadowIndexPoll :
    (fePoll 0).ringReads 2 = true ∧ ((fePoll 0).sq 2).cfg.pollUs ≠ 0 ∧
    (match (fePoll 0x100000).gatherPiece 1 [] 4 0x100000 0x100000 4 with | (.bytes bs, _) => bs == [16, 0, 0, 0] | _ => false) = true ∧
    (match (fePoll 0x800000000000).gatherPiece 1 [] 4 0x800000000000 0x800000000000 4 with | (.need _, _) => true | _ => false) = true ∧
    (match (fePoll 0x200000).gatherPiece 1 [] 4 0x200000 0x200000 4 with | (.bad _, _) => true | _ => false) = true ∧
    mem1.ringReads 2 = false ∧ (fe.sq 2).cfg.pollUs = 0 ∧
    (let s := fePoll 0x100000
     let p : Word32 := BitVec.ofNat 32 (leAt [16, 0, 0, 0] 0 4)
     (s.sq 2).cfg.size ≠ 0 ∧ p ≠ (s.sq 2).k ∧ (p - (s.sq 2).k).toNat < 2 ^ 31 ∧ (p - (s.sq 2).release).toNat ≤ 2 ^ (s.sq 2).cfg.size.toNat) := by
  decide +kernel

/-- `feData` with the DATA window of function 1 opened on the page. -/
def feOpen : State :=
  { feMem [] with boot := feData.boot, fns := [(1, { Fn.reset with dataCtl := 0x100001 })] }

theorem test_witness_DataWindow :
    feOpen.hasData = true ∧ 0xFFFFFFF < 0x10000000 ∧ feOpen.enableHeld 1 = false ∧ Reaches feOpen 1 ∧ feOpen.gate 1 = .open_ ∧
    (feOpen.dataRange 1 0xFFFC 4 true).1.isSome = true ∧ (feOpen.dataRange 1 0xFFFC 5 true).1 = none ∧
    (feOpen.dataRange 1 0xFFFC 4 false).1.isSome = true ∧ (feOpen.dataRange 1 0xFFFC 5 false).1 = none ∧
    (feData.dataRange 1 0 4 true).1 = none ∧
    feHeld.hasData = true ∧ feHeld.enableHeld 1 = true ∧ Reaches feHeld 1 ∧ feHeld.gate 1 = .open_ ∧
    fe.hasData = false ∧ fe.pcie.up = true ∧ 0x10000000 ≤ 0x10000000 := by unfold Reaches; decide

/-- `fe` whose ring 2 is guilty, its record in capture slot 0. -/
def feGuilty (written : Bool) : State :=
  feSq { fe.sq 2 with guilty := some { slot := some 0, written := written, done := true, tag := 1, status := 0x0101 } }

theorem test_witness_GuiltyAcknowledgement :
    Reaches (feGuilty true) 1 ∧ (feGuilty true).isFe = true ∧ (0 : Word64).getLsbD 8 = false ∧
    (feGuilty true).sqRing 1 (fld (0 : Word64).toNat 0 8) = some 2 ∧
    (∃ g, ((feGuilty true).sq 2).guilty = some g ∧ g.written = true ∧ g.slot = some 0 ∧ 0 = fld (0 : Word64).toNat 32 32) ∧
    Reaches (feGuilty false) 1 ∧ (feGuilty false).sqRing 1 0 = some 2 ∧ (∃ g, ((feGuilty false).sq 2).guilty = some g ∧ g.written = false) ∧
    (∃ g, ((feGuilty true).sq 2).guilty = some g ∧ g.slot.getD 0xFFFFFFFF ≠ fld (0x100000000 : Word64).toNat 32 32) ∧
    Reaches fe 1 ∧ (fe.sq 2).guilty = none ∧ fe.sqRing 1 (fld (1 : Word64).toNat 0 8) = none ∧
    Reaches (fe2 0) 1 ∧ (fe2 0).isFe = true ∧ (0x20100 : Word64).getLsbD 8 = true ∧
    BitVec.ofNat 16 (fld (0x20100 : Word64).toNat 16 16) ≠ (fe2 0).dom.chipId ∧
    (fe2 0).dom.members.contains (BitVec.ofNat 16 (fld (0x20100 : Word64).toNat 16 16)) = true := by
  unfold Reaches
  refine ⟨by decide, by decide, by decide, by decide, ⟨_, rfl, by decide⟩, by decide, by decide, ⟨_, rfl, by decide⟩, ⟨_, rfl, by decide⟩,
    by decide⟩

theorem test_witness_VectorsAndCoalescing :
    Reaches fe 1 ∧ 3 < (fe.fc 1).vecs.toNat ∧ (fe.fc 1).vecs.toNat ≤ 4 ∧ fe.fnHere 1 = true ∧ (fe.fc 1).flr = false ∧ fe.safest.inSafe = false ∧
    (let s : State := { fe with pcie := { fe.pcie with vecs := [((1 : Nat) * 2048 + 3, ⟨0, 0, false, true⟩)] } }
     (s.fc 1).fnMask = false ∧ (s.fc 1).msixEn = true ∧ (∃ n, (s.vec 1 n).pending = true ∧ (s.vec 1 n).mask = false)) ∧
    (let s := feCq { fe.cq 5 with coalTime := 1, fresh := 1 }
     (s.cq 5).size ≠ 0 ∧ (s.cq 5).coalTime ≠ 0 ∧ (s.cq 5).fresh ≠ 0 ∧ (s.paired && !s.pair.lease) = false ∧ s.cqInst 5 = some 1) ∧
    (fe.cq 5).coalTime = 0 ∧ (fe.cq 5).fresh = 0 := by
  unfold Reaches
  refine ⟨by decide, by decide, by decide, by decide, by decide, by decide, ⟨by decide, by decide, ⟨3, by decide⟩⟩, by decide⟩

/-- `fe` still on its way to READY. -/
def feEarly : State := { fe with boot := { fe.boot with state := .fabric } }

theorem test_witness_RegisterWrites :
    fe.gate 0 = .open_ ∧ naturally 0xFFFC 4 = true ∧ naturally 0xFFF8 8 = true ∧ fe.boot.state = .ready ∧
    (let s : State := { fe with boot := { fe.boot with state := .hibernate } }
     s.gate 0 = .open_ ∧ s.boot.state = .hibernate ∧ s.mgmtTakes = true) ∧
    naturally 0x1002 4 = false ∧ naturally 0x1004 8 = false ∧ feEarly.gate 0 = .open_ ∧ feEarly.boot.state ≠ .ready ∧
    feEarly.boot.state ≠ .hibernate ∧ feEarly.earlyOk 0x400 = false ∧ Reaches fe 1 ∧ 0xFFFC < 0x10000 ∧
    fe.mgmtTakes = true ∧ 13 < 14 ∧ ¬ (13 = blkFab ∧ fe.fuses.grade = .S) ∧ fe.readHeld 1 0x48 = false ∧ fe.readHeld 1 0x40 = false ∧
    (let s : State := { fe with pcie := { fe.pcie with posted := [(1, 1, ⟨0, 0, 0, 1, 1, none, .host 1⟩)] } }
     s.gate 1 = .open_ ∧ s.readHeld 1 0x40 = true) ∧ fe.sec.debug = .locked ∧ 0 < regBase + 0x100000 * blkDbg := by unfold Reaches; decide

theorem test_witness_MailboxIndices :
    1 ≤ 1 ∧ 1 ≤ 63 ∧ Reaches mem1 1 ∧ mem1.isFe = false ∧ Reaches fe 1 ∧ fe.isFe = true ∧ fe.mgmtTakes = true ∧
    produceIndex 0 (fe.fn 1).outPi (fe.fn 1).outCi 4 = .stale ∧ produceIndex 5 (fe.fn 1).outPi (fe.fn 1).outCi 4 = .overrun ∧
    produceIndex 4 (fe.fn 1).outPi (fe.fn 1).outCi 4 = .taken ∧ produceIndex 0x80000000 (fe.fn 1).outPi (fe.fn 1).outCi 4 = .stale ∧
    produceIndex 4 (fe.fn 1).inPi (fe.fn 1).inCons 4 = .taken ∧ produceIndex 5 (fe.fn 1).inPi (fe.fn 1).inCons 4 = .overrun ∧
    consumeIndex 0 (fe.fn 1).inPi (fe.fn 1).inCons = .stale ∧ consumeIndex 1 (fe.fn 1).inPi (fe.fn 1).inCons = .overrun ∧
    consumeIndex 1 (fe.fn 1).outPi (fe.fn 1).outCi = .overrun ∧
    (let f := (feFn { Fn.reset with inPi := 3, outPi := 3 }).fn 1
     consumeIndex 3 f.inPi f.inCons = .taken ∧ leavesFull 3 f.inPi f.inCons 4 = false ∧
     consumeIndex 3 f.outPi f.outCi = .taken ∧ leavesFull 3 f.outPi f.outCi 4 = false) ∧
    fe.gate 0 = .open_ ∧ fe.boot.served = true ∧ fe.boot.state ≠ .failed ∧ consumeIndex 1 fe.mgr.rspPi fe.mgr.rspCons = .overrun ∧
    consumeIndex 0 fe.mgr.rspPi fe.mgr.rspCons = .stale ∧ consumeIndex 1 1 fe.mgr.rspCons = .taken := by unfold Reaches; decide

theorem test_witness_FunctionResets :
    fe.pcie.up = true ∧ 1 ≠ 0 ∧ fe.fnHere 4 = true ∧ fe.fnHere 5 = false ∧ State.reset.pcie.up = false ∧ fe.fnHere 0 = true ∧
    State.reset.flrServed = false ∧ fe.flrServed = true ∧ fe.isFe = true ∧ mem1.flrServed = true ∧ mem1.isFe = false ∧ (fe.inst 4).state = .absent ∧
    (fe.inst 1).state ≠ .absent ∧ (fe.inst 1).state ≠ .resetting ∧ fe.criticalRing 1 = none ∧
    (({ fe with insts := [(1, { fe.inst 1 with state := .resetting })] } : State).inst 1).state = .resetting ∧
    (({ fe with pcie := { fe.pcie with dlogHeld := [(2, .msg 0)] } } : State).closeFn 1).pcie.dlogHeld = [(2, .msg 0)] := by decide

theorem test_witness_FundamentalReset :
    fe.boot.perstLow = false ∧
    (let s : State := { fe with boot := { fe.boot with perstLow := true }, safest := { fe.safest with inSafe := true, stuck := true } }
     s.boot.perstLow = true ∧ s.safest.inSafe = true ∧ s.safest.stuck = true) ∧
    fe.linkAllowed = true ∧ State.reset.linkAllowed = false ∧ fe.safest.inSafe = false ∧ fe.safest.stuck = false ∧
    (let s : State := { mem1 with pcie := { mem1.pcie with training := true, up := false }, safest := { fe.safest with inSafe := true } }
     s.pcie.training = true ∧ s.boot.perstLow = false ∧ s.pcie.up = false ∧ s.safest.inSafe = true ∧ s.dom.formed = true ∧ s.dom.role = .member) ∧
    fe.pcie.training = false := by decide

theorem test_witness_ConfigurationSpace :
    fe.pcie.up = true ∧ ({ fe with pcie := { fe.pcie with crs := true } } : State).pcie.crs = true ∧ fe.pcie.crs = false ∧
    fe.fnHere 5 = false ∧ fe.fnHere 4 = true ∧ (fe.fc 1).bme = true ∧ (fe.fc 1).d3hot = false ∧ (fe.fc 4).bme = false ∧
    ({ fe with pcie := { fe.pcie with vfEn := false } } : State).pcie.vfEn = false ∧ (63 : BitVec 16).toNat ≤ 63 ∧
    fe.pcie.vfEn = true ∧ 63 < (64 : BitVec 16).toNat := by decide

theorem test_witness_HostReadsEnd :
    (let s : State := { fe with pcie := { fe.pcie with reads := [⟨0, 1, 64, .ring 2 0 1⟩] } }
     (s.readOf 0).isSome = true) ∧
    fe.readOf 0 = none ∧ fe.pcie.up = true ∧ State.reset.pcie.up = false ∧ TlpError.malformed ≠ .poisoned ∧ fe.gate 1 = .open_ ∧ fe.gate 5 = .unsupported ∧ State.reset.gate 1 = .gone ∧
    ({ fe with safest := { fe.safest with inSafe := true } } : State).gate 1 = .closed := by decide

/-- `feMem` with `k` entries of ring 2 accepted. -/
def feAhead (k : Word32) : State := { feMem [] with sqs := [(2, { fe.sq 2 with k := k, cfg := { (fe.sq 2).cfg with base := 0x800000010000 } })] }

theorem test_witness_RingFetchReads :
    mem1.ringReads 2 = false ∧ ((feSq { fe.sq 2 with halted := true }).sq 2).halted = true ∧ (fe.sq 2).k = (fe.sq 2).fetch + BitVec.ofNat 32 0 ∧
    (feAhead 16).ringReads 2 = true ∧ ((feAhead 16).sq 2).halted = false ∧ ((feAhead 16).cq ((feAhead 16).ringCq 2)).size ≠ 0 ∧
    (feAhead 16).epochApplied ((feAhead 16).sq 2).waitEpoch = true ∧ ((feAhead 16).sq 2).k ≠ ((feAhead 16).sq 2).fetch + BitVec.ofNat 32 0 ∧
    ((feAhead 16).sq 2).cache.length + 0 < 256 ∧
    (feAhead 16).ringOk ((feAhead 16).ringInst (.host 2)) 0x800000010000 (64 * 8) false = true ∧
    (feSq { fe.sq 2 with k := 16 }).ringOk 1 0x10000 (64 * 8) false = false := by decide

/-- A submission entry: TYPE, LEN8, SEQ and ADDR as given. -/
def sqEntry (t : Byte) (len8 seq addr : Nat) : List Byte :=
  [t, 0, 0, 0] ++ toLe 4 len8 ++ toLe 6 seq ++ zeros 2 ++ toLe 8 addr ++ zeros 40

/-- `fe` with one entry arrived on ring 2, as yet unjudged. -/
def feArrived (e : List Byte) : State := feSq { fe.sq 2 with k := 1, arrived := [(0, e)] }

theorem test_witness_EntryJudgement :
    mem1.isFe = false ∧ State.reset.live = false ∧ (fe.sq 2).arrived = [] ∧ ((feSq { fe.sq 2 with halted := true }).sq 2).halted = true ∧
    (let s := feArrived (zeros 64)
     s.live = true ∧ s.isFe = true ∧ (s.sq 2).halted = false ∧ (s.sq 2).arrived = [(0, zeros 64)] ∧ entryMalformed (s.sq 2).e (zeros 64) = some 1) ∧
    (let s := feArrived (sqEntry 1 0 0 0)
     (s.sq 2).arrived = [(0, sqEntry 1 0 0 0)] ∧ entryMalformed (s.sq 2).e (sqEntry 1 0 0 0) = none ∧ eSeq (sqEntry 1 0 0 0) < (s.sq 2).e ∧
     (s.sq 2).unreleased = []) ∧
    (let s := feArrived (sqEntry 1 0 1 0)
     let t := s.updSq 2 (fun q => { q with arrived := [] })
     s.live = true ∧ (s.sq 2).arrived = [(0, sqEntry 1 0 1 0)] ∧ entryMalformed (t.sq 2).e (sqEntry 1 0 1 0) = none ∧ (t.sq 2).e ≤ eSeq (sqEntry 1 0 1 0)) := by decide

/-- The accepted entry leaves the ring innocent, whichever words of the Hall its place is. -/
theorem test_witness_EntryJudgement_accepted :
    (let s := feArrived (sqEntry 1 0 1 0)
     let t := s.updSq 2 (fun q => { q with arrived := [] })
     (((((t.updSq 2 (fun q => { q with cache := q.cache ++ [sqEntry 1 0 1 0], slots := q.slots ++ [(eSeq (sqEntry 1 0 1 0), 0)], e := q.e + 1 })).hallWritten
        (cacheWords 2 (eSeq (sqEntry 1 0 1 0)))).journal (jrec 0x01 (t.ringInst (.host 2)) (t.ringLocal (.host 2)) (sqEntry 1 0 1 0))).slotDone 2
        t.openEpoch).sq 2).guilty = none) := by
  intro s t
  obtain ⟨m, h⟩ := State.hallWritten_only (t.updSq 2 (fun q =>
    { q with cache := q.cache ++ [sqEntry 1 0 1 0], slots := q.slots ++ [(eSeq (sqEntry 1 0 1 0), 0)], e := q.e + 1 })) (cacheWords 2 (eSeq (sqEntry 1 0 1 0)))
  rw [h]
  rfl

theorem test_witness_Admission :
    State.reset.live = false ∧ fe.rtChoice = none ∧ fe.wrrRings.any (fun x => fe.eligible x.2) = false ∧
    (let s := feSq { fe.sq 2 with k := 1, e := 2, cache := [sqEntry 1 12 1 0x100000], cfg := { (fe.sq 2).cfg with realTime := true } }
     s.live = true ∧ s.pairPaused = false ∧ s.rtChoice = some 2 ∧ s.eligible (.host 2) = true) ∧
    eDirect (sqEntry 1 0 1 0) = true ∧ eLen8 (sqEntry 1 0 1 0) = 0 ∧ eLen8 (sqEntry 1 12 1 0x100000) ≠ 0 ∧ fe.freeContext = some 0 := by
  decide +kernel

/-- A command buffer of one END: its header, then END placed SELF. -/
def endBuffer : List Byte := [0xD1, 0xB0, 1, 0, 12, 0, 0, 0, 0, 0, 0, 0, 1] ++ zeros 51 ++ [2, 2] ++ zeros 30

/-- The owner of a DIRECT buffer of `len8` units at DVA 0x100000, sent to ring 2. -/
def anOwner (len8 : Nat) (p : BufPhase) : Owner :=
  { inst := 1, ring := .host 2, tag := 1, user := 0, rt := none, entry := sqEntry 1 len8 1 0x100000, replaySafe := false, redelivered := false,
    expected := none, tally := 0, fault := none, ovf := false, replayed := false, admitTime := 0, order := 0, phase := p, nextOp := 1, nextOff := 64,
    waitEpoch := none, members := [1], lostAt := [], csCount := 1, dataOff := 96, waits := [] }

/-- `feMem` with context 0 owned. -/
def feOwner (bs : List Byte) (o : Owner) (sets : List (List ChipId)) : State :=
  { feMem bs with ctxs := [(0, { Ctx.reset with gen := 1, use := .owner o, frags := [(0x100000, 8 * eLen8 o.entry)], sets := sets })] }

set_option maxRecDepth 20000 in
theorem test_witness_CheckPass :
    fe.owner 0 = none ∧
    (feOwner endBuffer (anOwner 12 .dispatching) []).owner 0 = some (anOwner 12 .dispatching) ∧ (anOwner 12 .dispatching).phase ≠ .checking ∧
    (let s := feOwner endBuffer (anOwner 12 .checking) []
     s.owner 0 = some (anOwner 12 .checking) ∧ s.live = true ∧ (anOwner 12 .checking).phase = .checking ∧
     (s.bufferFrags 0 (anOwner 12 .checking)).1 = some [(0x100000, 96)] ∧ 96 ≤ fragTotal [(0x100000, 96)] ∧
     ((s.bufferFrags 0 (anOwner 12 .checking)).2.bufferBytes 0 [(0x100000, 96)]).1 = some endBuffer ∧ headOk endBuffer 96 = true ∧
     (s.ctxGather 0 (fragPieces [(0x100000, 96)] 0 96)).1 = some (.inl endBuffer) ∧
     (match checkBuffer (s.roll (anOwner 12 .checking)) s.boot.nlevel.toNat endBuffer with | .inr _ => true | .inl _ => false) = true) ∧
    (let o := { anOwner 12 .checking with entry := [2] ++ zeros 15 ++ toLe 8 (0x800000000000 : Nat) ++ zeros 4 ++ [1] ++ zeros 35 }
     let s : State := { feMem [] with ctxs := [(0, { Ctx.reset with use := .owner o })] }
     s.owner 0 = some o ∧ (s.bufferFrags 0 o).1 = none) ∧
    (let o := { anOwner 12 .checking with entry := [2] ++ zeros 15 ++ toLe 8 (0x100000 : Nat) ++ zeros 4 ++ [1] ++ zeros 35 }
     let s : State := { feMem (toLe 8 (0x100000 : Nat)) with ctxs := [(0, { Ctx.reset with use := .owner o })] }
     s.owner 0 = some o ∧ (s.bufferFrags 0 o).1 = some [(0x100000, 0)] ∧ fragTotal [(0x100000, 0)] = 0) ∧
    ((feOwner [] (anOwner 11 .checking) []).bufferFrags 0 (anOwner 11 .checking)).1 = some [(0x100000, 88)] ∧ fragTotal [(0x100000, 88)] ≠ 0 ∧
    fragTotal [(0x100000, 88)] < 96 ∧ bufCrcV (putAt endBuffer 3 [2]) = true ∧ headOk (putAt endBuffer 3 [2]) 96 = true ∧
    ((feOwner endBuffer (anOwner 12 .checking) []).bufferBytes 0 [(0x800000000000, 96)]).1 = none ∧
    (match checkBuffer ((feOwner [] (anOwner 12 .checking) []).roll (anOwner 12 .checking)) 1 (zeros 96) with | .inl _ => true | .inr _ => false) = true ∧
    ((feOwner [] (anOwner 12 .checking) []).ctxGather 0 (fragPieces [(0x800000000000, 96)] 0 96)).1 = none ∧
    (match ((feOwner [] (anOwner 12 .checking) []).ctxGather 0 (fragPieces [(0x200000, 96)] 0 96)).1 with | some (.inr _) => true | _ => false) = true ∧
    (let s := feOwner endBuffer (anOwner 12 .dispatching) [[1]]
     s.mayDispatch 0 = some (anOwner 12 .dispatching) ∧ (anOwner 12 .dispatching).nextOp ≤ 1 ∧ ¬ (anOwner 12 .dispatching).nextOp < (s.ctx 0).sets.length) ∧
    (let o := anOwner 12 .dispatching
     let s := feOwner (endBuffer.take 64 ++ [1, 2] ++ zeros 30) o [[1], [1]]
     s.mayDispatch 0 = some o ∧ o.nextOp < (s.ctx 0).sets.length ∧ (s.readOp 0 o).1.isSome = true) ∧
    (let o := anOwner 12 .dispatching
     let s := feOwner endBuffer o [[1], [1]]
     s.mayDispatch 0 = some o ∧ o.nextOp < (s.ctx 0).sets.length ∧ (s.readOp 0 o).1 = none) := by decide +kernel

/-- `bs` with fields written at their offsets. -/
def fields (n : Nat) (fs : List (Nat × List Byte)) : List Byte := fs.foldl (fun b f => putAt b f.1 f.2) (zeros n)

/-- An operation header: OPCODE, PKIND SELF, STANDS, BODY8 and its ARG bytes. -/
def opHdr (op stands body8 : Nat) (arg : List Byte) : List Byte :=
  [BitVec.ofNat 8 op, 2, 0, 0, BitVec.ofNat 8 stands, 0] ++ toLe 2 body8 ++ zeros 8 ++ arg ++ zeros (16 - arg.length)

/-- An operand record: DVA and LD. -/
def operandRec (dva ld : Nat) : List Byte := toLe 8 dva ++ zeros 4 ++ toLe 4 ld

/-- Operation 1 of context 0 on this chip. -/
def anOp (hdr body : List Byte) (st : OpStage) : OpEntry :=
  { ctx := 0, idx := 1, hdr := hdr, body := body, chips := [1], stage := st, slot := none, chain := none, staged := [], asked := [], out := 0,
    err := none, dead := false, ovf := false, replay := false, resume := 0, readyAt := 0, sigDone := false, tailTo := none, since := none, fetch := none,
    copied := 0, mark := none, rest := [], ride := false, gran := none, toHost := false }

/-- A transfer of this chip to chip 2 under TID 1. -/
def anXfer (type : BitVec 8) (u : Purpose) : Xfer :=
  { dst := 2, tid := 1, pkts := [{ Packet.zero with dst := 2, src := 1, type := type, tid := 1 }], got := [], sends := 1, pktSends := [], rounds := 0,
    refused := [], purpose := u }

/-- A dispatching buffer of instance 1 whose operation 1 is in entry 0 of the table; flag 0, tallies 0 and 1 and barrier 0 belong to the instance. -/
def feOp (bs : List Byte) (o : OpEntry) : State :=
  { feOwner bs (anOwner 12 .dispatching) [[1], [1]] with
    ops := [(0, some o)]
    act := { (feMem []).act with flagOwn := [(0, 1)], tallyOwn := [(0, 1), (1, 1)], barOwn := [(0, 1)], barLo := [(0, 2)], drRings := [(1, 0x0103)] }
    drs := [(3, { Dr.reset with size := 4 })] }

/-- `feOp` with its one operation running. -/
def running (op stands : Nat) (arg body : List Byte) (bs : List Byte) : State := feOp bs (anOp (opHdr op stands (body.length / 8) arg) body .running)

set_option maxRecDepth 20000 in
theorem test_witness_OperationsReachTheirUnits :
    fe.live = true ∧ fe.op 0 = none ∧ State.reset.live = false ∧ (fe.ctx 0).queue = [] ∧ fe.grantable 0 fe.readyOps = none ∧
    (let o := anOp (opHdr opNop 0 0 []) [] .waiting
     (feOp [] o).op 0 = some o ∧ o.fetch = none) ∧
    (let f : BodyFetch := { list := false, split := false, dva := 0x100000, frag := 0, off := 0, len := 24 }
     let o := { anOp (opHdr opCopy 1 3 []) [] .waiting with fetch := some f }
     let s := feOp (toLe 8 (0x100000 : Nat)) o
     s.live = true ∧ s.op 0 = some o ∧ o.fetch = some f ∧ f.list = false ∧
     (s.opGather 0 (s.bodyGather (s.ctxInst o.ctx) o.staged f)).1 = some (toLe 8 (0x100000 : Nat) ++ zeros 16)) ∧
    (let f : BodyFetch := { list := true, split := false, dva := 0x100000, frag := 0, off := 0, len := 4 }
     let o := { anOp (opHdr opLaunch 1 8 []) [] .waiting with fetch := some f }
     let s := feOp [1, 0, 2, 0] o
     s.op 0 = some o ∧ o.fetch = some f ∧ f.list = true ∧
     (s.opGather 0 (s.bodyGather (s.ctxInst o.ctx) o.staged f)).1 = some [1, 0, 2, 0]) ∧
    (let f : BodyFetch := { list := false, split := false, dva := 0x800000000000, frag := 0, off := 0, len := 24 }
     let o := { anOp (opHdr opCopy 1 3 []) [] .waiting with fetch := some f }
     let s := feOp [] o
     (s.opGather 0 (s.bodyGather (s.ctxInst o.ctx) o.staged f)).1 = none) ∧
    (let o := anOp (opHdr opNop 0 0 []) [] .waiting
     let s : State := { feOp [] o with ops := [], ctxs := [(0, { (feOp [] o).ctx 0 with queue := [o] })] }
     (s.ctx 0).queue = o :: [] ∧ s.live = true ∧ (s.updCtx 0 (fun x => { x with queue := [] })).freeEntry.isSome = true ∧
     ((s.updCtx 0 (fun x => { x with queue := [] })).opsOf 0).length < 2048) ∧
    (let o := anOp (opHdr opNop 0 0 []) [] .ready
     (feOp [] o).grantable 0 (feOp [] o).readyOps = some (0, o) ∧ hTiles o.hdr = false ∧
     (List.range 512).find? (fun j => decide (Tbl.get 0 (feOp [] o).slots j = 0)) = some 0) ∧
    (let o := anOp (opHdr opCopy 0x80 3 []) (zeros 24) .ready
     (feOp [] o).grantable 0 (feOp [] o).readyOps = some (0, o) ∧ hTiles o.hdr = true) ∧
    (let o := anOp (opHdr opNop 0 0 []) [] .waiting
     let s : State := { feOp [] o with ops := [] }
     s.freeEntry = some 0 ∧ s.entryFault o.ctx o.hdr = none ∧ s.entryFault 0 (opHdr opCopy 0x100 3 []) = none) := by decide +kernel

set_option maxRecDepth 20000 in
theorem test_witness_OperationsEnd :
    fe.op 0 = none ∧ (anOp [] [] .running).stage ≠ .issued ∧ ({ anOp [] [] .issued with out := 1 } : OpEntry).out ≠ 0 ∧
    ({ anOp [] [] .issued with dead := true } : OpEntry).dead = true ∧ State.reset.live = false ∧
    (let o := anOp (opHdr opLaunch 1 20 (toLe 2 16)) [] .issued
     let s := feOp [] o
     s.op 0 = some o ∧ s.live = true ∧ o.stage = .issued ∧ o.out = 0 ∧ o.rest = [] ∧ s.hostHeld o = false ∧ o.dead = false ∧ hOpcode o.hdr = opLaunch ∧
     o.err = none ∧ o.replay = false ∧ (s.readSram (tilesOf (hStands o.hdr))).1 = none) ∧
    (let o := { anOp (opHdr opLaunch 1 20 (toLe 2 16)) [] .issued with dead := true }
     o.dead = true ∧ ({ feOp [] o with stands := [(0, 1)] } : State).holdsStands 0 o = true) ∧
    (let o := anOp (opHdr opCopy 1 3 []) (zeros 24) .issued
     let s := feOp [] o
     s.op 0 = some o ∧ s.live = true ∧ o.stage = .issued ∧ o.rest = [] ∧ s.hostHeld o = false ∧ hOpcode o.hdr = opCopy ∧ o.dead = false ∧ o.err = none ∧
     copyLen o.body = 0 ∧ s.writesBefore o = false ∧
     ({ s with fab := { fe.fab with xfers := [{ anXfer tyWrite (.op 1 0) with pkts := [{ Packet.zero with type := tyWrite, data := [1] }] }] }, ops := [(0, some o), (1, some { o with idx := 0 })] } : State).writesBefore
       { o with mark := some (1, []) } = true) ∧ fe.gal.incs = [] ∧
    (let o := { anOp (opHdr opLaunch 1 20 (toLe 2 16)) [] .issued with replay := true }
     (feOp [] o).op 0 = some o ∧ o.err = none ∧ o.replay = true) ∧
    (let o := { anOp (opHdr opLaunch 1 20 (toLe 2 16)) [] .issued with err := some { status := stXltFault } }
     (feOp [] o).op 0 = some o ∧ o.err = some { status := stXltFault }) ∧
    fe.live = true ∧ (fe.ctx 1023).gen ≠ 1 ∧
    (let s := feOwner endBuffer (anOwner 12 .dispatching) [[1]]
     s.live = true ∧ s.gal.incs = [] ∧ (s.owner 0).isSome = true ∧ (s.ctx 0).gen = 1 ∧
     ((s.updCtx 0 (fun x => { x with doneBy := x.doneBy ++ [] })).owner 0).isSome = true ∧
     ((s.updCtx 0 (fun x => { x with doneBy := x.doneBy ++ [] })).ctx 0).gen = 1) ∧
    fe.owner 0 = none ∧
    (let w := anOwner 12 .dispatching
     let s := feOwner endBuffer w [[1], [1]]
     s.mayDispatch 0 = some w ∧ w.phase = .dispatching ∧ w.nextOp < (s.ctx 0).sets.length) ∧
    (let w := anOwner 12 .dispatching
     let s := feOwner endBuffer w [[1]]
     s.owner 0 = some w ∧ s.mayDispatch 0 = some w ∧ w.phase = .dispatching ∧ (s.ctx 0).sets.length ≤ w.nextOp ∧
     (s.readOp 0 w).1.isSome = true ∧ endCount 0 (opHdr opEnd 0 0 []) = some 0 ∧ endCount 6 (opHdr opEnd 0 0 (toLe 4 (5 : Nat))) = none) := by
  decide +kernel

/-- A COPY body. -/
def copyBody (src dst len : Nat) : List Byte := toLe 8 src ++ toLe 8 dst ++ toLe 8 len

/-- The one operation of a state made by `feOp`. -/
def theOp (s : State) : OpEntry := (s.op 0).getD (anOp [] [] .waiting)

set_option maxRecDepth 20000 in
theorem test_witness_ControlOperations :
    ((running opNop 0 [] [] []).started 0 opNop).isSome = true ∧ fe.started 0 opNop = none ∧ fe.started 0 opCopy = none ∧
    (let s := running opCopy 1 [] (copyBody 0x100000 0x100100 0) []
     (s.started 0 opCopy).isSome = true ∧ copyLen (theOp s).body = 0) ∧
    (let s := running opCopy 1 [] (copyBody 0x200000 0x100100 1) []
     (s.started 0 opCopy).isSome = true ∧ copyLen (theOp s).body ≠ 0 ∧ s.hasReq 0 = false ∧
     (s.checkPieces (s.opInst (theOp s)) 1 0x200000 false (piecesOf 0x200000 1)).1.isSome = true) ∧
    (let s := running opCopy 1 [] (copyBody 0x100000 0x100100 1) [0xA5]
     let p : OutRange := { base := 0x100100, len := 1, runs := [(0x100100, zeros 1)], whole := false }
     (s.started 0 opCopy).isSome = true ∧ copyLen (theOp s).body ≠ 0 ∧ s.hasReq 0 = false ∧
     (s.checkPieces (s.opInst (theOp s)) 1 0x100000 false (piecesOf 0x100000 1)).1 = none ∧ s.outHeld (s.opInst (theOp s)) [p] = none ∧
     (s.rangeEnd (s.opInst (theOp s)) { p with runs := [] }).1 = 0x100101 ∧
     (s.copyGranules 0 (s.opInst (theOp s)) (theOp s) 0x100000 0x100100 1 (piecesOf 0x100100 1)).1.isSome = true ∧
     ({ s with parts := { fe.parts with resetting := [.memc] } } : State).outHeld (s.opInst (theOp s)) [p] ≠ none ∧
     ({ s with parts := { fe.parts with reqs := [⟨.memc, 0, 0, 0, false⟩] } } : State).hasReq 0 = true) ∧
    (let s := running opTest 0 (zeros 8 ++ toLe 6 (0x100100 : Nat)) [] []
     (s.started 0 opTest).isSome = true ∧ (s.readObject 0 opTest (fld (hArg (theOp s).hdr 4 4) 0 1) (orefIdx (hArg (theOp s).hdr 0 4))).1 = some (theOp s)) ∧
    (let s := running opTest 0 ([0, 0, 1, 0] ++ zeros 4 ++ toLe 6 (0x100100 : Nat)) [] []
     (s.started 0 opTest).isSome = true ∧ (s.readObject 0 opTest (fld (hArg (theOp s).hdr 4 4) 0 1) (orefIdx (hArg (theOp s).hdr 0 4))).1 = none) ∧
    ((running opSignalPeer 0 (toLe 8 (0x100100 : Nat)) [] []).started 0 opSignalPeer).isSome = true ∧
    ((running opTimestamp 0 (toLe 8 (0x100100 : Nat)) [] []).started 0 opTimestamp).isSome = true ∧
    ((running opChain 1 [1] [] []).started 0 opChain).isSome = true ∧
    (let s := running opFence 0 [] [] []
     (s.started 0 opFence).isSome = true ∧ s.fenceErr (theOp s) = none ∧ s.fenceClear 0 (theOp s) = true ∧ (s.ctx (theOp s).ctx).hostWrites = []) ∧
    (let s : State := { feOp [] { anOp (opHdr opFence 0 0 []) [] .running with mark := some (1, []) } with
       fab := { fe.fab with queued := [anXfer tyWrite (.attached 0 0 [] 0)] } }
     (s.started 0 opFence).isSome = true ∧ s.fenceErr (theOp s) = none ∧ s.fenceClear 0 (theOp s) = false) ∧
    (let s0 := running opFence 0 [] [] []
     let s : State := { s0 with ctxs := [(0, { s0.ctx 0 with xferErrs := [(0, 0, { status := stChipLost })] })] }
     (s.started 0 opFence).isSome = true ∧ (s.fenceErr { theOp s with mark := some (1, []) }).isSome = true) ∧
    (let s0 := running opFence 0 [] [] []
     let s : State := { s0 with ctxs := [(0, { s0.ctx 0 with hostWrites := [(2, 0)] })], dom := { s0.dom with lost := [2] } }
     (s.started 0 opFence).isSome = true ∧ s.fenceErr (theOp s) = none ∧ s.fenceClear 0 (theOp s) = true ∧ (s.ctx (theOp s).ctx).hostWrites = (2, 0) :: [] ∧ s.isLost 2 = true) := by
  decide +kernel

/-- 64 changes in the pending-signal FIFO. -/
def fullFifo : List Sig := List.replicate 64 ⟨0, 0, 0, 1, 1, none, .remote⟩

set_option maxRecDepth 20000 in
theorem test_witness_SignalOperations :
    ((running opSetFlag 0 [] [] []).started 0 opSetFlag).isSome = true ∧ ((running opClearFlag 0 [] [] []).started 0 opClearFlag).isSome = true ∧
    ((running opTallyAdd 0 [] [] []).started 0 opTallyAdd).isSome = true ∧ ((running opBarrierArrive 0 [] [] []).started 0 opBarrierArrive).isSome = true ∧
    (let s := running opSetFlag 0 [] [] []
     s.released (theOp s).ctx (theOp s).idx = true ∧ s.orefHome (hArg (theOp s).hdr 0 4) = s.dom.chipId ∧ ({ s with gal := { s.gal with fifo := fullFifo.drop 1 } } : State).gal.fifo.length < 64) ∧
    (let s : State := { running opSetFlag 0 [] [] [] with gal := { fe.gal with fifo := fullFifo } }
     (s.started 0 opSetFlag).isSome = true ∧ 64 ≤ s.gal.fifo.length) ∧
    (let s := running opSetFlag 0 [2] [] []
     (s.started 0 opSetFlag).isSome = true ∧ s.orefHome (hArg (theOp s).hdr 0 4) ≠ s.dom.chipId ∧ s.isLost (s.orefHome (hArg (theOp s).hdr 0 4)) = false ∧
     ({ s with dom := { s.dom with lost := [2] } } : State).isLost 2 = true) ∧
    fe.started 0 opSetFlag = none ∧ fe.started 0 opClearFlag = none ∧ fe.started 0 opTallyAdd = none ∧ fe.started 0 opBarrierArrive = none := by
  decide +kernel

set_option maxRecDepth 20000 in
theorem test_witness_WaitOperations :
    (let s := running opWait 0 [] [] []
     (s.started 0 opWait).isSome = true ∧ 0 = orefIdx (hArg (theOp s).hdr 0 4) ∧ (s.observe.started 0 opWait).isSome = true ∧
     (s.observe.access 0 0 (s.observe.opInst (theOp s))).1 = 0 ∧
     (s.observe.access 0 0 1).2.judge (.flagIs 0 false) = .pass ∧ (s.observe.access 0 0 1).2.judge (.flagIs 0 true) = .wait ∧
     (s.observe.access 0 0 1).2.judge (.tallyGe 0 0) = .pass ∧ (s.observe.access 0 0 1).2.judge (.tallyGe 0 0x80000000) = .wait ∧
     (s.observe.access 0 0 1).2.judge (.space 0 1 0) = .wait ∧ hStands (theOp s).hdr = 0 ∧
     (({ s with gal := { s.gal with tallies := [(0, 1)] } } : State).observe.access 1 0 1).2.judge (.space 0 1 0) = .fail) ∧
    (let s := running opTallyWait 0 [0, 0, 1, 0] [] []
     (s.started 0 opTallyWait).isSome = true ∧ 1 = orefIdx (hArg (theOp s).hdr 0 4)) ∧
    (let s := running opTallyWaitSpace 0 [0, 0, 0, 0, 0, 0, 1, 0] [] []
     (s.started 0 opTallyWaitSpace).isSome = true ∧ 0 = orefIdx (hArg (theOp s).hdr 0 4) ∧ 1 = orefIdx (hArg (theOp s).hdr 4 4)) ∧
    fe.started 0 opWait = none ∧ fe.started 0 opTallyWait = none ∧ fe.started 0 opTallyWaitSpace = none ∧ fe.observe.started 0 opWait = none := by
  decide +kernel

set_option maxRecDepth 20000 in
theorem test_witness_ConditionalEnqueue :
    fe.started 0 opCondEnqueue = none ∧ fe.op 0 = none ∧ State.reset.live = false ∧
    (let s := running opCondEnqueue 0 [] (zeros 64) []
     (s.started 0 opCondEnqueue).isSome = true ∧ fld (hArg (theOp s).hdr 4 4) 0 3 = 0 ∧ s.enqueueRing (theOp s) = some 3 ∧ (s.dr 3).size ≠ 0 ∧
     ((s.dr 3).push - (s.dr 3).release).toNat < 2 ^ (s.dr 3).size.toNat ∧ (s.dr 3).guilty = none) ∧
    (let s : State := { running opCondEnqueue 0 [] (zeros 64) [] with drs := [(3, { Dr.reset with size := 4, push := 16 })] }
     s.enqueueRing (theOp s) = some 3 ∧ (s.dr 3).size ≠ 0 ∧ 2 ^ (s.dr 3).size.toNat ≤ ((s.dr 3).push - (s.dr 3).release).toNat ∧
     ((15 : Word32) - (s.dr 3).release).toNat < 2 ^ (s.dr 3).size.toNat) ∧
    (let s : State := { running opCondEnqueue 0 [] (zeros 64) [] with drs := [] }
     s.enqueueRing (theOp s) = some 3 ∧ (s.dr 3).size = 0) ∧
    (running opCondEnqueue 0 [0, 0, 0, 0, 0, 1] (zeros 64) []).enqueueRing (theOp (running opCondEnqueue 0 [0, 0, 0, 0, 0, 1] (zeros 64) [])) = none ∧
    (let s := running opCondEnqueue 0 [0, 0, 0, 0, 2] (zeros 64) []
     (s.started 0 opCondEnqueue).isSome = true ∧ fld (hArg (theOp s).hdr 4 4) 0 3 = 2 ∧
     (s.readObject 0 opCondEnqueue 0 (orefIdx (hArg (theOp s).hdr 0 4))).1 = some (theOp s) ∧
     (s.readObject 0 opCondEnqueue 0 0).2.condHolds (theOp s) = true) ∧
    (let s := running opCondEnqueue 0 [0, 0, 0, 0, 4] (zeros 64) []
     fld (hArg (theOp s).hdr 4 4) 0 3 = 4 ∧ (s.readObject 0 opCondEnqueue 1 0).1 = some (theOp s) ∧
     (s.readObject 0 opCondEnqueue 1 0).2.condHolds (theOp s) = false) ∧
    (let s := running opCondEnqueue 0 [0, 0, 1, 0, 1] (zeros 64) []
     fld (hArg (theOp s).hdr 4 4) 0 3 = 1 ∧ (s.readObject 0 opCondEnqueue 0 (orefIdx (hArg (theOp s).hdr 0 4))).1 = none) ∧
    (let o := anOp (opHdr opCondEnqueue 0 8 []) (zeros 64) .held
     let s := feOp [] o
     s.op 0 = some o ∧ s.live = true ∧ o.stage = .held ∧ o.dead = false ∧ hOpcode o.hdr = opCondEnqueue ∧ s.shareStopped o.ctx = false) := by
  decide +kernel

/-- The MATMUL of chapter 10's worked case: one row, one column, K = 3. -/
def matmulDesc : List Byte :=
  fields 160 [(1, [1]), (4, [0x42, 1, 0x25]), (8, [1]), (12, [1]), (16, [3]), (24, [128]), (26, [8]), (32, toLe 4 0x3D4CCCCD), (36, toLe 4 0x3F000000),
    (40, toLe 4 0x3F800000), (48, operandRec 0x100000 3), (64, operandRec 0x100010 2), (80, operandRec 0x100100 1), (96, operandRec 0x100020 0)]

/-- Its operands: A 200, 10, 128; W 11, 6, 15 packed; BIAS 48. -/
def matmulData : List Byte := fields 64 [(0, [200, 10, 128]), (16, [0x6B, 0x0F]), (32, [48])]

/-- A started LAUNCH of category `cat`. -/
def launch (cat : Nat) (d data : List Byte) : State := running opLaunch 1 (toLe 2 cat) d data

/-- One element of each other tile category: input at 0x100000, output at 0x100100. -/
def convDesc : List Byte :=
  fields 144 [(1, [1]), (4, [0x11, 9]), (8, [1]), (10, [1]), (12, [1]), (14, [1]), (16, [1]), (18, [0x11, 0x11, 0x11]), (24, [1]),
    (48, operandRec 0x100000 1), (64, operandRec 0x100010 1), (80, operandRec 0x100100 4)]
def quantizeDesc : List Byte :=
  fields 80 [(1, [1]), (4, [0x18]), (8, [1]), (12, [1]), (20, toLe 4 0x3F800000), (32, operandRec 0x100000 4), (48, operandRec 0x100100 1)]
def dequantizeDesc : List Byte :=
  fields 96 [(1, [1]), (4, [0x81]), (8, [1]), (12, [1]), (20, toLe 4 0x3F800000), (32, operandRec 0x100000 1), (48, operandRec 0x100100 4)]
def attentionDesc : List Byte :=
  fields 112 [(1, [1]), (4, [0x77, 7]), (6, [1]), (8, [1]), (10, [1]), (12, [1]), (14, [1]), (16, [1]), (20, toLe 4 0x3F800000), (24, toLe 4 0x3F800000),
    (32, operandRec 0x100000 2), (48, operandRec 0x100010 2), (64, operandRec 0x100020 2), (80, operandRec 0x100100 2), (96, operandRec 0x100030 0)]
def normDesc : List Byte :=
  fields 96 [(1, [1]), (4, [0x88]), (8, [1]), (12, [1]), (16, toLe 4 0x3F800000), (32, operandRec 0x100000 4), (48, operandRec 0x100100 4)]
def softmaxDesc : List Byte :=
  fields 64 [(1, [1]), (4, [0x88]), (8, [1]), (12, [1]), (16, toLe 4 0x3F800000), (32, operandRec 0x100000 4), (48, operandRec 0x100100 4)]
def elementwiseDesc : List Byte :=
  fields 80 [(1, [1]), (4, [8, 8]), (8, [1]), (12, [1]), (32, operandRec 0x100000 4), (64, operandRec 0x100100 4)]
def reduceDesc : List Byte :=
  fields 64 [(1, [1]), (4, [0x99]), (8, [1]), (12, [1]), (32, operandRec 0x100000 4), (48, operandRec 0x100100 0)]
def gatherDesc : List Byte :=
  fields 80 [(1, [1]), (4, [1]), (8, [1]), (12, [1]), (16, [1]), (32, operandRec 0x100000 1), (48, operandRec 0x100010 0), (64, operandRec 0x100100 1)]
def scatterDesc : List Byte :=
  fields 80 [(1, [1]), (4, [1]), (8, [1]), (12, [1]), (16, [1]), (32, operandRec 0x100100 1), (48, operandRec 0x100010 0), (64, operandRec 0x100000 1)]
def sampleDesc : List Byte :=
  fields 96 [(1, [1]), (4, [0x18]), (8, [1]), (12, [1]), (32, operandRec 0x100000 4), (80, operandRec 0x100100 0)]
def transformDesc : List Byte :=
  fields 64 [(1, [1]), (4, [0x11]), (8, [1]), (12, [1]), (32, operandRec 0x100000 1), (48, operandRec 0x100100 1)]
def reduceAllDesc (p e : Byte) : List Byte :=
  fields 64 [(1, [1]), (4, [0x99]), (8, [e]), (12, [p]), (32, operandRec 0x100000 0), (48, operandRec 0x100100 0)]

/-- The descriptor plans valid work, its inputs pass their checks and are all here, and a result comes out. -/
def ranThrough (cat : Nat) (plan : Nat → List Byte → OpEntry → Option Plan) (d data : List Byte) : Bool :=
  let s := launch cat d data
  let o := theOp s
  (s.started 0 opLaunch).isSome && hCat o.hdr == cat && chipCoord s.dom.chipId o.body == some 0 &&
    match plan 0 o.body o with
    | none => false
    | some p =>
      let c := s.checkOpers (s.opInst o) p.checks
      let r := c.2.readOpers 0 o p.ins
      c.1.isNone && (match r.1 with
        | none => false
        | some a =>
          match p.more a with
          | none => false
          | some os =>
            match (r.2.readOpers 0 o os).1 with
            | none => false
            | some b => (match p.result a b with | .done _ _ => true | _ => false))

theorem test_witness_TileLaunches_matmul : ranThrough 0x10 matmulPlan matmulDesc matmulData = true := by decide +kernel
theorem test_witness_TileLaunches_conv : ranThrough 0x11 convPlan convDesc [1] = true := by decide +kernel
theorem test_witness_TileLaunches_quantize : ranThrough 0x12 quantPlan quantizeDesc [] = true := by decide +kernel
theorem test_witness_TileLaunches_dequantize : ranThrough 0x13 dequantPlan dequantizeDesc [] = true := by decide +kernel
theorem test_witness_TileLaunches_attention : ranThrough 0x20 attentionPlan attentionDesc [] = true := by decide +kernel
theorem test_witness_TileLaunches_norm : ranThrough 0x21 normPlan normDesc [] = true := by decide +kernel
theorem test_witness_TileLaunches_softmax : ranThrough 0x22 softmaxPlan softmaxDesc [] = true := by decide +kernel
theorem test_witness_TileLaunches_elementwise : ranThrough 0x23 elementwisePlan elementwiseDesc [] = true := by decide +kernel
theorem test_witness_TileLaunches_reduce : ranThrough 0x24 reducePlan reduceDesc [] = true := by decide +kernel
theorem test_witness_TileLaunches_gather : ranThrough 0x25 gatherPlan gatherDesc [] = true := by decide +kernel
theorem test_witness_TileLaunches_scatter : ranThrough 0x26 scatterPlan scatterDesc [] = true := by decide +kernel
theorem test_witness_TileLaunches_sample : ranThrough 0x27 samplePlan sampleDesc [] = true := by decide +kernel
theorem test_witness_TileLaunches_transform : ranThrough 0x28 transformPlan transformDesc [] = true := by decide +kernel

set_option maxRecDepth 20000 in
theorem test_witness_TileLaunches :
    fe.started 0 opLaunch = none ∧ ((launch 0x10 matmulDesc matmulData).started 0 opLaunch).isSome = true ∧
    hCat (theOp (launch 0x10 matmulDesc matmulData)).hdr ≠ 0x11 ∧
    matmulPlan 0 (putAt matmulDesc 7 [1]) (theOp (launch 0x10 matmulDesc matmulData)) = none ∧
    (let s := launch 0x28 (putAt transformDesc 32 (operandRec 0x800000000000 1)) []
     ((transformPlan 0 (theOp s).body (theOp s)).isSome = true ∧
      (s.readOpers 0 (theOp s) [{ base := 0x800000000000, rows := 1, len := 1, ld := 1 }]).1 = none)) ∧
    ((launch 0x28 transformDesc []).checkOpers 1 [{ base := 0x200000, rows := 1, len := 1, ld := 1 }]).1.isSome = true ∧
    ((launch 0x28 transformDesc []).checkOpers 1 [{ base := 0x10FFFF, rows := 1, len := 1, ld := 1 }]).1 = none := by decide +kernel

/-- A started ALL_REDUCE of `p` ranks, in which the announcements given have come. -/
def collective (p e : Byte) (a : Tbl (Option (BitVec 16))) (data : Tbl (List (Nat × List Byte))) : State :=
  let s := launch 0x30 (reduceAllDesc p e) []
  { s with
    colls := [⟨s.collKey (theOp s), 1, 1, a, data, false, none⟩]
    ops := [(0, some { theOp s with chips := if p = 1 then [1] else [1, 2] })] }

/-- The announcements of others that an operation's record holds. -/
def told (s : State) : Tbl (Option (BitVec 16)) := (s.opColl (theOp s)).announced.filter (fun a => a.1 ≠ selfRank)

set_option maxRecDepth 20000 in
theorem test_witness_CollectiveLaunches :
    fe.started 0 opLaunch = none ∧ hCat (theOp (launch 0x30 (reduceAllDesc 1 1) [])).hdr ≠ 0x31 ∧
    (let s := launch 0x30 (reduceAllDesc 0 1) []
     (s.started 0 opLaunch).isSome = true ∧ chipCoord s.dom.chipId (theOp s).body = some 0 ∧ collDesc 0 (theOp s).body 0x30 = none) ∧
    (let s := collective 2 1 [] []
     let t := s.collAnnounce 0 (theOp s) 0 true
     (s.started 0 opLaunch).isSome = true ∧ hCat (theOp s).hdr = 0x30 ∧ (theOp s).resume = 0 ∧ (theOp s).chips.length = 2 ∧
     (collDesc 0 (theOp s).body 0x30).map (fun k => (k.c, k.p, k.n)) = some (0, 2, 1) ∧
     (s.opColl (theOp s)).announced.any (fun a => a.1 == selfRank) = false ∧
     ((t.opColl (theOp s)).announced.filter (fun a => a.1 ≠ selfRank)).any (fun a => a.2 ≠ some 0) = false ∧
     (List.range 2).all (fun r => ((t.opColl (theOp s)).announced.filter (fun a => a.1 ≠ selfRank)).any (fun a => a.1 == r)) = false) ∧
    (let s := launch 0x30 (reduceAllDesc 2 1) []
     (s.opColl (theOp s)).announced.any (fun a => a.1 == selfRank) = false ∧ (theOp s).chips.length ≠ 2) ∧
    (let s := collective 2 1 [(0, some 0), (selfRank, some 0)] []
     (s.opColl (theOp s)).announced.any (fun a => a.1 == selfRank) = true ∧ (told s).any (fun a => a.2 ≠ some 0) = false ∧
     (List.range 2).all (fun r => (told s).any (fun a => a.1 == r)) = false) ∧
    (told (collective 2 1 [(1, some 1), (selfRank, some 0)] [])).any (fun a => a.2 ≠ some 0) = true ∧
    (let s := collective 1 0 [(0, some 0), (selfRank, some 0)] []
     (collDesc 0 (theOp s).body 0x30).map (fun k => (k.c, k.p, k.n)) = some (0, 1, 0) ∧ (theOp s).chips.length = 1 ∧
     (List.range 1).all (fun r => (told s).any (fun a => a.1 == r)) = true ∧ (told s).any (fun a => a.2 ≠ some 0) = false) ∧
    (collDesc 0 (reduceAllDesc 1 1) 0x30).map (·.n) = some 1 ∧ (collDesc 0 (reduceAllDesc 1 1) 0x31).isSome = true ∧
    (collDesc 0 (reduceAllDesc 1 1) 0x32).isSome = true ∧
    ({ theOp (collective 1 1 [] []) with resume := 1 } : OpEntry).resume ≠ 0 := by decide +kernel

set_option maxRecDepth 20000 in
theorem test_witness_CollectiveMessages :
    (let p := { Packet.zero with dst := 1, type := tyWrite, inst := 1, msg := some (.announce [0] 1 0) }
     fe.mine p = true ∧ p.type = tyWrite ∧ p.msg.isSome = true ∧ fe.mine { p with dst := 2 } = false ∧ (fe.coll [0] p.inst.toNat 0).past = none) ∧
    fe.collOp [0] = none ∧ fe.collFor [0] = none ∧
    (let s := collective 2 1 [] []
     let key := s.collKey (theOp s)
     (s.collOp key).isSome = true ∧ (s.coll key 1 0).past = none ∧ Tbl.get none (s.coll key 1 0).announced 1 = none ∧
     (Tbl.get [] (s.coll key 1 0).data 1).any (fun x => x.1 == 0 && x.2.length == 4) = false ∧
     (s.collFor key).map (fun x => (x.1, x.2.2)) = some (some 0, 1, 1) ∧
     chipCoord s.dom.chipId (theOp s).body = some 0 ∧ (collDesc 0 (theOp s).body 0x30).isSome = true ∧ (theOp s).resume = 0 ∧
     (match (s.gather 1 (theOp s).staged 1 0x100000 4).1 with | .bytes bs => bs | _ => []) = zeros 4) ∧
    (let s := collective 2 1 [(1, some 0)] [(1, [(0, zeros 4)])]
     (Tbl.get none (s.opColl (theOp s)).announced 1).isSome = true ∧
     (Tbl.get [] (s.opColl (theOp s)).data 1).any (fun x => x.1 == 0 && x.2.length == 4) = true) ∧
    (let s : State := { fe with colls := [⟨[0], 1, 1, [], [], false, some (anOp [] [] .issued)⟩] }
     (s.coll [0] 1 0).past.isSome = true) := by decide +kernel

set_option maxRecDepth 20000 in
theorem test_witness_GalleryOrder :
    (let s := feOp [] (anOp (opHdr opNop 0 0 []) [] .ready)
     let g : Sig := ⟨0, 0, 0, 1, 2, none, .remote⟩
     ({ s with gal := { s.gal with fifo := [g] } } : State).gal.fifo = g :: [] ∧ s.live = true ∧ s.gal.ends = none ∧ ({ s.gal with ends := some [] } : Gallery).ends = some [] ∧ State.reset.live = false ∧
     g.notice = none ∧ g.origin = .remote ∧ Tbl.get 0 s.gal.flips (objKey 0 0) = 0 ∧ s.objVerdict 0 0 1 = 0 ∧ s.gal.waiters = [] ∧
     s.safe.armed = false ∧ sigObjKind 0 = 0 ∧ sigObjKind 1 = 0 ∧ sigObjKind 2 = 1 ∧ sigObjKind 3 = 2 ∧ s.objVerdict 1 1 1 = 0 ∧
     ({ s with dom := mem1.dom } : State).isFe = false ∧ s.objVerdict 2 0 1 = 0 ∧
     (satAdd (s.bar 0).count 1).toNat < s.barPcount 0 ∧ satAdd (s.bar 0).count 1 ≠ 0 ∧
     s.objVerdict 0 1 1 = 0x10 ∧ s.objVerdict 0 0 2 = 0x10 ∧ s.objVerdict 0 16384 1 = 0x11) ∧
    64 ≤ ({ fe with gal := { fe.gal with fifo := fullFifo } } : State).gal.fifo.length ∧
    (let w : Waiter := { entry := 0, holder := 0, cond := .flagIs 0 true, deadline := some 1 }
     let s : State := { fe with gal := { fe.gal with waiters := [w] } }
     s.live = true ∧ s.gal.waiters.find? (fun x => x.entry == 0 && x.deadline.isSome) = some w) ∧
    fe.gal.waiters.find? (fun x => x.entry == 0 && x.deadline.isSome) = none ∧ fe.hangRuns (.host 2) = false ∧ fe.ownersOf (.host 2) = [] ∧
    (feGuilty true).guilt (.host 2) ≠ none ∧
    (let s := feOp [] (anOp (opHdr opNop 0 0 []) [] .running)
     s.live = true ∧ s.hangRuns (.host 2) = true ∧ s.guilt (.host 2) = none ∧ s.ownersOf (.host 2) = [(0, anOwner 12 .dispatching)]) := by decide +kernel

/-- The front end of a domain of chips 1 and 2, its port 0 as given. -/
def fePort (p : Port) : State := { fe with dom := { fe.dom with members := [1, 2] }, fab := { fe.fab with ports := [(0, p)] } }

/-- An ACTIVE port toward chip 2. -/
def upPort : Port := { Port.reset with st := .active, ready := true, partnerChip := 2 }

/-- A port that trains, its READY sent. -/
def trainPort (t : TrainState) : Port := { Port.reset with st := .training, train := t, ready := true }

/-- A READY TS block of the state with code `t` on a lane, as a chip of the same grade and numerics level sends it. -/
def tsBlock (t lane nlevel : Nat) : TrainSet :=
  { tstate := BitVec.ofNat 4 t, lane := BitVec.ofNat 1 lane, port := 0, preset := 3, ready := true, chip := 2, cinc := 0, proto := 1, stands := 8,
    nlevel := BitVec.ofNat 8 nlevel }

/-- The READY TS block of the state with code `t` on a lane, as it stands on the wire. -/
def tsWire (t lane nlevel : Nat) : Block := ctlBlock bkTs (tsBlock t lane nlevel).content

theorem test_witness_PortTraining :
    (trainPort .lock).readTrain (tsWire 1 0 1) (tsWire 1 1 1).flip = some (tsBlock 1 0 1, tsBlock 1 1 1, 2) ∧
    (trainPort .config).readTrain (tsWire 4 0 1) (tsWire 4 1 1) = some (tsBlock 4 0 1, tsBlock 4 1 1, 0) ∧
    (trainPort .lock).readTrain (tsWire 1 0 1) (ctlBlock bkIdle 0) = none ∧
    (fePort upPort).fabricRuns = true ∧ 23 < 24 ∧ 24 ≤ 24 ∧ ((fePort upPort).port 0).up = true ∧ ((fePort upPort).port 23).up = false ∧
    State.reset.fabricRuns = false ∧ ((fePort (trainPort .lock)).port 0).st ≠ .active ∧
    ((fePort (trainPort .lock)).port 0).st = .training ∧ ((fePort (trainPort .lock)).port 0).backoff = false ∧ ((fePort (trainPort .lock)).port 0).ready = true ∧
    (tsBlock 1 0 1).ready = true ∧ (tsBlock 1 0 1).tstate = TrainState.lock.code ∧ (tsBlock 2 0 1).tstate = TrainState.equalize.code ∧
    (tsBlock 3 0 1).tstate = TrainState.align.code ∧ (tsBlock 4 0 1).tstate = TrainState.config.code ∧ (tsBlock 1 0 1).lane ≠ (tsBlock 1 1 1).lane ∧
    ((fePort (trainPort .config)).port 0).train = .config ∧ ({ tsBlock 4 0 1 with proto := 2 } : TrainSet).proto ≠ 1 ∧ (tsBlock 4 0 1).proto = 1 ∧
    (tsBlock 4 0 1).stands.toNat = Grade.stands (fePort upPort).fuses.grade ∧ ({ tsBlock 4 0 1 with stands := 6 } : TrainSet).stands.toNat ≠ Grade.stands (fePort upPort).fuses.grade ∧
    (tsBlock 4 0 1).nlevel = (fePort upPort).boot.nlevel ∧ (tsBlock 4 0 2).nlevel ≠ (fePort upPort).boot.nlevel ∧
    ({ tsBlock 1 0 1 with ready := false } : TrainSet).ready = false ∧ (tsBlock 2 0 1).tstate ≠ TrainState.lock.code ∧
    (let s := fePort { trainPort .lock with attempts := 6 }
     (s.port 0).attempts + 1 < 8 ∧ ¬ (s.port 0).attempts + 2 < 8) ∧
    (let s := fePort { trainPort .lock with attempts := 7 }
     8 ≤ (s.port 0).attempts + 1) ∧
    (let s := fePort { trainPort .lock with backoff := true }
     (s.port 0).backoff = true ∧ (s.port 0).st = .training) ∧
    ({ Port.reset with backoff := true } : Port).st = .down := by decide

/-- A control word with its check. -/
def sealedLcw (w : Lcw) : Lcw := { w with lcrc := w.crc }

/-- A flit of zeros, and the control word of the group it is. -/
def aFlit : Flit := zeros 32
def groupWord (seq : BitVec 12) : Lcw :=
  sealedLcw { gseq := seq, gcnt := 0, empty := false, ackseq := 0, ackv := false, nak := false, gcrc := crc32c aFlit, cvcA := 0, ccntA := 0, cvcB := 0,
              ccntB := 0, lcrc := 0 }

set_option maxRecDepth 20000 in
theorem test_witness_LinkLayer_blocks :
    readGroup ((groupPairs [aFlit] (groupWord 0)).map upPort.corrected) = some ([aFlit], true, groupWord 0) ∧
    readGroup ((flitPairs aFlit).map upPort.corrected) = none ∧
    readGroup ((idlePair :: groupPairs [aFlit] (groupWord 0)).map upPort.corrected) = some ([aFlit], false, groupWord 0) := by decide

set_option maxRecDepth 20000 in
theorem test_witness_LinkLayer :
    (let s := fePort upPort
     s.fabricRuns = true ∧ 23 < 24 ∧ (s.port 0).st = .active ∧ ({ upPort with st := .held } : Port).st = .held ∧
     ({ groupWord 0 with lcrc := (groupWord 0).crc + 1 } : Lcw).lcrc ≠ (groupWord 0).crc ∧ (groupWord 0).lcrc = (groupWord 0).crc ∧
     (groupWord 0).empty = false ∧ ((s.takeLcw 0 (groupWord 0)).port 0).st ≠ .training ∧ (groupWord 0).gcrc = crc32c [aFlit].flatten ∧
     [aFlit].length = (groupWord 0).gcnt.toNat + 1 ∧ [aFlit] ≠ [] ∧ (∀ f ∈ [aFlit], f.length = 32) ∧ [aFlit, aFlit].length ≠ (groupWord 0).gcnt.toNat + 1 ∧
     (groupWord 0).gcrc ≠ crc32c [aFlit, aFlit].flatten ∧ ({ groupWord 0 with empty := true } : Lcw).empty = true ∧ (s.port 0).link.stalls < 16 ∧
     s.lcwDue 0 = false ∧ (groupWord 0).gseq = (s.port 0).link.rxLast + 1 ∧ (s.port 0).link.unacked = [] ∧ s.freeSlot.isSome = true ∧ [((0 : BitVec 12), aFlit)].length ≤ 8) ∧
    16 ≤ ((fePort { upPort with link := { Link.reset with stalls := 16 } }).port 0).link.stalls ∧
    (fePort { upPort with link := { Link.reset with ackDue := true } }).lcwDue 0 = true ∧
    State.reset.fabricRuns = false ∧ ((fePort Port.reset).port 0).st ≠ .active ∧ ((fePort Port.reset).port 0).st ≠ .held ∧
    (let s := fePort { upPort with link := { Link.reset with rxAny := true, rxLast := 5 } }
     (groupWord 5).gseq ≠ (s.port 0).link.rxLast + 1 ∧ (s.port 0).link.rxAny = true ∧
     ((s.port 0).link.rxLast - ((groupWord 5).gseq + BitVec.ofNat 12 ([aFlit].length - 1))).toNat < 2048) ∧
    ((fePort { upPort with link := { Link.reset with unacked := [(0, aFlit)] } }).port 0).link.unacked ≠ [] ∧
    (let l : Link := { Link.reset with used := [0], credit := [(0, 4)], granted := [(0, 4)] }
     1 ≠ 0 ∧ l.used.contains 0 = true ∧ Tbl.get 0 l.granted 0 < Tbl.get 0 l.credit 0 + 1) ∧
    (let g : Slot := ⟨2, 0, ⟨0, 0, 0, 1, 2, none, .remote⟩, false, false, 2, 0, false⟩
     ({ fe with gal := { fe.gal with slots := (List.range 512).map (fun n => (n, some g)) } } : State).freeSlot = none) := by decide +kernel

/-- A packet with its PCRC. -/
def sealedPkt (p : Packet) : Packet := { p with pcrc := p.crc }

/-- A packet of chip 2 for chip 1, its incarnations as both hold them. -/
def fromTwo (type : BitVec 8) (data : List Byte) : Packet :=
  sealedPkt { Packet.zero with dst := 1, src := 2, type := type, tinc := 7, tid := 1, len := BitVec.ofNat 9 data.length, data := data, tail := true }

/-- Receive windows of `n` other sources. -/
def windows (n : Nat) : List Window256 := (List.range n).map (fun k => { src := BitVec.ofNat 16 (k + 3), sinc := 0, base := 0, done := [], outcomes := [], first := 0, passed := [] })

/-- `mem1` as the standby. -/
def standbyRole : State := { mem1 with dom := { mem1.dom with role := .standby } }

set_option maxRecDepth 40000 in
theorem test_witness_PacketDelivery :
    (let s := fePort upPort
     s.mine (fromTwo tyWrite [1]) = true ∧ (fromTwo tyWrite [1]).isVoid = false ∧ (fromTwo tyWrite []).isVoid = true ∧
     (fromTwo tyWrite [1]).msg = none ∧ lKind (fromTwo tyLaunch [0]).data ≠ 2 ∧ lKind (fromTwo tyLaunch [0]).data ≠ 3 ∧ lKind (fromTwo tyLaunch [2]).data = 2 ∧
     lKind (fromTwo tyLaunch [3]).data = 3 ∧ hbSub (fromTwo tyHeartbeat [1]) = 1 ∧ hbSub (fromTwo tyHeartbeat [5]) = 5 ∧
     leAt (fromTwo tyJournal (toLe 4 (1 : Nat))).data 0 4 ≠ 0 ∧ leAt (fromTwo tyJournal (zeros 4)).data 0 4 = 0 ∧ leAt (fromTwo tyInstCtl [4]).data 0 1 = 4 ∧
     s.mine { fromTwo tyWrite [1] with dst := 2 } = false ∧ s.isLost 2 = false ∧ (fromTwo tyWrite [1]).malformed = false ∧
     ({ fromTwo tyWrite [1] with len := 257 } : Packet).malformed = true ∧ ({ fromTwo tyWrite [1] with pktidx := 1 } : Packet).malformed = true ∧
     (fromTwo tyWrite [1]).crc = (fromTwo tyWrite [1]).pcrc ∧ (fromTwo tyWrite [1]).crc ≠ (fromTwo tyWrite [1]).crc + 1 ∧
     (fromTwo tyWrite [1]).tinc = s.dom.chipInc ∧ (sealedPkt { fromTwo tyWrite [1] with tinc := 6 }).crc = (sealedPkt { fromTwo tyWrite [1] with tinc := 6 }).pcrc ∧
     (6 : BitVec 8) ≠ s.dom.chipInc ∧ (fromTwo tyWrite [1]).isCtl = false ∧ (1 : BitVec 7) ≠ (s.inst 0).epoch ∧ (fromTwo tyWrite [1]).iepoch = (s.inst 0).epoch ∧
     (fromTwo tyHeartbeat [1]).isCtl = true ∧
     (match (s.windowFor (fromTwo tyWrite [1])).1 with | .here w => !w.has 1 | _ => false) = true) ∧
    ({ fePort upPort with dom := { (fePort upPort).dom with lost := [2] } } : State).isLost 2 = true ∧
    (let s : State := { fePort upPort with fab := { fe.fab with windows := windows 256 } }
     s.window 2 = none ∧ 256 ≤ s.fab.windows.length ∧ (match (s.windowFor (fromTwo tyWrite [1])).1 with | .full => true | _ => false) = true) ∧
    (let w : Window256 := { src := 2, sinc := 128, base := 2, done := [], outcomes := [], first := 0, passed := [] }
     let s : State := { fePort upPort with fab := { fe.fab with windows := [w] } }
     s.window 2 = some w ∧ w.sinc ≠ (fromTwo tyWrite [1]).sinc ∧ 127 < ((fromTwo tyWrite [1]).sinc - w.sinc).toNat ∧
     (match (s.windowFor (fromTwo tyWrite [1])).1 with | .old => true | _ => false) = true) ∧
    (let w : Window256 := { src := 2, sinc := 0, base := 2, done := [], outcomes := [], first := 0, passed := [] }
     let s : State := { fePort upPort with fab := { fe.fab with windows := [w] } }
     (match (s.windowFor (fromTwo tyWrite [1])).1 with | .here v => v.has (fromTwo tyWrite [1]).tid | _ => false) = true ∧
     (fromTwo tyWrite [1]).type ≠ tyReadReq ∧ (fromTwo tyReadReq []).type = tyReadReq) ∧
    (fePort upPort).dom.root = true ∧ standbyRole.dom.role = .standby ∧ (fePort upPort).mgr.rmtBusy = false ∧
    ({ (fePort upPort).mgr with rmtBusy := true } : Mgr).rmtBusy = true := by decide +kernel

/-- A packet of chip 2 that says `m`. -/
def saysTwo (m : CtlMsg) : Packet := sealedPkt { fromTwo m.type [] with msg := some m }

/-- Each message that has a row of its own is carried by a packet this chip takes. -/
theorem test_witness_PacketDelivery_messages :
    ([.prepare 1 [] none, .commit 1 false none none, .prepareAck 1 0, .portLeft 3, .fence 2, .declare 2, .announce [0] 1 0, .contribute [0] 1 0 [0],
      .replayAsk [0], .replayFail [0] 1, .mgmt 3 false 0 false none, .mgmtAnswer 0 0 true, .ringAnswer 1 0, .invalDone] : List CtlMsg).all (fun m =>
      (fePort upPort).mine (saysTwo m) && (saysTwo m).msg == some m && m.type == (saysTwo m).type) = true ∧
    (CtlMsg.mgmt 3 false 0 false none).isRequest = true := by decide +kernel

/-- `fe` whose memory's word 0 holds `n` wrong bits. -/
def feFlips (n : Nat) : State := { fe with mem := { fe.mem with flips := [(0, BitVec.ofNat 72 (2 ^ n - 1))] } }

set_option maxRecDepth 40000 in
theorem test_witness_PacketContents :
    (let s := fePort upPort
     let p := fromTwo tyWrite [1]
     (s.dropCopies p).resettingPart p = none ∧ p.ord = false ∧ (takeAny (s.dropCopies p) p).1 ≠ .wait ∧ p.type = tyWrite ∧ p.msg = none ∧ p.isVoid = false ∧ p.pktcnt = 1 ∧
     p.sig = false ∧ s.logHolds p = false ∧ s.confDenied 0 p.enc 0 1 = false ∧ (match (s.writeMem 0 0 [1]).1 with | none => true | _ => false) = true ∧ p.addr.getLsbD 47 = false ∧ p.data ≠ [] ∧ inStaging p.addr.toNat p.data.length = false ∧ s.inDram p.addr.toNat p.data.length = true ∧
     s.tracker 2 1 = none) ∧
    (let p := sealedPkt { fromTwo tyWrite [1] with addr := BitVec.ofNat 48 (dramEnd - 1) }
     (fePort upPort).inDram p.addr.toNat p.data.length = true ∧ (fePort upPort).inDram (p.addr.toNat + 1) p.data.length = false ∧
     inStaging (p.addr.toNat + 1) p.data.length = false) ∧
    (let s : State := { fePort upPort with parts := { fe.parts with resetting := [.memc] } }
     (s.dropCopies (fromTwo tyWrite [1])).resettingPart (fromTwo tyWrite [1]) = some .memc) ∧
    (let s : State := { fePort upPort with fab := { fe.fab with ordDue := [(2, 0, 0)] } }
     let p := { fromTwo tyWrite [1] with ord := true }
     (s.dropCopies p).resettingPart p = none ∧ p.ord = true ∧ (s.dropCopies p).ordBlocked p = true) ∧
    (fromTwo tyReadReq []).type = tyReadReq ∧ (fromTwo tyLaunch [0]).type = tyLaunch ∧ (fromTwo tyWrite []).isVoid = true ∧ (fePort upPort).slotOf 2 1 = none ∧
    (let s : State := { fePort upPort with sec := { fe.sec with owner := [(0, 0x41)] } }
     s.inDram 0 1 = true ∧ s.confDenied 0 false 0 1 = true) ∧
    (let p := { fromTwo tyWrite [1] with addr := 0x800000000000 }
     p.addr.getLsbD 47 = true ∧ p.data ≠ [] ∧ ({ fe with pcie := Pcie.reset } : State).pcie.up = false ∧ fe.pcie.up = true ∧
     fe.slotPermits p 1 true = false ∧ (feMem []).slotPermits { p with inst := 1 } 1 true = true ∧
     ({ feMem [] with dlog := { fe.dlog with size := 4, prod := 16 }, insts := [(1, { fe.inst 1 with dlog := true })] } : State).logHolds { p with inst := 1 } = true) ∧
    (match ((feFlips 2).writeMem 0 0 [1]).1 with | some _ => true | none => false) = true ∧
    (let m := CtlMsg.fence 2
     (saysTwo m).msg = some m ∧ m.type = (saysTwo m).type ∧ (saysTwo m).type = tyFence) ∧
    (let t : Tracker := { src := 2, tid := 1, inst := 0, pktcnt := 300, done := [1], ord := false, refusal := 0 }
     let s : State := { fePort upPort with fab := { fe.fab with trackers := [t] } }
     s.tracker 2 1 = some t ∧ lowestOpen (t.done.length + 1) 0 t.done + 256 ≤ (256 : BitVec 16).toNat) ∧
    (let t : Tracker := { src := 3, tid := 1, inst := 0, pktcnt := 300, done := [1], ord := false, refusal := 0 }
     let s : State := { fePort upPort with fab := { fe.fab with trackers := List.replicate 2048 t } }
     s.tracker 2 1 = none ∧ 2048 ≤ s.fab.trackers.length) ∧
    (let p := { fromTwo tyReadReq [] with len := 8 }
     let s := fePort upPort
     p.addr.getLsbD 47 = false ∧ s.inDram p.addr.toNat p.len.toNat = true ∧ s.confDenied p.inst.toNat p.enc p.addr.toNat p.len.toNat = false ∧
     (match (s.readMem 0 p.addr.toNat p.len.toNat).1 with | .inl bs => bs == zeros 8 | .inr _ => false) = true) ∧
    (let d : List Byte := [1, 0x41]
     1 = leAt d 1 1 % 64 ∧ leAt d 0 1 = 1) := by decide +kernel

/-- A multicast packet of ID 5. -/
def mcPkt : Packet := sealedPkt { fromTwo tyWrite [1] with mc := true, dst := 5, tid := 0 }

set_option maxRecDepth 40000 in
theorem test_witness_PacketRouting :
    (let s := fePort upPort
     let p := fromTwo tyWrite [1]
     s.portTakes 0 p = true ∧ p.mcid = none ∧ p.malformed = false ∧ p.dst = s.dom.chipId ∧ ({ p with len := 257 } : Packet).malformed = true ∧
     (3 : ChipId) ≠ s.dom.chipId ∧ p.type ≠ tyDisc ∧ 6 ≤ (6 : BitVec 3).toNat ∧ (5 : BitVec 3).toNat < 6 ∧ s.portTakes 1 p = false ∧
     (fromTwo tyDisc []).type = tyDisc ∧
     mcPkt.mc = true ∧ mcPkt.mcid.isSome = true ∧ p.mc = false ∧ s.portTakes 0 mcPkt = true ∧ mcPkt.mcid = some 5 ∧ mcPkt.malformed = false ∧
     (Tbl.get 0 s.act.mc 5).getLsbD 25 = false ∧ mcPkt.crc = mcPkt.pcrc ∧ mcPkt.crc ≠ mcPkt.crc + 1) ∧
    ({ fromTwo tyWrite [1] with mc := false, dst := 0xFFFF } : Packet).mcid = some 0 ∧
    (Tbl.get 0 ({ fe.act with mc := [(5, 0x03000001)] } : CfgSet).mc 5).getLsbD 25 = true ∧
    ({ fePort upPort with parts := { fe.parts with resetting := [.memc] } } : State).resettingPart mcPkt = some .memc ∧
    (let h : HeldPacket := { part := 0, packet := mcPkt }
     let s : State := { fePort upPort with fab := { fe.fab with mcHeld := [h], held := [h] } }
     s.fab.mcHeld[0]? = some h ∧ s.fab.held[0]? = some h ∧ s.fab.mcHeld.length ≤ 1 ∧ s.fab.held.length ≤ 1) ∧
    (let t : Tracker := { src := 2, tid := 1, inst := 0, pktcnt := 2, done := [1], ord := false, refusal := 0 }
     let s : State := { fePort upPort with fab := { fe.fab with trackers := [t] } }
     s.tracker 2 1 = some t ∧ s.live = true) ∧
    fe.tracker 2 1 = none ∧ State.reset.live = false := by decide +kernel

/-- `fePort` with that transfer unacknowledged. -/
def feSent (x : Xfer) : State := { fePort upPort with fab := { (fePort upPort).fab with xfers := [x] } }

/-- An answer of chip 2 to it. -/
def anAnswer (type : BitVec 8) (reason : Nat) : Packet := sealedPkt { fromTwo type [] with addr := BitVec.ofNat 48 reason }

set_option maxRecDepth 40000 in
theorem test_witness_Answers :
    (let x := anXfer tyWrite .void
     let s := feSent x
     s.answered (anAnswer tyAck 0) = some x ∧ (anAnswer tyAck 0).type = tyAck ∧ (match x.purpose with | .abort _ => false | _ => true) = true ∧
     s.answered (anAnswer tyNak 1) = some x ∧ (anAnswer tyNak 1).reason = 1 ∧ (anAnswer tyNak 3).reason = 3 ∧ (anAnswer tyNak 4).reason = 4 ∧
     x.pkts.getLast?.isSome = true ∧ s.xferOf 2 1 = some x ∧ (anAnswer tyNak 2).reason = 2 ∧ s.mine (anAnswer tyNak 2) = true ∧
     (anAnswer tyNak 2).malformed = false ∧ (anAnswer tyNak 2).crc = (anAnswer tyNak 2).pcrc ∧ s.live = true ∧ x.refused = [] ∧ s.dom.root = true ∧
     ((s.resendAll x).xferOf 2 1).map (·.sends) = some 2 ∧ (∀ e ∈ (((s.resendAll x).xferOf 2 1).getD x).pktSends, e.2 ≠ 8)) ∧
    (let x := { anXfer tyWrite .void with sends := 3 }
     (((feSent x).resendAll x).xferOf 2 1).map (·.sends) = some 4) ∧
    (let x := { anXfer tyWrite .void with pktSends := [(0, 7)] }
     ((((feSent x).resendAll x).xferOf 2 1).getD x).pktSends.any (fun e => e.2 == 8) = true) ∧
    (let q := (anXfer tyReadReq .void).pkts.getLast?.getD Packet.zero
     q.type = tyReadReq ∧ bit q.addr.toNat 47 = false ∧ bit (0x800000000000 : BitVec 48).toNat 47 = true) ∧
    (feSent (anXfer tyReadReq .void)).answered (fromTwo tyReadRsp [1]) = some (anXfer tyReadReq .void) ∧
    (anXfer tyReadReq .void).pkts.any (fun q => q.type == tyReadReq) = true ∧
    (feSent (anXfer tyLaunch (.abort 0))).answered (anAnswer tyAck 0) = some (anXfer tyLaunch (.abort 0)) ∧
    (let p := { anAnswer tyAck 0 with pcrc := (anAnswer tyAck 0).pcrc + 1 }
     (fePort upPort).answered p = none ∧ (fePort upPort).mine p = true ∧ p.malformed = false ∧ p.crc ≠ p.pcrc) ∧
    (fePort upPort).answered (anAnswer tyAck 0) = none ∧ (anAnswer tyAck 0).crc = (anAnswer tyAck 0).pcrc ∧
    (sealedPkt { anAnswer tyAck 0 with tinc := 6 }).tinc ≠ (fePort upPort).dom.chipInc ∧ (fePort upPort).xferOf 2 1 = none ∧
    ({ anXfer tyReadReq .void with got := [0] } : Xfer).got.contains (fromTwo tyReadRsp [1]).pktidx.toNat = true ∧
    ({ anXfer tyWrite .void with refused := [0], rounds := 20 } : Xfer).refused ≠ [] ∧ 20 ≤ ({ anXfer tyWrite .void with rounds := 20 } : Xfer).rounds ∧
    ({ anXfer tyWrite .void with rounds := 19 } : Xfer).rounds < 20 ∧
    (let s : State := { feSent (anXfer tyWrite .void) with dom := mem1.dom }
     s.dom.root = false ∧ (anXfer tyWrite .void).dst = s.dom.rootId ∧ ({ anXfer tyWrite .void with dst := 3 } : Xfer).dst ≠ s.dom.rootId ∧
     s.dom.standby = none ∧ ({ s.dom with standby := some 1 } : Dom).standby = some s.dom.chipId ∧ (3 : ChipId) ≠ s.dom.chipId) := by decide +kernel

/-- A chip electing on port 0. -/
def feElect (d : Disc) (id : ChipId) : State :=
  { fePort upPort with
    boot := { fe.boot with state := .fabric, cfg := zeros 64 }
    dom := { Dom.reset with chipId := id }
    disc := d }

/-- A DISC packet that says `m`. -/
def discPkt (m : CtlMsg) : Packet := sealedPkt { fromTwo tyDisc [] with msg := some m }

/-- A report of a chip with serial `n`. -/
def aReport (n : BitVec 48) : Report := { (feElect Disc.reset 0).bareReport with serial := n }

theorem test_witness_DomainFormation_packets :
    (let s := feElect Disc.reset 0
     s.portTakes 0 (discPkt .parent) = true ∧ (discPkt .parent).type = tyDisc ∧ (discPkt .parent).malformed = false ∧
     (discPkt .parent).crc = (discPkt .parent).pcrc ∧ ({ discPkt .parent with pcrc := (discPkt .parent).crc + 1 } : Packet).pcrc ≠ (discPkt .parent).crc ∧
     ([.elect 9, .parent, .report (aReport 9), .assign 9 3 0, .reject 9 1, .ready 9] : List CtlMsg).all (fun m => (discPkt m).msg == some m) = true ∧
     s.portTakes 1 (discPkt .parent) = false ∧ (fromTwo tyWrite []).type ≠ tyDisc) := by decide +kernel

theorem test_witness_DomainFormation :
    (let s := feElect Disc.reset 0
     s.electing = true ∧ (s.port 0).st = .active ∧ s.disc.closed = false ∧ 0 ∉ s.disc.children ∧ (aReport 9).serial ≠ s.fuses.serial ∧
     s.disc.parent = none ∧ (s.port 1).st ≠ .active ∧ s.activeMask ≠ 0 ∧ s.disc.isRoot = false ∧ s.dom.chipId = 0) ∧
    ({ Disc.reset with parent := some 0 } : Disc).parent = some 0 ∧ ({ Disc.reset with closed := true } : Disc).closed = true ∧
    (let s := feElect { Disc.reset with active := true, best := 9 } 0
     s.disc.active = true ∧ s.disc.closed = false ∧ (9 : Word64).toNat ≤ s.disc.best.toNat ∧ s.disc.best.toNat < (10 : Word64).toNat ∧ s.disc.best ≠ s.ownKey) ∧
    (let s := feElect { Disc.reset with active := true, best := (feElect Disc.reset 0).ownKey } 0
     s.disc.best = s.ownKey ∧ s.disc.parent = none ∧ s.disc.isRoot = false) ∧
    (let s := feElect { Disc.reset with active := true, parent := some 0 } 3
     s.electing = true ∧ s.disc.parent.isSome = true ∧ s.dom.chipId ≠ 0 ∧ (9 : BitVec 48) ≠ s.fuses.serial) ∧
    ({ feElect Disc.reset 0 with fab := fe.fab } : State).activeMask = 0 ∧
    (let s := feElect { Disc.reset with isRoot := true } 0
     s.disc.isRoot = true ∧ s.disc.closed = false ∧ leAt s.boot.cfg 24 2 = 0 ∧ leAt s.boot.cfg 26 2 = 0 ∧ leAt s.boot.cfg 28 2 = 0 ∧ 50 ≤ 50 ∧ 10 ≤ 10 ∧
     leAt s.boot.cfg 32 4 = 0 ∧ 5000 ≤ 5000 ∧ 49 < 50) ∧
    (let b := zeros 24 ++ [1] ++ zeros 39
     leAt b 24 2 ≠ 0 ∧ leAt b 24 2 ≤ [aReport 9].length) ∧
    fe.electing = false ∧
    (let s := fePort upPort
     s.live = true ∧ s.dom.formed = true ∧ s.fromRoot 1 = true ∧ s.fromRoot 3 = false ∧ (2 : ChipId) ≠ s.dom.chipId ∧ s.activeMask ≠ 0 ∧
     (∀ x ∈ s.activePorts, x ∈ [0]) ∧ (∀ x ∈ s.activePorts, x ∉ [1])) ∧
    State.reset.live = false := by decide +kernel

/-- The roster of chips 1 and 2. -/
def aRoster (ms : List ChipId) : Roster := { members := ms, root := 2, standby := none, frontEnd := 2, links := [] }

theorem test_witness_DomainEpochs :
    (mem1.live = true ∧ mem1.dom.formed = true ∧ mem1.dom.root = false ∧ mem1.fromRoot 2 = true ∧ mem1.fromRoot 3 = false ∧ mem1.dom.chipId ∉ [3] ∧
     (1 : Word32) = mem1.dom.depoch + 1 ∧ mem1.dom.rootId ∉ [3] ∧ mem1.dom.rootId ∈ [2] ∧ mem1.dom.owed = none ∧
     ({ mem1 with dom := { mem1.dom with standby := some 1 } } : State).dom.standby = some 1 ∧ mem1.dom.chipId ∈ [1] ∧
     (2 : Word32) ≠ mem1.dom.depoch + 1 ∧ mem1.dom.chipId ∈ (aRoster [1, 2]).members ∧ mem1.dom.chipId ∉ (aRoster [2]).members) ∧
    State.reset.live = false ∧
    (let s : State := { mem1 with dom := { mem1.dom with owed := some 0, preparing := some 1, leaving := [2] } }
     s.dom.owed = some 0 ∧ s.dom.preparing = some 1 ∧ s.leavingShares = false ∧ s.dom.root = false) ∧
    (let s0 := { mem1 with dom := { mem1.dom with owed := some 0, preparing := some 1, leaving := [2] } }
     let sh : Share := { chip := 2, ctx := 0, gen := 0, inst := 1, rt := none, last := true, ovf := false, replayed := false, faulted := false, aborting := false,
                         sent := false, order := 0, abortPkt := none }
     ({ s0 with ctxs := [(0, { Ctx.reset with use := .share sh })], ops := [(0, some (anOp (opHdr opLaunch 1 20 []) [] .running))], stands := [(0, 1)] } : State).leavingShares = true) ∧
    (let s := feElect { Disc.reset with parent := some 0 } 1
     s.dom.formed = false ∧ s.electing = true ∧ s.dom.chipId ≠ 0 ∧ s.disc.parent.isSome = true ∧ s.dom.chipId ∈ (aRoster [1, 2]).members ∧
     (1 : Word32) = s.dom.depoch + 1) := by
  decide +kernel

theorem test_witness_DomainEpochs_root :
    (let s : State := { fePort upPort with rootw := { fe.rootw with use := some .routing, acks := [2] } }
     s.live = true ∧ s.dom.root = true ∧ s.rootw.use.isSome = true ∧ (1 : Word32) = s.dom.depoch + 1 ∧ 2 ∈ s.rootw.acks ∧
     s.rootw.acks.filter (· ≠ 2) = [] ∧ 3 ∉ s.rootw.acks ∧ 2 ∈ s.memberList ∧ 3 ∉ s.memberList) ∧
    ({ fe.rootw with acks := [2, 3] } : RootWork).acks.filter (· ≠ 2) ≠ [] ∧ fe.rootw.use = none ∧
    (fePort upPort).cutOff 2 = true ∧ ({ fePort upPort with rootw := { fe.rootw with links := [(1, 0, 2, 0), (2, 0, 1, 0)] } } : State).cutOff 2 = false ∧
    (let s : State := { fePort upPort with rootw := { fe.rootw with asking := [2] }, mgr := { fe.mgr with rmtBusy := true, rmtChip := 2, rmtOff := 4 } }
     s.rootw.asking.head? = some 2 ∧ (4 : BitVec 24) ≠ 0x48 ∧ s.mgr.rmtBusy = true ∧ s.mgr.rmtChip = 2 ∧ s.mgr.rmtOff = 4) ∧
    fe.rootw.asking.head? ≠ some 2 ∧ fe.mgr.rmtBusy = false ∧ (fePort upPort).dom.rootId ≠ 2 ∧ mem1.dom.rootId = 2 ∧ (3 : BitVec 3) = 3 ∧ 0x48 % 8 = 0 := by
  decide +kernel

/-- `fePort` with chip 2 its standby. -/
def fePair (p : Pair) : State := { fePort upPort with dom := { (fePort upPort).dom with standby := some 2 }, pair := p }

/-- Chip 1 as the standby of front end 2. -/
def standby : State := { mem1 with dom := { mem1.dom with role := .standby, standby := some 1 } }

/-- A heartbeat of chip 2. -/
def hbFrom (sub flags : Byte) : Packet := fromTwo tyHeartbeat ([sub, flags] ++ toLe 2 (2 : Nat) ++ zeros 12)

theorem test_witness_PairAndClaims :
    (let s := fePair { Pair.reset with lease := true, openRecs := [[1]] }
     s.dom.standby = some 2 ∧ s.live = true ∧ s.dom.formed = true ∧ s.isFe = true ∧ s.pair.beaten = false ∧ s.paired = true ∧ s.pair.lease = true ∧
     s.pair.claiming = false ∧ s.pair.openRecs ≠ []) ∧
    fe.dom.standby = none ∧ State.reset.live = false ∧ mem1.isFe = false ∧ ({ Pair.reset with beaten := true } : Pair).beaten = true ∧ fe.paired = false ∧
    (fePair { Pair.reset with lease := false }).pair.lease = false ∧
    (standby.dom.root = false ∧ standby.live = true ∧ standby.dom.formed = true ∧ standby.dom.role = .standby ∧ standby.pair.lossSeen = false ∧ 2 ∈ standby.memberList ∧
     3 ∉ standby.memberList ∧ (hbFrom 1 0).src = standby.dom.frontEnd ∧ hbRouted (hbFrom 1 0) = false ∧ hbRouted (hbFrom 1 1) = true) ∧
    mem1.dom.role ≠ .standby ∧ ({ Pair.reset with lossSeen := true } : Pair).lossSeen = true ∧ ({ Pair.reset with claiming := true } : Pair).claiming = true ∧
    Pair.reset.claiming = false ∧ (fePair Pair.reset).pair.openRecs = [] ∧ mem1.dom.formed = true ∧ mem1.pair.granted = none ∧
    ({ Pair.reset with granted := some (hbDepoch (hbFrom 3 0), 2) } : Pair).granted = some (hbDepoch (hbFrom 3 0), 2) ∧
    (let s : State := { fePair { Pair.reset with claiming := true } with pending := [] }
     s.pair.claiming = true ∧ 2 ∈ s.memberList ∧ 2 ∉ s.pair.grants ∧ s.isFe = true ∧ 2 * (s.pair.grants.length + 1) = s.memberList.length) ∧
    (let s : State := { standby with dom := { standby.dom with members := [1, 2, 3] }, pair := { Pair.reset with claiming := true, grants := [1] } }
     3 ∈ s.memberList ∧ 3 ∉ s.pair.grants ∧ s.memberList.length < 2 * (s.pair.grants.length + 1)) ∧
    (let s : State := { standby with pair := { Pair.reset with claiming := true } }
     2 * (s.pair.grants.length + 1) ≤ s.memberList.length ∧ s.isFe = false) ∧
    fe.dom.standby ≠ some (hbFrom 2 0).src := by decide

set_option maxRecDepth 20000 in
theorem test_witness_MemoryWrites :
    Mem.wf fe.mem = true ∧ (∀ w ∈ wordsOf 7 2, fe.wordBad w = true → coversWord 7 2 w = true) ∧ ([1, 2] : List Byte)[1]? = some 2 ∧
    Mem.wf (feFlips 2).mem = true ∧ (∀ w ∈ wordsOf 0 8, (feFlips 2).wordBad w = true → coversWord 0 8 w = true) ∧ coversWord 0 8 0 = true ∧
    dramEnd ≤ stagingBase ∧ (∀ c ∈ blocksOf 0 15 2, Tbl.get 0 fe.mem.enc c = 0) ∧ (14 < 15 ∨ 15 + 2 ≤ 14) ∧ (17 < 15 ∨ 15 + 2 ≤ 17) ∧
    0 ∈ wordsOf 0 7 ∧ (feFlips 2).wordBad 0 = true ∧ coversWord 0 7 0 = false ∧ (∀ c ∈ blocksOf 0 0 7, Tbl.get 0 (feFlips 2).mem.enc c = 0) ∧ 7 / 8 = 0 ∧
    (wordsOf 7 2).find? (feFlips 2).wordBad = some 0 ∧ (∀ w ∈ wordsOf 0 8, (feFlips 1).mem.flips = [(0, 1)] ∧ fe.wordBad w = false) ∧
    0 + 8 ≤ dramEnd ∧ Tbl.get 0 fe.mem.enc (7 / 16) = 0 := by decide +kernel

/-- `feOp` whose operation runs on stand 0. -/
def onStand : State := { feOp [] (anOp (opHdr opCopy 1 3 []) (zeros 24) .running) with stands := [(0, 1)] }

/-- A held request of entry 0 to the memory controller. -/
def aReq (waiting : Bool) (n : Nat) : LocalReq := { part := .memc, inc := 0, entry := 0, refusals := n, waiting := waiting }

/-- `onStand` with a request held. -/
def feReq (q : LocalReq) (resets : List Part) : State := { onStand with parts := { fe.parts with reqs := [q], resetting := resets } }

set_option maxRecDepth 20000 in
theorem test_witness_MemoryErrors :
    State.reset.live = false ∧ ({ fe.mem with selfRef := true } : Mem).selfRef = true ∧ fe.live = true ∧ fe.mem.selfRef = false ∧
    (∀ w ∈ (feFlips 1).flipped 0 dramEnd, (feFlips 1).flipsOf w < 2) ∧ (feFlips 1).flipped 0 dramEnd = [0] ∧
    (((feFlips 1).mem.tagDiff.map (·.1)).foldl State.correctTag ((feFlips 1).correct ((feFlips 1).flipped 0 dramEnd))).badGroups = [] ∧ fe.flipped hallBase hallEnd = [] ∧ fe.flipped tileBase fe.sramEnd = [] ∧
    10 < ((11 : BitVec 8).toInt - fe.mem.trainTemp.toInt).natAbs ∧ ((10 : BitVec 8).toInt - fe.mem.trainTemp.toInt).natAbs ≤ 10 ∧
    onStand.opOnTile 3 = some 0 ∧ onStand.live = true ∧ onStand.op 0 = some (theOp onStand) ∧ fe.opOnTile 0 = none ∧ (theOp onStand).dead = false ∧
    31 < fe.fuses.grade.tiles ∧ (fe.tile 31).lost = false ∧ fe.fuses.grade.tiles ≤ 32 ∧
    (({ fe with tiles := { fe.tiles with map := [(0, { fe.tile 0 with lost := true })] } } : State).tile 0).lost = true ∧
    (feReq (aReq false 0) [.memc]).parts.reqs[0]? = some (aReq false 0) ∧ (aReq false 0).waiting = false ∧
    (feReq (aReq true 20) []).parts.reqs[0]? = some (aReq true 20) ∧ (aReq true 20).waiting = true ∧ 20 ≤ (aReq true 20).refusals ∧
    (aReq true 19).refusals < 20 ∧ (aReq true 19).part ∈ (feReq (aReq true 19) [.memc]).parts.resetting ∧
    (aReq true 19).part ∉ (feReq (aReq true 19) []).parts.resetting ∧ (feReq (aReq true 19) []).parts.reqs.length ≤ 1 ∧ fe.op 0 = none ∧
    fe.boot.state = .ready ∧ ({ fe.xlt with busy := true } : Xlt).busy = true ∧ fe.xlt.busy = false ∧ (0xFF : Word64).getLsbD 8 = false ∧
    State.reset.boot.state ≠ .ready ∧
    (let s : State := { fe with xlt := { fe.xlt with busy := true, waiting := [1] } }
     s.xlt.busy = true ∧ s.xlt.pend = none ∧ 1 ∈ s.xlt.waiting ∧ s.xlt.waiting.filter (· ≠ 1) = [] ∧ 2 ∉ s.xlt.waiting) ∧
    (let s : State := { feSent (anXfer tyReadReq (.hostData 1)) with xlt := { fe.xlt with pend := some (0, 1) } }
     s.xlt.pend = some (0, 1) ∧ (s.fab.xfers ++ s.fab.queued).any (staleAccess 0 1) = true) ∧
    (let s : State := { feSent (anXfer tyWrite (.hostData 1)) with xlt := { fe.xlt with pend := some (0, 0) } }
     (∀ x ∈ s.fab.xfers ++ s.fab.queued, staleAccess 0 0 x = false)) ∧
    ([1, 2] : List ChipId).filter (· ≠ 1) ≠ [] := by decide +kernel

/-- A manager command: opcode, instance, and its bytes from byte 8 on. -/
def cmdMsg (op inst : Nat) (body : List Byte) : List Byte := fields 64 [(0, [BitVec.ofNat 8 op]), (2, [BitVec.ofNat 8 (4 * inst)]), (8, body)]

/-- `s` with one command in the manager's queue. -/
def withCmd (s : State) (m : List Byte) : State := { s with mgr := { s.mgr with cmd := cells 0 m, cmdPi := 1 } }

set_option maxRecDepth 20000 in
theorem test_witness_ManagerCommandsRun :
    (let s := withCmd fe (cmdMsg 0x0F 1 [])
     s.frontCmd = some (cmdMsg 0x0F 1 []) ∧ s.executes = true ∧ headerOk (cmdMsg 0x0F 1 []) = true ∧ mOpcode (cmdMsg 0x0F 1 []) = 0x0F ∧
     mOpcode (cmdMsg 0x0F 1 []) ≠ 0x01 ∧ s.mgr.cmdPi ≠ s.mgr.cmdCi) ∧
    (withCmd fe (cmdMsg 0x14 1 [2])).frontCmd = some (cmdMsg 0x14 1 [2]) ∧ mOpcode (cmdMsg 0x14 1 [2]) = 0x14 ∧ leAt (cmdMsg 0x14 1 [2]) 8 1 = 2 ∧
    leAt (cmdMsg 0x14 1 [2]) 8 1 ≠ 0 ∧ fe.frontCmd = none ∧ mem1.executes = false ∧ fe.mgr.cmdPi = fe.mgr.cmdCi ∧
    cmdKnown (cmdMsg 0x26 1 []) = false ∧ cmdKnown (cmdMsg 0x14 1 [4]) = false ∧ headerOk (putAt (cmdMsg 0x0F 1 []) 3 [1]) = false ∧
    fe.pcie.up = true ∧ fe.boot.served = true ∧ fe.safest.inSafe = false ∧ (0 : Word32) = fe.mgr.cmdPi ∧ ((9 : Word32) - fe.mgr.cmdPi).toNat < 2 ^ 31 ∧
    8 < ((9 : Word32) - fe.mgr.cmdCi).toNat ∧ ((8 : Word32) - fe.mgr.cmdCi).toNat ≤ 8 ∧ fe.executes = true ∧ mem1.boot.state = .ready ∧
    mem1.isFe = false ∧ mem1.pcie.up = true ∧ State.reset.pcie.up = false := by decide +kernel

/-- `fe` with instance 1 in another state, its rings off. -/
def feInst (x : Inst) : State := { fe with insts := [(1, x)], sqs := [], cqs := [] }

/-- CREATE of instance 3 with one vector, one submission ring and one completion ring at 10. -/
def createMsg (rt : Byte) : List Byte := cmdMsg 0x01 3 [1, 0, 10, 0, 1, 0, 10, 0, 1, 0, rt]

/-- SAVE and RESTORE with a buffer at host address 0x800000000000. -/
def bufMsg (op n : Nat) : List Byte := cmdMsg op 1 (toLe 8 (0x800000000000 : Nat) ++ toLe 4 n)

set_option maxRecDepth 20000 in
theorem test_witness_ManagerCommandEffects_create :
    (fe.inst 1).pend = none ∧ (fe.inst 1).state = .ready ∧ (fe.inst 1).state ≠ .absent ∧ (fe.inst 1).state ∈ [InstState.ready] ∧
    (fe.inst 1).state ∉ [InstState.quiesced] ∧ (fe.inst 3).state = .absent ∧ (fe.inst 3).pend = none ∧
    ({ fe.inst 1 with pend := some ⟨1, 0, []⟩ } : Inst).pend.isSome = true ∧
    createFields (createMsg 0) = true ∧ createFields (createMsg 17) = false ∧ fe.ringsTaken 3 (createMsg 0) = false ∧
    fe.rtTotal + leAt (createMsg 15) 18 1 ≤ 16 ∧ 16 < fe.rtTotal + leAt (createMsg 16) 18 1 ∧ (fe.vecRoom 3 1).isSome = true ∧ fe.vecRoom 3 2049 = none ∧
    fe.ringsTaken 3 (putAt (createMsg 0) 10 [2]) = true := by decide +kernel

set_option maxRecDepth 20000 in
theorem test_witness_ManagerCommandEffects_config :
    (let m := cmdMsg 0x04 1 [0, 4]
     fe.common 1 (!(decide (1 ≤ leAt m 8 2 ∧ leAt m 8 2 ≤ 1024) && restZero m 10)) [.ready] = none ∧ (fe.fc 1).msixEn = true ∧
     (let s : State := { fe with pcie := { fe.pcie with fns := [(1, { fe.fc 1 with msixEn := false })] } }
      (s.fc 1).msixEn = false ∧ (s.vecRoom 1 (leAt m 8 2)).isSome = true) ∧
     (let s : State := { fe with pcie := { fe.pcie with fns := [(1, { fe.fc 1 with msixEn := false }), (2, { FnCfg.reset with vecs := 1024, vecBase := 512 })] },
                                 insts := (2, { Inst.reset with state := .ready }) :: fe.insts }
      (s.fc 1).msixEn = false ∧ s.vecRoom 1 (leAt m 8 2) = none)) ∧
    (let m := cmdMsg 0x0A 1 (toLe 8 (0x0000000100010001 : Nat))
     csetChips (mCset m) = [fe.dom.chipId] ∧ mOpcode m ≠ 0x08 ∧ fe.lock.held = false ∧ fe.csetGood m = true ∧
     fe.common 1 (!(true && fe.csetGood m)) [.ready] = none ∧ fe.common 1 (!(false && fe.csetGood m)) [.ready] = some msBadCommand ∧
     ({ fe with lock := { fe.lock with held := true } } : State).lock.held = true) ∧
    csetChips (mCset (cmdMsg 0x0A 1 (toLe 8 (0x0000000200010001 : Nat)))) ≠ [fe.dom.chipId] ∧
    (let m := cmdMsg 0x02 1 []
     fe.common 1 (!restZero m 8) [.ready] = none ∧ fe.ringsOn 1 = true ∧ (feInst { fe.inst 1 with sqCount := 0 }).ringsOn 1 = false ∧
     (feInst (fe.inst 1)).common 1 (!restZero m 8) [.ready] = none ∧ fe.common 0 (!restZero m 8) [.ready] = none ∧
     fe.common 3 (!restZero m 8) [.ready] = some msBadInstance) ∧
    fe.executes = true := by decide +kernel

set_option maxRecDepth 100000 in
theorem test_witness_ManagerCommandEffects_states :
    (let s := feInst { fe.inst 1 with state := .quiescing }
     s.executes = true ∧ (s.inst 1).state = .quiescing ∧ s.quiet 1 = true ∧ s.commandRuns 1 = false) ∧
    mem1.executes = false ∧ (feOwner [] (anOwner 12 .checking) []).quiet 1 = false ∧ restZero (cmdMsg 0x0F 1 []) 8 = true ∧
    (feInst { fe.inst 1 with state := .quiesced }).commandRuns 1 = false ∧ fe.commandRuns 1 = false ∧
    (let s := feInst { fe.inst 1 with state := .quiesced }
     s.common 1 (!(restZero (bufMsg 0x12 2896) 20 && decide (leAt (bufMsg 0x12 2896) 8 8 < 2 ^ 48))) [.quiesced] = none ∧ s.isConf 1 = false ∧
     (s.image 1).1.length ≤ 3000 ∧ leAt (bufMsg 0x12 3000) 16 4 = 3000 ∧ leAt (bufMsg 0x12 63) 16 4 < (s.image 1).1.length ∧
     imageValid (s.image 1).1 = true ∧ imageValid [] = false ∧
     ({ s with boot := { s.boot with nlevel := 2 } } : State).imageFits 1 (s.image 1).1 = false) ∧
    (feInst { fe.inst 1 with state := .quiesced, conf := true }).isConf 1 = true ∧
    fe.common 1 (!(restZero (bufMsg 0x13 64) 20 && decide (leAt (bufMsg 0x13 64) 8 8 < 2 ^ 48))) [.ready] = none ∧ fe.isConf 1 = false ∧
    fe.common 1 (!restZero (cmdMsg 0x14 1 [0]) 9) [.ready, .quiescing, .quiesced] = none ∧ fe.dlog.size = 0 ∧ ({ fe.dlog with size := 4 } : Dlog).size ≠ 0 ∧
    fe.rootOthers = [] ∧ (fePort upPort).rootOthers ≠ [] ∧ State.reset.live = false ∧
    ({ fe with dlog := { fe.dlog with size := 4 } } : State).dlogRoomNow = true ∧
    ({ fe with dlog := { fe.dlog with size := 4, prod := 16 } } : State).dlogRoomNow = false := by decide +kernel

/-- A P-384 public key with private key 1, as the tokens carry it. -/
def oneKey : List Byte := toLe 48 gx384 ++ toLe 48 gy384

/-- The signature of a digest under private key 1, with nonce 1. -/
def oneSig (digest : List Byte) : List Byte := toLe 48 (gx384 % n384) ++ toLe 48 ((ofBe digest + gx384) % n384)

/-- `fe` with a carve-out, a nonce read, and a Crypto Officer's token with the command bytes given, signed with `oneKey`. -/
def feToken (cmd : List Byte) : State :=
  { fe with
    boot := { fe.boot with cfg := zeros 72 ++ sha384 oneKey, images := [(1, ⟨1, 5, 0, []⟩)] }
    sec := { fe.sec with carve := 1, coNonce := some (zeros 48), coToken := cells 0 (cmd ++ oneKey ++ oneSig (sha384 (zeros 48 ++ fe.serialBytes ++ cmd))) } }

/-- The token stands, and whether it is good. -/
theorem test_witness_SecureCommands_token :
    (feToken [1, 1, 5, 0, 0, 0, 0, 0]).coTokenOk = true ∧ leAt (feToken [1, 1, 5, 0, 0, 0, 0, 0]).coBytes 0 1 = 1 ∧
    leAt (feToken [1, 1, 5, 0, 0, 0, 0, 0]).coBytes 1 1 = 1 ∧ leAt (feToken [1, 1, 5, 0, 0, 0, 0, 0]).coBytes 2 1 = 5 := by decide +kernel
theorem test_witness_SecureCommands_zeroize :
    (feToken [2, 0, 0, 0, 0, 0, 0, 0]).coTokenOk = true ∧ leAt (feToken [2, 0, 0, 0, 0, 0, 0, 0]).coBytes 0 1 = 2 := by decide +kernel

set_option maxRecDepth 100000 in
theorem test_witness_SecureCommands :
    (let m := cmdMsg 0x20 1 []
     let s := feToken (zeros 8)
     fe.common 1 (!restZero m 8) [.ready] = none ∧ fe.sec.zeroized = false ∧ fe.sec.debug = .locked ∧ fe.sec.carve = 0 ∧ fe.ringsOn 1 = true ∧
     (let t : State := { s with insts := [(1, { fe.inst 1 with sqCount := 0, cqCount := 0 })] }
      t.common 1 (!restZero m 8) [.ready] = none ∧ (t.inst 1).conf = false ∧ (Tbl.get 0 t.act.xltRoot 1).getLsbD 0 = false ∧ t.ringsOn 1 = false ∧
      t.sec.carve ≠ 0 ∧ t.lock.held = false ∧ t.rootOthers = [])) ∧
    ({ fe.sec with zeroized := true } : Sec).zeroized = true ∧ ({ fe.sec with debug := .ns } : Sec).debug ≠ .locked ∧ (fePort upPort).rootOthers ≠ [] ∧
    ({ fe.lock with held := true } : SeqLock).held = true ∧
    (let s := feInst { fe.inst 1 with conf := true }
     s.common 1 false [.ready] = none ∧ (s.inst 1).conf = true ∧ (fe.inst 1).conf = false ∧ s.confCommon 1 (!restZero (cmdMsg 0x24 1 []) 8) = none ∧
     (s.inst 1).final = false ∧ s.rootOthers = [] ∧
     (let m := cmdMsg 0x21 1 (toLe 8 (0x0000000100010001 : Nat) ++ toLe 8 (0x10000 : Nat) ++ toLe 4 (1 : Nat))
      s.confCommon 1 (!(s.csetGood m && s.pagesGood (leAt m 16 8) (leAt m 24 4) && restZero m 28)) = none ∧ s.namesHere m = true ∧ s.sec.carve = 0 ∧
      s.namesOne m = true)) ∧
    (let s := feInst { fe.inst 1 with conf := true, final := true }
     s.confCommon 1 (!(restZero (cmdMsg 0x23 1 []) 28 && decide (leAt (cmdMsg 0x23 1 []) 8 8 < 2 ^ 48 ∧ leAt (cmdMsg 0x23 1 []) 16 8 < 2 ^ 48))) = none ∧
     (s.inst 1).final = true) ∧
    (let s := { fePort upPort with insts := [(1, { fe.inst 1 with conf := true })] }
     let m := cmdMsg 0x21 1 (toLe 8 (0x0000000200020001 : Nat) ++ toLe 8 (0x10000 : Nat) ++ toLe 4 (1 : Nat))
     let m2 := cmdMsg 0x21 1 (toLe 8 (0x0000000200010001 : Nat) ++ toLe 8 (0x10000 : Nat) ++ toLe 4 (1 : Nat))
     s.confCommon 1 (!(s.csetGood m && s.pagesGood (leAt m 16 8) (leAt m 24 4) && restZero m 28)) = none ∧ s.namesHere m = false ∧ s.namesOne m = false ∧
     s.namesOne m2 = false) ∧
    leAt (cmdMsg 0x28 1 (toLe 8 (0xFFFFFFFFFFFF : Nat))) 8 8 < 2 ^ 48 ∧ (fe.inst 1).pend = none ∧ (fe.inst 1).state ≠ .absent ∧
    fe.gate 0 = .open_ ∧ fe.secServes = true ∧ State.reset.secServes = false ∧ ({ fe with boot := { fe.boot with served := false } } : State).gate 0 = .open_ ∧
    ({ fe with safest := { fe.safest with inSafe := true } } : State).gate 0 = .closed ∧ leAt (feToken (zeros 8)).coBytes 0 1 ≠ 1 ∧ leAt (feToken (zeros 8)).coBytes 0 1 ≠ 2 ∧
    (let s : State := { feToken [1, 1, 5, 0, 0, 0, 0, 0] with sec := { (feToken [1, 1, 5, 0, 0, 0, 0, 0]).sec with coNonce := none } }
     s.secServes = true ∧ leAt s.coBytes 0 1 = 1 ∧ s.sec.coNonce = none ∧ s.coTokenOk = false ∧ (Tbl.get 0 s.fuses.svnMin 1).toNat ≤ 5 ∧
     5 ≤ (s.imageOfType 1).svn.toNat ∧ (s.imageOfType 1).svn.toNat < 6 ∧ s.fuses.vppOk = true ∧ ({ s.fuses with vppOk := false } : Fuses).vppOk = false ∧
     4 < (Tbl.get 0 ({ s.fuses with svnMin := [(1, 5)] } : Fuses).svnMin 1).toNat) ∧
    (let s : State := { feToken [2, 0, 0, 0, 0, 0, 0, 0] with sec := { fe.sec with coToken := (feToken [2, 0, 0, 0, 0, 0, 0, 0]).sec.coToken } }
     leAt s.coBytes 0 1 = 2 ∧ s.coTokenOk = false) ∧
    fe.sec.dbgNonce = none ∧ fe.boot.served = true ∧ fe.safest.inSafe = false ∧ 8 ≤ (8 : BitVec 4).toNat ∧ fe.sec.refusals.toNat < 8 ∧
    fe.dbgTokenOk fe.dbgBytes = false ∧ State.reset.boot.served = false := by decide +kernel

theorem test_witness_LockAndRemoteAccess :
    fe.lockServed 1 = true ∧ fe.lockServed 4 = true ∧ fe.lockServed 0 = false ∧ fe.lockServed 5 = false ∧ 4 < (5 : BitVec 3).toNat ∧ fe.lock.held = false ∧
    (let s : State := { fe with lock := { fe.lock with held := true, agent := 1, inc := 7 } }
     s.lockServed 1 = true ∧ s.lock.held = true ∧ s.holds 1 false = true ∧ s.holds 2 false = false) ∧
    fe.mgmtTakes = true ∧ State.reset.mgmtTakes = false ∧ mem1.isFe = false ∧ fe.isFe = true ∧ fe.mgr.epBusy = false ∧
    ({ fe.mgr with epBusy := true } : Mgr).epBusy = true ∧ fe.mgr.rmtBusy = false ∧
    (let s : State := { fe with mgr := { fe.mgr with rmtBusy := true, rmtOff := 0x4C, rmtChip := 1 } }
     s.mgr.rmtBusy = true ∧ s.mgr.rmtWrite = false ∧ ({ s.mgr with rmtWrite := true } : Mgr).rmtWrite = true ∧ s.mgr.rmtOff ≠ 0x48 ∧
     s.mgr.rmtChip = s.dom.chipId ∧ s.rmtAligned = true) ∧
    (let s : State := { fePort upPort with mgr := { fe.mgr with rmtOff := 0x4C, rmtChip := 2 } }
     s.rmtAligned = true ∧ s.mgr.rmtChip ≠ s.dom.chipId ∧ s.isLost s.mgr.rmtChip = false ∧ s.mgr.rmtChip ∈ s.memberList ∧ 3 ∉ s.memberList ∧
     ({ s with dom := { s.dom with lost := [2] } } : State).isLost 2 = true) := by decide

theorem test_witness_PowerAndTime :
    fe.ready = true ∧ fe.mayHibernate = true ∧ (fePort upPort).mayHibernate = false ∧ (fePort upPort).ready = true ∧ State.reset.ready = false ∧
    ({ fe with boot := { fe.boot with state := .hibernate } } : State).boot.state = .hibernate ∧ fe.boot.state ≠ .hibernate ∧ fe.live = true ∧
    31 < fe.fuses.grade.tiles ∧ fe.tileGated 31 = true ∧ fe.standReserved (31 / 4) = false ∧ (fe.punit (unitStand (31 / 4))).mode ≠ 2 ∧
    State.reset.live = false ∧ fe.fuses.grade.tiles ≤ 32 ∧ onStand.tileGated 3 = false ∧
    ({ fe with tiles := { fe.tiles with reserved := [(0, (1, 0x80))] } } : State).standReserved (31 / 4) = true ∧
    (let s : State := { fe with pwr := { fe.pwr with units := [(unitStand 7, { PUnit.reset with mode := 2 }), (unitMemc, { PUnit.reset with mode := 2 })] } }
     (s.punit (unitStand (31 / 4))).mode = 2 ∧ (s.punit unitMemc).mode = 2) ∧
    (fe.punit unitMemc).mode ≠ 2 ∧ sensorOf 98 = none ∧ sensorOf 97 = some 33 ∧ 97 ≠ unitMemc ∧
    (let l : Int := 4 * (fe.pwr.tlimit.toNat : Int)
     l ≤ ((BitVec.ofInt 12 l).toInt) ∧ (BitVec.ofInt 12 (l - 12)).toInt ≤ l - 12 ∧ l - 12 < (BitVec.ofInt 12 (l - 1)).toInt ∧ (BitVec.ofInt 12 (l - 1)).toInt < l ∧
     l - 12 < (BitVec.ofInt 12 (l - 11)).toInt) ∧
    fe.pwr.powerThr = false ∧ 420 ≤ (420 : BitVec 12).toInt ∧ (439 : BitVec 12).toInt < 440 ∧ fe.pwr.junction = false ∧ (407 : BitVec 12).toInt < 408 ∧
    408 ≤ (408 : BitVec 12).toInt ∧ (419 : BitVec 12).toInt < 420 ∧ ({ fe.pwr with junction := true } : Pwr).junction = true ∧ 440 ≤ (440 : BitVec 12).toInt ∧
    (let mw := fe.pwr.limit.toNat * 125
     mw ≤ fe.pwr.limit.toNat * 125 ∧ fe.pwr.limit.toNat * 125 * 95 ≤ mw * 100 ∧ fe.pwr.limit.toNat * 125 < mw + 1 ∧ 275 < fe.clk.cclk.toNat ∧
     fe.pwr.limiting = false ∧ fe.lately fe.pwr.limitEvt = false ∧ ({ fe.pwr with limiting := true } : Pwr).limiting = true ∧
     fe.lately (fe.now + 1) = true ∧ (275 : BitVec 12).toNat ≤ 275 ∧ fe.now / 10000 % 100 = 0 ∧
     (let s : State := { fe with clk := { fe.clk with cclk := 275 } }
      0 * 100 < s.pwr.limit.toNat * 125 * 95 ∧ s.clk.cclk.toNat + 25 ≤ s.clk.cclkMax.toNat)) ∧
    (fe.tile 31).lost = false ∧ fe.fuses.grade ≠ .S ∧ ({ fe.fuses with grade := .S } : Fuses).grade = .S ∧
    9 ≤ 9 ∧ 12 ≤ 12 ∧ 8 < 9 ∧ 12 < 13 ∧ fe.tsyncOn = false ∧
    (let s : State := { fe with pins := { fe.pins with gpioFunc := 2 } }
     s.tsyncOn = true ∧ s.clk.time ≤ s.clk.tsyncVal ∧ ({ s.clk with time := s.clk.tsyncVal + 1 } : Clk).tsyncVal < ({ s.clk with time := s.clk.tsyncVal + 1 } : Clk).time) := by
  decide

/-- A chip in functional-safety mode, its probe frame four pages of device memory of instance 1. -/
def feSafe (x : Safe) : State :=
  { fe with
    act := { fe.act with stands := [(1, 0xFF)], flagOwn := [(0, 1), (1, 1)] }
    xlt := { fe.xlt with cache := (List.range 4).map (fun k => ⟨1, 0x100000 + 0x10000 * k, false, BitVec.ofNat 64 (0x000100000010000D + 0x10000 * k)⟩) }
    safe := { x with mode := true, pInst := 1, pStands := 0x81, dva := 0x100000, lpa := 0x100000, trig := 0, done := 0x10000 } }

set_option maxRecDepth 20000 in
theorem test_witness_SafetyMonitor :
    fe.ready = true ∧ fe.armRefusal ≠ 0 ∧ (feSafe Safe.reset).ready = true ∧ (feSafe Safe.reset).armRefusal = 0 ∧ (feSafe Safe.reset).safe.armed = false ∧
    (feSafe { Safe.reset with armed := true }).safe.armed = true ∧ (feSafe { Safe.reset with armed := true }).safe.mode = true ∧
    (feSafe { Safe.reset with armed := true }).armRefusal = 0 ∧ State.reset.ready = false ∧ ({ Safe.reset with testing := true } : Safe).testing = true ∧
    fe.safest.inSafe = false ∧ fe.safe.testing = false ∧ fe.probeDue = false ∧
    (let s := feSafe { Safe.reset with armed := true, trigSeen := true }
     let t := ((({ s with safe := { s.safe with trigSeen := false } } : State).probeSignal s.safe.trig 1).probeSignal s.safe.done 1).frameOk [0, 1, 2, 3]
     s.probeDue = true ∧ t.1 = true ∧ t.2.badPattern ((patternBlocks t.2.patternNo).map (fun o => (patternBase + o, 0x8000))) = none) ∧
    (let s : State := { feSafe { Safe.reset with armed := true, trigSeen := true } with xlt := fe.xlt }
     let t := ((({ s with safe := { s.safe with trigSeen := false } } : State).probeSignal s.safe.trig 1).probeSignal s.safe.done 1).frameOk [0, 1, 2, 3]
     s.probeDue = true ∧ t.1 = false) ∧
    (let s := feSafe { Safe.reset with armed := true, probe := .running 0x01 }
     s.safe.probe = .running 0x01 ∧ s.live = true ∧ s.safe.pStands.getLsbD 7 = true ∧ (0x01 : BitVec 8).getLsbD 7 = false ∧ Tbl.get 0 s.stands 7 = 0 ∧
     s.safe.pStands.getLsbD 6 = false) ∧
    (let s := feSafe { Safe.reset with armed := true, probe := .running 0x81 }
     s.safe.probe = .running s.safe.pStands ∧ s.badPattern [(patternBase + 0x80000 + 2048 * s.patternNo, 2048)] = none) ∧
    fe.safe.probe = .idle ∧ State.reset.live = false ∧ fe.monitored = true ∧ dangerous 0x14 = true ∧ dangerous 0x1A = false ∧ 6 < 7 ∧ State.reset.monitored = false ∧
    ({ fe.safest with inSafe := true } : SafeState).inSafe = true ∧ fld (0xFF000000 : BitVec 128).toNat 24 8 = 255 ∧
    ((feSafe { Safe.reset with armed := true, safeN := true }).probeSignal 0x10000 0).safe.safeN = true ∧
    ((feSafe { Safe.reset with armed := true }).probeSignal 0x10000 0).safe.safeN = false := by decide +kernel

theorem test_witness_ResetsAndSupply :
    State.reset.boot.sysRst = true ∧ fe.boot.railsOk = true ∧ ({ fe.boot with railsOk := false } : Boot).railsOk = false ∧
    ({ fe.boot with sysRst := false } : Boot).sysRst = false ∧ 10 < 11 ∧ 10 ≤ 10 ∧ (fe.fuses.grade ≠ .S ∨ (5 ≠ 5 ∧ 5 ≠ 6)) ∧
    ({ fe.fuses with grade := .S } : Fuses).grade = .S ∧ fe.safest.inSafe = false ∧
    (let s : State := { fe with boot := { fe.boot with state := .safe }, safe := { fe.safe with autoRestart := true }, safest := { fe.safest with inSafe := true } }
     s.safest.inSafe = true ∧ s.safest.stuck = false ∧ s.safe.autoRestart = true ∧ s.boot.state = .safe) ∧
    ({ fe.safest with stuck := true } : SafeState).stuck = true ∧ ({ fe.safe with autoRestart := false } : Safe).autoRestart = false ∧
    fe.boot.state ≠ .safe := by decide

/-- `fe` in a stage of the start, with a flash whose image directory is sound or missing. -/
def feStage (st : StartState) : State := { fe with boot := { fe.boot with state := st, cfg := zeros 64 }, dom := { fe.dom with formed := false }, fab := { fe.fab with enabled := false } }

/-- An image directory without images, as chapter 19 lays it out. -/
def emptyDir : List Byte :=
  let d := fields 252 [(0, toLe 4 0x59444952), (4, [1])]
  d ++ toLe 4 (crc32c d).toNat

/-- `feStage` with that directory in flash. -/
def feDir (st : StartState) : State :=
  { feStage st with flash := { fe.flash with sfdp := true, modes := 1, bytes := (emptyDir.zipIdx).map (fun b => (b.2, b.1)) } }

set_option maxRecDepth 20000 in
theorem test_witness_StartStages :
    fe.boot.state ≠ .rom ∧ fe.boot.state ≠ .memtrain ∧ fe.boot.state ≠ .meminit ∧ fe.boot.state ≠ .bist ∧ fe.boot.state ≠ .images ∧ fe.boot.state ≠ .inject ∧
    fe.boot.state ≠ .fabric ∧ fe.boot.state ≠ .frontend ∧
    (let s := feStage .rom
     s.boot.state = .rom ∧ s.boot.mode = 0 ∧ ({ s.boot with mode := 1 } : Boot).mode ≠ 0 ∧ ({ s.flash with sfdp := false } : Flash).sfdp = false ∧
     ({ s.flash with sfdp := true } : Flash).sfdp = true ∧ s.directory = none) ∧
    (feStage .memtrain).boot.state = .memtrain ∧ ({ (feStage .memtrain).boot with kind := 3 } : Boot).kind = 3 ∧ (feStage .memtrain).boot.kind ≠ 3 ∧ fe.mem.trained ≠ 0xF ∧ ({ fe.mem with trained := 0xF } : Mem).trained = 0xF ∧
    (feStage .meminit).boot.state = .meminit ∧ (feStage .bist).boot.state = .bist ∧ (feStage .images).boot.state = .images ∧ (feStage .images).directory = none ∧
    (feDir .images).boot.state = .images ∧ (feDir .images).directory = some emptyDir ∧ (feStage .inject).boot.state = .inject ∧
    (let s := feStage .fabric
     s.boot.state = .fabric ∧ s.safest.inSafe = false ∧ s.fab.enabled = false ∧ s.dom.formed = false ∧ s.fuses.grade ≠ .S ∧ popCount24 s.unusedPorts ≠ 24) ∧
    ({ fe.fuses with grade := .S } : Fuses).grade = .S ∧ popCount24 0xFFFFFF = 24 ∧ fe.fab.enabled = true ∧ fe.dom.formed = true ∧
    ({ fe with boot := { fe.boot with state := .frontend } } : State).boot.state = .frontend ∧
    (let s : State := { fe with act := { fe.act with evqSize := 4 }, evq := { fe.evq with drop := 1, prod := 15 } }
     s.act.evqSize ≠ 0 ∧ s.evq.drop ≠ 0 ∧ s.evqDepth < s.evqN ∧ s.safest.inSafe = false) ∧
    (let s : State := { fe with act := { fe.act with evqSize := 4 }, evq := { fe.evq with drop := 1, prod := 16 } }
     s.evqN ≤ s.evqDepth) ∧
    fe.act.evqSize = 0 ∧ fe.evq.drop = 0 := by decide +kernel

theorem test_witness_RecoveryBus :
    State.reset.boot.state = .reset ∧ (0x59 : BitVec 7).toNat ≠ 0x58 + fe.boot.i2cAddr.toNat ∧ (0x58 : BitVec 7).toNat = 0x58 + fe.boot.i2cAddr.toNat ∧
    (0x5F : BitVec 7).toNat = 0x58 + ({ fe.boot with i2cAddr := 7 } : Boot).i2cAddr.toNat ∧
    fe.boot.state ≠ .reset ∧ fe.boot.state ≠ .recovery ∧ fe.boot.state ≠ .failed ∧ (feStage .recovery).boot.state = .recovery ∧
    (feStage .failed).boot.state = .failed ∧ 32 ≤ 32 ∧ 32 < 33 ∧ (List.replicate 32 (0 : Byte)).length ≤ 32 ∧ (0 : Byte) ≠ 1 ∧ (0 : Byte) ≠ 0xA5 ∧
    (feStage .recovery).flash.busy = false ∧ ({ fe.flash with busy := true } : Flash).busy = true ∧ Tbl.wf 0xFF fe.flash.bytes = true ∧ ([1] : List Byte) ≠ [] ∧
    fe.flash.offset.toNat + ([1] : List Byte).length ≤ 1 ∧ ([1] : List Byte)[0]? = some 1 := by decide

/-! ## Ill-formed commands, one or more for each check of WellFormed -/

theorem test_wf_function : (Instr.sqDoorbell 63 255 0).wf = true ∧ (Instr.sqDoorbell 64 0 0).wf = false ∧ (Instr.instFence 64).wf = false := by decide
theorem test_wf_ring : (Instr.sqDoorbell 0 256 0).wf = false ∧ (Instr.ringFetch 255).wf = true ∧ (Instr.ringFetch 256).wf = false := by decide
theorem test_wf_ringRef : (Instr.hangTimeout (.host 255)).wf = true ∧ (Instr.hangTimeout (.host 256)).wf = false ∧ (Instr.hangTimeout (.dr 63)).wf = true ∧
    (Instr.hangTimeout (.dr 64)).wf = false := by decide
theorem test_wf_port : (Instr.laneLoss 23).wf = true ∧ (Instr.laneLoss 24).wf = false := by decide
theorem test_wf_entry : (Instr.bodyReadDone 4095).wf = true ∧ (Instr.bodyReadDone 4096).wf = false ∧ (Instr.matmul 4096).wf = false := by decide
theorem test_wf_context : (Instr.checkPass 1023).wf = true ∧ (Instr.checkPass 1024).wf = false := by decide
theorem test_wf_tile : (Instr.beatMissed 31).wf = true ∧ (Instr.beatMissed 32).wf = false := by decide
theorem test_wf_stand : (Instr.probeStandGrant 7).wf = true ∧ (Instr.probeStandGrant 8).wf = false := by decide
theorem test_wf_block : (Instr.blockErrClear 13 0).wf = true ∧ (Instr.blockErrClear 14 0).wf = false := by decide
theorem test_wf_clock : (Instr.clockLoss 6).wf = true ∧ (Instr.clockLoss 7).wf = false := by decide
theorem test_wf_unit : (Instr.pwrAuto 97).wf = true ∧ (Instr.pwrAuto 98).wf = false := by decide
theorem test_wf_blockLen : (Instr.flashRead 0x58 32).wf = true ∧ (Instr.flashRead 0x58 0).wf = false ∧ (Instr.flashRead 0x58 33).wf = false ∧
    (Instr.flashProgram 0x58 []).wf = false := by decide
theorem test_wf_access : (Instr.registerWrite .mgmt 0 0xFFFFF8 8 none).wf = true ∧ (Instr.registerWrite .mgmt 0 0 9 (some 0)).wf = false ∧
    (Instr.registerWrite .mgmt 0 0 0 (some 0)).wf = false ∧ (Instr.registerWrite .mgmt 0 0x1000000 4 none).wf = false ∧
    (Instr.registerWrite .debug 0 regBase 8 none).wf = true := by decide
theorem test_wf_packet : (Instr.writePacket { Packet.zero with type := 1, len := 1, data := [0] }).wf = true ∧
    (Instr.writePacket { Packet.zero with type := 1, len := 1 }).wf = false ∧ (Instr.readReq { Packet.zero with type := 2, len := 256 }).wf = true := by decide
theorem test_wf_message : (Instr.fenceNotice { Packet.zero with type := 0x13, msg := some (.fence 2) }).wf = true ∧
    (Instr.fenceNotice { Packet.zero with type := 0x13 }).wf = false ∧ (Instr.readReq { Packet.zero with type := 2, msg := some .invalDone }).wf = false := by decide
theorem test_wf_flits : (Instr.flitGroup 0 (groupPairs [zeros 32] (groupWord 0))).wf = true ∧ (Instr.flitGroup 0 []).wf = false ∧
    (Instr.flitGroup 0 (groupPairs (List.replicate 9 (zeros 32)) (groupWord 0))).wf = false := by decide

/-- 02 R64, R65, R68, R69: byte 8 of a flit starts the first block of L1; a data block's bits begin 0, 1; payload byte 0 of a control block is its type. -/
theorem test_blocks :
    ((flitPairs ((List.range 32).map (BitVec.ofNat 8))).map (fun q => (q.1.payload, q.2.payload))) =
      [(0x0706050403020100, 0x0F0E0D0C0B0A0908), (0x1716151413121110, 0x1F1E1D1C1B1A1918)] ∧
    bitsOf (dataBlock (zeros 8)).sync = [false, true] ∧ bitsOf (ctlBlock bkDown 0).sync = [true, false] ∧
    (ctlBlock bkFence 0x050003).payload = 0x05000387 ∧ (ctlBlock 0x00 0).is = .error ∧ ({ sync := 0, payload := 0 } : Block).is = .error := by decide

/-- 02 R66: behind line bits of zero, a one leaves as itself and comes again 39 and 58 bits later; descrambled, the payload stands again. -/
theorem test_scrambler :
    ((List.range 64).filter (fun k => (scramble 0 (true :: List.replicate 63 false)).1.getD k false)) = [0, 39, 58] ∧
    (descramble 0 (scramble 0 (bitsOf (0xB1B2 : BitVec 64))).1).1 = bitsOf (0xB1B2 : BitVec 64) := by decide
theorem test_wf_part : (Instr.partLeavesReset (.bank 15) true).wf = true ∧ (Instr.partLeavesReset (.bank 16) true).wf = false ∧
    (Instr.partLeavesReset (.tile 32) false).wf = false ∧ (Instr.partLeavesReset (.port 24) false).wf = false := by decide
theorem test_wf_check : (Instr.opComplete 0 (.differ 31)).wf = true ∧ (Instr.opComplete 0 (.differ 32)).wf = false := by decide

/-! ## Worked cases of the chapters -/

/-- 00 R10: chip ID 0x0305 is member 5 of group 3, its low byte first in memory. -/
theorem test_chip_id_bytes : toLe 2 (0x0305 : Nat) = [0x05, 0x03] ∧ fld 0x0305 8 8 = 3 ∧ fld 0x0305 0 8 = 5 := by decide

/-- The two routers on the way from 0x0003 to 0x0207 (02, R114's worked case). -/
def router (id : ChipId) (mbr grp : Tbl Word64) : State :=
  { fe with
    dom := { fe.dom with chipId := id }
    act := { fe.act with mbr := mbr, grp := grp }
    fab := { fe.fab with ports := (List.range 24).map (fun n => (n, upPort)) } }

/-- 02: at 0x0003 the group entry's MEMBER_FIRST sends it by member entry 7 to port 5; at 0x0007 the group's ports 14 to 16 and
0x0204 = 516 mod 3 = 0 choose port 14. -/
theorem test_route_worked_case :
    (let p : Packet := { Packet.zero with src := 0x0003, dst := 0x0207, type := tyWrite, ord := true }
     let a := router 0x0003 [(7, 0x2000000000020)] [(2, 0x300000001C000)]
     let b := router 0x0007 [(7, 0x2000000000000)] [(2, 0x300000001C000)]
     a.choosePort p (a.routePorts 0x0207) = some 5 ∧ b.routePorts 0x0207 = [14, 15, 16] ∧ b.choosePort p (b.routePorts 0x0207) = some 14) := by decide +kernel

/-- 03: LPA 0x1000 is byte 4096, line 64, group 9, position 1, in channel B at 0x0440; its check bytes begin at byte 8 of the check line at 0x05C0. -/
theorem test_dram_group : groupOf 0x1000 = 9 ∧ rawPlace 0x1000 = (1, 0x0440) ∧ checkPlace (0x1000 / 8) = (1, 0x05C0 + 8) ∧ tagPlace 9 = (1, 0x05C0 + 56) := by
  decide

/-- The three tables of the walk in 03's worked case: entry 360 at 0x1000, 393 at 0x2000, 837 at 0x10000. -/
def walked : State :=
  { fe with
    act := { fe.act with xltRoot := [(1, 0x1001)] }
    dom := { fe.dom with ever := [1, 0x0205], members := [1, 0x0205] }
    mem := { fe.mem with
      bytes := cells (0x1000 + 8 * 360) (toLe 8 (0x2001 : Nat)) ++ (cells (0x2000 + 8 * 393) (toLe 8 (0x10001 : Nat)) ++
        cells (0x10000 + 6696) (toLe 8 (0x020500004321000F : Nat))) } }

/-- 03: DVA 0x5A31_2345_6789 reaches chip 0x0205 at LPA 0x4321_6789, for a read and for a write. -/
theorem test_walk_worked_case :
    (walked.walk 1 0x5A3123456789 false).1 = .mem 0x0205 0x43216789 false ∧ (walked.walk 1 0x5A3123456789 true).1 = .mem 0x0205 0x43216789 false := by
  decide +kernel

/-- Ring 2 with N = 64, release index 0xFFFF_FFF0 and accepted producer index 0xFFFF_FFF8 (05's worked case). -/
def ring64 : State := feSq { fe.sq 2 with cfg := { (fe.sq 2).cfg with size := 6 }, release := 0xFFFFFFF0, fetch := 0xFFFFFFF8, k := 0xFFFFFFF8 }

/-- 05: 0x10 is accepted, again changes nothing, 0x08 is stale, 0x40 is refused with DB_OVERRUN. -/
theorem test_doorbell_worked_case :
    ((run (.sqDoorbell 1 0 0x10) ring64).sq 2).k = 0x10 ∧
    (let t := run (.sqDoorbell 1 0 0x10) ring64
     ((run (.sqDoorbell 1 0 0x10) t).sq 2).k = 0x10 ∧ ((run (.sqDoorbell 1 0 0x08) t).sq 2).k = 0x10 ∧ ((run (.sqDoorbell 1 0 0x08) t).fn 1).err = 0 ∧
     ((run (.sqDoorbell 1 0 0x40) t).sq 2).k = 0x10 ∧ ((run (.sqDoorbell 1 0 0x40) t).fn 1).err.getLsbD esDbOverrun = true) := by decide +kernel

/-- 05: with TAG_BASE 1000, tag 1001 completing first leaves W at 999; 1000 takes it to 1001. -/
theorem test_watermark_worked_case :
    (let s := feSq { fe.sq 2 with e := 1003, w := 999 }
     let a := s.bufferRecord (.host 2) 1001 stOkEmpty false false false 0 0 none false false
     let b := a.bufferRecord (.host 2) 1000 stOkEmpty false false false 0 0 none false false
     (a.sq 2).w = 999 ∧ (b.sq 2).w = 1001) := by decide +kernel

/-- Rings A, B and C of 05's WRR case, four empty entries in each. -/
def threeRings : State :=
  let q : Sq := { fe.sq 2 with e := 5, cache := [sqEntry 1 0 1 0, sqEntry 1 0 2 0, sqEntry 1 0 3 0, sqEntry 1 0 4 0] }
  { fe with
    insts := [(0, { Inst.reset with state := .ready }),
              (1, { Inst.reset with state := .ready, sqFirst := 2, sqCount := 3, cqFirst := 5, cqCount := 1, rtMax := 1 })]
    sqs := [(2, { q with cfg := { q.cfg with weight := 3, burst := 2 } }), (3, { q with cfg := { q.cfg with weight := 1, burst := 1 } }),
            (4, { q with cfg := { q.cfg with weight := 2, burst := 4 } })] }

/-- The visit due next, and how many it admits of a ring with enough entries. -/
def visit (s : State) : Option (Nat × Nat) := s.nextVisit.map (fun x => (x.1, min (s.roundBurst x.2) (s.credit x.2)))

/-- The visit made, its entries apart. -/
def visited (s : State) : State :=
  match s.nextVisit with
  | some (p, r) => { s.spend r (min (s.roundBurst r) (s.credit r)) with pass := p + 1 }
  | none => s

/-- 05: the round admits A, A, B, C, C, A. -/
theorem test_wrr_worked_case :
    (let a := threeRings.newRound
     let b := visited a
     let c := visited b
     let d := visited c
     threeRings.nextVisit = none ∧ [visit a, visit b, visit c, visit d, visit (visited d)] = [some (2, 2), some (3, 1), some (4, 2), some (2, 1), none]) := by
  decide +kernel

/-- 05: with N = 16 records 0 to 15 carry PHASE 1, record 21 PHASE 0. -/
theorem test_phase_worked_case : phaseOf 0 16 = true ∧ phaseOf 15 16 = true ∧ phaseOf 21 16 = false := by decide

/-- 06: the header bytes of operation 9. -/
theorem test_header_worked_case :
    (let h : List Byte := [3, 1, 2, 0, 0x0F, 5, 0x14, 0, 1, 0, 6, 0, 0, 0, 0, 0, 0x10, 0] ++ zeros 14
     hOpcode h = opLaunch ∧ hPkind h = 1 ∧ hOrd h = false ∧ hPlace h = 2 ∧ standsOf (hStands h) = [0, 1, 2, 3] ∧ hDepmode h = 1 ∧ hDeps h 9 = [8, 3] ∧
     hBody8 h * 8 = 160 ∧ catBody8 (hCat h) = some 20) := by decide

/-- 06: RECT 0x0001 to 0x030C is 48 chips, each within a sled. -/
theorem test_rect_worked_case :
    (rectChips 0x0000030C00010001).length = 48 ∧ (rectChips 0x0000030C00010001).head? = some 0x0001 ∧ (rectChips 0x0000030C00010001).getLast? = some 0x030C := by
  decide

/-- 08: tally 41 at 9 against 5 and BUFS 4 waits; against 6 passes; at 11 against 5 fails. -/
theorem test_space_worked_case :
    (let s := fun (p c : Word32) => ({ fe with gal := { fe.gal with tallies := [(41, p), (42, c)] } } : State)
     (s 9 5).judge (.space 41 42 4) = .wait ∧ (s 9 6).judge (.space 41 42 4) = .pass ∧ (s 11 5).judge (.space 41 42 4) = .fail) := by decide

/-- 10: with GBASE 0, MBASE 1 and GMUL 12 chip 0x0207 has coordinate 30, and CSTRIDE 0x0090_0000 units of 64 bytes make 0x4_3800_0000. -/
theorem test_coordinate_worked_case : chipCoord 0x0207 [0, 1, 12, 0] = some 30 ∧ 30 * 0x900000 * 64 = 0x438000000 := by decide

/-- 10: the integer MATMUL gives 12. -/
theorem test_matmul_worked_case :
    Tbl.get 0 (run (.matmul 0) (launch 0x10 matmulDesc matmulData)).mem.bytes 0x100100 = 12 := by decide +kernel

/-- 11: ALL_REDUCE SUM of 1.0, 2^-24 and 2^-24 is 1.0; with 1.0 last it is 1.0 + 2^-23. -/
theorem test_allReduce_worked_case :
    (match collDesc 0 (putAt (reduceAllDesc 3 1) 4 [0x88]) 0x30 with
     | some k => (reduceElem k [0x3F800000, 0x33800000, 0x33800000]).1 == 0x3F800000 && (reduceElem k [0x33800000, 0x33800000, 0x3F800000]).1 == 0x3F800001
     | none => false) = true := by decide +kernel

/-- 15: the image of 4 submission and 2 completion rings and 150 objects on each of two chips has 2,896 bytes: LEN8 362, four sections. -/
theorem test_image_worked_case :
    (let b := imageOf 1 0 0 (section_ 1 4 (zeros (4 * 64 + 2 * 32)) ++ section_ 2 0 (zeros (8 + 150 * 8)) ++ section_ 2 0 (zeros (8 + 150 * 8)) ++
       section_ 5 0 (zeros 64))
     b.length = 2896) := by decide +kernel

/-- 23: the two signal words. -/
theorem test_signal_worked_case :
    (sigChip 0x0000000000050205 = 0x0205 ∧ sigObj 0x0000000000050205 = 5 ∧ sigKind 0x0000000000050205 = 0 ∧ sigAmount 0x0000000000050205 = 0) ∧
    (sigChip 0x0000000380280007 = 0x0007 ∧ sigObj 0x0000000380280007 = 40 ∧ sigKind 0x0000000380280007 = 2 ∧ sigAmount 0x0000000380280007 = 3) := by decide

/-- The CRCs of 00 R31 and 02 on the check string "123456789". -/
theorem test_crc : crc32c [0x31, 0x32, 0x33, 0x34, 0x35, 0x36, 0x37, 0x38, 0x39] = 0xE3069283 ∧
    crc32 [0x31, 0x32, 0x33, 0x34, 0x35, 0x36, 0x37, 0x38, 0x39] = 0xCBF43926 := by decide +kernel

/-- A step takes the front command: the doorbell of the case above, from the queue, leaves the rest of the queue. -/
theorem test_step_takes_front :
    (let t := after (step { ring64 with pending := [.sqDoorbell 1 0 0x10, .admission] })
     (t.sq 2).k = 0x10 ∧ t.pending = [.admission]) := by decide +kernel

theorem test_witness_MemoryStaysCanonical :
    Mem.wf (feMem [1, 0, 2]).mem = true ∧
    (let s : State := { fe with boot := { fe.boot with state := .recovery }, flash := { fe.flash with bytes := [(0, 1), (0x10000, 2)] } }
     Tbl.wf 0xFF s.flash.bytes = true ∧ (run (.flashErase 0x58 1) s).flash.bytes = [(0x10000, 2)]) := by decide

end Sys2Proof.Test
end

/-! SUPPORT and PROOFS. Doorbells that are refused (05 R251, R283): what an error of a function records, what it leaves alone, and the two doorbells. -/

namespace Sys2Proof.Machine

/-! ## Saturating counts and the bits of the error status -/

/-- A saturating count that has risen is not zero. -/
theorem satInc_ne_zero {w : Nat} (hw : 0 < w) (c : BitVec w) : satInc c ≠ 0 := by
  unfold satInc
  split
  case isTrue hmax =>
    rw [hmax]
    exact fun hzero => hw.ne' (BitVec.allOnes_eq_zero_iff.mp hzero)
  case isFalse hmax =>
    intro hzero
    exact hmax ((eq_neg_of_add_eq_zero_left hzero).trans BitVec.neg_one_eq_allOnes)

/-- The bit ORed into the error status is set. -/
theorem getLsbD_or_twoPow_same (v : BitVec 14) {b : Nat} (hb : b < 14) : (v ||| BitVec.ofNat 14 (2 ^ b)).getLsbD b = true := by
  rw [BitVec.getLsbD_or, BitVec.getLsbD_ofNat, Nat.testBit_two_pow_self]
  simp [hb]

/-! ## The registers of a function after an update

A table drops an entry that equals the reset value; registers with an error bit set never do. -/

theorem State.updFn_fn_same {s : State} {n : Nat} {f : Fn → Fn} (h : f (s.fn n) ≠ Fn.reset) : (s.updFn n f).fn n = f (s.fn n) :=
  Tbl.get_set_same Fn.reset s.fns n (f (s.fn n)) h

/-- The error status shows bit `b`, and its count reads `c`. -/
def Fn.Shows (f : Fn) (b : Nat) (c : BitVec 16) : Prop := f.err.getLsbD b = true ∧ Tbl.get 0 f.errCnt b = c

theorem Fn.Shows.ne_reset {f : Fn} {b : Nat} {c : BitVec 16} (h : f.Shows b c) : f ≠ Fn.reset := by
  rintro rfl
  simp [Fn.Shows, Fn.reset] at h

/-- An update whose result shows the bit and the count is one after which the function shows them. -/
theorem State.updFn_shows {s : State} {n b : Nat} {c : BitVec 16} {f : Fn → Fn} (h : (f (s.fn n)).Shows b c) : ((s.updFn n f).fn n).Shows b c := by
  rwa [State.updFn_fn_same h.ne_reset]

/-! ## What an error records (13 R571, R572)

The ERROR cause that an error raises may itself have its message discarded, and counted under BME_DISCARD; every other bit and count stands. -/

theorem State.bmeCount_shows {s : State} {n b : Nat} {c : BitVec 16} (hb : b ≠ esBme) (h : (s.fn n).Shows b c) : ((s.bmeCount n).fn n).Shows b c := by
  obtain ⟨hbit, hcnt⟩ := h
  refine State.updFn_shows ⟨?_, ?_⟩
  · simp [BitVec.getLsbD_or, hbit]
  · exact (Tbl.get_set_other 0 _ esBme _ b hb).trans hcnt

theorem State.bmeDiscard_shows {s : State} {n b : Nat} {c : BitVec 16} (hb : b ≠ esBme) (h : (s.fn n).Shows b c) : ((s.bmeDiscard n).fn n).Shows b c := by
  have once := State.bmeCount_shows hb h
  unfold State.bmeDiscard
  dsimp only
  split
  · exact h
  · split
    · exact once
    · split
      · exact once
      · exact State.bmeCount_shows hb once

theorem State.message_shows {s : State} {n b : Nat} {c : BitVec 16} (v : Nat) (hb : b ≠ esBme) (h : (s.fn n).Shows b c) : ((s.message n v).fn n).Shows b c := by
  unfold State.message
  split
  · exact h
  · split
    · exact h
    · split
      · exact State.bmeDiscard_shows hb h
      · split
        · split <;> exact h
        · exact h

theorem State.cause_shows {s : State} {n b : Nat} {c : BitVec 16} (k : Nat) (hb : b ≠ esBme) (h : (s.fn n).Shows b c) : ((s.cause n k).fn n).Shows b c := by
  unfold State.cause
  split
  · exact h
  · exact State.message_shows _ hb (State.updFn_shows h)

/-- An error that occurs is set in the function's error status and counted there. -/
theorem State.fnError_shows (s : State) (n : Nat) {b : Nat} (hlt : b < 14) (hb : b ≠ esBme) :
    ((s.fnError n b).fn n).Shows b (satInc (Tbl.get 0 (s.fn n).errCnt b)) := by
  unfold State.fnError
  have recorded := State.updFn_shows (s := s) (n := n)
    (f := fun f => { f with err := f.err ||| BitVec.ofNat 14 (2 ^ b), errCnt := Tbl.upd 0 f.errCnt b satInc })
    ⟨getLsbD_or_twoPow_same (s.fn n).err hlt, Tbl.get_set_same 0 (s.fn n).errCnt b _ (satInc_ne_zero (by decide) _)⟩
  dsimp only
  split
  · exact recorded
  · exact State.cause_shows causeError hb recorded

/-- An error changes no ring. -/
theorem State.fnError_rings (s : State) (n b : Nat) : (s.fnError n b).sqs = s.sqs ∧ (s.fnError n b).cqs = s.cqs ∧ (s.fnError n b).drs = s.drs := by
  obtain ⟨f, x, h, o, e⟩ := s.fnError_touches n b
  rw [e]
  exact ⟨rfl, rfl, rfl⟩

/-! ## The doorbells on the active front end (05 R250, R251, R282, R283) -/

theorem exec_sqDoorbell_held {s : State} {fn ring n : Nat} (hr : Reaches s fn) (hfe : s.isFe = true) (hn : s.sqRing fn ring = some n) (p : Word32) :
    exec (.sqDoorbell fn ring p) s = .next (s.producer n p) := by
  change execSqDoorbell fn ring p s = _
  rw [execSqDoorbell, State.hostWrite_reaches hr, State.sqDb]
  simp [hfe, hn]

theorem exec_cqDoorbell_held {s : State} {fn ring c : Nat} (hr : Reaches s fn) (hfe : s.isFe = true) (hc : s.cqRing fn ring = some c) (v : Word32) :
    exec (.cqDoorbell fn ring v) s = .next (s.consumer c v) := by
  change execCqDoorbell fn ring v s = _
  rw [execCqDoorbell, State.hostWrite_reaches hr, State.cqDb]
  simp [hfe, hc]

theorem State.producer_of_disabled {s : State} {n : Nat} (h : (s.sq n).cfg.size = 0) (p : Word32) :
    s.producer n p = s.fnError (s.ringInst (.host n)) esDbDisabled := by
  simp [State.producer, h]

theorem State.consumer_of_beyond {s : State} {c : Nat} {v : Word32} (h : ((s.cq c).wr - (s.cq c).h).toNat < (v - (s.cq c).h).toNat) :
    s.consumer c v = s.fnError ((s.cqInst c).getD 0) esCqDbBad := by
  rw [State.consumer]
  exact if_neg (Nat.not_le.mpr h)

/-- Settles O8: the doorbell of a disabled ring is the error DB_DISABLED of the ring's function and nothing else. -/
theorem disabledRingDoorbell : Obligations.DisabledRingDoorbell := by
  intro s fn ring n p hr hfe hn hoff
  have herr := State.producer_of_disabled hoff p
  obtain ⟨hsq, hcq, hdr⟩ := s.fnError_rings (s.ringInst (.host n)) esDbDisabled
  obtain ⟨hbit, hcnt⟩ := s.fnError_shows (s.ringInst (.host n)) (b := esDbDisabled) (by decide) (by decide)
  exact ⟨_, (exec_sqDoorbell_held hr hfe hn p).trans (congrArg _ herr), hsq, hcq, hdr, hbit, hcnt⟩

/-- Settles O11: a consumer index beyond the write index is the error CQ_DB_BAD of the ring's function and nothing else. -/
theorem consumerAheadRefused : Obligations.ConsumerAheadRefused := by
  intro s fn ring c v hr hfe hc hbeyond
  have herr := State.consumer_of_beyond hbeyond
  obtain ⟨hsq, hcq, -⟩ := s.fnError_rings ((s.cqInst c).getD 0) esCqDbBad
  obtain ⟨hbit, -⟩ := s.fnError_shows ((s.cqInst c).getD 0) (b := esCqDbBad) (by decide) (by decide)
  exact ⟨_, (exec_cqDoorbell_held hr hfe hc v).trans (congrArg _ herr), hcq, hsq, hbit⟩

end Sys2Proof.Machine

/-! SUPPORT and PROOFS. One step: what it runs, and what every command keeps of the queue and the fuse bank (log 1, log 3, 16 R711). -/

namespace Sys2Proof.Machine

/-! ## What a command can do to the queue and the fuse bank -/

/-- What command `c` makes of the queue and the fuse bank on its way from `s` to `t`: they stand, or, at a command by which a token of the Crypto
Officer can come, minimum SVNs may have risen as well. -/
inductive Kept (c : Instr) (s t : State) : Prop where
  | stands (h : t.fixed = s.fixed)
  | rises (h : s.Keeps t) (officer : fuseCommand c = true := by rfl)

theorem Kept.keeps {c : Instr} {s t : State} : Kept c s t → s.Keeps t
  | .stands h => State.keeps_of h
  | .rises h _ => h

theorem Kept.pending {c : Instr} {s t : State} (k : Kept c s t) : t.pending = s.pending := k.keeps.1

theorem Kept.fuses {c : Instr} {s t : State} (k : Kept c s t) (hc : fuseCommand c = false) : t.fuses = s.fuses :=
  match k with
  | .stands h => congrArg Prod.snd h
  | .rises _ hf => absurd (hc.symm.trans hf) Bool.false_ne_true

/-- Every command that answers a next state keeps the queue and the fuse bank as said, by its own lemma under Laws/. -/
theorem exec_kept {c : Instr} {s t : State} (h : exec c s = .next t) : Kept c s t :=
  match c with
  | .sqDoorbell _ _ _ => .stands (execSqDoorbell_fixed _ _ _ _ _ h)
  | .shadowPiPoll _ => .stands (execShadowPiPoll_fixed _ _ _ h)
  | .cqDoorbell _ _ _ => .stands (execCqDoorbell_fixed _ _ _ _ _ h)
  | .ringEnable _ _ _ _ => .stands (execRingEnable_fixed _ _ _ _ _ _ h)
  | .registerWrite _ _ _ _ _ => .rises (execRegisterWrite_keeps _ _ _ _ _ _ _ h)
  | .guiltyAck _ _ => .stands (execGuiltyAck_fixed _ _ _ _ h)
  | .instSignal _ _ => .stands (execInstSignal_fixed _ _ _ _ h)
  | .instFence _ => .stands (execInstFence_fixed _ _ _ h)
  | .instFenceDone _ => .stands (execInstFenceDone_fixed _ _ _ h)
  | .dataWindowWrite _ _ _ => .stands (execDataWindowWrite_fixed _ _ _ _ _ h)
  | .dataWindowRead _ _ _ => .stands (execDataWindowRead_fixed _ _ _ _ _ h)
  | .dataCtlWrite _ _ => .stands (execDataCtlWrite_fixed _ _ _ _ h)
  | .objSelWrite _ _ => .stands (execObjSelWrite_fixed _ _ _ _ h)
  | .objRecordRead _ => .stands (execObjRecordRead_fixed _ _ _ h)
  | .drRegisterAccess _ _ _ _ => .stands (execDrRegisterAccess_fixed _ _ _ _ _ _ h)
  | .drAccessReply _ _ => .rises (execDrAccessReply_keeps _ _ _ _ h)
  | .mbxOutDoorbell _ _ => .stands (execMbxOutDoorbell_fixed _ _ _ _ h)
  | .mbxInConsume _ _ => .stands (execMbxInConsume_fixed _ _ _ _ h)
  | .mbxVfInProduce _ _ => .stands (execMbxVfInProduce_fixed _ _ _ _ h)
  | .mbxVfOutConsume _ _ => .stands (execMbxVfOutConsume_fixed _ _ _ _ h)
  | .mbxRspConsume _ => .stands (execMbxRspConsume_fixed _ _ _ h)
  | .instCauseClear _ _ _ _ => .stands (execInstCauseClear_fixed _ _ _ _ _ _ h)
  | .errorStatusClear _ _ => .stands (execErrorStatusClear_fixed _ _ _ _ h)
  | .blockErrClear _ _ => .stands (execBlockErrClear_fixed _ _ _ _ h)
  | .msixUnmask _ _ => .stands (execMsixUnmask_fixed _ _ _ _ h)
  | .coalTimerExpiry _ => .stands (execCoalTimerExpiry_fixed _ _ _ h)
  | .functionLevelReset _ => .stands (execFunctionLevelReset_fixed _ _ _ h)
  | .vfDisable => .stands (execVfDisable_fixed _ _ h)
  | .pfFlr => .stands (execPfFlr_fixed _ _ h)
  | .hotReset _ => .stands (execHotReset_fixed _ _ _ h)
  | .perstAssert => .stands (execPerstAssert_fixed _ _ h)
  | .perstSafeReset => .stands (execPerstSafeReset_fixed _ _ h)
  | .perstDeassert => .stands (execPerstDeassert_fixed _ _ h)
  | .configRequest _ _ _ => .stands (execConfigRequest_fixed _ _ _ _ _ h)
  | .busMasterClear _ _ => .stands (execBusMasterClear_fixed _ _ _ _ h)
  | .busMasterSet _ => .stands (execBusMasterSet_fixed _ _ _ h)
  | .numvfsWrite _ => .stands (execNumvfsWrite_fixed _ _ _ h)
  | .poisonedWrite _ _ => .stands (execPoisonedWrite_fixed _ _ _ _ h)
  | .hostReadComplete _ _ => .stands (execHostReadComplete_fixed _ _ _ _ h)
  | .completionTimeout _ => .stands (execCompletionTimeout_fixed _ _ _ h)
  | .ringFetch _ => .stands (execRingFetch_fixed _ _ _ h)
  | .entryJudge _ => .stands (execEntryJudge_fixed _ _ _ h)
  | .admission => .stands (execAdmission_fixed _ _ h)
  | .checkPass _ => .stands (execCheckPass_fixed _ _ _ h)
  | .dispatchRead _ => .stands (execDispatchRead_fixed _ _ _ h)
  | .remoteLaunchOperation _ => .rises (execRemoteLaunchOperation_keeps _ _ _ h)
  | .bodyReadDone _ => .stands (execBodyReadDone_fixed _ _ _ h)
  | .abortReceived _ => .rises (execAbortReceived_keeps _ _ _ h)
  | .faultReportReceived _ => .rises (execFaultReportReceived_keeps _ _ _ h)
  | .abortAck _ => .stands (execAbortAck_fixed _ _ _ h)
  | .tableEntry _ => .stands (execTableEntry_fixed _ _ _ h)
  | .standGrant => .stands (execStandGrant_fixed _ _ h)
  | .opComplete _ _ => .rises (execOpComplete_keeps _ _ _ _ h)
  | .completionIncrement _ _ _ _ => .stands (execCompletionIncrement_fixed _ _ _ _ _ _ h)
  | .hangTimeout _ => .stands (execHangTimeout_fixed _ _ _ h)
  | .nop _ => .stands (execNop_fixed _ _ _ h)
  | .end_ _ => .stands (execEnd_fixed _ _ _ h)
  | .copy _ => .stands (execCopy_fixed _ _ _ h)
  | .setFlag _ => .stands (execSetFlag_fixed _ _ _ h)
  | .clearFlag _ => .stands (execClearFlag_fixed _ _ _ h)
  | .test _ => .stands (execTest_fixed _ _ _ h)
  | .wait _ => .stands (execWait_fixed _ _ _ h)
  | .tallyAdd _ => .stands (execTallyAdd_fixed _ _ _ h)
  | .tallyWait _ => .stands (execTallyWait_fixed _ _ _ h)
  | .tallyWaitSpace _ => .stands (execTallyWaitSpace_fixed _ _ _ h)
  | .barrierArrive _ => .stands (execBarrierArrive_fixed _ _ _ h)
  | .fenceGlobal _ => .stands (execFenceGlobal_fixed _ _ _ h)
  | .chain _ => .stands (execChain_fixed _ _ _ h)
  | .condEnqueue _ => .stands (execCondEnqueue_fixed _ _ _ h)
  | .condEnqueuePush _ => .stands (execCondEnqueuePush_fixed _ _ _ h)
  | .signalPeer _ => .stands (execSignalPeer_fixed _ _ _ h)
  | .timestamp _ => .stands (execTimestamp_fixed _ _ _ h)
  | .matmul _ => .stands (execMatmul_fixed _ _ _ h)
  | .conv _ => .stands (execConv_fixed _ _ _ h)
  | .quantize _ => .stands (execQuantize_fixed _ _ _ h)
  | .dequantize _ => .stands (execDequantize_fixed _ _ _ h)
  | .attention _ => .stands (execAttention_fixed _ _ _ h)
  | .norm _ => .stands (execNorm_fixed _ _ _ h)
  | .softmax _ => .stands (execSoftmax_fixed _ _ _ h)
  | .elementwise _ => .stands (execElementwise_fixed _ _ _ h)
  | .reduce _ => .stands (execReduce_fixed _ _ _ h)
  | .gather _ => .stands (execGather_fixed _ _ _ h)
  | .scatter _ => .stands (execScatter_fixed _ _ _ h)
  | .sample _ => .stands (execSample_fixed _ _ _ h)
  | .copyTransform _ => .stands (execCopyTransform_fixed _ _ _ h)
  | .allReduce _ => .stands (execAllReduce_fixed _ _ _ h)
  | .reduceScatter _ => .stands (execReduceScatter_fixed _ _ _ h)
  | .allGather _ => .stands (execAllGather_fixed _ _ _ h)
  | .collectiveAnnounce _ => .rises (execCollectiveAnnounce_keeps _ _ _ h)
  | .collectiveContribution _ => .rises (execCollectiveContribution_keeps _ _ _ h)
  | .replayContributionRequest _ => .rises (execReplayContributionRequest_keeps _ _ _ h)
  | .replayFailureNotice _ => .rises (execReplayFailureNotice_keeps _ _ _ h)
  | .waitTimeout _ => .stands (execWaitTimeout_fixed _ _ _ h)
  | .galleryApply => .stands (execGalleryApply_fixed _ _ h)
  | .fifoRoom => .stands (execFifoRoom_fixed _ _ h)
  | .blockLockLoss _ => .stands (execBlockLockLoss_fixed _ _ _ h)
  | .laneLoss _ => .stands (execLaneLoss_fixed _ _ _ h)
  | .trainingAdvance _ _ _ => .stands (execTrainingAdvance_fixed _ _ _ _ _ h)
  | .trainingTimeout _ => .stands (execTrainingTimeout_fixed _ _ _ h)
  | .trainingBackoff _ => .stands (execTrainingBackoff_fixed _ _ _ h)
  | .downReceived _ => .stands (execDownReceived_fixed _ _ _ h)
  | .flitGroup _ _ => .stands (execFlitGroup_fixed _ _ _ _ h)
  | .replayTimeout _ => .stands (execReplayTimeout_fixed _ _ _ h)
  | .resendLimit _ _ => .stands (execResendLimit_fixed _ _ _ _ h)
  | .ackDeadline _ => .stands (execAckDeadline_fixed _ _ _ h)
  | .packetReceive _ _ => .stands (execPacketReceive_fixed _ _ _ _ h)
  | .writePacket _ => .rises (execWritePacket_keeps _ _ _ h)
  | .readReq _ => .rises (execReadReq_keeps _ _ _ h)
  | .readRsp _ => .stands (execReadRsp_fixed _ _ _ h)
  | .xferAck _ => .stands (execXferAck_fixed _ _ _ h)
  | .e2eNakCrc _ => .stands (execE2eNakCrc_fixed _ _ _ h)
  | .e2eNakStale _ _ => .stands (execE2eNakStale_fixed _ _ _ _ h)
  | .e2eNakRetryLater _ => .stands (execE2eNakRetryLater_fixed _ _ _ h)
  | .retryLaterResend _ _ => .stands (execRetryLaterResend_fixed _ _ _ _ h)
  | .e2eNakAbandoned _ => .stands (execE2eNakAbandoned_fixed _ _ _ h)
  | .xferAckTimeout _ _ => .stands (execXferAckTimeout_fixed _ _ _ _ h)
  | .voidReceive _ => .rises (execVoidReceive_keeps _ _ _ h)
  | .multicastReceive _ _ => .stands (execMulticastReceive_fixed _ _ _ _ h)
  | .multicastHoldExpiry _ => .stands (execMulticastHoldExpiry_fixed _ _ _ h)
  | .partResetHoldExpiry _ => .stands (execPartResetHoldExpiry_fixed _ _ _ h)
  | .windowReclaim _ => .stands (execWindowReclaim_fixed _ _ _ h)
  | .transferAbandon _ _ => .rises (execTransferAbandon_keeps _ _ _ _ h)
  | .fenceNotice _ => .rises (execFenceNotice_keeps _ _ _ h)
  | .fenceReceived _ => .stands (execFenceReceived_fixed _ _ _ h)
  | .elect _ _ => .stands (execElect_fixed _ _ _ _ h)
  | .rootTimer => .stands (execRootTimer_fixed _ _ h)
  | .parent _ _ => .stands (execParent_fixed _ _ _ _ h)
  | .report _ _ => .stands (execReport_fixed _ _ _ _ h)
  | .assign _ _ => .stands (execAssign_fixed _ _ _ _ h)
  | .reject _ _ => .stands (execReject_fixed _ _ _ _ h)
  | .discReady _ _ => .stands (execDiscReady_fixed _ _ _ _ h)
  | .collectionClose _ _ => .stands (execCollectionClose_fixed _ _ _ _ h)
  | .formationWaitExpiry => .stands (execFormationWaitExpiry_fixed _ _ h)
  | .assignTimeout => .stands (execAssignTimeout_fixed _ _ h)
  | .mgmtPacket _ => .rises (execMgmtPacket_keeps _ _ _ h)
  | .epochPrepare _ => .rises (execEpochPrepare_keeps _ _ _ h)
  | .epochCommit _ => .rises (execEpochCommit_keeps _ _ _ h)
  | .portLeftActive _ => .rises (execPortLeftActive_keeps _ _ _ h)
  | .chipLossDeclare _ _ => .rises (execChipLossDeclare_keeps _ _ _ _ h)
  | .beatTimer => .stands (execBeatTimer_fixed _ _ h)
  | .beat _ _ => .rises (execBeat_keeps _ _ _ _ h)
  | .echo _ => .rises (execEcho_keeps _ _ _ h)
  | .leaseLapse => .stands (execLeaseLapse_fixed _ _ h)
  | .heartbeatLoss => .stands (execHeartbeatLoss_fixed _ _ h)
  | .claim _ => .rises (execClaim_keeps _ _ _ h)
  | .grant _ _ => .rises (execGrant_keeps _ _ _ _ h)
  | .deny _ => .rises (execDeny_keeps _ _ _ h)
  | .claimTimeout => .stands (execClaimTimeout_fixed _ _ h)
  | .journalEpochClose => .stands (execJournalEpochClose_fixed _ _ h)
  | .journal _ => .rises (execJournal_keeps _ _ _ h)
  | .journalForward _ => .rises (execJournalForward_keeps _ _ _ h)
  | .instStop _ => .rises (execInstStop_keeps _ _ _ h)
  | .instStopped _ => .rises (execInstStopped_keeps _ _ _ h)
  | .instPurge _ => .rises (execInstPurge_keeps _ _ _ h)
  | .instPurged _ => .rises (execInstPurged_keeps _ _ _ h)
  | .scrubPass => .stands (execScrubPass_fixed _ _ h)
  | .sramScrub _ => .stands (execSramScrub_fixed _ _ _ h)
  | .wckRetrain _ => .stands (execWckRetrain_fixed _ _ _ h)
  | .beatMissed _ => .rises (execBeatMissed_keeps _ _ _ h)
  | .tileFault _ => .rises (execTileFault_keeps _ _ _ h)
  | .partHoldExpiry _ => .stands (execPartHoldExpiry_fixed _ _ _ h)
  | .localRetry _ => .stands (execLocalRetry_fixed _ _ _ h)
  | .partTimeout _ _ _ => .stands (execPartTimeout_fixed _ _ _ _ _ h)
  | .xltInvalGo _ => .stands (execXltInvalGo_fixed _ _ _ h)
  | .invalReport _ => .rises (execInvalReport_keeps _ _ _ h)
  | .create => .stands (execCreate_fixed _ _ h)
  | .destroy => .stands (execDestroy_fixed _ _ h)
  | .setStands => .stands (execSetStands_fixed _ _ h)
  | .setVectors => .stands (execSetVectors_fixed _ _ h)
  | .setDrrings => .stands (execSetDrrings_fixed _ _ h)
  | .objAssign => .stands (execObjAssign_fixed _ _ h)
  | .shareGroup => .stands (execShareGroup_fixed _ _ h)
  | .objReset => .stands (execObjReset_fixed _ _ h)
  | .xltRoot => .stands (execXltRoot_fixed _ _ h)
  | .hostSlot => .stands (execHostSlot_fixed _ _ h)
  | .query => .stands (execQuery_fixed _ _ h)
  | .quiesce => .stands (execQuiesce_fixed _ _ h)
  | .quiesceComplete _ => .stands (execQuiesceComplete_fixed _ _ _ h)
  | .resume => .stands (execResume_fixed _ _ h)
  | .save => .stands (execSave_fixed _ _ h)
  | .restore _ => .stands (execRestore_fixed _ _ _ h)
  | .dlogEnable => .stands (execDlogEnable_fixed _ _ h)
  | .dlogClear => .stands (execDlogClear_fixed _ _ h)
  | .dlogFlush => .stands (execDlogFlush_fixed _ _ h)
  | .dlogDisable => .stands (execDlogDisable_fixed _ _ h)
  | .dlogRoom => .stands (execDlogRoom_fixed _ _ h)
  | .confCreate => .stands (execConfCreate_fixed _ _ h)
  | .confAssign => .stands (execConfAssign_fixed _ _ h)
  | .confMap => .stands (execConfMap_fixed _ _ h)
  | .confLoad _ => .stands (execConfLoad_fixed _ _ _ h)
  | .confFinalize => .stands (execConfFinalize_fixed _ _ h)
  | .confRelease => .stands (execConfRelease_fixed _ _ h)
  | .attest => .stands (execAttest_fixed _ _ h)
  | .svnCommit => .rises (execSvnCommit_keeps _ _ h)
  | .zeroize => .rises (execZeroize_keeps _ _ h)
  | .coNonceRead => .stands (execCoNonceRead_fixed _ _ h)
  | .dbgChallengeRead => .stands (execDbgChallengeRead_fixed _ _ h)
  | .debugUnlock => .stands (execDebugUnlock_fixed _ _ h)
  | .seqlockAcquire _ => .stands (execSeqlockAcquire_fixed _ _ _ h)
  | .seqlockCommit _ => .stands (execSeqlockCommit_fixed _ _ _ h)
  | .seqlockAbandon _ => .stands (execSeqlockAbandon_fixed _ _ _ h)
  | .rmtRead _ => .rises (execRmtRead_keeps _ _ _ h)
  | .rmtWrite _ => .rises (execRmtWrite_keeps _ _ _ h)
  | .rmtReply _ => .rises (execRmtReply_keeps _ _ _ h)
  | .epochCtlCommit => .stands (execEpochCtlCommit_fixed _ _ h)
  | .epochCtlAbandon => .stands (execEpochCtlAbandon_fixed _ _ h)
  | .pwrAuto _ => .stands (execPwrAuto_fixed _ _ _ h)
  | .pwrNoSleep _ => .stands (execPwrNoSleep_fixed _ _ _ h)
  | .pwrPark _ => .stands (execPwrPark_fixed _ _ _ h)
  | .hibernateEnter => .stands (execHibernateEnter_fixed _ _ h)
  | .hibernateExit _ => .stands (execHibernateExit_fixed _ _ _ h)
  | .wakeEdge => .stands (execWakeEdge_fixed _ _ h)
  | .tileRetentionTimer _ => .stands (execTileRetentionTimer_fixed _ _ _ h)
  | .selfRefreshTimer => .stands (execSelfRefreshTimer_fixed _ _ h)
  | .thermalThrottleStep _ _ => .stands (execThermalThrottleStep_fixed _ _ _ _ h)
  | .junctionHold _ => .stands (execJunctionHold_fixed _ _ _ h)
  | .powerSample _ => .stands (execPowerSample_fixed _ _ _ h)
  | .timeRecalibrate _ => .stands (execTimeRecalibrate_fixed _ _ _ h)
  | .tsyncEdge => .stands (execTsyncEdge_fixed _ _ h)
  | .safeArm => .stands (execSafeArm_fixed _ _ h)
  | .safeDisarm => .stands (execSafeDisarm_fixed _ _ h)
  | .safeTest => .stands (execSafeTest_fixed _ _ h)
  | .safeTestEnd _ => .stands (execSafeTestEnd_fixed _ _ _ h)
  | .safeStatusClear _ => .stands (execSafeStatusClear_fixed _ _ _ h)
  | .probeRun => .stands (execProbeRun_fixed _ _ h)
  | .probeStandGrant _ => .stands (execProbeStandGrant_fixed _ _ _ h)
  | .probeCompare _ => .stands (execProbeCompare_fixed _ _ _ h)
  | .probeLate => .stands (execProbeLate_fixed _ _ h)
  | .safeStateEnter _ _ => .stands (execSafeStateEnter_fixed _ _ _ _ h)
  | .safeHoldExpiry => .stands (execSafeHoldExpiry_fixed _ _ h)
  | .safetyWatchdog => .stands (execSafetyWatchdog_fixed _ _ h)
  | .clockLoss _ => .stands (execClockLoss_fixed _ _ _ h)
  | .supplyExcursion _ => .stands (execSupplyExcursion_fixed _ _ _ h)
  | .supplyCollapse => .stands (execSupplyCollapse_fixed _ _ h)
  | .powerUpAon => .stands (execPowerUpAon_fixed _ _ h)
  | .sysRstAssert => .stands (execSysRstAssert_fixed _ _ h)
  | .sysRstRelease _ _ _ => .stands (execSysRstRelease_fixed _ _ _ _ _ h)
  | .bootRom _ _ _ => .stands (execBootRom_fixed _ _ _ _ _ h)
  | .memtrain _ => .stands (execMemtrain_fixed _ _ _ h)
  | .meminit => .stands (execMeminit_fixed _ _ h)
  | .bist _ _ _ => .stands (execBist_fixed _ _ _ _ _ h)
  | .images _ _ => .stands (execImages_fixed _ _ _ _ h)
  | .inject _ => .stands (execInject_fixed _ _ _ h)
  | .fabric => .stands (execFabric_fixed _ _ h)
  | .frontend => .stands (execFrontend_fixed _ _ h)
  | .eventRingRoom => .stands (execEventRingRoom_fixed _ _ h)
  | .i2cBootReport _ => .stands (execI2cBootReport_fixed _ _ _ h)
  | .flashAddr _ _ => .stands (execFlashAddr_fixed _ _ _ _ h)
  | .flashRead _ _ => .stands (execFlashRead_fixed _ _ _ _ h)
  | .flashProgram _ _ => .stands (execFlashProgram_fixed _ _ _ _ h)
  | .flashErase _ _ => .stands (execFlashErase_fixed _ _ _ _ h)
  | .flashStatus _ => .stands (execFlashStatus_fixed _ _ _ h)
  | .i2cRestart _ _ => .stands (execI2cRestart_fixed _ _ _ _ h)
  | .i2cBusTimeout => .stands (execI2cBusTimeout_fixed _ _ h)
  | .epochPrepareAck _ => .rises (execEpochPrepareAck_keeps _ _ _ h)
  | .mgmtAnswer _ => .rises (execMgmtAnswer_keeps _ _ _ h)
  | .declarationToStandby _ => .rises (execDeclarationToStandby_keeps _ _ _ h)
  | .progressBeat _ => .rises (execProgressBeat_keeps _ _ _ h)
  | .commandDoorbell _ => .stands (execCommandDoorbell_fixed _ _ _ h)
  | .partLeavesReset _ _ => .rises (execPartLeavesReset_keeps _ _ _ _ h)
  | .pcieLinkUp _ _ => .stands (execPcieLinkUp_fixed _ _ _ _ h)
  | .supplyReturn => .stands (execSupplyReturn_fixed _ _ h)

theorem idle_keeps (s : State) : s.Keeps (idle s) := State.keeps_of (idle_fixed s)

/-- A step takes its command off the queue and keeps the fuse bank but for minimum SVNs that rise. -/
theorem step_keeps_fuses {s t : State} (h : step s = .next t) :
    t.fuses.rest = s.fuses.rest ∧ ∀ k, (Tbl.get 0 s.fuses.svnMin k).toNat ≤ (Tbl.get 0 t.fuses.svnMin k).toNat := by
  unfold step at h
  split at h
  case h_1 =>
    cases h
    exact (idle_keeps s).2
  case h_2 => exact (exec_kept h).keeps.2

/-! ## Every command answers -/

theorem exec_sysRstRelease_testMode {s : State} (mode : BitVec 2) (addr : BitVec 3) (h : s.boot.sysRst = true) :
    exec (.sysRstRelease mode addr 1) s = .refused .productionTest := by
  change execSysRstRelease mode addr 1 s = _
  simp [execSysRstRelease, h]

theorem exec_sysRstRelease_answers {s : State} {mode : BitVec 2} {addr : BitVec 3} {test : BitVec 1} (h : s.boot.sysRst = true → test ≠ 1) :
    ∃ t, exec (.sysRstRelease mode addr test) s = .next t := by
  change ∃ t, execSysRstRelease mode addr test s = _
  cases hrst : s.boot.sysRst with
  | false => exact ⟨s, by simp [execSysRstRelease, hrst]⟩
  | true =>
    simp only [execSysRstRelease, hrst, h hrst, Bool.not_true, Bool.false_eq_true, if_false]
    exact ⟨_, rfl⟩

/-- Every command answers a next state by its definition, but the release of SYS_RST_N, which asks for TEST_MODE first. -/
theorem exec_answers {c : Instr} {s : State} (h : ∀ m a, s.boot.sysRst = true → c ≠ .sysRstRelease m a 1) : ∃ t, exec c s = .next t := by
  cases c
  case sysRstRelease mode addr test => exact exec_sysRstRelease_answers (fun hrst heq => h mode addr hrst (by rw [heq]))
  all_goals exact ⟨_, rfl⟩

/-! ## The idle step -/

theorem step_of_empty {s : State} (h : s.pending = []) : step s = .next (idle s) := by simp only [step, h]

/-- Settles O1: a step runs the command at the front, or one ACLK cycle. -/
theorem stepRunsFront : Obligations.StepRunsFront := by
  refine ⟨fun s c q hq => by simp only [step, hq], fun s hq => ⟨fun hrun => ?_, fun hheld => ?_⟩⟩
  · rw [step_of_empty hq, idle, State.tick, if_pos hrun]
  · rw [step_of_empty hq, idle, State.tick, if_neg (Nat.ne_of_gt hheld)]

/-- Settles O2: the reset state lists no entry in any table, so every object reads its reset value. -/
theorem resetValues : Obligations.ResetValues := by
  refine ⟨rfl, rfl, rfl, rfl, rfl, rfl, fun n => ⟨rfl, rfl, rfl, rfl⟩, rfl, rfl, fun n => ⟨rfl, rfl, rfl⟩, fun n => rfl, rfl⟩

/-- Settles O3: what a step may do to the fuse bank, read off the lemmas of the single commands. -/
theorem fusesOnlyRise : Obligations.FusesOnlyRise := by
  refine ⟨fun s t m f hmin hrest hstep => ?_, fun c s t hexec hc => (exec_kept hexec).fuses hc⟩
  obtain ⟨hrest', hrise⟩ := step_keeps_fuses hstep
  exact ⟨fun k => (hmin k).trans (hrise k), hrest'.trans hrest⟩

/-- Settles O4: at reset nothing is listed in memory, in the boot flash or among the fused minima. -/
theorem invariantsAtReset : Obligations.InvariantsAtReset :=
  ⟨fun _ => Nat.zero_le _, rfl, rfl, rfl⟩

/-- Settles O5: every command answers, and none touches the queue. -/
theorem commandsLeaveTheQueue : Obligations.CommandsLeaveTheQueue := by
  refine ⟨fun c s h => ?_, fun s m a h => exec_sysRstRelease_testMode m a h⟩
  obtain ⟨t, ht⟩ := exec_answers h
  exact ⟨t, ht, (exec_kept ht).pending⟩

end Sys2Proof.Machine

/-! SUPPORT and PROOFS. Memory and the boot flash stay in canonical form under every operation that stores (log 6, log 20, log 104). -/

namespace Sys2Proof.Machine

/-! ## Tables under filters and folds -/

theorem Mem.wf_filter {m n : Mem} {p : Nat × Byte → Bool} {q : Nat × BitVec 72 → Bool} (h : Mem.wf m = true) (hb : n.bytes = m.bytes.filter p)
    (hf : n.flips = m.flips.filter q) (ht : n.tagDiff = m.tagDiff) : Mem.wf n = true := by
  simp only [Mem.wf, Bool.and_eq_true] at h ⊢
  obtain ⟨hbytes, hflips, htags⟩ := h
  rw [hb, hf, ht]
  exact ⟨Tbl.wf_filter 0 p _ hbytes, Tbl.wf_filter 0 q _ hflips, htags⟩

theorem Tbl.wf_foldl_upd {α β : Type} [DecidableEq α] (d : α) (key : β → Nat) (f : β → α → α) (l : List β) {t : Tbl α} (h : Tbl.wf d t = true) :
    Tbl.wf d (l.foldl (fun t e => Tbl.upd d t (key e) (f e)) t) = true := by
  induction l generalizing t with
  | nil => exact h
  | cons e l ih => exact ih (Tbl.wf_set d t (key e) _ h)

/-! ## Operations on memory as a whole -/

theorem State.zeroRanges_wf {s : State} (rs : List (Nat × Nat)) (h : Mem.wf s.mem = true) : Mem.wf (s.zeroRanges rs).mem = true :=
  Mem.wf_filter h rfl rfl rfl

theorem State.clearTile_wf {s : State} (tile : Nat) (h : Mem.wf s.mem = true) : Mem.wf (s.clearTile tile).mem = true :=
  Mem.wf_filter h rfl rfl rfl

theorem State.chipReset_wf {s : State} (warm : Bool) (h : Mem.wf s.mem = true) : Mem.wf (s.chipReset warm).mem = true := by
  cases warm with
  | false => rfl
  | true => exact Mem.wf_filter (n := s.memAfter true) h rfl rfl rfl

/-! ## The boot flash -/

theorem State.program_wf {s : State} (bs : List Byte) (h : Tbl.wf 0xFF s.flash.bytes = true) : Tbl.wf 0xFF (s.program bs).flash.bytes = true :=
  Tbl.wf_foldl_upd 0xFF Prod.fst (fun e b => b &&& e.2) (indexed s.flash.offset.toNat bs) h

theorem State.inRecovery_flash_wf {s : State} {addr : BitVec 7} {f : State → State} (h : Tbl.wf 0xFF s.flash.bytes = true)
    (hf : Tbl.wf 0xFF (f s).flash.bytes = true) : Tbl.wf 0xFF (s.inRecovery addr f).flash.bytes = true := by
  unfold State.inRecovery State.onI2c
  dsimp only
  split
  · split
    · exact hf
    · exact h
  · exact h

theorem execFlashErase_wf {s t : State} {addr : BitVec 7} {code : Byte} (h : Tbl.wf 0xFF s.flash.bytes = true)
    (ht : execFlashErase addr code s = .next t) : Tbl.wf 0xFF t.flash.bytes = true := by
  cases ht
  apply State.inRecovery_flash_wf h
  split
  · exact h
  · exact Tbl.wf_filter 0xFF _ _ h

/-- Settles O6: each operation that stores keeps the canonical form, by its own lemma. -/
theorem memoryStaysCanonical : Obligations.MemoryStaysCanonical := by
  refine ⟨fun s key a n bs blocks rs tile warm h => ?_, fun s t bs addr code h => ⟨s.program_wf bs h, execFlashErase_wf h⟩⟩
  exact ⟨s.writeMem_wf key a bs h, s.readMem_wf key a n h, s.rekey_wf key blocks h, s.zeroRanges_wf rs h, s.clearTile_wf tile h, s.chipReset_wf warm h⟩

end Sys2Proof.Machine

/-! SUPPORT and PROOFS. What an error of a function records, BME_DISCARD among the errors (13 R571, R572; 04 R212). -/

namespace Sys2Proof.Machine

/-- The registers after one discarded request is counted. -/
def Fn.bmeCounted (f : Fn) : Fn :=
  { f with err := f.err ||| 0x40, errCnt := Tbl.upd 0 f.errCnt 6 satInc, cause := if f.err.getLsbD 6 then f.cause else f.cause ||| 0x10 }

/-- What a function shows once it has shown it, however many of its requests are discarded; reset does not show it. -/
structure Fn.Lasting (P : Fn → Prop) : Prop where
  reset : ¬ P Fn.reset
  discard : ∀ f, P f → P f.bmeCounted

/-- A bit of the error status lasts: discards set bits there and clear none. -/
theorem Fn.err_lasting (b : Nat) : Fn.Lasting (fun f => f.err.getLsbD b = true) where
  reset := by simp [Fn.reset]
  discard f h := by simp [Fn.bmeCounted, BitVec.getLsbD_or, h]

/-- So does a cause. -/
theorem Fn.cause_lasting (c : Nat) : Fn.Lasting (fun f => f.cause.getLsbD c = true) where
  reset := by simp [Fn.reset]
  discard f h := by
    unfold Fn.bmeCounted
    dsimp only
    split
    · exact h
    · simp [BitVec.getLsbD_or, h]

section
variable {P : Fn → Prop} (lasting : Fn.Lasting P) {s : State} {n : Nat}
include lasting

theorem State.updFn_lasting {f : Fn → Fn} (h : P (f (s.fn n))) : P ((s.updFn n f).fn n) := by
  rwa [State.updFn_fn_same (fun hreset => lasting.reset (hreset ▸ h))]

theorem State.bmeCount_lasting (h : P (s.fn n)) : P ((s.bmeCount n).fn n) := State.updFn_lasting lasting (lasting.discard _ h)

theorem State.bmeDiscard_lasting (h : P (s.fn n)) : P ((s.bmeDiscard n).fn n) := by
  have once := State.bmeCount_lasting lasting h
  unfold State.bmeDiscard
  dsimp only
  split
  · exact h
  · split
    · exact once
    · split
      · exact once
      · exact State.bmeCount_lasting lasting once

theorem State.message_lasting (v : Nat) (h : P (s.fn n)) : P ((s.message n v).fn n) := by
  unfold State.message
  split
  · exact h
  · split
    · exact h
    · split
      · exact State.bmeDiscard_lasting lasting h
      · split
        · split <;> exact h
        · exact h

end

/-- A cause every function has shows once it has fired. -/
theorem State.cause_sets (s : State) (n : Nat) {c : Nat} (hc : c < 5) : ((s.cause n c).fn n).cause.getLsbD c = true := by
  unfold State.cause
  rw [if_neg (by simp; omega)]
  refine State.message_lasting (Fn.cause_lasting c) _ (State.updFn_lasting (Fn.cause_lasting c) ?_)
  rw [BitVec.getLsbD_or, BitVec.getLsbD_ofNat, Nat.testBit_two_pow_self]
  simp; omega

theorem State.cause_err_lasting {s : State} {n b : Nat} (c : Nat) (h : (s.fn n).err.getLsbD b = true) : ((s.cause n c).fn n).err.getLsbD b = true := by
  unfold State.cause
  split
  · exact h
  · exact State.message_lasting (Fn.err_lasting b) _ (State.updFn_lasting (Fn.err_lasting b) h)

theorem State.fnError_sets (s : State) (n : Nat) {b : Nat} (hb : b < 14) : ((s.fnError n b).fn n).err.getLsbD b = true := by
  have recorded : ((s.updFn n (fun f => { f with err := f.err ||| BitVec.ofNat 14 (2 ^ b), errCnt := Tbl.upd 0 f.errCnt b satInc })).fn n).err.getLsbD b = true :=
    State.updFn_lasting (Fn.err_lasting b) (getLsbD_or_twoPow_same _ hb)
  unfold State.fnError
  dsimp only
  split
  · exact recorded
  · exact State.cause_err_lasting causeError recorded

theorem State.fnError_fires {s : State} {n b : Nat} (h : (s.fn n).err.getLsbD b = false) : ((s.fnError n b).fn n).cause.getLsbD causeError = true := by
  unfold State.fnError
  dsimp only
  rw [if_neg (Bool.eq_false_iff.mp h)]
  exact State.cause_sets _ n (by decide)

/-- Settles O13: an error is set and counted, fires ERROR as its bit rises, and touches nothing beyond what `fnError_touches` names. -/
theorem functionErrorRecords : Obligations.FunctionErrorRecords :=
  fun s n _ hb => ⟨s.fnError_sets n hb, fun hbme => (s.fnError_shows n hb hbme).2, State.fnError_fires, s.fnError_touches n _⟩

end Sys2Proof.Machine

/-! SUPPORT and PROOFS. The doorbells, the shadow index, the enabling and the fetching of rings (05 R244 to R255, R272, R282, R283). -/

namespace Sys2Proof.Machine

/-! ## An index of the producer (05 R250) -/

theorem toNat_sub_ne_zero {w : Nat} {x y : BitVec w} (h : x ≠ y) : (x - y).toNat ≠ 0 :=
  fun hz => h (sub_eq_zero.mp (BitVec.toNat_inj.mp hz))

section
variable {s : State} {n : Nat} {p : Word32}

theorem State.producer_of_same (hon : (s.sq n).cfg.size ≠ 0) (h : p = (s.sq n).k) : s.producer n p = s := by
  have hd : (p - (s.sq n).k).toNat = 0 := by rw [h, sub_self]; rfl
  simp only [State.producer, hon, hd, if_true, if_false]

theorem State.producer_of_stale (hon : (s.sq n).cfg.size ≠ 0) (h : 2 ^ 31 ≤ (p - (s.sq n).k).toNat) :
    s.producer n p = s.updSq n (fun q => { q with stale := satInc q.stale }) := by
  have hd : (p - (s.sq n).k).toNat ≠ 0 := by omega
  simp only [State.producer, hon, hd, h, if_true, if_false]

theorem State.producer_of_overrun (hon : (s.sq n).cfg.size ≠ 0) (hne : p ≠ (s.sq n).k) (hahead : (p - (s.sq n).k).toNat < 2 ^ 31)
    (h : 2 ^ (s.sq n).cfg.size.toNat < (p - (s.sq n).release).toNat) : s.producer n p = s.fnError (s.ringInst (.host n)) esDbOverrun := by
  have hd : (p - (s.sq n).k).toNat ≠ 0 := toNat_sub_ne_zero hne
  simp only [State.producer, hon, hd, Nat.not_le.mpr hahead, Sq.n, h, if_true, if_false]

theorem State.producer_of_taken (hon : (s.sq n).cfg.size ≠ 0) (hne : p ≠ (s.sq n).k) (hahead : (p - (s.sq n).k).toNat < 2 ^ 31)
    (h : (p - (s.sq n).release).toNat ≤ 2 ^ (s.sq n).cfg.size.toNat) :
    s.producer n p = (s.updSq n (fun q => { q with k := p })).journal (indexRec (s.ringInst (.host n)) (s.ringLocal (.host n)) 0 p) := by
  have hd : (p - (s.sq n).k).toNat ≠ 0 := toNat_sub_ne_zero hne
  simp only [State.producer, hon, hd, Nat.not_le.mpr hahead, Sq.n, Nat.not_lt.mpr h, if_false]

end

/-! ## Doorbells -/

section
variable {s : State} {fn : Nat}

theorem exec_sqDoorbell (hr : Reaches s fn) (ring : Nat) (p : Word32) : exec (.sqDoorbell fn ring p) s = .next (s.sqDb fn ring p) :=
  congrArg Host.Outcome.next (State.hostWrite_reaches hr true _)

theorem exec_cqDoorbell (hr : Reaches s fn) (ring : Nat) (v : Word32) : exec (.cqDoorbell fn ring v) s = .next (s.cqDb fn ring v) :=
  congrArg Host.Outcome.next (State.hostWrite_reaches hr true _)

theorem State.sqDb_none {ring : Nat} (hfe : s.isFe = true) (h : s.sqRing fn ring = none) (p : Word32) : s.sqDb fn ring p = s.fnError fn esBadAccess := by
  simp [State.sqDb, hfe, h]

theorem State.sqDb_away (hfe : s.isFe = false) (ring : Nat) (p : Word32) :
    s.sqDb fn ring p = s.ringElsewhere fn (0x1000 + 4 * ring) (indexRec fn ring 0 p) := by
  simp [State.sqDb, hfe]

theorem State.cqDb_none {ring : Nat} (hfe : s.isFe = true) (h : s.cqRing fn ring = none) (v : Word32) : s.cqDb fn ring v = s.fnError fn esBadAccess := by
  simp [State.cqDb, hfe, h]

theorem State.cqDb_away (hfe : s.isFe = false) (ring : Nat) (v : Word32) :
    s.cqDb fn ring v = s.ringElsewhere fn (0x1400 + 4 * ring) (indexRec fn ring 1 v) := by
  simp [State.cqDb, hfe]

theorem State.ringElsewhere_standby (h : s.dom.role = .standby) (off : Nat) (r : JRec) :
    s.ringElsewhere fn off r = s.newXfer s.dom.frontEnd .ctl [ctlPkt tyJournal (BitVec.ofNat 6 fn) (zeros 8 ++ r)] := by
  simp [State.ringElsewhere, h]

theorem State.ringElsewhere_dataPortal (h : s.dom.role = .dataPortal) (off : Nat) (r : JRec) :
    s.ringElsewhere fn off r = s.event evDataPortalDoorbell 0 fn fn off := by
  simp [State.ringElsewhere, h]

theorem State.ringElsewhere_other (h : s.dom.role = .member ∨ s.dom.role = .frontEnd) (off : Nat) (r : JRec) : s.ringElsewhere fn off r = s := by
  obtain h | h := h <;> simp [State.ringElsewhere, h]

theorem State.consumer_of_taken {c : Nat} {v : Word32} (h : (v - (s.cq c).h).toNat ≤ ((s.cq c).wr - (s.cq c).h).toNat) :
    s.consumer c v = ((s.updCq c (fun q => { q with h := v })).journal
      (indexRec ((s.cqInst c).getD 0) (c - (s.inst ((s.cqInst c).getD 0)).cqFirst) 1 v)).flushCq c :=
  if_pos h

end

/-- Settles O7: the write by who holds the ring, and at a ring held by the function by the case of the index. -/
theorem submissionDoorbell : Obligations.SubmissionDoorbell := by
  intro s fn ring n p hr
  rw [exec_sqDoorbell hr]
  refine ⟨fun hfe hnone => by rw [State.sqDb_none hfe hnone], fun hfe => ?_, fun hfe hn hoff => ?_, fun hfe hn hon => ?_⟩
  · rw [State.sqDb_away hfe]
    exact ⟨fun h => by rw [State.ringElsewhere_standby h], fun h => by rw [State.ringElsewhere_dataPortal h],
      fun h => by rw [State.ringElsewhere_other h]⟩
  · rw [← exec_sqDoorbell hr, exec_sqDoorbell_held hr hfe hn, State.producer_of_disabled hoff]
  · rw [← exec_sqDoorbell hr, exec_sqDoorbell_held hr hfe hn]
    exact ⟨fun h => by rw [State.producer_of_same hon h], fun h => by rw [State.producer_of_stale hon h],
      fun hne hahead h => by rw [State.producer_of_overrun hon hne hahead h], fun hne hahead h => by rw [State.producer_of_taken hon hne hahead h]⟩

/-- Settles O10. -/
theorem completionDoorbell : Obligations.CompletionDoorbell := by
  intro s fn ring c v hr
  rw [exec_cqDoorbell hr]
  refine ⟨fun hfe hnone => by rw [State.cqDb_none hfe hnone], fun hfe => by rw [State.cqDb_away hfe], fun hfe hc => ?_⟩
  rw [← exec_cqDoorbell hr, exec_cqDoorbell_held hr hfe hc]
  exact ⟨fun h => by rw [State.consumer_of_taken h], fun h => by rw [State.consumer_of_beyond h]⟩

/-! ## The shadow index (05 R252) -/

theorem exec_shadowPiPoll_reads {s : State} {n : Nat} (hr : s.ringReads n = true) (hp : (s.sq n).cfg.pollUs ≠ 0) :
    exec (.shadowPiPoll n) s = .next (s.pollRing n) :=
  congrArg Host.Outcome.next (if_pos (by simp only [hr, decide_eq_true_eq, ne_eq, hp, not_false_eq_true, Bool.true_and]))

theorem exec_shadowPiPoll_quiet {s : State} {n : Nat} (h : s.ringReads n = false ∨ (s.sq n).cfg.pollUs = 0) : exec (.shadowPiPoll n) s = .next s :=
  congrArg Host.Outcome.next (if_neg (by simpa using fun hr => (h.resolve_left (by simp [hr]))))

/-! ## Fetching accepted entries (05 R254, R255) -/

/-- Entries of one fetch: what is accepted and not asked for, in one read of at most eight that ends at the ring's end and at a 4 KiB boundary. -/
def State.fetchCount (s : State) (n : Nat) : Nat :=
  let q := s.sq n
  let ahead := q.asked + q.arrived.length
  let idx := q.fetch + BitVec.ofNat 32 ahead
  let slot := idx.toNat % q.n
  min (min (min 8 (max 1 ((s.fc (s.ringInst (.host n))).mrrsBytes / 64))) (min (q.k - idx).toNat (256 - (q.cache.length + ahead))))
    (min (q.n - slot) ((4096 - 64 * slot % 4096) / 64))

theorem exec_ringFetch (s : State) (n : Nat) : exec (.ringFetch n) s = .next (s.fetchRing n) := rfl

theorem State.fetchRing_quiet {s : State} {n : Nat} (h : s.ringReads n = false ∨ (s.sq n).halted = true) : s.fetchRing n = s := by
  obtain h | h := h <;> simp [State.fetchRing, h]

theorem State.fetchRing_of_none {s : State} {n : Nat} (h : s.fetchCount n = 0) : s.fetchRing n = s := by
  unfold State.fetchCount at h
  dsimp only at h
  unfold State.fetchRing
  dsimp only
  rw [h]
  simp

/-- Nothing is left to ask for where every accepted entry has been asked for. -/
theorem State.fetchCount_of_all {s : State} {n : Nat} (h : (s.sq n).k = (s.sq n).fetch + BitVec.ofNat 32 ((s.sq n).asked + (s.sq n).arrived.length)) :
    s.fetchCount n = 0 := by
  simp [State.fetchCount, ← h]

/-- The bounds of one fetch. -/
theorem State.fetchCount_bounds {s : State} {n ahead slot : Nat} {idx : BitVec 32} (ha : ahead = (s.sq n).asked + (s.sq n).arrived.length)
    (hi : idx = (s.sq n).fetch + BitVec.ofNat 32 ahead) (hs : slot = idx.toNat % (s.sq n).n) (hk : (s.sq n).k ≠ idx)
    (hroom : (s.sq n).cache.length + ahead < 256) :
    1 ≤ s.fetchCount n ∧ s.fetchCount n ≤ 8 ∧ s.fetchCount n ≤ ((s.sq n).k - idx).toNat ∧ slot + s.fetchCount n ≤ (s.sq n).n ∧
      64 * slot % 4096 + 64 * s.fetchCount n ≤ 4096 := by
  have hleft := toNat_sub_ne_zero hk
  have hslot : slot < (s.sq n).n := hs ▸ Nat.mod_lt _ (Nat.two_pow_pos _)
  have hc : s.fetchCount n = min (min (min 8 (max 1 ((s.fc (s.ringInst (.host n))).mrrsBytes / 64)))
      (min ((s.sq n).k - idx).toNat (256 - ((s.sq n).cache.length + ahead)))) (min ((s.sq n).n - slot) ((4096 - 64 * slot % 4096) / 64)) := by
    subst hs hi ha
    rfl
  generalize ((s.sq n).k - idx).toNat = left at hleft hc ⊢
  generalize (s.fc (s.ringInst (.host n))).mrrsBytes / 64 = mrrs at hc
  omega

theorem State.fetchRing_reads {s : State} {n : Nat} (hr : s.ringReads n = true) (hh : (s.sq n).halted = false) (hc : (s.cq (s.ringCq n)).size ≠ 0)
    (he : s.epochApplied (s.sq n).waitEpoch = true) (hcnt : s.fetchCount n ≠ 0) :
    ∀ idx dva, idx = (s.sq n).fetch + BitVec.ofNat 32 ((s.sq n).asked + (s.sq n).arrived.length) →
      dva = (s.sq n).cfg.base.toNat + 64 * (idx.toNat % (s.sq n).n) →
      s.fetchRing n = if s.ringOk (s.ringInst (.host n)) dva (64 * s.fetchCount n) false then
          (s.updSq n (fun q => { q with asked := q.asked + s.fetchCount n })).hostRead (s.ringInst (.host n)) (s.busAddr (s.ringInst (.host n)) dva)
            (64 * s.fetchCount n) false (.ring n idx (s.fetchCount n))
        else s.fetchFail n dva := by
  rintro idx dva rfl rfl
  have hgo : (!s.ringReads n || (s.sq n).halted || decide ((s.cq (s.ringCq n)).size = 0) || !s.epochApplied (s.sq n).waitEpoch ||
      decide (s.fetchCount n = 0)) = false := by simpa [hr, hh, he, hcnt] using hc
  exact if_neg (Bool.eq_false_iff.mp hgo)

/-- Settles O27: the count of one fetch and its bounds, and the read it makes. -/
theorem ringFetchReads : Obligations.RingFetchReads := by
  intro s n
  refine ⟨fun h => by rw [exec_ringFetch, State.fetchRing_quiet h], fun hall => ?_, fun hr hh hc he hk hroom => ⟨s.fetchCount n, ?_⟩⟩
  · rw [exec_ringFetch, State.fetchRing_of_none (State.fetchCount_of_all hall)]
  · obtain ⟨hpos, hmax, hacc, hend, hpage⟩ := State.fetchCount_bounds rfl rfl rfl hk hroom
    rw [exec_ringFetch, State.fetchRing_reads hr hh hc he (Nat.ne_of_gt hpos) _ _ rfl rfl]
    exact ⟨hpos, hmax, hacc, hend, hpage, fun hok => by rw [if_pos hok], fun hok => by rw [if_neg (Bool.eq_false_iff.mp hok)]⟩

end Sys2Proof.Machine

/-! SUPPORT and PROOFS. Enabling rings (05 R244 to R249, R272, 07 R389, R390, 16 R726). -/

namespace Sys2Proof.Machine

section
variable {s : State} {fn n : Nat} {z : BitVec 5}

theorem exec_ringEnable (hr : Reaches s fn) (k : RingKind) (ring : Nat) (z : BitVec 5) :
    exec (.ringEnable k fn ring z) s = .next (s.ringSize k fn ring z) :=
  congrArg Host.Outcome.next (State.hostWrite_reaches hr true _)

theorem State.ringSize_away (hfe : s.isFe = false) (k : RingKind) (ring : Nat) (z : BitVec 5) : s.ringSize k fn ring z = s := by
  cases k <;> simp [State.ringSize, hfe]

/-- On the active front end the write goes to the ring the function holds. -/
theorem State.ringSize_fe (hfe : s.isFe = true) (ring : Nat) (z : BitVec 5) :
    s.ringSize .sq fn ring z = (match s.sqRing fn ring with | some n => s.enableSq fn n z | none => s.fnError fn esBadAccess) ∧
    s.ringSize .cq fn ring z = (match s.cqRing fn ring with | some c => s.enableCq fn c z | none => s.fnError fn esBadAccess) ∧
    s.ringSize .dr fn ring z = (match s.drRing fn ring with | some n => s.enableDr fn n z | none => s.fnError fn esBadAccess) := by
  refine ⟨?_, ?_, ?_⟩ <;> simp only [State.ringSize, hfe, Bool.not_true, Bool.false_eq_true, if_false] <;> rfl

/-! ## On an enabled ring, or while one of the confidential instances is under construction -/

theorem State.enableSq_refused (h : (s.sq n).cfg.size ≠ 0 ∨ s.enableHeld fn = true) (z : BitVec 5) : s.enableSq fn n z = s.fnError fn esSetup :=
  if_pos (by simpa using h)

theorem State.enableCq_refused (h : (s.cq n).size ≠ 0 ∨ s.enableHeld fn = true) (z : BitVec 5) : s.enableCq fn n z = s.fnError fn esSetup :=
  if_pos (by simpa using h)

theorem State.enableDr_refused (hfe : s.isFe = true) (h : (s.dr n).size ≠ 0 ∨ s.enableHeld fn = true) (z : BitVec 5) :
    s.enableDr fn n z = s.fnError fn esSetup :=
  (if_pos (by simpa using h)).trans (if_pos hfe)

/-! ## A SIZE out of range -/

theorem State.enableSq_outside (hoff : (s.sq n).cfg.size = 0) (hheld : s.enableHeld fn = false) (hz : z < 4 ∨ 16 < z) : s.enableSq fn n z = s := by
  unfold State.enableSq
  dsimp only
  rw [if_neg (by simp [hoff, hheld])]
  split
  · rfl
  · exact if_pos (by simpa using hz)

theorem State.enableCq_outside (hoff : (s.cq n).size = 0) (hheld : s.enableHeld fn = false) (hz : z < 4 ∨ 16 < z) : s.enableCq fn n z = s := by
  unfold State.enableCq
  dsimp only
  rw [if_neg (by simp [hoff, hheld])]
  split
  · rfl
  · exact if_pos (by simpa using hz)

theorem State.enableDr_outside (hoff : (s.dr n).size = 0) (hheld : s.enableHeld fn = false)
    (hz : z < 4 ∨ 14 < z ∨ 32768 < s.drEntries + 2 ^ z.toNat) : s.enableDr fn n z = s := by
  unfold State.enableDr
  dsimp only
  rw [if_neg (by simp [hoff, hheld])]
  split
  · rfl
  · exact if_pos (by simpa [or_assoc] using hz)

/-! ## A SIZE in range on a disabled ring -/

theorem ne_zero_of_four_le (hz : ¬ z < 4) : z ≠ 0 := by
  rintro rfl
  exact hz (by decide)

theorem State.enableCq_enables (hoff : (s.cq n).size = 0) (hheld : s.enableHeld fn = false) (hlo : ¬ z < 4) (hhi : ¬ 16 < z) :
    ∀ t, t = s.updCq n (fun q => { q with size := z, wr := 0, h := 0, hApp := 0, reserved := 0, fresh := 0 }) →
      s.enableCq fn n z = t.journal (t.cqCfgRec n) := by
  rintro t rfl
  unfold State.enableCq
  dsimp only
  rw [if_neg (by simp [hoff, hheld]), if_neg (ne_zero_of_four_le hlo), if_neg (by simpa using And.intro hlo hhi)]

theorem State.enableDr_enables (hoff : (s.dr n).size = 0) (hheld : s.enableHeld fn = false) (hlo : ¬ z < 4) (hhi : ¬ 14 < z)
    (hroom : s.drEntries + 2 ^ z.toNat ≤ 32768) : s.enableDr fn n z = s.updDr n (fun d =>
      { Dr.reset with size := z, recBase := d.recBase, done := d.done, weight := d.weight, burst := d.burst, hangMs := d.hangMs }) := by
  unfold State.enableDr
  dsimp only
  rw [if_neg (by simp [hoff, hheld]), if_neg (ne_zero_of_four_le hlo), if_neg (by simpa using And.intro (And.intro hlo hhi) hroom)]

/-- The ring as it is enabled with configuration `cfg`: everything else afresh, but its counts. -/
def State.enabledSq (s : State) (fn n : Nat) (cfg : SqCfg) : State :=
  s.updSq n (fun q => { Sq.reset with
    cfg := cfg, e := cfg.tagBase.toNat, w := cfg.tagBase.toNat - 1, stale := q.stale, redeliv := q.redeliv,
    faults := q.faults, halted := (s.fn fn).halt != 0, waitEpoch := s.openEpoch })

/-- A ring with a class it may have keeps it, and its RESERVE where instances may reserve those stands. -/
theorem State.enableSq_enables (hoff : (s.sq n).cfg.size = 0) (hheld : s.enableHeld fn = false) (hlo : ¬ z < 4) (hhi : ¬ 16 < z)
    (hclass : (s.sq n).cfg.realTime = false ∨ (s.rtRings fn < (s.inst fn).rtMax ∧ s.rtHeld n (s.sq n).cfg.rtSlot = false)) :
    ∀ t, t = s.enabledSq fn n { (s.sq n).cfg with
        size := z, reserve := if s.reserveOk fn n (s.sq n).cfg.realTime (s.sq n).cfg.reserve then (s.sq n).cfg.reserve else 0 } →
      s.enableSq fn n z = (t.journal (t.sqCfgRec n)).tellReserve fn n := by
  rintro t rfl
  have hdown : ((s.sq n).cfg.realTime && (decide ((s.inst fn).rtMax ≤ s.rtRings fn) || s.rtHeld n (s.sq n).cfg.rtSlot)) = false := by
    obtain h | ⟨hmax, hslot⟩ := hclass
    · simp [h]
    · simp [hmax, hslot]
  unfold State.enableSq
  dsimp only
  rw [if_neg (by simp [hoff, hheld]), if_neg (ne_zero_of_four_le hlo), if_neg (by simpa using And.intro hlo hhi), hdown]
  rfl

/-- A real-time ring beyond RT_MAX, or whose RT_SLOT is held, is enabled as a WRR ring with BAD_ACCESS. -/
theorem State.enableSq_demotes (hoff : (s.sq n).cfg.size = 0) (hheld : s.enableHeld fn = false) (hlo : ¬ z < 4) (hhi : ¬ 16 < z)
    (hrt : (s.sq n).cfg.realTime = true) (hclass : (s.inst fn).rtMax ≤ s.rtRings fn ∨ s.rtHeld n (s.sq n).cfg.rtSlot = true) :
    ∀ t, t = s.enabledSq fn n { (s.sq n).cfg with realTime := false, rtSlot := 0, reserve := 0, size := z } →
      s.enableSq fn n z = ((t.journal (t.sqCfgRec n)).tellReserve fn n).fnError fn esBadAccess := by
  rintro t rfl
  have hdown : ((s.sq n).cfg.realTime && (decide ((s.inst fn).rtMax ≤ s.rtRings fn) || s.rtHeld n (s.sq n).cfg.rtSlot)) = true := by
    simpa [hrt] using hclass
  unfold State.enableSq
  dsimp only
  rw [if_neg (by simp [hoff, hheld]), if_neg (ne_zero_of_four_le hlo), if_neg (by simpa using And.intro hlo hhi), hdown]
  rfl

end

/-- Settles O12: a write of SIZE by kind of ring, by whether the ring is enabled, and by the size. -/
theorem ringEnabling : Obligations.RingEnabling := by
  intro s fn ring n z hr
  simp only [exec_ringEnable hr]
  refine ⟨fun k hfe => by rw [State.ringSize_away hfe], fun hfe => ?_⟩
  obtain ⟨hsq, hcq, hdr⟩ := State.ringSize_fe (fn := fn) hfe ring z
  rw [hsq, hcq, hdr]
  refine ⟨fun h => by rw [h], fun h => by rw [h], fun h => by rw [h], fun h hset => ?_, fun h hset => ?_, fun h hset => ?_,
    fun hheld hz => ⟨fun h hoff => ?_, fun h hoff => ?_⟩, fun hheld hz h hoff => ?_, fun hheld hlo hhi h hoff => ?_,
    fun hheld hlo hhi h hoff => ⟨fun hclass => ?_, fun hrt hclass => ?_⟩, fun hheld hlo hhi hroom h hoff => ?_⟩ <;> rw [h] <;> dsimp only
  · rw [State.enableSq_refused hset]
  · rw [State.enableCq_refused hset]
  · rw [State.enableDr_refused hfe hset]
  · rw [State.enableSq_outside hoff hheld hz]
  · rw [State.enableCq_outside hoff hheld hz]
  · rw [State.enableDr_outside hoff hheld hz]
  · rw [State.enableCq_enables hoff hheld hlo hhi _ rfl]
  · rw [State.enableSq_enables hoff hheld hlo hhi hclass _ rfl]
    rfl
  · rw [State.enableSq_demotes hoff hheld hlo hhi hrt hclass _ rfl]
    rfl
  · rw [State.enableDr_enables hoff hheld hlo hhi hroom]

end Sys2Proof.Machine

/-! SUPPORT and PROOFS. Registers of the INSTANCE window: clears and selects, host signals and fences, the object record (09, 13, 23). -/

namespace Sys2Proof.Machine

section
variable {s : State} {fn : Nat}

/-- A command that is one write of the window does, where it reaches the window, what the register does. -/
theorem next_hostWrite (hr : Reaches s fn) (f : State → State) :
    (.next (s.hostWrite fn true f) : Host.Outcome State Fault Refusal) = .next (f s) :=
  congrArg _ (State.hostWrite_reaches hr true f)

/-- A command that is one read of the window does, where the function answers, what the register does. -/
theorem next_hostLoad (hg : s.gate fn = .open_) (len : Nat) (f : State → State) :
    (.next (s.hostLoad fn len f) : Host.Outcome State Fault Refusal) = .next (f s) :=
  congrArg _ (State.hostLoad_open hg len f)

/-! ## Clears and selects (13 R571, R572, 23 R950, R957, R968, R969) -/

theorem exec_errorStatusClear (hr : Reaches s fn) (v : Word32) : exec (.errorStatusClear fn v) s = .next (s.errStatusClear fn v) := next_hostWrite hr _

theorem exec_objSelWrite (hr : Reaches s fn) (v : Word32) : exec (.objSelWrite fn v) s = .next (s.objSel fn v) := next_hostWrite hr _

theorem exec_dataCtlWrite (hr : Reaches s fn) (v : Word64) : exec (.dataCtlWrite fn v) s = .next (s.dataCtl fn v) := next_hostWrite hr _

theorem exec_instCauseClear (hr : Reaches s fn) {r : Nat} (h : r ≤ 4) (v firing : Word64) :
    exec (.instCauseClear fn r v firing) s = .next (s.causeClear fn r v firing) :=
  (next_hostWrite hr _).trans (congrArg _ (if_pos h))

/-- INST_ERR_STATUS keeps the bits of `keep`, which is DR_GUILTY while a device-resident ring is guilty. -/
theorem State.errStatusClear_keeps (fn : Nat) (v : Word32) (keep : BitVec 14) (hk : (if (s.drGuiltFirst fn).isSome then 0x400 else 0) = keep) :
    s.errStatusClear fn v = s.updFn fn (fun f => { f with
      err := f.err &&& ~~~((s.fn fn).err &&& v.setWidth 14 &&& ~~~keep),
      errCnt := (List.range 14).foldl (fun t b => if ((s.fn fn).err &&& v.setWidth 14 &&& ~~~keep).getLsbD b then Tbl.set 0 t b 0 else t) f.errCnt }) := by
  subst hk
  rfl

theorem State.causeClear_zero (v firing : Word64) :
    s.causeClear fn 0 v firing = s.updFn fn (fun f => { f with cause := f.cause &&& ~~~((v &&& ~~~firing).setWidth 7) }) := rfl

theorem State.causeClear_cq {r : Nat} (h : 1 ≤ r) (v firing : Word64) : s.causeClear fn r v firing =
    s.updFn fn (fun f => { f with cqCause := f.cqCause &&& ~~~(((v &&& ~~~firing).setWidth 256) <<< (64 * (r - 1))) }) :=
  if_neg (Nat.ne_of_gt h)

/-- INST_OBJ_SEL takes the index and `kind`: the KIND written, or on 3 the one that stands. -/
theorem State.objSel_takes (v : Word32) (kind : Nat) (hk : (if fld v.toNat 14 2 = 3 then fld (s.fn fn).objSel.toNat 14 2 else fld v.toNat 14 2) = kind) :
    s.objSel fn v = s.updFn fn (fun f => { f with objSel := BitVec.ofNat 16 (fld v.toNat 0 14 + 2 ^ 14 * kind), objLatch := [] }) := by
  subst hk
  rfl

end

/-- Settles O14: each register by what its write does. -/
theorem instanceRegisters : Obligations.InstanceRegisters := by
  intro s fn hr
  refine ⟨fun v h => ?_, fun v h => ?_, fun v firing => exec_instCauseClear hr (Nat.zero_le 4) v firing, fun r v firing hlo hhi => ?_,
    fun v h => ?_, fun v h => ?_, fun v h => ?_, fun v h => ?_⟩
  · rw [exec_errorStatusClear hr, State.errStatusClear_keeps fn v 0 (by simp [h])]
  · rw [exec_errorStatusClear hr, State.errStatusClear_keeps fn v 0x400 (by simp [h])]
  · rw [exec_instCauseClear hr hhi, State.causeClear_cq hlo]
  · rw [exec_objSelWrite hr, State.objSel_takes v _ (if_neg h)]
  · rw [exec_objSelWrite hr, State.objSel_takes v _ (if_pos h)]
  · rw [exec_dataCtlWrite hr, State.dataCtl, if_pos h]
  · rw [exec_dataCtlWrite hr, State.dataCtl, if_neg (Bool.eq_false_iff.mp h)]

section
variable {s : State} {fn : Nat}

/-! ## Host signals and INST_FENCE (09 R464, R466) -/

theorem exec_instSignal (hr : Reaches s fn) (v : Word64) : exec (.instSignal fn v) s = .next (s.instSignal fn v) := next_hostWrite hr _

theorem exec_instFence_quiet (hg : s.gate fn = .open_) (hq : s.fenceQuiet fn = true) :
    exec (.instFence fn) s = .next (s.emit (.completion fn (zeros 4))) :=
  (next_hostLoad hg 4 _).trans (congrArg _ (if_pos hq))

theorem exec_instFence_waits (hg : s.gate fn = .open_) (hq : s.fenceQuiet fn = false) :
    exec (.instFence fn) s = .next { s with pcie := { s.pcie with fences := s.pcie.fences ++ [fn] } } :=
  (next_hostLoad hg 4 _).trans (congrArg _ (if_neg (Bool.eq_false_iff.mp hq)))

theorem exec_instFenceDone_ends (hf : s.pcie.fences.contains fn = true) (hq : s.fenceQuiet fn = true) : exec (.instFenceDone fn) s =
    .next (({ s with pcie := { s.pcie with fences := s.pcie.fences.erase fn } }).emit (.completion fn (zeros 4))) :=
  congrArg Host.Outcome.next (if_pos (by rw [hf, hq]; rfl))

theorem exec_instFenceDone_waits (hq : s.fenceQuiet fn = false) : exec (.instFenceDone fn) s = .next s :=
  congrArg Host.Outcome.next (if_neg (by rw [hq, Bool.and_false]; exact Bool.false_ne_true))

end

/-- Settles O15: a signal is judged and posted, and a fence looks at what is under way. -/
theorem hostSignals : Obligations.HostSignals := by
  intro s fn
  refine ⟨fun hr v => ⟨fun h => ?_, fun h => ?_⟩, fun hg => ⟨exec_instFence_quiet hg, exec_instFence_waits hg⟩, exec_instFenceDone_ends, exec_instFenceDone_waits⟩
  · rw [exec_instSignal hr, State.instSignal, if_neg (Bool.eq_false_iff.mp h)]
  · rw [exec_instSignal hr, State.instSignal, if_pos h]
    rfl

section
variable {s : State} {fn : Nat}

/-! ## The object record (09 R464, 23 R968 to R970) -/

/-- An aligned read inside the window waits, or is served. -/
theorem State.instLoad_open (hg : s.gate fn = .open_) {o width : Nat} (ha : naturally o width = true) (ho : o < 0x10000) :
    s.instLoad fn o width = if s.readHeld fn o then { s with pcie := { s.pcie with heldReads := s.pcie.heldReads ++ [(fn, o, width == 8)] } }
      else s.serveRead fn o (width == 8) := by
  rw [State.instLoad, State.hostLoad_open hg]
  exact if_neg (by simp [ha, ho])

theorem State.readHeld_of_ne {o : Nat} (h : o ≠ 0x48) : s.readHeld fn o = s.pcie.posted.any (fun e => e.1 == fn) := if_neg h

theorem State.serveRead_objRecord : s.serveRead fn 0xC08 true = (s.sampleObj fn).emit (.completion fn (((s.sampleObj fn).fn fn).objLatch.take 8)) := rfl

/-- The sample of object `idx` of kind `kind`: zero unless the object exists and the access check passes. -/
theorem State.sampleObj_unseen {kind idx : Nat} (hk : kind = fld (s.fn fn).objSel.toNat 14 2) (hi : idx = fld (s.fn fn).objSel.toNat 0 14)
    (h : objCount kind ≤ idx ∨ s.observe.permitted kind idx fn = false) :
    s.sampleObj fn = s.observe.updFn fn (fun f => { f with objLatch := zeros 32 }) := by
  subst hk hi
  have hseen : (decide (fld (s.fn fn).objSel.toNat 0 14 < objCount (fld (s.fn fn).objSel.toNat 14 2)) &&
      s.observe.permitted (fld (s.fn fn).objSel.toNat 14 2) (fld (s.fn fn).objSel.toNat 0 14) fn) = false := by
    simpa [Classical.or_iff_not_imp_left] using h
  simp only [State.sampleObj, hseen, Bool.false_eq_true, if_false]

theorem State.sampleObj_seen {kind idx : Nat} (hk : kind = fld (s.fn fn).objSel.toNat 14 2) (hi : idx = fld (s.fn fn).objSel.toNat 0 14)
    (hlt : idx < objCount kind) (hp : s.observe.permitted kind idx fn = true) :
    s.sampleObj fn = (s.observe.touchObj kind idx).updFn fn (fun f => { f with objLatch := (s.observe.touchObj kind idx).objRecord kind idx }) := by
  subst hk hi
  simp only [State.sampleObj, hlt, hp, decide_true, Bool.and_self, if_true]

end

/-- Settles O16: the read waits behind the function's signals, and else samples the object. -/
theorem objectRecordRead : Obligations.ObjectRecordRead := by
  intro s fn kind idx hk hi
  refine ⟨fun hg => ?_, fun h => State.sampleObj_unseen hk hi (.inl h), fun h => State.sampleObj_unseen hk hi (.inr h), State.sampleObj_seen hk hi,
    rfl, rfl, rfl⟩
  have hread : exec (.objRecordRead fn) s = .next (s.instLoad fn 0xC08 8) := rfl
  rw [hread, State.instLoad_open hg (by decide) (by decide), State.readHeld_of_ne (by decide)]
  exact ⟨fun h => by rw [h]; rfl, fun h => by rw [h]; rfl⟩

end Sys2Proof.Machine

/-! SUPPORT and PROOFS. Packets by type: what receives and takes them (02, 08, 14, 15). -/

namespace Sys2Proof.Machine

section
variable {s : State} {p : Packet}

theorem State.receive_mine (hm : s.mine p = true) (take : Taker) {ok : Bool} (hok : ok = true) :
    s.receive take p ok = (s.deliver take p).afterAnswer :=
  if_pos (by rw [hm, hok]; rfl)

theorem State.receive_foreign (hm : s.mine p = false) (take : Taker) (ok : Bool) : s.receive take p ok = s :=
  if_neg (by rw [hm, Bool.false_and]; exact Bool.false_ne_true)

/-- A MGMT packet that says a management message is taken as its message says. -/
theorem takeWith_ctl {via : Option Nat} {found : List (Nat × List (List Byte))} {m : CtlMsg} (s : State) (hm : p.msg = some m) (ht : m.type = p.type)
    (hctl : p.type = tyEpoch ∨ p.type = tyFence ∨ p.type = tyMgmt) : takeWith via found s p = (.done 0, s.takeCtl p.src m) := by
  have hne : p.type ≠ tyWrite ∧ p.type ≠ tyReadReq ∧ p.type ≠ tyLaunch ∧ p.type ≠ tyHeartbeat ∧ p.type ≠ tyJournal ∧ p.type ≠ tyInstCtl := by
    obtain h | h | h := hctl <;> rw [h] <;> decide
  obtain ⟨hwrite, hread, hlaunch, hbeat, hjournal, hinst⟩ := hne
  have hpick : (p.type = tyEpoch || p.type = tyFence || p.type = tyMgmt) = true := by simpa [or_assoc] using hctl
  unfold takeWith
  simp only [hwrite, hread, hlaunch, hbeat, hjournal, hinst, if_false]
  rw [if_pos hpick, hm]
  dsimp only
  rw [if_pos ht]

end

end Sys2Proof.Machine

/-! SUPPORT and PROOFS. Device-resident rings through INST_DR_SEL (23 R971, R972, Table 23-6). -/

namespace Sys2Proof.Machine

section
variable {s : State} {fn off : Nat} {wide : Bool} {sel : Word32}

/-- The bytes of an access. -/
def accessWidth (wide : Bool) : Nat := if wide then 8 else 4

theorem exec_drRegisterAccess_write (hr : Reaches s fn) (off : Nat) (wide : Bool) (v : Word64) :
    exec (.drRegisterAccess fn off wide (some v)) s = .next (if !naturally off (accessWidth wide) then s.fnError fn esBadAccess
      else if s.isFe then s.drAccess fn off wide (some v) else s) := next_hostWrite hr _

/-- A read of a register of Table 23-6. -/
theorem exec_drRegisterAccess_read (hg : s.gate fn = .open_) (ha : naturally off (accessWidth wide) = true) (hn : drNamed off = true)
    (hq : s.pcie.posted.any (fun e => e.1 == fn) = false) : exec (.drRegisterAccess fn off wide none) s =
      .next (if s.isFe then s.drAccess fn off wide none else s.emit (.completion fn (zeros (accessWidth wide)))) := by
  have hin : off < 0x10000 ∧ off ≠ 0x48 := by
    simp only [drNamed, List.contains_eq_mem, List.mem_cons, List.not_mem_nil, or_false, Bool.or_eq_true, decide_eq_true_eq] at hn
    omega
  have hload : exec (.drRegisterAccess fn off wide none) s = .next (if drNamed off then s.instLoad fn off (accessWidth wide)
    else s.hostLoad fn (accessWidth wide) (fun s => s.badRead fn (accessWidth wide))) := rfl
  have hwide : (accessWidth wide == 8) = wide := by cases wide <;> rfl
  rw [hload, if_pos hn, State.instLoad_open hg ha hin.1, State.readHeld_of_ne hin.2, hq, hwide, State.serveRead, if_pos hn]
  rfl

/-- A read of an offset the table has not. -/
theorem exec_drRegisterAccess_unnamed (hg : s.gate fn = .open_) (hn : drNamed off = false) :
    exec (.drRegisterAccess fn off wide none) s =
      .next ((s.fnError fn esBadAccess).emit (.completion fn (List.replicate (accessWidth wide) 0xFF))) := by
  have hload : exec (.drRegisterAccess fn off wide none) s = .next (if drNamed off then s.instLoad fn off (accessWidth wide)
    else s.hostLoad fn (accessWidth wide) (fun s => s.badRead fn (accessWidth wide))) := rfl
  rw [hload, if_neg (Bool.eq_false_iff.mp hn), State.hostLoad_open hg]
  rfl

theorem exec_drRegisterAccess_misaligned (hg : s.gate fn = .open_) (ha : naturally off (accessWidth wide) = false) :
    exec (.drRegisterAccess fn off wide none) s =
      .next ((s.fnError fn esBadAccess).emit (.completion fn (List.replicate (accessWidth wide) 0xFF))) := by
  cases hn : drNamed off with
  | false => exact exec_drRegisterAccess_unnamed hg hn
  | true =>
    have hload : exec (.drRegisterAccess fn off wide none) s = .next (if drNamed off then s.instLoad fn off (accessWidth wide)
      else s.hostLoad fn (accessWidth wide) (fun s => s.badRead fn (accessWidth wide))) := rfl
    rw [hload, if_pos hn, State.instLoad, State.hostLoad_open hg, if_pos (by simp [ha])]
    rfl

/-! ## What the register does -/

theorem State.drAccess_refused (hs : sel = (s.fn fn).drSel) (write : Option Word64)
    (h : s.memberList.contains (drChip sel) = false ∨ fld (Tbl.get 0 (s.cfgAt (drChip sel)).drRings fn).toNat 8 8 ≤ drIndex sel ∨ drNamed off = false) :
    s.drAccess fn off wide write = s.drRefused fn wide write.isNone := by
  subst hs
  refine if_pos ?_
  obtain h | h | h := h
  · rw [h]; rfl
  · rw [decide_eq_true h, Bool.or_true]; rfl
  · rw [h, Bool.not_false, Bool.or_true]

/-- What an access to the ring of this chip that SEL names does at once. -/
def State.drHere (s : State) (fn off : Nat) (wide : Bool) (sel : Word32) : Option Word64 → State
  | some v => s.drPut fn (s.drFirst fn + drIndex sel) off wide v
  | none => s.emit (.completion fn (toLe (accessWidth wide) (s.drPeek fn (s.drFirst fn + drIndex sel) (drSlot sel) off wide)))

/-- An access to a ring on the chip that SEL names; a wide write takes two registers of the table. -/
theorem State.drAccess_taken (hs : sel = (s.fn fn).drSel) (write : Option Word64) (hi : drIndex sel < fld (Tbl.get 0 (s.cfgAt (drChip sel)).drRings fn).toNat 8 8)
    (hc : s.memberList.contains (drChip sel) = true) (hn : drNamed off = true) (hpair : (wide && write.isSome && !drNamed (off + 4)) = false) :
    s.drAccess fn off wide write = if drChip sel = s.dom.chipId then s.drHere fn off wide sel write
      else (s.updFn fn (fun f => { f with drAccess := f.drAccess ++ [(off, wide, write.isSome)] })).ctl (drChip sel)
        (.ring (BitVec.ofNat 6 fn) sel (BitVec.ofNat 16 off) wide write) := by
  subst hs
  unfold State.drAccess
  dsimp only
  rw [if_neg (by rw [hc, hn, decide_eq_false (Nat.not_le.mpr hi)]; exact Bool.false_ne_true)]
  simp only [hpair, Bool.false_eq_true, if_false]
  cases write <;> rfl

/-! ## Replies -/

/-- A reply takes the oldest access off the list. -/
theorem State.drReplied_cons {o : Nat} {w isWrite : Bool} {t : List (Nat × Bool × Bool)} (h : (s.fn fn).drAccess = (o, w, isWrite) :: t) (reply : Option Word64) :
    s.drReplied fn reply = match reply with
      | some v => if isWrite then s.updFn fn (fun f => { f with drAccess := t })
          else (s.updFn fn (fun f => { f with drAccess := t })).emit (.completion fn (toLe (accessWidth w) v.toNat))
      | none => (s.updFn fn (fun f => { f with drAccess := t })).drRefused fn w (!isWrite) := by
  unfold State.drReplied
  rw [h]
  rfl

theorem State.drReplied_nil (h : (s.fn fn).drAccess = []) (reply : Option Word64) : s.drReplied fn reply = s := by
  unfold State.drReplied
  rw [h]

theorem exec_drAccessReply_packet {p : Packet} {i : BitVec 6} {v : Word64} (hm : s.mine p = true) (ht : p.type = tyMgmt)
    (hp : p.msg = some (.ringAnswer i v)) (hi : i.toNat = fn) : exec (.drAccessReply fn (some p)) s = .next ((s.deliver takeAny p).afterAnswer) := by
  have hsays : p.says (fun m => match m with | .ringAnswer i _ => i.toNat == fn | _ => false) = true := by
    unfold Packet.says
    rw [hp, ht]
    simp [CtlMsg.type, hi]
  exact congrArg Host.Outcome.next (State.receive_mine hm takeAny hsays)

end

/-- Settles O17: the access by where its ring is, and the reply by what waits for it. -/
theorem deviceRingAccess : Obligations.DeviceRingAccess := by
  intro s fn off wide
  refine ⟨fun ha => ⟨fun sel v hr hfe hs => ⟨fun hi hc hn hpair => ?_, fun hbad => ?_⟩, fun sel hg hfe hs hq => ⟨fun hi hc hn => ?_, fun hbad => ?_⟩,
      fun hfe hn hq => ⟨fun hg => ?_, fun hr v => ?_⟩⟩,
    fun ha => ⟨fun hr v => ?_, fun hg => exec_drRegisterAccess_misaligned hg ha⟩,
    fun o w t v h => ?_, fun o w t v h => ?_, fun o w t h => ?_, fun o w t h => ?_, fun h => ⟨?_, fun v => State.drReplied_nil h _⟩,
    fun p i v hm ht hp hi => ⟨exec_drAccessReply_packet hm ht hp hi, ?_⟩⟩
  · have htwo : (wide && (some v).isSome && !drNamed (off + 4)) = false := by obtain h | h := hpair <;> simp [h]
    rw [exec_drRegisterAccess_write hr, accessWidth, ha, hfe]
    simp only [Bool.not_true, Bool.false_eq_true, if_false, if_true, State.drAccess_taken hs (some v) hi hc hn htwo]
    exact ⟨fun h => by rw [if_pos h]; rfl, fun h => by rw [if_neg h]; rfl⟩
  · rw [exec_drRegisterAccess_write hr, accessWidth, ha, hfe, State.drAccess_refused hs _ hbad]
    rfl
  · rw [exec_drRegisterAccess_read hg ha hn hq, hfe, if_pos rfl, State.drAccess_taken hs none hi hc hn (by simp)]
    exact ⟨fun h => by rw [if_pos h]; rfl, fun h => by rw [if_neg h]; rfl⟩
  · cases hn : drNamed off with
    | false => exact exec_drRegisterAccess_unnamed hg hn
    | true =>
      rw [exec_drRegisterAccess_read hg ha hn hq, hfe, if_pos rfl, State.drAccess_refused hs _ hbad]
      rfl
  · rw [exec_drRegisterAccess_read hg ha hn hq, hfe]
    rfl
  · rw [exec_drRegisterAccess_write hr, accessWidth, ha, hfe]
    rfl
  · rw [exec_drRegisterAccess_write hr, accessWidth, ha]
    rfl
  · rw [State.drReplied_cons h]
    rfl
  · rw [State.drReplied_cons h]
    rfl
  · change Host.Outcome.next (s.drReplied fn none) = _
    rw [State.drReplied_cons h]
    rfl
  · change Host.Outcome.next (s.drReplied fn none) = _
    rw [State.drReplied_cons h]
    rfl
  · change Host.Outcome.next (s.drReplied fn none) = _
    rw [State.drReplied_nil h]
  · subst hi
    exact takeWith_ctl s hp ht.symm (.inr (.inr ht))

end Sys2Proof.Machine

/-! SUPPORT and PROOFS. The DATA window, acknowledgement of guilt, vectors and coalescing (03, 04, 05, 13, 23). -/

namespace Sys2Proof.Machine

section
variable {s : State} {fn off : Nat}

/-! ## The DATA window (03 R190, 23 R955 to R957) -/

theorem exec_dataWindowWrite (hd : s.hasData = true) (ho : off < 0x10000000) (hr : Reaches s fn) (bs : List (Option Byte)) :
    exec (.dataWindowWrite fn off bs) s = .next (s.dataWrite fn off bs) := by
  have hopen : (s.hasData && decide (off < 0x10000000)) = true := by rw [hd, decide_eq_true ho]; rfl
  exact congrArg Host.Outcome.next ((if_pos hopen).trans (State.hostWrite_reaches hr false _))

theorem exec_dataWindowRead (hd : s.hasData = true) (ho : off < 0x10000000) (hg : s.gate fn = .open_) (len : Nat) :
    exec (.dataWindowRead fn off len) s = .next (s.dataRead fn off len) := by
  have hopen : (s.hasData && decide (off < 0x10000000)) = true := by rw [hd, decide_eq_true ho]; rfl
  exact congrArg Host.Outcome.next ((if_pos hopen).trans (State.hostLoad_open hg len _))

/-- Beyond the window, or on a chip without one, nothing answers. -/
theorem exec_dataWindow_beyond (h : s.hasData = false ∨ 0x10000000 ≤ off) (hup : s.pcie.up = true) (bs : List (Option Byte)) (len : Nat) :
    exec (.dataWindowWrite fn off bs) s = .next (s.refuseUr fn false) ∧ exec (.dataWindowRead fn off len) s = .next (s.refuseUr fn true) := by
  have hshut : ¬ (s.hasData && decide (off < 0x10000000)) = true := by
    obtain h | h := h
    · simp [h]
    · simp [Nat.not_lt.mpr h]
  exact ⟨congrArg Host.Outcome.next ((if_neg hshut).trans (if_pos hup)), congrArg Host.Outcome.next ((if_neg hshut).trans (if_pos hup))⟩

end

/-- Settles O18: the access by the window's state and by what its range reaches. -/
theorem dataWindow : Obligations.DataWindow := by
  rintro s fn off len dva bs rfl
  refine ⟨fun hd ho hheld => ⟨fun hr => ?_, fun hg => ?_⟩, fun hd ho hheld => ⟨fun hr => ?_, fun hg => ?_⟩, fun h hup => exec_dataWindow_beyond h hup bs len⟩
  · rw [exec_dataWindowWrite hd ho hr, State.dataWrite, if_neg (Bool.eq_false_iff.mp hheld)]
    exact ⟨fun t h => by rw [h], fun ps t h => by rw [h]⟩
  · rw [exec_dataWindowRead hd ho hg, State.dataRead, if_neg (Bool.eq_false_iff.mp hheld)]
    exact ⟨fun t h => by rw [h], fun ps t h => by rw [h]⟩
  · rw [exec_dataWindowWrite hd ho hr, State.dataWrite, if_pos hheld, State.dataAbort]
  · rw [exec_dataWindowRead hd ho hg, State.dataRead, if_pos hheld, State.dataAbortRead]

section
variable {s : State} {fn : Nat}

/-! ## INST_GUILTY_ACK (13, 14, 23) -/

theorem exec_guiltyAck (hr : Reaches s fn) (hfe : s.isFe = true) (v : Word64) : exec (.guiltyAck fn v) s = .next (s.guiltyWrite fn v) :=
  (next_hostWrite hr _).trans (congrArg _ (if_pos hfe))

theorem State.instError_fe (hfe : s.isFe = true) (b : Nat) : s.instError fn b = s.fnError fn b := if_pos hfe

theorem State.ackRing_innocent (hfe : s.isFe = true) {r : RingRef} (hg : s.guilt r = none) (slot : Nat) : s.ackRing fn r slot = s.fnError fn esAckBad := by
  rw [State.ackRing, hg]
  exact State.instError_fe hfe _

/-- A guilt whose record is not written, or lies in another slot, is not acknowledged. -/
theorem State.ackRing_refused (hfe : s.isFe = true) {r : RingRef} {g : Guilt} {slot : Nat} (hg : s.guilt r = some g)
    (h : g.written = false ∨ g.slot.getD 0xFFFFFFFF ≠ slot) : s.ackRing fn r slot = s.fnError fn esAckBad := by
  have hno : ¬ (g.written && decide (g.slot.getD 0xFFFFFFFF = slot)) = true := by
    obtain h | h := h
    · simp [h]
    · rw [decide_eq_false h, Bool.and_false]
      exact Bool.false_ne_true
  rw [State.ackRing, hg]
  exact (if_neg hno).trans (State.instError_fe hfe _)

theorem State.ackRing_ends (hfe : s.isFe = true) {r : RingRef} {g : Guilt} {k : Nat} (hg : s.guilt r = some g) (hw : g.written = true) (hk : g.slot = some k) :
    s.ackRing fn r k = ((s.updFn fn (fun f => { f with caps := Tbl.set none f.caps k none })).setGuilt r none).journal
      (jrec 0x07 fn (s.ringLocal r) (toLe 4 k ++ zeros 4)) := by
  have hhere : ¬ (isDr r && !s.isFe) = true := by simp [hfe]
  rw [State.ackRing, hg]
  dsimp only
  rw [hk, hw, if_pos (by simp), if_neg hhere]

theorem State.guiltyWrite_host {v : Word64} (h : v.getLsbD 8 = false) : s.guiltyWrite fn v =
    match s.sqRing fn (fld v.toNat 0 8) with
    | some n => s.ackRing fn (.host n) (fld v.toNat 32 32)
    | none => s.fnError fn esAckBad := by
  rw [State.guiltyWrite, h]
  rfl

theorem State.guiltyWrite_device {v : Word64} (h : v.getLsbD 8 = true) (hc : BitVec.ofNat 16 (fld v.toNat 16 16) = s.dom.chipId) : s.guiltyWrite fn v =
    match s.drRing fn (fld v.toNat 0 8) with
    | some n => s.ackRing fn (.dr n) (fld v.toNat 32 32)
    | none => s.instError fn esAckBad := by
  rw [State.guiltyWrite, h]
  exact if_pos hc

theorem State.guiltyWrite_member {v : Word64} (h : v.getLsbD 8 = true) (hc : BitVec.ofNat 16 (fld v.toNat 16 16) ≠ s.dom.chipId)
    (hm : s.dom.members.contains (BitVec.ofNat 16 (fld v.toNat 16 16)) = true) : s.guiltyWrite fn v =
    s.ctl (BitVec.ofNat 16 (fld v.toNat 16 16)) (.ring (BitVec.ofNat 6 fn)
      (BitVec.ofNat 32 ((BitVec.ofNat 16 (fld v.toNat 16 16) : BitVec 16).toNat + 2 ^ 16 * fld v.toNat 0 8)) 0x0060 true (some v)) := by
  rw [State.guiltyWrite, h]
  exact (if_neg hc).trans (if_pos hm)

end

/-- Settles O19: the acknowledgement by the chip whose ring it names and by that ring's guilt. -/
theorem guiltyAcknowledgement : Obligations.GuiltyAcknowledgement := by
  intro s fn n v hr hfe
  rw [exec_guiltyAck hr hfe]
  refine ⟨fun h hn => ?_, fun h hn => ?_, fun h hc hm => ?_, fun h hc hn => ?_⟩
  · rw [State.guiltyWrite_host h, hn]
    refine ⟨?_, fun g hg hw => ?_, fun g hg hk => ?_, fun hg => ?_⟩
    · rintro g k hg hw hk rfl
      exact congrArg _ (State.ackRing_ends hfe hg hw hk)
    · exact congrArg _ (State.ackRing_refused hfe hg (.inl hw))
    · exact congrArg _ (State.ackRing_refused hfe hg (.inr hk))
    · exact congrArg _ (State.ackRing_innocent (r := .host n) hfe hg _)
  · rw [State.guiltyWrite_host h, hn]
  · rw [State.guiltyWrite_member h hc hm]
  · rw [State.guiltyWrite_device h hc, hn]
    refine ⟨?_, fun hg => ?_⟩
    · rintro g k hg hw hk rfl
      exact congrArg _ (State.ackRing_ends hfe hg hw hk)
    · exact (congrArg _ (State.ackRing_innocent (r := .dr n) hfe hg _)).trans (congrArg _ (State.instError_fe hfe _).symm)

section
variable {s : State} {fn : Nat}

/-! ## Vectors and the coalescing timer (04 R225 to R229, 05 R284) -/

theorem exec_msixUnmask_vector (hr : Reaches s fn) (v : Nat) : exec (.msixUnmask fn (some v)) s = .next (s.vecPut fn v 12 0) := next_hostWrite hr _

theorem State.vecPut_absent {v : Nat} (h : (s.fc fn).vecs.toNat ≤ v) (q : Nat) (x : Word32) : s.vecPut fn v q x = s := if_pos h

theorem State.vecPut_mask {v : Nat} (h : v < (s.fc fn).vecs.toNat) (x : Word32) :
    s.vecPut fn v 12 x = (s.updVec fn v (fun e => { e with mask := x.getLsbD 0 })).unmask fn v :=
  if_neg (Nat.not_le.mpr h)

theorem State.unmask_sends {v : Nat} (hp : (s.vec fn v).pending = true) (hm : (s.vec fn v).mask = false) (hf : (s.fc fn).fnMask = false)
    (he : (s.fc fn).msixEn = true) : s.unmask fn v = (s.updVec fn v (fun e => { e with pending := false })).message fn v :=
  if_pos (by simp [hp, hm, hf, he])

theorem exec_msixUnmask_function (hh : s.fnHere fn = true) (hf : (s.fc fn).flr = false) (hs : s.safest.inSafe = false) :
    exec (.msixUnmask fn none) s =
      .next ((List.range (s.fc fn).vecs.toNat).foldl (fun s v => s.unmask fn v) (s.updFc fn (fun f => { f with fnMask := false }))) :=
  congrArg Host.Outcome.next (if_pos (by rw [hh, hf, hs]; rfl))

/-- The condition under which the expiry of COAL_TIME fires the ring's vector. -/
def State.coalDue (s : State) (c : Nat) : Bool :=
  (s.cq c).size ≠ 0 && (s.cq c).coalTime ≠ 0 && (s.cq c).fresh ≠ 0 && !(s.paired && !s.pair.lease)

theorem exec_coalTimerExpiry (s : State) (c : Nat) : exec (.coalTimerExpiry c) s = .next (if s.coalDue c then s.cqFire c else s) := rfl

theorem State.coalDue_of_fresh {c : Nat} (hz : (s.cq c).size ≠ 0) (ht : (s.cq c).coalTime ≠ 0) (hf : (s.cq c).fresh ≠ 0)
    (hl : (s.paired && !s.pair.lease) = false) : s.coalDue c = true := by
  rw [State.coalDue, decide_eq_true hz, decide_eq_true ht, decide_eq_true hf, hl]
  rfl

theorem State.coalDue_of_none {c : Nat} (h : (s.cq c).coalTime = 0 ∨ (s.cq c).fresh = 0) : s.coalDue c = false := by
  obtain h | h := h <;> simp [State.coalDue, h]

end

/-- Settles O20: a mask lifted vector by vector, and the timer where records are unannounced. -/
theorem vectorsAndCoalescing : Obligations.VectorsAndCoalescing := by
  intro s fn
  refine ⟨fun hr v => ⟨fun h => ?_, fun h => ?_⟩, exec_msixUnmask_function, fun v => State.unmask_sends, fun c i hz ht hf hl hi => ?_, fun c h => ?_⟩
  · rw [exec_msixUnmask_vector hr, State.vecPut_mask h]
    rfl
  · rw [exec_msixUnmask_vector hr, State.vecPut_absent h]
  · rw [exec_coalTimerExpiry, State.coalDue_of_fresh hz ht hf hl, if_pos rfl, State.cqFire, hi]
  · rw [exec_coalTimerExpiry, State.coalDue_of_none h]
    rfl

end Sys2Proof.Machine

/-! SUPPORT and PROOFS. Register accesses of both windows, block errors, and the mailboxes (04, 15, 19, 22, 23). -/

namespace Sys2Proof.Machine

section
variable {s : State} {fn off width : Nat} {v : Word64}

/-! ## The MGMT window (19 R849, 20 R874) -/

/-- The manager's write where function 0 answers. -/
theorem State.mgmtHostWrite_open (hg : s.gate 0 = .open_) : s.mgmtHostWrite off width v = if !naturally off width then s.fnError 0 esBadAccess
    else if s.boot.state = .ready || s.boot.state = .hibernate || s.earlyOk off then s.managerWrite off (width == 8) v else s := by
  rw [State.mgmtHostWrite, hg]

theorem exec_mgmtWrite_aligned (hg : s.gate 0 = .open_) (ha : naturally off width = true) (hs : s.boot.state = .ready ∨ s.boot.state = .hibernate) :
    exec (.registerWrite .mgmt 0 off width (some v)) s = .next (s.managerWrite off (width == 8) v) := by
  change Host.Outcome.next (s.mgmtHostWrite off width v) = _
  rw [State.mgmtHostWrite_open hg, ha]
  obtain h | h := hs <;> simp [h]

theorem exec_mgmtWrite_misaligned (hg : s.gate 0 = .open_) (ha : naturally off width = false) :
    exec (.registerWrite .mgmt 0 off width (some v)) s = .next (s.fnError 0 esBadAccess) := by
  change Host.Outcome.next (s.mgmtHostWrite off width v) = _
  rw [State.mgmtHostWrite_open hg, ha]
  rfl

theorem exec_mgmtWrite_early (hg : s.gate 0 = .open_) (ha : naturally off width = true) (hr : s.boot.state ≠ .ready) (hh : s.boot.state ≠ .hibernate)
    (he : s.earlyOk off = false) : exec (.registerWrite .mgmt 0 off width (some v)) s = .next s := by
  change Host.Outcome.next (s.mgmtHostWrite off width v) = _
  rw [State.mgmtHostWrite_open hg, ha, he, decide_eq_false hr, decide_eq_false hh]
  rfl

/-- The MGMT window is function 0's. -/
theorem exec_mgmt_otherFunction (hfn : fn ≠ 0) (w : Option Word64) : exec (.registerWrite .mgmt fn off width w) s = .next s := by
  cases w <;> exact congrArg Host.Outcome.next (if_neg hfn)

theorem exec_mgmtRead (hg : s.gate 0 = .open_) : exec (.registerWrite .mgmt 0 off width none) s =
    .next (if !naturally off width then s.badRead 0 width
      else (s.mgmtRead off (width == 8)).2.emit (.completion 0 (toLe width (s.mgmtRead off (width == 8)).1))) := by
  change Host.Outcome.next (s.mgmtLoad off width) = _
  rw [State.mgmtLoad, State.hostLoad_open hg]

/-! ## The INSTANCE window -/

theorem exec_instWrite (hr : Reaches s fn) : exec (.registerWrite .instance_ fn off width (some v)) s =
    .next (if naturally off width && off < 0x10000 then s.instPut fn off (width == 8) v else s.fnError fn esBadAccess) := next_hostWrite hr _

theorem exec_instRead_misaligned (hg : s.gate fn = .open_) (ha : naturally off width = false) :
    exec (.registerWrite .instance_ fn off width none) s = .next ((s.fnError fn esBadAccess).emit (.completion fn (List.replicate width 0xFF))) :=
  (next_hostLoad hg width _).trans (congrArg _ (if_pos (by simp [ha])))

/-! ## The debugger and the block errors (16, 22 R912) -/

/-- While debug is locked an access outside the block of the debug registers does nothing. -/
theorem exec_debug_locked (hl : s.sec.debug = .locked) (ho : off < regBase + 0x100000 * blkDbg) (w : Option Word64) :
    exec (.registerWrite .debug fn off width w) s = .next s := by
  have hshut : s.debugOpen off = false := by
    rw [State.debugOpen, hl, decide_eq_false (fun h => Nat.not_lt.mpr h.1 ho)]
    rfl
  exact congrArg Host.Outcome.next (if_pos (by rw [hshut]; rfl))

theorem exec_blockErrClear {b : Nat} (hm : s.mgmtTakes = true) (hb : b < 14) (hfab : ¬(b = blkFab ∧ s.fuses.grade = .S)) (c : Word32) :
    exec (.blockErrClear b c) s = .next (s.errClear b c) := by
  refine congrArg Host.Outcome.next (if_pos ?_)
  simpa [hm, hb, imp_iff_not_or] using hfab

end

/-- Settles O21: the access by its window, its alignment and the state of the chip. -/
theorem registerWrites : Obligations.RegisterWrites := by
  intro s fn off width v
  refine ⟨exec_mgmtWrite_aligned, exec_mgmtWrite_misaligned, exec_mgmtWrite_early, exec_mgmt_otherFunction, fun hr ha ho => ?_, fun hr ha => ?_,
    fun hg ha => ?_, fun hg ha => ?_, fun hg ha ho => ?_, exec_instRead_misaligned, exec_debug_locked, fun b c hm hb hfab => exec_blockErrClear hm hb hfab c⟩
  · rw [exec_instWrite hr, if_pos (by simp [ha, ho])]
  · rw [exec_instWrite hr, if_neg (by simp [ha])]
  · rw [exec_mgmtRead hg, ha]
    rfl
  · rw [exec_mgmtRead hg, ha]
    rfl
  · have hload : exec (.registerWrite .instance_ fn off width none) s = .next (s.instLoad fn off width) := rfl
    rw [hload, State.instLoad_open hg ha ho]
    exact ⟨fun h => by rw [h]; rfl, fun h => by rw [h]; rfl⟩

section
variable {s : State} {fn : Nat} {v : Word32}

/-! ## Mailboxes (05 R250, 15 R669 to R676) -/

theorem State.mailboxWrite_fe (hr : Reaches s fn) (hfe : s.isFe = true) (hfn : 1 ≤ fn) (f : State → State) : s.mailboxWrite fn f = f s := by
  rw [State.mailboxWrite, State.hostWrite_reaches hr]
  exact if_pos (by rw [hfe, decide_eq_true (Nat.ne_of_gt hfn)]; rfl)

theorem State.mailboxWrite_away (hr : Reaches s fn) (hfe : s.isFe = false) (f : State → State) : s.mailboxWrite fn f = s.fnError fn esBadAccess := by
  rw [State.mailboxWrite, State.hostWrite_reaches hr]
  exact if_neg (by simp [hfe])

/-- The manager's writes of a function's mailbox registers reach them on the active front end. -/
theorem exec_vfMailbox (hm : s.mgmtTakes = true) (hfe : s.isFe = true) (hlo : 1 ≤ fn) (hhi : fn ≤ 63) :
    exec (.mbxVfInProduce fn v) s = .next (s.vfInProduce fn v) ∧ exec (.mbxVfOutConsume fn v) s = .next (s.vfOutConsume fn v) := by
  have htakes : (s.mgmtTakes && mailFn fn) = true := by simp [hm, mailFn, hlo, hhi]
  exact ⟨congrArg Host.Outcome.next ((if_pos htakes).trans (if_pos hfe)), congrArg Host.Outcome.next ((if_pos htakes).trans (if_pos hfe))⟩

theorem exec_mbxRspConsume (hg : s.gate 0 = .open_) (hs : s.boot.served = true) (hf : s.boot.state ≠ .failed) :
    exec (.mbxRspConsume v) s = .next (s.rspConsume v) :=
  congrArg Host.Outcome.next (if_pos (by rw [hg, hs, decide_eq_true hf]; rfl))

end

/-- Settles O22: each index by what it says against the queue it belongs to. -/
theorem mailboxIndices : Obligations.MailboxIndices := by
  intro s fn v hlo hhi
  refine ⟨fun hr hfe => ?_, fun hr hfe => ?_, fun hm hfe => ?_, fun hg hs hf => ?_⟩
  · exact ⟨congrArg Host.Outcome.next (State.mailboxWrite_away hr hfe _), congrArg Host.Outcome.next (State.mailboxWrite_away hr hfe _)⟩
  · have hout : exec (.mbxOutDoorbell fn v) s = .next (s.outDoorbell fn v) := congrArg Host.Outcome.next (State.mailboxWrite_fe hr hfe hlo _)
    have hin : exec (.mbxInConsume fn v) s = .next (s.inConsume fn v) := congrArg Host.Outcome.next (State.mailboxWrite_fe hr hfe hlo _)
    rw [hout, hin, State.outDoorbell, State.inConsume]
    exact ⟨fun h => by rw [h], fun h => by rw [h], fun h => by rw [h], fun h => by rw [h], fun h => by rw [h], fun h hfull => by rw [h, hfull]; rfl⟩
  · obtain ⟨hin, hout⟩ := exec_vfMailbox (v := v) hm hfe hlo hhi
    rw [hin, hout, State.vfInProduce, State.vfOutConsume]
    exact ⟨fun h => by rw [h], fun h => by rw [h], fun h hfull => by rw [h, hfull]; rfl, fun h => by rw [h]⟩
  · rw [exec_mbxRspConsume hg hs hf, State.rspConsume]
    exact ⟨fun h => by rw [h], fun h => by rw [h], fun h => by rw [h]⟩

end Sys2Proof.Machine

/-! SUPPORT and PROOFS. Function resets, configuration space and the host reads the device has issued (04). -/

namespace Sys2Proof.Machine

section
variable {s : State} {fn : Nat}

/-! ## Resets of functions (04 R231 to R239; log 50) -/

theorem exec_resets_up (h : s.pcie.up = true) : exec .pfFlr s = .next s.flrPf ∧ exec (.hotReset false) s = .next s.flrPf ∧
    exec .vfDisable s = .next s.disableVfs.pfNext ∧ exec (.hotReset true) s = .next s.flrPf.linkLost :=
  ⟨congrArg Host.Outcome.next (if_pos h), congrArg Host.Outcome.next (if_pos h), congrArg Host.Outcome.next (if_pos h), congrArg Host.Outcome.next (if_pos h)⟩

theorem exec_resets_down (h : s.pcie.up = false) : exec .pfFlr s = .next s ∧ (∀ l, exec (.hotReset l) s = .next s) ∧ exec .vfDisable s = .next s := by
  have hdown := Bool.eq_false_iff.mp h
  exact ⟨congrArg Host.Outcome.next (if_neg hdown), fun l => congrArg Host.Outcome.next (if_neg hdown), congrArg Host.Outcome.next (if_neg hdown)⟩

theorem exec_functionLevelReset_here (h : s.fnHere fn = true) :
    exec (.functionLevelReset fn) s = .next (if fn = 0 then s.flrPf else (s.flrFn fn).pfNext) :=
  congrArg Host.Outcome.next (if_pos h)

theorem exec_functionLevelReset_absent (h : s.fnHere fn = false) : exec (.functionLevelReset fn) s = .next s :=
  congrArg Host.Outcome.next (if_neg (Bool.eq_false_iff.mp h))

theorem State.flrFn_unserved (h : s.flrServed = false) : s.flrFn fn = s.resetFn fn := by simp [State.flrFn, h]

theorem State.flrFn_away (h : s.flrServed = true) (hfe : s.isFe = false) : s.flrFn fn = s.flrAway fn := by simp [State.flrFn, h, hfe]

/-- On the active front end the state that stands for the function among the instances decides. -/
theorem State.flrFn_fe (h : s.flrServed = true) (hfe : s.isFe = true) : s.flrFn fn =
    if (s.inst fn).state = .absent then s.resetFn fn else if (s.inst fn).state = .resetting then s else s.flrInst fn := by
  simp [State.flrFn, h, hfe]

/-- A function that is closed shows its reset under way, and keeps no write that the dirty log holds. -/
theorem State.closeFn_flr : ((s.closeFn fn).fc fn).flr = true := by
  have hne : ({ s.fc fn with flr := true } : FnCfg) ≠ FnCfg.reset := fun h => Bool.noConfusion (congrArg FnCfg.flr h)
  exact congrArg FnCfg.flr (Tbl.get_set_same FnCfg.reset s.pcie.fns fn { s.fc fn with flr := true } hne)

theorem State.closeFn_dlogHeld : ∀ h ∈ (s.closeFn fn).pcie.dlogHeld, h.1 ≠ fn := by
  intro h hmem
  simpa using (List.mem_filter.mp hmem).2

end

/-- Settles O23: the reset by what was asked for, and one function's reset by who serves it. -/
theorem functionResets : Obligations.FunctionResets := by
  intro s fn
  refine ⟨fun hup => exec_resets_up hup, fun h => exec_functionLevelReset_here h, fun hne h => ?_, exec_functionLevelReset_absent, exec_resets_down,
    State.flrFn_unserved, State.flrFn_away, fun h hfe => ?_, State.closeFn_flr, State.closeFn_dlogHeld, rfl⟩
  · rw [exec_functionLevelReset_here h, if_neg hne]
  · rw [State.flrFn_fe h hfe]
    refine ⟨fun habs => if_pos habs, fun hres => ?_, fun habs hres hcrit => ?_⟩
    · rw [if_neg (by rw [hres]; decide), if_pos hres]
    · rw [if_neg habs, if_neg hres, State.flrInst, hcrit]
      rfl

section
variable {s : State} {fn off : Nat}

/-! ## Configuration space (04 R203 to R212, 19 R842) -/

theorem exec_configRequest_retry (hup : s.pcie.up = true) (hcrs : s.pcie.crs = true) (w : Option Word32) :
    exec (.configRequest fn off w) s = .next (s.emit (.retryStatus fn)) := by
  refine congrArg Host.Outcome.next ((if_neg ?_).trans (if_pos hcrs))
  simp [hup]

theorem exec_configRequest_absent (hup : s.pcie.up = true) (hcrs : s.pcie.crs = false) (h : s.fnHere fn = false) (w : Option Word32) :
    exec (.configRequest fn off w) s = .next (s.refuseUr fn true) := by
  refine congrArg Host.Outcome.next ((if_neg ?_).trans ((if_neg ?_).trans (if_pos ?_))) <;> simp [hup, hcrs, h]

theorem exec_configRequest_completes (hup : s.pcie.up = true) (hcrs : s.pcie.crs = false) (h : s.fnHere fn = true) (w : Option Word32) :
    exec (.configRequest fn off w) s = .next (match w with
      | some v => (s.configWrite fn (off / 4 * 4) v).emit (.completion fn [])
      | none => (s.configRead fn (off / 4 * 4)).2.emit (.completion fn (toLe 4 (s.configRead fn (off / 4 * 4)).1.toNat))) := by
  refine congrArg Host.Outcome.next ((if_neg ?_).trans ((if_neg ?_).trans ((if_neg ?_).trans ?_)))
  · simp [hup]
  · simp [hcrs]
  · simp [h]
  · rfl

theorem exec_busMasterSet_here (h : s.fnHere fn = true) : exec (.busMasterSet fn) s = .next (s.updFc fn (fun f => { f with bme := true })) :=
  congrArg Host.Outcome.next (if_pos h)

theorem exec_busMasterClear_here (h : s.fnHere fn = true) (d3hot : Bool) : exec (.busMasterClear fn d3hot) s = .next (s.stopMaster fn d3hot) :=
  congrArg Host.Outcome.next (if_pos h)

theorem exec_busMaster_absent (h : s.fnHere fn = false) : exec (.busMasterSet fn) s = .next s ∧ ∀ d, exec (.busMasterClear fn d) s = .next s := by
  have hno := Bool.eq_false_iff.mp h
  exact ⟨congrArg Host.Outcome.next (if_neg hno), fun d => congrArg Host.Outcome.next (if_neg hno)⟩

/-- What a function stopped from mastering leaves, with the event where it was mastering. -/
theorem State.stopMaster_was (hb : (s.fc fn).bme = true) (hd : (s.fc fn).d3hot = false) (d3hot : Bool) : s.stopMaster fn d3hot =
    ((s.updFc fn (fun f => if d3hot then { f with d3hot := true } else { f with bme := false })).failWaiting fn).event evBusMasterOff 0 fn fn 0 :=
  if_pos (by rw [hb, hd]; rfl)

theorem State.stopMaster_was_not (h : (s.fc fn).bme = false ∨ (s.fc fn).d3hot = true) (d3hot : Bool) : s.stopMaster fn d3hot =
    (s.updFc fn (fun f => if d3hot then { f with d3hot := true } else { f with bme := false })).failWaiting fn := by
  refine if_neg ?_
  obtain h | h := h <;> simp [h]

theorem exec_numvfsWrite_taken {v : BitVec 16} (hup : s.pcie.up = true) (hoff : s.pcie.vfEn = false) (h : v.toNat ≤ 63) :
    exec (.numvfsWrite v) s = .next { s with pcie := { s.pcie with numVfs := v } } :=
  congrArg Host.Outcome.next ((if_pos hup).trans (if_neg (by simp [hoff, h])))

theorem exec_numvfsWrite_kept {v : BitVec 16} (h : s.pcie.vfEn = true ∨ 63 < v.toNat) : exec (.numvfsWrite v) s = .next s := by
  have hkept : s.setNumVfs v = s := if_pos (by simpa using h)
  change Host.Outcome.next (if s.pcie.up then s.setNumVfs v else s) = _
  rw [hkept, ite_self]

end

/-- Settles O25: the request by the state of the endpoint, then bus mastering and NumVFs. -/
theorem configurationSpace : Obligations.ConfigurationSpace := by
  intro s fn off
  refine ⟨fun hup hcrs w => exec_configRequest_retry hup hcrs w, fun hup hcrs h w => exec_configRequest_absent hup hcrs h w,
    fun hup hcrs h => ⟨fun v => exec_configRequest_completes hup hcrs h (some v), exec_configRequest_completes hup hcrs h none⟩,
    fun h => ⟨exec_busMasterSet_here h, fun hb hd => ?_, fun hoff => ?_⟩, exec_busMaster_absent, fun v => exec_numvfsWrite_taken, fun v => exec_numvfsWrite_kept⟩
  · rw [exec_busMasterClear_here h, exec_busMasterClear_here h, State.stopMaster_was hb hd, State.stopMaster_was hb hd]
    exact ⟨rfl, rfl⟩
  · rw [exec_busMasterClear_here h, exec_busMasterClear_here h, State.stopMaster_was_not hoff, State.stopMaster_was_not hoff]
    exact ⟨rfl, rfl⟩

section
variable {s : State} {tag : Nat} {r : HostRd}

/-! ## Host reads end (04 R214 to R220, Table 4-6; log 96) -/

/-- A reply ends the read in flight that has its tag. -/
theorem exec_hostReadComplete_found (h : s.readOf tag = some r) (reply : HostReply) : exec (.hostReadComplete tag reply) s =
    .next (s.endRead r (fun s => (if reply = .poisoned then s.aer r.fn aerPoisoned else s).readEnd r.use (reply.bytes r.len))) := by
  change Host.Outcome.next (match s.readOf tag with | none => _ | some r => _) = _
  rw [h]

theorem exec_completionTimeout_found (h : s.readOf tag = some r) : exec (.completionTimeout tag) s =
    .next (s.endRead r (fun s => (s.aer r.fn aerTimeout).readEnd r.use none)) := by
  change Host.Outcome.next (match s.readOf tag with | none => _ | some r => _) = _
  rw [h]

theorem exec_hostReadComplete_none (h : s.readOf tag = none) (reply : HostReply) :
    exec (.hostReadComplete tag reply) s = .next (if s.pcie.up then s.aer 0 aerUnexpected else s) := by
  change Host.Outcome.next (match s.readOf tag with | none => _ | some r => _) = _
  rw [h]

theorem exec_completionTimeout_none (h : s.readOf tag = none) : exec (.completionTimeout tag) s = .next s := by
  change Host.Outcome.next (match s.readOf tag with | none => _ | some r => _) = _
  rw [h]

theorem exec_poisonedWrite (s : State) (fn : Nat) : exec (.poisonedWrite fn .poisoned) s = .next (s.poisoned fn) := rfl

theorem exec_tlpError {e : TlpError} (he : e ≠ .poisoned) (hup : s.pcie.up = true) (fn : Nat) : exec (.poisonedWrite fn e) s = .next (s.tlpError fn e) :=
  congrArg Host.Outcome.next ((if_neg he).trans (if_pos hup))

end

/-- Settles O26: a reply or a timeout by the read it ends, and an error the endpoint has found. -/
theorem hostReadsEnd : Obligations.HostReadsEnd := by
  intro s tag fn r
  refine ⟨fun h t go ht hgo => ?_, fun h => ⟨exec_completionTimeout_none h, fun hup p => ?_, fun hdown p => ?_⟩, fun hg => ?_, fun hg => ?_, fun hg => ?_,
    fun e he hup => exec_tlpError he hup fn⟩
  · subst ht
    simp only [exec_hostReadComplete_found h, exec_completionTimeout_found h, hgo]
    exact ⟨fun bs => rfl, rfl, rfl, rfl, rfl⟩
  · rw [exec_hostReadComplete_none h, if_pos hup]
  · rw [exec_hostReadComplete_none h, if_neg (Bool.eq_false_iff.mp hdown)]
  · rw [exec_poisonedWrite, State.poisoned, hg]
  · rw [exec_poisonedWrite, State.poisoned, hg]
  · rw [exec_poisonedWrite, State.poisoned]
    obtain hg | hg := hg <;> rw [hg]

end Sys2Proof.Machine

/-! SUPPORT and PROOFS. Entries from their judgement to their units: judging, admission, the check pass, dispatch, bodies, the table, stands (05, 06, 07). -/

namespace Sys2Proof.Machine

section
variable {s t : State} {n : Nat}

/-! ## Judging arrived entries (05 R266, R285, R286) -/

theorem exec_entryJudge_quiet (h : s.isFe = false ∨ s.live = false ∨ (s.sq n).halted = true ∨ (s.sq n).arrived = []) :
    exec (.entryJudge n) s = .next s := by
  change Host.Outcome.next (if s.live && s.isFe && !(s.sq n).halted then State.judgeAll n (s.sq n).arrived.length s else s) = _
  obtain h | h | h | h := h
  · simp [h]
  · simp [h]
  · simp [h]
  · rw [h]
    exact congrArg _ (ite_self s)

/-- With one entry arrived, that entry is judged on the ring without it. -/
theorem exec_entryJudge_one {idx : BitVec 32} {e : List Byte} (hl : s.live = true) (hfe : s.isFe = true) (hh : (s.sq n).halted = false)
    (ha : (s.sq n).arrived = [(idx, e)]) : exec (.entryJudge n) s = .next ((s.updSq n (fun q => { q with arrived := [] })).judgeEntry n idx e) := by
  refine congrArg Host.Outcome.next ((if_pos (by rw [hl, hfe, hh]; rfl)).trans ?_)
  rw [ha, List.length_singleton, State.judgeAll, ha]
  rfl

theorem State.judgeEntry_malformed {idx : BitVec 32} {e : List Byte} {r : Nat} (h : entryMalformed (t.sq n).e e = some r) :
    t.judgeEntry n idx e = t.haltFn n idx e r := by
  rw [State.judgeEntry, h]

theorem State.judgeEntry_redelivered {idx : BitVec 32} {e : List Byte} (h : entryMalformed (t.sq n).e e = none) (hlt : eSeq e < (t.sq n).e)
    (hu : (t.sq n).unreleased = []) : t.judgeEntry n idx e = (t.updSq n (fun q => { q with redeliv := satInc q.redeliv })).slotDone n none := by
  rw [State.judgeEntry, h]
  dsimp only
  rw [if_pos hlt, hu]
  rfl

/-- A ring as it is with one more entry accepted: cached, journaled, its slot passed. -/
def State.accepted (t : State) (n : Nat) (idx : BitVec 32) (e : List Byte) : State :=
  (((t.updSq n (fun q => { q with cache := q.cache ++ [e], slots := q.slots ++ [(eSeq e, idx)], e := q.e + 1 })).hallWritten
    (cacheWords n (eSeq e))).journal (jrec 0x01 (t.ringInst (.host n)) (t.ringLocal (.host n)) e)).slotDone n t.openEpoch

theorem State.judgeEntry_accepted {idx : BitVec 32} {e : List Byte} (h : entryMalformed (t.sq n).e e = none) (hge : (t.sq n).e ≤ eSeq e)
    (hg : ((t.accepted n idx e).sq n).guilty = none) : t.judgeEntry n idx e = t.accepted n idx e := by
  have hjudge : t.judgeEntry n idx e = match ((t.accepted n idx e).sq n).guilty with
      | some g => if g.done then (t.accepted n idx e).skipEntries (.host n) else t.accepted n idx e
      | none => t.accepted n idx e := by
    rw [State.judgeEntry, h]
    exact if_neg (Nat.not_lt.mpr hge)
  rw [hjudge, hg]

end

/-- Settles O28: the one arrived entry by what its judgement finds. -/
theorem entryJudgement : Obligations.EntryJudgement := by
  intro s n
  refine ⟨exec_entryJudge_quiet, fun idx e hl hfe hh ha => ?_⟩
  rw [exec_entryJudge_one hl hfe hh ha]
  exact ⟨fun r h => congrArg _ (State.judgeEntry_malformed h), fun h hlt hu => congrArg _ (State.judgeEntry_redelivered h hlt hu),
    fun h hge hg => congrArg _ (State.judgeEntry_accepted h hge hg)⟩

section
variable {s : State} {n c : Nat} {e : List Byte}

/-! ## Admission (05 R259, R270, R273, R282) -/

theorem exec_admission (s : State) : exec .admission s = .next s.admitStep := rfl

theorem State.admitStep_dead (h : s.live = false) : s.admitStep = s := if_pos (by rw [h]; rfl)

theorem State.admitStep_realTime (hl : s.live = true) (hp : s.pairPaused = false) (hrt : s.rtChoice = some n) :
    s.admitStep = (s.admitBurst (.host n) (burstOf (s.sq n).cfg.burst)).1 := by
  rw [State.admitStep, if_neg (by simp [hl, hp]), hrt]

theorem State.admitStep_none (hrt : s.rtChoice = none) (hw : s.wrrRings.any (fun x => s.eligible x.2) = false) : s.admitStep = s := by
  rw [State.admitStep, hrt, hw]
  exact ite_self s

/-- A host ring is eligible only with room for its record, and while it is neither guilty nor halted nor empty. -/
theorem State.eligible_host (h : s.eligible (.host n) = true) :
    ((s.cq (s.ringCq n)).wr - (s.cq (s.ringCq n)).h).toNat + (s.cq (s.ringCq n)).reserved + 1 < (s.cq (s.ringCq n)).n ∧
      (s.sq n).guilty = none ∧ (s.sq n).halted = false ∧ (s.sq n).cache ≠ [] := by
  simp only [State.eligible, State.sqEligible, State.cqRoom, State.sqReady, Bool.and_eq_true, decide_eq_true_eq] at h
  obtain ⟨-, hready, hroom⟩ := h
  split at hready
  case h_2 => exact absurd hready Bool.false_ne_true
  case h_1 i e _ hhead =>
    simp only [Bool.and_eq_true, Bool.not_eq_true', Option.isNone_iff_eq_none] at hready
    obtain ⟨⟨⟨-, hguilty⟩, hhalted⟩, -⟩ := hready
    refine ⟨hroom, hguilty, hhalted, fun hnil => ?_⟩
    rw [hnil] at hhead
    cases hhead

theorem State.admitEntry_empty {r : RingRef} (hd : eDirect e = true) (hz : eLen8 e = 0) : s.admitEntry r e =
    (s.reserveSlot r).bufferRecord r (eSeq e) stOkEmpty false false false (eUser e) 0 (some s.now) (eIrq e) true :=
  if_pos (by simp [hd, hz])

/-- The owner an entry of host ring `n` becomes. -/
def State.ownerOf (s : State) (n : Nat) (e : List Byte) : Owner :=
  { inst := BitVec.ofNat 6 (s.ringInst (.host n)), ring := .host n, tag := eSeq e, user := eUser e,
    rt := if (s.sq n).cfg.realTime then some (s.sq n).cfg.rtSlot else none, entry := e, replaySafe := false,
    redelivered := false, expected := none, tally := 0, fault := none, ovf := false, replayed := false, admitTime := s.now,
    order := s.orders, phase := .checking, nextOp := 0, nextOff := 0, waitEpoch := none, members := s.memberList,
    lostAt := s.dom.lost, csCount := 0, dataOff := 0, waits := [] }

theorem State.admitEntry_context (hz : eLen8 e ≠ 0) (hc : s.freeContext = some c) : s.admitEntry (.host n) e =
    (((({ s with orders := s.orders + 1 }).updCtx c (fun x => { Ctx.reset with gen := x.gen + 1, use := .owner (s.ownerOf n e) })).pruneColls
      c).reserveSlot (.host n)).progress (.host n) :=
  (if_neg (by simp [hz])).trans (by rw [hc]; rfl)

end

/-- Settles O29: the choice of a ring, what makes one eligible, and what an entry admitted takes. -/
theorem admission : Obligations.Admission := by
  intro s n c e
  refine ⟨fun h => congrArg _ (State.admitStep_dead h), fun hl hp hrt => congrArg _ (State.admitStep_realTime hl hp hrt),
    fun hrt hw => congrArg _ (State.admitStep_none hrt hw), State.eligible_host, fun r => State.admitEntry_empty, rfl, fun hz hc => ?_⟩
  exact ⟨s.ownerOf n e, rfl, rfl, rfl, rfl, rfl, rfl, rfl, State.admitEntry_context hz hc⟩

section
variable {s t u : State} {c : Nat} {o : Owner} {fs : List (Nat × Nat)}

/-! ## The check pass (06) -/

theorem exec_checkPass (s : State) (c : Nat) : exec (.checkPass c) s = .next (s.checkPass c) := rfl

theorem exec_dispatchRead (s : State) (c : Nat) : exec (.dispatchRead c) s = .next (s.dispatchOne c) := rfl

theorem State.checkPass_vacant (h : s.owner c = none) : s.checkPass c = s := by
  rw [State.checkPass, h]

theorem State.checkPass_passed (h : s.owner c = some o) (hp : o.phase ≠ .checking) : s.checkPass c = s := by
  rw [State.checkPass, h]
  exact if_pos (by simp [hp])

/-- The fragment list of an owner in its check is not here yet. -/
theorem State.checkPass_waits (h : s.owner c = some o) (hl : s.live = true) (hp : o.phase = .checking) (hf : s.bufferFrags c o = (none, t)) :
    s.checkPass c = t := by
  rw [State.checkPass, h]
  dsimp only
  rw [if_neg (by simp [hl, hp]), hf]

/-- What the check does with the bytes of the buffer, as far as they are here. -/
def State.checkBytes (c : Nat) (o : Owner) (fs : List (Nat × Nat)) : Option (List Byte) × State → State
  | (none, u) => u
  | (some b, u) =>
    match checkBuffer (u.roll o) u.boot.nlevel.toNat b with
    | .inl x => u.bufferBroken c (match frames b (bufOps b) (bufOps b) 1 (64 + 8 * bufSets b) with
        | .inr f => (f[x.idx - 1]?).map (·.2.1)
        | .inl _ => none) x
    | .inr k => (u.updCtx c (fun y => { y with frags := fs })).bufferPassed c o b k

/-- What the check does with the fragments of the buffer. -/
def State.checkFrags (t : State) (c : Nat) (o : Owner) (fs : List (Nat × Nat)) : State :=
  if fragTotal fs = 0 then (t.bufferRecord o.ring o.tag stOkEmpty false false o.redelivered o.user 0 (some o.admitTime) (eIrq o.entry) true).freeCtx c
  else if fragTotal fs < 96 then t.bufferBroken c none (cfgBroken 0)
  else State.checkBytes c o fs (t.bufferBytes c fs)

theorem State.checkPass_frags (h : s.owner c = some o) (hl : s.live = true) (hp : o.phase = .checking) (hf : s.bufferFrags c o = (some fs, t)) :
    s.checkPass c = t.checkFrags c o fs := by
  rw [State.checkPass, h]
  dsimp only
  rw [if_neg (by simp [hl, hp]), hf]
  rfl

theorem State.checkFrags_bytes (h : 96 ≤ fragTotal fs) : t.checkFrags c o fs = State.checkBytes c o fs (t.bufferBytes c fs) := by
  rw [State.checkFrags, if_neg (by omega), if_neg (by omega)]

/-- The bytes of a buffer with a CRC are read in one piece. -/
theorem State.bufferBytes_crc {b : List Byte} (h : s.fragRead c fs 0 64 = (some b, t)) (hh : headOk b (fragTotal fs) = true) (hcrc : bufCrcV b = true) :
    s.bufferBytes c fs = t.fragRead c fs 0 (fragTotal fs) := by
  rw [State.bufferBytes, h]
  dsimp only
  rw [if_neg (by simp [hh]), if_pos hcrc]

/-! ## Dispatch (07) -/

theorem State.dispatchOne_vacant (h : s.owner c = none) : s.dispatchOne c = s := by
  rw [State.dispatchOne, State.mayDispatch, h]

theorem State.dispatchOne_past (h : s.mayDispatch c = some o) (hlast : (s.ctx c).sets.length ≤ o.nextOp) : s.dispatchOne c = s := by
  rw [State.dispatchOne, h]
  exact if_pos hlast

theorem State.dispatchOne_reads (h : s.mayDispatch c = some o) (hmore : o.nextOp < (s.ctx c).sets.length) : s.dispatchOne c = match s.readOp c o with
    | (none, t) => t
    | (some (h, body, v, chips, ch), t) =>
      (((t.ctxFresh c).updCtx c (fun x => { x with chain := ch, sets := x.sets.set (o.nextOp - 1) chips, heads := x.heads.set (o.nextOp - 1) h })).updOwner c
        (fun w => { w with nextOp := o.nextOp + 1, nextOff := o.nextOff + 32 + 8 * hBody8 h })).spread c o o.nextOp o.nextOff h body v chips ((s.ctx c).chain.map (·.1)) := by
  rw [State.dispatchOne, h]
  exact if_neg (Nat.not_le.mpr hmore)

end

/-- Settles O30: the check by how far the buffer's bytes are here and what they say, and the dispatch of one operation by how its read ends. -/
theorem checkPass : Obligations.CheckPass := by
  intro s t u c a n o fs b x
  refine ⟨fun h => ?_, fun h hp => ?_, fun h hl hp => ⟨fun hf => ?_, fun hf hz => ?_, fun hf hnz hlt => ?_, fun hf hge => ?_⟩,
    State.bufferBytes_crc, fun h => ?_, fun h => ?_, fun h => ?_, fun h hlast => ?_, fun h hmore hr => ?_, fun hd body v chips ch h hmore hr => ?_⟩
  · rw [exec_checkPass, exec_dispatchRead, State.checkPass_vacant h, State.dispatchOne_vacant h]
    exact ⟨rfl, rfl⟩
  · rw [exec_checkPass, State.checkPass_passed h hp]
  · rw [exec_checkPass, State.checkPass_waits h hl hp hf]
  · rw [exec_checkPass, State.checkPass_frags h hl hp hf, State.checkFrags, if_pos hz]
  · rw [exec_checkPass, State.checkPass_frags h hl hp hf, State.checkFrags, if_neg hnz, if_pos hlt]
  · rw [exec_checkPass, State.checkPass_frags h hl hp hf, State.checkFrags_bytes hge]
    refine ⟨fun hb => by rw [hb]; rfl, fun k hb hk => by rw [hb, State.checkBytes, hk], fun y hb hy => ?_⟩
    rw [hb, State.checkBytes, hy]
    exact ⟨_, rfl⟩
  · rw [State.fragRead, h]
  · rw [State.fragRead, h]
  · rw [State.fragRead, h]
  · rw [exec_dispatchRead, State.dispatchOne_past h hlast]
  · rw [exec_dispatchRead, State.dispatchOne_reads h hmore, hr]
  · rw [exec_dispatchRead, State.dispatchOne_reads h hmore, hr]

section
variable {s t : State} {e c k : Nat} {o : OpEntry} {f : BodyFetch}

/-! ## Bodies and lists (07 R363) -/

theorem exec_bodyReadDone (hl : s.live = true) (e : Nat) : exec (.bodyReadDone e) s = .next (s.bodyRead e) := congrArg Host.Outcome.next (if_pos hl)

theorem exec_dead (hl : s.live = false) (e : Nat) : exec (.bodyReadDone e) s = .next s ∧ exec .standGrant s = .next s := by
  have hdead := Bool.eq_false_iff.mp hl
  exact ⟨congrArg Host.Outcome.next (if_neg hdead), congrArg Host.Outcome.next (if_neg hdead)⟩

theorem State.bodyRead_vacant (h : s.op e = none) : s.bodyRead e = s := by
  rw [State.bodyRead, h]

theorem State.bodyRead_idle (h : s.op e = some o) (hf : o.fetch = none) : s.bodyRead e = s := by
  rw [State.bodyRead, h]
  dsimp only
  rw [hf]

theorem State.bodyRead_waits (h : s.op e = some o) (hf : o.fetch = some f) (hg : s.opGather e (s.bodyGather (s.ctxInst o.ctx) o.staged f) = (none, t)) :
    s.bodyRead e = t := by
  rw [State.bodyRead, h]
  dsimp only
  rw [hf]
  dsimp only
  rw [hg]

theorem State.bodyRead_here {bs : List Byte} (h : s.op e = some o) (hf : o.fetch = some f)
    (hg : s.opGather e (s.bodyGather (s.ctxInst o.ctx) o.staged f) = (some bs, t)) :
    s.bodyRead e = ((t.updOp e (fun w =>
      if f.list then { w with fetch := none, chips := listChips bs (bs.length / 2), staged := [], asked := [] }
      else { w with fetch := none, body := bs, staged := [], asked := [] })).chainResume e).refreshReady o.ctx := by
  rw [State.bodyRead, h]
  dsimp only
  rw [hf]
  dsimp only
  rw [hg]

/-! ## The dependency table (07 R363, R364) -/

theorem exec_tableEntry_empty (h : (s.ctx c).queue = []) : exec (.tableEntry c) s = .next s := by
  change Host.Outcome.next (match (s.ctx c).queue with | o :: t => _ | [] => s) = _
  rw [h]

theorem exec_tableEntry_enters {q : List OpEntry} (h : (s.ctx c).queue = o :: q) (hl : s.live = true)
    (hfree : (s.updCtx c (fun x => { x with queue := q })).freeEntry.isSome = true) (hroom : (s.opsOf c).length < 2048) :
    exec (.tableEntry c) s = .next ((s.updCtx c (fun x => { x with queue := q })).placeOp o) := by
  change Host.Outcome.next (match (s.ctx c).queue with | o :: t => _ | [] => s) = _
  rw [h]
  exact congrArg _ (if_pos (by rw [hl, hfree, decide_eq_true hroom]; rfl))

theorem exec_tableEntry_full {q : List OpEntry} (h : (s.ctx c).queue = o :: q)
    (hfull : (s.updCtx c (fun x => { x with queue := q })).freeEntry = none) : exec (.tableEntry c) s = .next s := by
  change Host.Outcome.next (match (s.ctx c).queue with | o :: t => _ | [] => s) = _
  rw [h]
  exact congrArg _ (if_neg (by rw [hfull]; simp))

theorem State.placeOp_fault {x : Err} (hk : s.freeEntry = some k) (hx : s.entryFault o.ctx o.hdr = some x) :
    s.placeOp o = s.ctxFault o.ctx o.idx (some o.hdr) 0 x := by
  unfold State.placeOp
  rw [hk]
  dsimp only
  rw [hx]

theorem State.placeOp_enters (hk : s.freeEntry = some k) (hx : s.entryFault o.ctx o.hdr = none) : s.placeOp o =
    (((({ s with ops := Tbl.set none s.ops k (some o) } : State).updCtx o.ctx (fun x => { x with entered := o.idx })).ctxProgress o.ctx).chainResume
      k).refreshReady o.ctx := by
  unfold State.placeOp
  rw [hk]
  dsimp only
  rw [hx]

/-! ## Grants (07 R366 to R370) -/

theorem exec_standGrant (hl : s.live = true) : exec .standGrant s = .next s.grantOne := congrArg Host.Outcome.next (if_pos hl)

theorem State.grantOne_none (h : s.grantable 0 s.readyOps = none) : s.grantOne = s := by
  rw [State.grantOne, h]

theorem State.grantOne_cfe (h : s.grantable 0 s.readyOps = some (e, o)) (ht : hTiles o.hdr = false)
    (hk : (List.range 512).find? (fun j => decide (Tbl.get 0 s.slots j = 0)) = some k) : s.grantOne =
    ((({ s with slots := Tbl.set 0 s.slots k (e + 1) }).updOp e (fun w => { w with slot := some k })).updOp e
      (fun w => { w with stage := .running })).ctxProgress o.ctx := by
  rw [State.grantOne, h]
  dsimp only
  rw [if_neg (Bool.eq_false_iff.mp ht), hk]

theorem State.grantOne_tiles (h : s.grantable 0 s.readyOps = some (e, o)) (ht : hTiles o.hdr = true) : s.grantOne =
    (((({ s with stands := (standsOf (hStands o.hdr)).foldl (fun t n => Tbl.set 0 t n (e + 1)) s.stands }.wakeStands
      (hStands o.hdr)).freshBeats (hStands o.hdr)).stageSram (tilesOf (hStands o.hdr))).updOp e (fun w => { w with stage := .running })).ctxProgress o.ctx := by
  rw [State.grantOne, h]
  dsimp only
  rw [if_pos ht]

end

/-- Settles O31: bodies by what the operation waits for, the table by its room, grants by the kind of the operation. -/
theorem operationsReachTheirUnits : Obligations.OperationsReachTheirUnits := by
  intro s t e c k o f q bs
  refine ⟨fun hl h => ?_, fun hl h hf => ?_, fun hl h hf hlist hg => ?_, fun hl h hf hlist hg => ?_, fun hl h hf hg => ?_, fun hl => exec_dead hl e,
    exec_tableEntry_empty, exec_tableEntry_enters, exec_tableEntry_full, fun hl h => ?_, fun hl h ht hk => ?_, fun hl h ht => ?_,
    State.placeOp_enters, fun x => State.placeOp_fault⟩
  · rw [exec_bodyReadDone hl, State.bodyRead_vacant h]
  · rw [exec_bodyReadDone hl, State.bodyRead_idle h hf]
  · simp only [exec_bodyReadDone hl, State.bodyRead_here h hf hg, hlist, Bool.false_eq_true, if_false]
  · simp only [exec_bodyReadDone hl, State.bodyRead_here h hf hg, hlist, if_true]
  · rw [exec_bodyReadDone hl, State.bodyRead_waits h hf hg]
  · rw [exec_standGrant hl, State.grantOne_none h]
  · rw [exec_standGrant hl, State.grantOne_cfe h ht hk]
  · rw [exec_standGrant hl, State.grantOne_tiles h ht]

end Sys2Proof.Machine

/-! SUPPORT and PROOFS. How operations end; signal operations and enqueues; tile and collective launches (06, 07, 08, 10, 11). -/

namespace Sys2Proof.Machine

section
variable {s t : State} {e : Nat} {o : OpEntry} {x : Err}

/-! ## The end of tile operations and copies (07 R398 to R401, 14 R607) -/

theorem exec_opComplete (s : State) (e : Nat) (k : Check) : exec (.opComplete e k) s = .next (s.opComplete e k).goOn := rfl

theorem State.opComplete_vacant (h : s.op e = none) (k : Check) : s.opComplete e k = s := by
  rw [State.opComplete, h]

/-- Whose results are issued, acknowledged and with the host, on a live chip. -/
structure State.Settled (s : State) (e : Nat) (o : OpEntry) : Prop where
  entry : s.op e = some o
  live : s.live = true
  issued : o.stage = .issued
  acked : o.out = 0
  sent : o.rest = []
  host : s.hostHeld o = false

theorem State.opComplete_open (h : s.op e = some o) (ho : s.live = false ∨ o.stage ≠ .issued ∨ o.out ≠ 0 ∨ o.rest ≠ [] ∨ s.hostHeld o = true) (k : Check) :
    s.opComplete e k = s := by
  rw [State.opComplete, h]
  refine if_pos ?_
  obtain ho | ho | ho | ho | ho := ho
  · simp [ho]
  · simp [ho]
  · simp [ho]
  · simp [ho]
  · simp [ho]

/-- The tile whose SRAM does not read right as a launch ends, if there is one, and the state after the read; a copy reads none. -/
def State.sramAtEnd (s : State) (o : OpEntry) : Option Nat × State :=
  if hOpcode o.hdr = opLaunch then s.readSram (tilesOf (hStands o.hdr)) else (none, s)

/-- What the checkers' word `k`, or for a copy the writes before it, makes of an operation whose SRAM reads right. -/
def State.checkedEnd (t : State) (e : Nat) (o : OpEntry) (k : Check) : State :=
  match decide (hOpcode o.hdr = opLaunch), k with
  | true, .differ n => if o.replay then t.failOp e { status := stCheckerFail } else (t.draw 8).2.faultTile n (t.draw 8).1.toNat
  | true, .agree => t.finishOp e o
  | false, _ => if copyLen o.body = 0 && t.writesBefore o then t else t.finishOp e o

/-- What completing does to a settled launch or copy. -/
theorem State.Settled.opComplete (h : s.Settled e o) (hop : hOpcode o.hdr = opLaunch ∨ hOpcode o.hdr = opCopy) (k : Check) : s.opComplete e k =
    if o.dead then (if s.holdsStands e o then s.stopOp e o else s)
    else match o.err with
      | some x => s.failOp e x
      | none => match (s.sramAtEnd o).1 with
        | some n => (s.sramAtEnd o).2.faultTile n 0x01
        | none => (s.sramAtEnd o).2.checkedEnd e o k := by
  obtain ⟨hentry, hlive, hissued, hacked, hsent, hhost⟩ := h
  rw [State.opComplete, hentry]
  refine (if_neg ?_).trans rfl
  obtain hop | hop := hop <;> simp [hlive, hissued, hacked, hsent, hhost, hop]

theorem State.Settled.dead (h : s.Settled e o) (hop : hOpcode o.hdr = opLaunch ∨ hOpcode o.hdr = opCopy) (hd : o.dead = true)
    (hs : s.holdsStands e o = true) (k : Check) : s.opComplete e k = s.stopOp e o := by
  rw [h.opComplete hop, if_pos hd, if_pos hs]

theorem State.Settled.failed (h : s.Settled e o) (hop : hOpcode o.hdr = opLaunch ∨ hOpcode o.hdr = opCopy) (hd : o.dead = false) (hx : o.err = some x)
    (k : Check) : s.opComplete e k = s.failOp e x := by
  rw [h.opComplete hop, if_neg (Bool.eq_false_iff.mp hd), hx]

/-- A launch on whose tiles a word is uncorrectable. -/
theorem State.Settled.sram {n : Nat} (h : s.Settled e o) (hop : hOpcode o.hdr = opLaunch) (hd : o.dead = false) (hx : o.err = none)
    (hr : s.readSram (tilesOf (hStands o.hdr)) = (some n, t)) (k : Check) : s.opComplete e k = t.faultTile n 0x01 := by
  rw [h.opComplete (.inl hop), if_neg (Bool.eq_false_iff.mp hd), hx]
  have hsram : s.sramAtEnd o = (some n, t) := (if_pos hop).trans hr
  rw [hsram]

/-- A launch on whose tiles every word reads right: what the checkers say decides. -/
theorem State.Settled.checked (h : s.Settled e o) (hop : hOpcode o.hdr = opLaunch) (hd : o.dead = false) (hx : o.err = none)
    (hr : s.readSram (tilesOf (hStands o.hdr)) = (none, t)) (k : Check) : s.opComplete e k = match k with
      | .differ n => if o.replay then t.failOp e { status := stCheckerFail } else (t.draw 8).2.faultTile n (t.draw 8).1.toNat
      | .agree => t.finishOp e o := by
  rw [h.opComplete (.inl hop), if_neg (Bool.eq_false_iff.mp hd), hx]
  have hsram : s.sramAtEnd o = (none, t) := (if_pos hop).trans hr
  rw [hsram]
  dsimp only
  unfold State.checkedEnd
  rw [decide_eq_true hop]
  cases k <;> rfl

/-- A copy ends unless it is empty and earlier writes of its buffer are still open. -/
theorem State.Settled.copied (h : s.Settled e o) (hop : hOpcode o.hdr = opCopy) (hd : o.dead = false) (hx : o.err = none) (k : Check) :
    s.opComplete e k = if copyLen o.body = 0 && s.writesBefore o then s else s.finishOp e o := by
  have hcopy : hOpcode o.hdr ≠ opLaunch := by rw [hop]; decide
  rw [h.opComplete (.inr hop), if_neg (Bool.eq_false_iff.mp hd), hx]
  have hsram : s.sramAtEnd o = (none, s) := if_neg hcopy
  rw [hsram]
  dsimp only
  unfold State.checkedEnd
  rw [decide_eq_false hcopy]

/-! ## Increments and END (07 R379 to R385) -/

theorem exec_completionIncrement (hl : s.live = true) (c : BitVec 10) (g : BitVec 16) (a b : Bool) :
    exec (.completionIncrement c g a b) s = .next (s.increment c g a b) := congrArg Host.Outcome.next (if_pos hl)

/-- With no increment held, one of another generation is dropped and counted. -/
theorem State.increment_stale {c : BitVec 10} {g : BitVec 16} (hi : s.gal.incs = []) (hg : (s.ctx c.toNat).gen ≠ g) (a b : Bool) :
    s.increment c g a b = { s with incDrops := satInc s.incDrops } := by
  simp only [State.increment, hi, List.find?_nil, hg, if_false, decide_false, Bool.and_false, Bool.false_eq_true]

/-- One of the context's generation counts a share. -/
theorem State.increment_counts {c : BitVec 10} {g : BitVec 16} (hi : s.gal.incs = []) (hg : (s.ctx c.toNat).gen = g) (a b : Bool)
    (ho : ((s.updCtx c.toNat (fun x => { x with doneBy := x.doneBy ++ [] })).owner c.toNat).isSome = true)
    (hg' : ((s.updCtx c.toNat (fun x => { x with doneBy := x.doneBy ++ [] })).ctx c.toNat).gen = g) :
    s.increment c g a b = (s.updCtx c.toNat (fun x => { x with doneBy := x.doneBy ++ [] })).countShare c.toNat a b := by
  simp only [State.increment, hi, List.find?_nil, hg, if_true, Option.map_none, Option.toList_none]
  exact if_pos (by rw [ho, decide_eq_true hg']; rfl)

theorem exec_end (s : State) (c : Nat) : exec (.end_ c) s = .next (s.endOp c) := rfl

theorem State.endOp_vacant {c : Nat} (h : s.owner c = none) : s.endOp c = s := by
  rw [State.endOp, h]

/-- END on a context that still dispatches: its operations as they were read decide. -/
theorem State.endOp_dispatching {c : Nat} {w : Owner} (ho : s.owner c = some w) (hm : s.mayDispatch c = some w) (hp : w.phase = .dispatching) :
    s.endOp c = if w.nextOp < (s.ctx c).sets.length then s
      else match s.readOp c w with
        | (none, t) => t
        | (some (h, _, _, _, _), t) =>
          match endCount (autoCount (t.ctx c).sets) h with
          | none => t.bufferBroken c (some h) (cfgBroken w.nextOp)
          | some n => (((t.ctxFresh c).updOwner c (fun w => { w with phase := .ended, expected := some n })).shareCheck c).endCheck c := by
  rw [State.endOp, ho]
  dsimp only
  rw [if_neg (by simp [hp]), hm] <;> rfl

end

/-- Settles O32: the operation by how far it is and what was found; increments by generation; END by the operations read. -/
theorem operationsEnd : Obligations.OperationsEnd := by
  intro s e o x
  refine ⟨fun h k => ?_, fun h ho k => ?_, fun h hl hst hout hrest hh hop => ?_, fun h hl hst hout hrest hh hop hd => ?_,
    fun c g a b hl => ?_, fun c g a b hl hi hg => ?_, fun c g a b hl hi _ hg hi' => ?_, fun c h => ?_, fun c w hm hp ho hlt => ?_,
    fun c w h body v chips ch t ho hm hp hle hr => ?_⟩
  · rw [exec_opComplete, State.opComplete_vacant h]
  · rw [exec_opComplete, State.opComplete_open h ho]
  · have hset : s.Settled e o := ⟨h, hl, hst, hout, hrest, hh⟩
    simp only [exec_opComplete]
    refine ⟨fun hd hs k => ?_, fun hd hx k => ?_, fun k t n hd hx hr => ?_, fun t hd hx hr => ⟨?_, fun n => ⟨fun hrep => ?_, fun hrep => ?_⟩⟩⟩
    · rw [hset.dead (.inl hop) hd hs]
    · rw [hset.failed (.inl hop) hd hx]
    · rw [hset.sram hop hd hx hr]
    · rw [hset.checked hop hd hx hr]
    · rw [hset.checked hop hd hx hr]
      dsimp only
      rw [if_pos hrep]
    · rw [hset.checked hop hd hx hr]
      dsimp only
      rw [if_neg (Bool.eq_false_iff.mp hrep)]
      rfl
  · have hset : s.Settled e o := ⟨h, hl, hst, hout, hrest, hh⟩
    simp only [exec_opComplete]
    refine ⟨fun hx k => ?_, fun hx hnot k => ?_, fun hx hz hw k => ?_⟩
    · rw [hset.failed (.inr hop) hd hx]
    · rw [hset.copied hop hd hx, if_neg (by obtain hnot | hnot := hnot <;> simp [hnot])]
    · rw [hset.copied hop hd hx, if_pos (by simp [hz, hw])]
  · exact congrArg Host.Outcome.next (if_neg (Bool.eq_false_iff.mp hl))
  · rw [exec_completionIncrement hl, State.increment_stale hi hg]
  · intro hg'
    rw [exec_completionIncrement hl, State.increment_counts hi hg a b hi' hg']
  · rw [exec_end, State.endOp_vacant h]
  · rw [exec_end, State.endOp_dispatching ho hm hp, if_pos hlt]
  · rw [exec_end, State.endOp_dispatching ho hm hp, if_neg (Nat.not_lt.mpr hle), hr]
    dsimp only
    exact ⟨fun hn => by rw [hn], fun n hn => by rw [hn]⟩

section
variable {s t : State} {e : Nat} {o : OpEntry}

/-- What a row does to a started operation of its opcode; any other stays as it is. -/
def State.onStarted (s : State) (e op : Nat) (f : OpEntry → State) : State :=
  match s.started e op with
  | some o => f o
  | none => s

theorem State.onStarted_some {op : Nat} (h : s.started e op = some o) (f : OpEntry → State) : s.onStarted e op f = f o := by
  rw [State.onStarted, h]

theorem State.onStarted_none {op : Nat} (h : s.started e op = none) (f : OpEntry → State) : s.onStarted e op f = s := by
  rw [State.onStarted, h]

/-! ## Signal operations (08 R417 to R420; log 110) -/

/-- The signal a started operation makes. -/
def State.signalOf (s : State) (e : Nat) (o : OpEntry) (kind : BitVec 2) (amount : BitVec 16) : Sig :=
  { kind := kind, obj := BitVec.ofNat 14 (orefIdx (hArg o.hdr 0 4)), amount := amount, inst := BitVec.ofNat 6 (s.opInst o),
    chip := s.orefHome (hArg o.hdr 0 4), notice := none, origin := .op e }

/-- What each signal operation does to an operation: the change by the home of its object. -/
theorem State.cfeSignal_cases (kind : BitVec 2) (amount : BitVec 16) :
    (s.released o.ctx o.idx = false → s.cfeSignal e o (hArg o.hdr 0 4) kind amount = s) ∧
    (s.released o.ctx o.idx = true →
      (s.orefHome (hArg o.hdr 0 4) = s.dom.chipId → s.gal.fifo.length < 64 →
        s.cfeSignal e o (hArg o.hdr 0 4) kind amount = (s.updOp e (fun w => { w with stage := .issued, out := 1 })).fifoPush 0 (s.signalOf e o kind amount)) ∧
      (s.orefHome (hArg o.hdr 0 4) = s.dom.chipId → 64 ≤ s.gal.fifo.length → s.cfeSignal e o (hArg o.hdr 0 4) kind amount = s) ∧
      (s.orefHome (hArg o.hdr 0 4) ≠ s.dom.chipId → s.isLost (s.orefHome (hArg o.hdr 0 4)) = true →
        s.cfeSignal e o (hArg o.hdr 0 4) kind amount = s.failOp e { status := stChipLost, peer := (s.orefHome (hArg o.hdr 0 4)).toNat }) ∧
      (s.orefHome (hArg o.hdr 0 4) ≠ s.dom.chipId → s.isLost (s.orefHome (hArg o.hdr 0 4)) = false →
        s.cfeSignal e o (hArg o.hdr 0 4) kind amount = (s.updOp e (fun w => { w with stage := .issued, out := 1 })).pureSignal
          (s.orefHome (hArg o.hdr 0 4)) (.opSignal e) (BitVec.ofNat 6 (s.opInst o)) (hOrd o.hdr)
          { obj := BitVec.ofNat 14 (orefIdx (hArg o.hdr 0 4)), kind := kind, amount := amount, iovf := false, irpl := false })) := by
  refine ⟨fun hr => if_pos (by rw [hr]; rfl), fun hr => ?_⟩
  have hpast : s.cfeSignal e o (hArg o.hdr 0 4) kind amount = _ := if_neg (by rw [hr]; exact Bool.false_ne_true)
  rw [hpast]
  refine ⟨fun hh hroom => ?_, fun hh hfull => ?_, fun hh hlost => ?_, fun hh hlost => ?_⟩
  · rw [if_pos hh, if_pos (show s.fifoHasRoom = true from decide_eq_true hroom)]
    rfl
  · rw [if_pos hh, if_neg (by simpa [State.fifoHasRoom] using hfull)]
  · rw [if_neg hh, if_pos hlost]
  · rw [if_neg hh, if_neg (Bool.eq_false_iff.mp hlost)]

end

/-- Each signal row is one signal of its kind, on a started operation of its opcode. -/
theorem exec_signals (s : State) (e : Nat) :
    exec (.setFlag e) s = .next (s.onStarted e opSetFlag (fun o => s.cfeSignal e o (hArg o.hdr 0 4) 0 0)) ∧
    exec (.clearFlag e) s = .next (s.onStarted e opClearFlag (fun o => s.cfeSignal e o (hArg o.hdr 0 4) 1 0)) ∧
    exec (.tallyAdd e) s = .next (s.onStarted e opTallyAdd (fun o => s.cfeSignal e o (hArg o.hdr 0 4) 2 (BitVec.ofNat 16 (hArg o.hdr 4 4)))) ∧
    exec (.barrierArrive e) s = .next (s.onStarted e opBarrierArrive (fun o => s.cfeSignal e o (hArg o.hdr 0 4) 3 1)) := ⟨rfl, rfl, rfl, rfl⟩

/-- Settles O34: what a signal does, for each of the four kinds. -/
theorem signalOperations : Obligations.SignalOperations := by
  intro s e o
  obtain ⟨hset, hclear, hadd, harrive⟩ := exec_signals s e
  simp only [hset, hclear, hadd, harrive, Host.Outcome.next.injEq]
  refine ⟨⟨fun h => ?_, fun h => ?_, fun h => ?_, fun h => ?_⟩, fun h => State.onStarted_none h _, fun h => State.onStarted_none h _,
    fun h => State.onStarted_none h _, fun h => State.onStarted_none h _⟩ <;> rw [State.onStarted_some h] <;> exact State.cfeSignal_cases _ _

section
variable {s t : State} {e n : Nat} {o o1 : OpEntry}

/-! ## COND_ENQUEUE (06 R337 to R340, 07 R391 to R395) -/

/-- An enqueue pushes, or reads its object first. -/
def State.condEnqueueAs (s : State) (e : Nat) (o : OpEntry) : State :=
  if fld (hArg o.hdr 4 4) 0 3 = 0 then s.enqueue e o
  else match s.readObject e opCondEnqueue (if fld (hArg o.hdr 4 4) 0 3 < 3 then 0 else 1) (orefIdx (hArg o.hdr 0 4)) with
    | (none, t) => t
    | (some o1, t) => if t.condHolds o1 then t.enqueue e o1 else t.completeOp e

theorem exec_condEnqueue (s : State) (e : Nat) : exec (.condEnqueue e) s = .next (s.onStarted e opCondEnqueue (s.condEnqueueAs e)) := by
  change Host.Outcome.next (match s.started e opCondEnqueue with | none => s | some o => _) = _
  cases h : s.started e opCondEnqueue with
  | none => rw [State.onStarted_none h]
  | some o => rw [State.onStarted_some h]; rfl

theorem State.enqueue_missing (h : s.enqueueRing o = none) : s.enqueue e o = s.failOp e { status := stOpConfig } := by
  rw [State.enqueue, h]

theorem State.enqueue_disabled (h : s.enqueueRing o = some n) (hz : (s.dr n).size = 0) : s.enqueue e o = s.failOp e { status := stOpConfig } := by
  rw [State.enqueue, h]
  exact if_pos hz

theorem State.enqueue_full (h : s.enqueueRing o = some n) (hz : (s.dr n).size ≠ 0) (hfull : 2 ^ (s.dr n).size.toNat ≤ ((s.dr n).push - (s.dr n).release).toNat) :
    s.enqueue e o = s.updOp e (fun w => { w with stage := .held }) := by
  rw [State.enqueue, h]
  exact (if_neg hz).trans (if_pos hfull)

theorem State.enqueue_pushes (h : s.enqueueRing o = some n) (hz : (s.dr n).size ≠ 0) (hroom : ((s.dr n).push - (s.dr n).release).toNat < 2 ^ (s.dr n).size.toNat)
    (hg : (s.dr n).guilty = none) : s.enqueue e o =
    ((s.updDr n (fun q => { q with push := q.push + 1, nextTag := q.nextTag + 1, entries := q.entries ++ [putAt o.body 8 (toLe 6 (s.dr n).nextTag)] })).hallWritten
      (pushWords n (s.dr n).nextTag)).completeOp e := by
  rw [State.enqueue, h]
  refine ((if_neg hz).trans (if_neg (Nat.not_le.mpr hroom))).trans ?_
  rw [hg]

theorem exec_condEnqueuePush_held (h : s.op e = some o) (hl : s.live = true) (hst : o.stage = .held) (hd : o.dead = false) (hop : hOpcode o.hdr = opCondEnqueue) :
    exec (.condEnqueuePush e) s = .next (s.enqueue e o) := by
  change Host.Outcome.next (match s.op e with | some o => _ | none => s) = _
  rw [h]
  exact congrArg _ (if_pos (by simp [hl, hst, hd, hop]))

theorem exec_condEnqueuePush_none (h : s.op e = none ∨ s.live = false) : exec (.condEnqueuePush e) s = .next s := by
  change Host.Outcome.next (match s.op e with | some o => _ | none => s) = _
  cases hop : s.op e with
  | none => rfl
  | some o =>
    have hl : s.live = false := h.resolve_left (by simp [hop])
    exact congrArg _ (if_neg (by simp [hl]))

end

/-- Settles O36: the condition, then the push by the state of the ring it names. -/
theorem conditionalEnqueue : Obligations.ConditionalEnqueue := by
  intro s t e n o o1
  rw [exec_condEnqueue]
  refine ⟨fun h => ?_, fun h hz => ?_, fun c h hc hnz => ?_, exec_condEnqueuePush_held, exec_condEnqueuePush_none⟩
  · rw [State.onStarted_none h]
  · rw [State.onStarted_some h, State.condEnqueueAs, if_pos hz]
    exact ⟨fun hr => congrArg _ (State.enqueue_missing hr), fun hr hoff => congrArg _ (State.enqueue_disabled hr hoff),
      fun hr hon hfull => congrArg _ (State.enqueue_full hr hon hfull), fun hr hon hroom hg => congrArg _ (State.enqueue_pushes hr hon hroom hg)⟩
  · subst hc
    rw [State.onStarted_some h, State.condEnqueueAs, if_neg hnz]
    refine ⟨fun hr => by rw [hr], fun hr => ⟨fun hno => ?_, fun hyes => ?_⟩⟩
    · rw [hr]
      exact congrArg _ (if_neg (Bool.eq_false_iff.mp hno))
    · rw [hr]
      exact congrArg _ (if_pos hyes)

section
variable {s : State} {e c cat : Nat} {o : OpEntry} {plan : Nat → List Byte → OpEntry → Option Plan}

/-! ## Tile launches (10, 11) -/

theorem State.runLaunch_idle (h : s.started e opLaunch = none) : s.runLaunch e cat plan = s := by
  rw [State.runLaunch, h]

theorem State.runLaunch_other (h : s.started e opLaunch = some o) (hc : hCat o.hdr ≠ cat) : s.runLaunch e cat plan = s := by
  rw [State.runLaunch, h]
  exact if_pos hc

/-- A launch of the category is its plan, where its descriptor and the chip's place in its rectangle give one. -/
theorem State.runLaunch_plan (h : s.started e opLaunch = some o) (hc : hCat o.hdr = cat) : s.runLaunch e cat plan =
    match (chipCoord s.dom.chipId o.body).bind (fun c => plan c o.body o) with
    | none => s.failOp e { status := stOpConfig }
    | some p => s.runPlan e o p := by
  rw [State.runLaunch, h]
  exact if_neg (not_not.mpr hc)

/-- The plan done with operands `a` and, of those it asks for then, `b`: its results, or the failure of data that name no valid work. -/
def State.planResult (t : State) (e : Nat) (o : OpEntry) (p : Plan) (os : List Oper) (a b : List (List Byte)) : State :=
  match p.result a b with
  | .bad => t.failOp e { status := stOpConfig }
  | .done runs ovf =>
    ((t.settled o (p.ins ++ os) p.outs runs).2.updOp e (fun w => { w with ovf := w.ovf || ovf, resume := max w.resume p.point })).opWrite e
      (((p.outs.zip (t.settled o (p.ins ++ os) p.outs runs).1).map (fun y =>
        ({ base := y.1.base, len := y.1.span, runs := y.2, whole := p.whole } : OutRange))).filter (fun r => r.len ≠ 0)) p.ride

theorem State.planResult_done {t u : State} {p : Plan} {os : List Oper} {a b : List (List Byte)} {runs fin : List (List (Nat × List Byte))} {ovf : Bool}
    (hr : p.result a b = .done runs ovf) (hs : t.settled o (p.ins ++ os) p.outs runs = (fin, u)) : t.planResult e o p os a b =
    (u.updOp e (fun w => { w with ovf := w.ovf || ovf, resume := max w.resume p.point })).opWrite e
      (((p.outs.zip fin).map (fun y => ({ base := y.1.base, len := y.1.span, runs := y.2, whole := p.whole } : OutRange))).filter (fun r => r.len ≠ 0)) p.ride := by
  rw [State.planResult, hr]
  dsimp only
  rw [hs]

/-- The plan with its first operands `a`: those it asks for then are read. -/
def State.planMore (t : State) (e : Nat) (o : OpEntry) (p : Plan) (a : List (List Byte)) : State :=
  match p.more a with
  | none => t.failOp e { status := stOpConfig }
  | some os => match t.readOpers e o os with
    | (none, u) => u
    | (some b, u) => u.planResult e o p os a b

/-- The plan is done stage by stage: its checks, its operands, what these ask for, its results. -/
theorem State.runPlan_stages (p : Plan) : s.runPlan e o p = match s.checkOpers (s.opInst o) p.checks with
    | (some x, t) => t.failOp e x
    | (none, t) => match t.readOpers e o p.ins with
      | (none, u) => u
      | (some a, u) => u.planMore e o p a := rfl

end

/-- Settles O37: every tile category runs its plan, stage by stage. -/
theorem tileLaunches : Obligations.TileLaunches := by
  intro s e o c holds
  have rule : ∀ i cat plan, exec i s = .next (s.runLaunch e cat plan) → holds i cat plan := by
    intro i cat plan hexec
    refine ⟨fun h => ?_, fun h hc => ?_, fun h hc hout => ?_, fun h hc hin => ⟨fun hp => ?_, fun p s0 s1 s2 s3 a os b runs fin ovf x hp => ?_⟩⟩
    · rw [hexec, State.runLaunch_idle h]
    · rw [hexec, State.runLaunch_other h hc]
    · rw [hexec, State.runLaunch_plan h hc, hout]
      rfl
    · rw [hexec, State.runLaunch_plan h hc, hin, Option.bind_some, hp]
    · rw [hexec, State.runLaunch_plan h hc, hin, Option.bind_some, hp]
      dsimp only
      rw [State.runPlan_stages]
      refine ⟨fun hx => by rw [hx], fun hchk => ?_⟩
      rw [hchk]
      dsimp only
      refine ⟨fun ha => by rw [ha], fun ha hm => ?_, fun ha hm => ⟨fun hb => ?_, fun hb => ⟨fun hbad => ?_, fun hdone hs => ?_⟩⟩⟩
      · rw [ha]
        dsimp only
        rw [State.planMore, hm]
      · rw [ha]
        dsimp only
        rw [State.planMore, hm]
        dsimp only
        rw [hb]
      · rw [ha]
        dsimp only
        rw [State.planMore, hm]
        dsimp only
        rw [hb]
        dsimp only
        rw [State.planResult, hbad]
      · rw [ha]
        dsimp only
        rw [State.planMore, hm]
        dsimp only
        rw [hb]
        exact congrArg _ (State.planResult_done hdone hs)
  exact ⟨rule _ _ _ rfl, rule _ _ _ rfl, rule _ _ _ rfl, rule _ _ _ rfl, rule _ _ _ rfl, rule _ _ _ rfl, rule _ _ _ rfl, rule _ _ _ rfl,
    rule _ _ _ rfl, rule _ _ _ rfl, rule _ _ _ rfl, rule _ _ _ rfl, rule _ _ _ rfl⟩

section
variable {s : State} {e cat c : Nat} {o : OpEntry} {k : CollDesc}

/-! ## Collective launches (11 R541 to R546) -/

theorem State.runCollective_idle (h : s.started e opLaunch = none) : s.runCollective e cat = s := by
  rw [State.runCollective, h]

theorem State.runCollective_other (h : s.started e opLaunch = some o) (hc : hCat o.hdr ≠ cat) : s.runCollective e cat = s := by
  rw [State.runCollective, h]
  exact if_pos hc

/-- The exchange as far as announcements let it go: `t` is the state after this chip's own, `own` whether its check passed. -/
def State.collGo (t : State) (e : Nat) (o : OpEntry) (k : CollDesc) (own : Bool) : State :=
  let told := (t.opColl o).announced.filter (fun a => a.1 ≠ selfRank)
  if told.any (fun a => a.2 ≠ some 0) || !own then t.failOp e { status := stOpConfig }
  else if !((List.range k.p).all (fun r => told.any (fun a => a.1 == r))) then t
  else if k.n = 0 then t.opSent e true .none
  else t.collSend e o k

/-- A launch of the category: its descriptor, then what is left of a replay, then its announcement and the exchange. -/
theorem State.runCollective_launch (h : s.started e opLaunch = some o) (hc : hCat o.hdr = cat) (hin : chipCoord s.dom.chipId o.body = some c) :
    s.runCollective e cat = match collDesc c o.body cat with
      | none => s.failOp e { status := stOpConfig }
      | some k =>
        if o.resume ≠ 0 then s.opSent e false .none
        else (if (s.opColl o).announced.any (fun a => a.1 == selfRank) then s
          else s.collAnnounce e o k.c (decide (k.c < k.p) && decide (o.chips.length = k.p))).collGo e o k
            (decide (k.c < k.p) && decide (o.chips.length = k.p)) := by
  rw [State.runCollective, h]
  refine (if_neg (not_not.mpr hc)).trans ?_
  rw [hin]
  rfl

theorem State.collGo_failed (own : Bool) (h : ((s.opColl o).announced.filter (fun a => a.1 ≠ selfRank)).any (fun a => a.2 ≠ some 0) = true ∨ own = false) :
    s.collGo e o k own = s.failOp e { status := stOpConfig } := by
  refine if_pos ?_
  obtain h | h := h
  · rw [h]; rfl
  · rw [h]; exact Bool.or_true _

/-- With this chip's check passed and no announcement that does not fit, the ranks that have announced themselves decide. -/
theorem State.collGo_well (h : ((s.opColl o).announced.filter (fun a => a.1 ≠ selfRank)).any (fun a => a.2 ≠ some 0) = false) : s.collGo e o k true =
    if (List.range k.p).all (fun r => ((s.opColl o).announced.filter (fun a => a.1 ≠ selfRank)).any (fun a => a.1 == r)) = false then s
    else if k.n = 0 then s.opSent e true .none else s.collSend e o k := by
  rw [State.collGo]
  simp only [h, Bool.not_true, Bool.or_false, Bool.false_eq_true, if_false, Bool.not_eq_true']

end

/-- Settles O38: a launch of each collective by its descriptor and by who has announced itself. -/
theorem collectiveLaunches : Obligations.CollectiveLaunches := by
  intro s e o c k holds
  have rule : ∀ i cat, exec i s = .next (s.runCollective e cat) → holds i cat := by
    intro i cat hexec
    refine ⟨fun h => ?_, fun h hc => ?_, fun h hc hin => ?_⟩
    · rw [hexec, State.runCollective_idle h]
    · rw [hexec, State.runCollective_other h hc]
    · rw [hexec, State.runCollective_launch h hc hin]
      refine ⟨fun hd => by rw [hd], fun hd hres => ?_, fun hd hres hself hrank hchips hfit hall => ?_, fun hd hres hself hno => ?_,
        fun hd hres hself hrank hchips => ?_⟩ <;> rw [hd] <;> dsimp only
      · rw [if_pos hres]
      · rw [if_neg (not_not.mpr hres), hself, decide_eq_true hrank, decide_eq_true hchips]
        exact congrArg _ ((State.collGo_well hfit).trans (if_pos hall))
      · have hown : (decide (k.c < k.p) && decide (o.chips.length = k.p)) = false := by
          obtain h | h := hno
          · rw [decide_eq_false (Nat.not_lt.mpr h)]; rfl
          · rw [decide_eq_false h, Bool.and_false]
        rw [if_neg (not_not.mpr hres), hself, hown]
        exact congrArg _ (State.collGo_failed false (.inr rfl))
      · rw [if_neg (not_not.mpr hres), hself, decide_eq_true hrank, decide_eq_true hchips]
        refine ⟨fun hbad => congrArg _ (State.collGo_failed _ (.inl hbad)), fun hfit hall => congrArg _ ((State.collGo_well hfit).trans (if_pos hall)),
          fun hfit hall => ⟨fun hz => ?_, fun hnz => ?_⟩⟩
        · exact congrArg _ ((State.collGo_well hfit).trans ((if_neg (by rw [hall]; decide)).trans (if_pos hz)))
        · exact congrArg _ ((State.collGo_well hfit).trans ((if_neg (by rw [hall]; decide)).trans (if_neg hnz)))
  exact ⟨rule _ _ rfl, rule _ _ rfl, rule _ _ rfl⟩

end Sys2Proof.Machine

/-! SUPPORT and PROOFS. A packet for this chip: the checks it passes through, in their order (02, 15). -/

namespace Sys2Proof.Machine

section
variable {s t : State} {p : Packet} {m : CtlMsg}

theorem Packet.says_of_msg (hm : p.msg = some m) (ht : m.type = p.type) (ok : CtlMsg → Bool) : p.says ok = ok m := by
  rw [Packet.says, hm]
  exact (congrArg (· && ok m) (beq_iff_eq.mpr ht)).trans (Bool.true_and _)

/-- The row of a message acts on the packet that carries it. -/
theorem State.receive_says (hmine : s.mine p = true) (hm : p.msg = some m) (ht : m.type = p.type) {ok : CtlMsg → Bool} (hok : ok m = true) :
    s.receive takeAny p (p.says ok) = (s.deliver takeAny p).afterAnswer :=
  State.receive_mine hmine takeAny ((Packet.says_of_msg hm ht ok).trans hok)

/-- A row of one subtype of a type, told by a field of the packet, acts on the packet of both. -/
theorem State.receive_subtype (hmine : s.mine p = true) (take : Taker) {ty : BitVec 8} {field n : Nat} (hty : p.type = ty) (hn : field = n) :
    s.receive take p (p.type == ty && field == n) = (s.deliver take p).afterAnswer :=
  State.receive_mine hmine take (by rw [beq_iff_eq.mpr hty, beq_iff_eq.mpr hn]; rfl)

theorem State.deliver_lost (take : Taker) (hl : s.isLost p.src = true) : s.deliver take p = s := if_pos hl

section
variable (take : Taker) (hl : s.isLost p.src = false)
include hl

theorem State.deliver_malformed (hf : p.malformed = true) : s.deliver take p = s.dropPacket p 2 := by
  rw [State.deliver, if_neg (Bool.eq_false_iff.mp hl), if_pos hf]

variable (hf : p.malformed = false)
include hf

theorem State.deliver_pcrc (hc : p.crc ≠ p.pcrc) : s.deliver take p = s.bumpPcrc.sendNak p 1 := by
  rw [State.deliver, if_neg (Bool.eq_false_iff.mp hl), if_neg (Bool.eq_false_iff.mp hf), if_pos hc]

variable (hc : p.crc = p.pcrc)
include hc

theorem State.deliver_stale (ht : p.tinc ≠ s.dom.chipInc) : s.deliver take p = s.sendNak p 2 := by
  rw [State.deliver, if_neg (Bool.eq_false_iff.mp hl), if_neg (Bool.eq_false_iff.mp hf), if_neg (not_not.mpr hc), if_pos ht]

variable (ht : p.tinc = s.dom.chipInc)
include ht

theorem State.deliver_epoch (hctl : p.isCtl = false) (he : p.iepoch ≠ (s.inst p.inst.toNat).epoch) :
    s.deliver take p = State.releaseOrd take (s.fab.ordHeld.length + 1) ((s.refuseEpoch p).sendAck p 0x13) := by
  rw [State.deliver, if_neg (Bool.eq_false_iff.mp hl), if_neg (Bool.eq_false_iff.mp hf), if_neg (not_not.mpr hc), if_neg (not_not.mpr ht), hctl,
    decide_eq_true he]
  exact if_pos rfl

/-- What becomes of a sound packet, by the window of its source. -/
def State.deliverIn (take : Taker) (p : Packet) : Win × State → State
  | (.old, s1) => s1
  | (.full, s1) => s1.sendNak p 3
  | (.here w, s1) =>
    if w.has p.tid then (if p.type == tyReadReq then s1.readAgain take p else s1.sendAck p (w.outcome p.tid))
    else State.passOn take (if p.ord then s1 else s1.passTid p.src p.tid) p

/-- A packet that passes every check goes by the window of its source. -/
theorem State.deliver_sound (hi : p.isCtl = true ∨ p.iepoch = (s.inst p.inst.toNat).epoch) :
    s.deliver take p = State.deliverIn take p (s.windowFor p) := by
  have hpass : ¬ (!p.isCtl && decide (p.iepoch ≠ (s.inst p.inst.toNat).epoch)) = true := by
    obtain h | h := hi
    · rw [h]; exact Bool.false_ne_true
    · rw [decide_eq_false (not_not.mpr h), Bool.and_false]; exact Bool.false_ne_true
  rw [State.deliver, if_neg (Bool.eq_false_iff.mp hl), if_neg (Bool.eq_false_iff.mp hf), if_neg (not_not.mpr hc), if_neg (not_not.mpr ht), if_neg hpass]
  rfl

end

variable {take : Taker} {w : Window256}

/-- A duplicate of a transfer that has its outcome is answered again with it. -/
theorem State.deliverIn_acknowledged (h : w.has p.tid = true) (ht : p.type ≠ tyReadReq) :
    State.deliverIn take p (.here w, t) = t.sendAck p (w.outcome p.tid) :=
  (if_pos h).trans (if_neg (mt beq_iff_eq.mp ht))

/-- A duplicate of a read is read again. -/
theorem State.deliverIn_readAgain (h : w.has p.tid = true) (ht : p.type = tyReadReq) : State.deliverIn take p (.here w, t) = t.readAgain take p :=
  (if_pos h).trans (if_pos (beq_iff_eq.mpr ht))

theorem State.deliverIn_new (h : w.has p.tid = false) :
    State.deliverIn take p (.here w, t) = State.passOn take (if p.ord then t else t.passTid p.src p.tid) p :=
  if_neg (Bool.eq_false_iff.mp h)

/-- A packet of an earlier incarnation of its source. -/
theorem State.windowFor_old (hw : s.window p.src = some w) (hne : w.sinc ≠ p.sinc) (hbehind : 127 < (p.sinc - w.sinc).toNat) : s.windowFor p = (.old, s) := by
  rw [State.windowFor, hw]
  exact (if_neg hne).trans (if_neg fun h => Nat.not_le.mpr hbehind h.2)

theorem State.windowFor_full (hw : s.window p.src = none) (hmany : 256 ≤ s.fab.windows.length) : s.windowFor p = (.full, s) := by
  rw [State.windowFor, hw]
  exact if_pos hmany

theorem Window256.has_iff (w : Window256) (tid : BitVec 24) :
    w.has tid = true ↔ (1 ≤ (w.base - tid).toNat ∧ (w.base - tid).toNat ≤ 2 ^ 23) ∨ tid ∈ w.done := by
  simp only [Window256.has, Window256.below, Bool.or_eq_true, decide_eq_true_eq, List.contains_iff_mem]

end

/-- Settles O43: the row of each type delivers, and a delivery ends at the first check that fails. -/
theorem packetDelivery : Obligations.PacketDelivery := by
  intro s p m via found fn
  refine ⟨fun hmine => ?rows, fun hmine => ?foreign, fun take => ⟨State.deliver_lost take, State.deliver_malformed take, fun hl hf => ?checks⟩,
    fun _ => State.windowFor_old, State.windowFor_full, Window256.has_iff⟩
  case checks =>
    refine ⟨State.deliver_pcrc take hl hf, State.deliver_stale take hl hf, State.deliver_epoch take hl hf, fun hc ht hi => ?_⟩
    rw [State.deliver_sound take hl hf hc ht hi]
    exact ⟨fun t h => by rw [h]; rfl, fun t h => by rw [h]; rfl, fun w t h hdup hty => by rw [h, State.deliverIn_acknowledged hdup hty],
      fun w t h hdup hty => by rw [h, State.deliverIn_readAgain hdup hty], fun w t h hnew => by rw [h, State.deliverIn_new hnew]⟩
  case foreign =>
    have ignored : ∀ {i : Instr} (take : Taker) (ok : Bool), exec i s = .next (s.receive take p ok) → exec i s = .next s := fun take ok h =>
      h.trans (congrArg _ (State.receive_foreign hmine take ok))
    iterate 32 refine ⟨ignored _ _ rfl, ?_⟩
    exact ignored _ _ rfl
  case rows =>
    have delivers : ∀ {i : Instr} (take : Taker) {ok : Bool}, exec i s = .next (s.receive take p ok) → ok = true →
        exec i s = .next ((s.deliver take p).afterAnswer) := fun take _ h hok => h.trans (congrArg _ (State.receive_mine hmine take hok))
    have bySubtype : ∀ {i : Instr} (take : Taker) {ty : BitVec 8} {field n : Nat}, exec i s = .next (s.receive take p (p.type == ty && field == n)) →
        p.type = ty ∧ field = n → exec i s = .next ((s.deliver take p).afterAnswer) :=
      fun take _ _ _ h hn => h.trans (congrArg _ (State.receive_subtype hmine take hn.1 hn.2))
    refine ⟨fun ⟨ht, hv, hm⟩ => delivers _ rfl (by rw [ht, hv, hm]; rfl), delivers _ rfl, fun ht => delivers _ rfl (beq_iff_eq.mpr ht),
      fun ⟨ht, h2, h3⟩ => delivers _ rfl (by rw [ht, bne_iff_ne.mpr h2, bne_iff_ne.mpr h3]; rfl), bySubtype _ rfl, bySubtype _ rfl, bySubtype _ rfl,
      bySubtype _ rfl, bySubtype _ rfl, fun ⟨ht, h0⟩ => delivers _ rfl (by rw [ht, bne_iff_ne.mpr h0]; rfl), bySubtype _ rfl, bySubtype _ rfl, bySubtype _ rfl,
      bySubtype _ rfl, bySubtype _ rfl, bySubtype _ rfl, bySubtype _ rfl, fun hm ht => ?_⟩
    have acts : ∀ {i : Instr} {ok : CtlMsg → Bool}, exec i s = .next (s.receive takeAny p (p.says ok)) → ok m = true →
        exec i s = .next ((s.deliver takeAny p).afterAnswer) := fun h hok => h.trans (congrArg _ (State.receive_says hmine hm ht hok))
    have actsWhen : ∀ {i : Instr} {ok : CtlMsg → Bool} {b : Bool}, exec i s = .next (s.receive takeAny p (b && p.says ok)) → b = true → ok m = true →
        exec i s = .next ((s.deliver takeAny p).afterAnswer) := fun h hb hok => by
      subst hb
      exact acts (h.trans (by rw [Bool.true_and])) hok
    exact ⟨fun _ _ _ h => acts rfl (by rw [h]), fun _ _ _ _ h => acts rfl (by rw [h]), fun _ _ h => acts rfl (by rw [h]), fun _ h => acts rfl (by rw [h]),
      fun _ h => acts rfl (by rw [h]), fun _ h hroot => actsWhen rfl hroot (beq_iff_eq.mpr h),
      fun _ h hrole => actsWhen rfl (beq_iff_eq.mpr hrole) (by rw [h]), fun _ _ _ h => acts rfl (by rw [h]), fun _ _ _ _ h => acts rfl (by rw [h]),
      fun _ h => acts rfl (by rw [h]), fun _ _ h => acts rfl (by rw [h]), acts rfl,
      fun _ _ _ h => ⟨acts rfl (by rw [h]), fun hbusy => actsWhen rfl hbusy (by rw [h])⟩, fun _ _ h hfn => acts rfl (by rw [h]; exact beq_iff_eq.mpr hfn),
      fun h => acts rfl (beq_iff_eq.mpr h)⟩

end Sys2Proof.Machine

/-! SUPPORT and PROOFS. What a write and a read of device memory do to its bytes, and where raw DRAM keeps them (03, 16). -/

namespace Sys2Proof.Machine

/-! ## What leaves the bytes and their keys alone -/

/-- The bytes of memory and the keys they are held under. -/
def State.cells (s : State) : Tbl Byte × Tbl Nat := (s.mem.bytes, s.mem.enc)

section
variable {s t : State}

theorem cells_foldl {α : Type} {f : State → α → State} (h : ∀ s a, (f s a).cells = s.cells) (l : List α) (s : State) : (l.foldl f s).cells = s.cells := by
  induction l generalizing s with
  | nil => rfl
  | cons a l ih => exact (ih _).trans (h s a)

theorem State.wakeMem_cells (s : State) (a : Nat) : (s.wakeMem a).cells = s.cells := by
  unfold State.wakeMem
  split <;> rfl

theorem State.bumpCe_cells (s : State) (n : Nat) : (s.bumpCe n).cells = s.cells := by
  unfold State.bumpCe
  dsimp only
  split
  · rw [State.cells, State.safeReport_mem, State.event_mem]
    rfl
  · rfl

theorem State.correctTag_cells (s : State) (g : Nat) : (s.correctTag g).cells = s.cells := by
  unfold State.correctTag
  split
  · exact State.bumpCe_cells _ _
  · rfl

theorem State.correct_cells (s : State) (ws : List Nat) : (s.correct ws).cells = s.cells := by
  refine cells_foldl (fun s w => ?_) ws s
  have htag : (if 8 * w < dramEnd then s.correctTag (groupOf (8 * w)) else s).cells = s.cells := by
    split
    · exact State.correctTag_cells _ _
    · rfl
  dsimp only
  generalize (if 8 * w < dramEnd then s.correctTag (groupOf (8 * w)) else s) = u at htag ⊢
  split
  · exact (State.bumpCe_cells _ _).trans htag
  · exact htag

theorem State.unflips_cells (ws : List Nat) (s : State) : (ws.foldl State.unflip s).cells = s.cells :=
  cells_foldl (f := State.unflip) (fun _ _ => rfl) ws s

theorem State.reportUe_mem (s : State) (a : Nat) : (s.reportUe a).mem.bytes = s.mem.bytes ∧ (s.reportUe a).mem.flips = s.mem.flips := by
  unfold State.reportUe
  dsimp only
  rw [State.event_mem]
  split
  · exact ⟨rfl, rfl⟩
  · split <;> exact ⟨rfl, rfl⟩

/-- Blocks held under the key already are not written. -/
theorem State.rekey_held {key : Nat} {bs : List Nat} (h : ∀ c ∈ bs, Tbl.get 0 s.mem.enc c = key) : s.rekey key bs = s := by
  induction bs with
  | nil => rfl
  | cons b bs ih =>
    obtain ⟨hb, hbs⟩ := List.forall_mem_cons.mp h
    exact (congrArg (fun t : State => t.rekey key bs) (if_pos hb)).trans (ih hbs)

theorem State.pokes_flips (s : State) (a : Nat) (bs : List Byte) : (s.pokes a bs).mem.flips = s.mem.flips := by
  induction bs generalizing s a with
  | nil => rfl
  | cons b bs ih => exact ih (s.poke a b) (a + 1)

theorem State.rekey_flips (s : State) (key : Nat) (bs : List Nat) : (s.rekey key bs).mem.flips = s.mem.flips := by
  induction bs generalizing s with
  | nil => rfl
  | cons b bs ih =>
    refine (ih _).trans ?_
    dsimp only
    split
    · rfl
    · exact (State.pokes_flips _ _ _).trans (by rw [State.drawBytes_mem])

/-! ## The bytes of a run, stored one by one but for those of the words left out -/

/-- A run of bytes stored, but for the words of `bad`. -/
def State.pokesBut (bad : List Nat) (a : Nat) (bs : List Byte) (s : State) : State :=
  (indexed a bs).foldl (fun s e => if bad.contains (e.1 / 8) then s else s.poke e.1 e.2) s

theorem State.pokesBut_cons (bad : List Nat) (a : Nat) (b : Byte) (bs : List Byte) (s : State) :
    s.pokesBut bad a (b :: bs) = (if bad.contains (a / 8) then s else s.poke a b).pokesBut bad (a + 1) bs := rfl

theorem State.pokesBut_flips (bad : List Nat) (a : Nat) (bs : List Byte) (s : State) : (s.pokesBut bad a bs).mem.flips = s.mem.flips := by
  induction bs generalizing a s with
  | nil => rfl
  | cons b bs ih =>
    rw [State.pokesBut_cons, ih]
    split <;> rfl

/-- A byte outside the run, or of a word left out, stands. -/
theorem State.pokesBut_other {bad : List Nat} {a x : Nat} {bs : List Byte} (h : (x < a ∨ a + bs.length ≤ x) ∨ x / 8 ∈ bad) :
    Tbl.get 0 (s.pokesBut bad a bs).mem.bytes x = Tbl.get 0 s.mem.bytes x := by
  induction bs generalizing a s with
  | nil => rfl
  | cons b bs ih =>
    rw [List.length_cons] at h
    have hrest : (x < a + 1 ∨ a + 1 + bs.length ≤ x) ∨ x / 8 ∈ bad := h.imp_left fun h => h.imp (by omega) (by omega)
    rw [State.pokesBut_cons, ih hrest]
    split
    · rfl
    next hbad =>
      have hne : x ≠ a := by
        rintro rfl
        exact hbad (List.contains_iff_mem.mpr (h.resolve_left (by omega)))
      exact Tbl.get_set_other 0 _ _ _ _ hne

/-- With no word left out each byte of the run reads as stored. -/
theorem State.pokesBut_same {a k : Nat} {b : Byte} {bs : List Byte} (hs : Mem.wf s.mem = true) (hk : bs[k]? = some b) :
    Tbl.get 0 (s.pokesBut [] a bs).mem.bytes (a + k) = b := by
  induction bs generalizing a k s with
  | nil => cases hk
  | cons c bs ih =>
    change Tbl.get 0 ((s.poke a c).pokesBut [] (a + 1) bs).mem.bytes (a + k) = b
    cases k with
    | zero =>
      obtain rfl : c = b := Option.some.inj hk
      rw [State.pokesBut_other (.inl (.inl (by omega)))]
      have hbytes : Tbl.wf 0 s.mem.bytes = true := (Bool.and_eq_true_iff.mp hs).1
      exact Tbl.get_set 0 _ none _ _ hbytes
    | succ k =>
      rw [show a + (k + 1) = a + 1 + k by omega]
      exact ih (State.poke_wf s a c hs) hk

/-- A word whose flips are cleared reads none. -/
theorem State.unflips_flips {ws : List Nat} {w : Nat} (hs : Mem.wf s.mem = true) (hw : w ∈ ws ∨ Tbl.get 0 s.mem.flips w = 0) :
    Tbl.get 0 (ws.foldl State.unflip s).mem.flips w = 0 := by
  induction ws generalizing s with
  | nil => exact hw.resolve_left List.not_mem_nil
  | cons v ws ih =>
    refine ih (State.unflip_wf s v hs) ?_
    have hflips : Tbl.wf 0 s.mem.flips = true := (Bool.and_eq_true_iff.mp (Bool.and_eq_true_iff.mp hs).2).1
    by_cases hv : w = v
    · exact .inr (hv ▸ Tbl.get_set 0 _ none _ _ hflips)
    · exact hw.imp (fun h => (List.mem_cons.mp h).resolve_left hv) fun h => (Tbl.get_set_other 0 _ _ _ _ hv).trans h

end

/-! ## A write -/

section
variable (s : State) (key a : Nat) (bs : List Byte)

/-- The words a write covers in part that are uncorrectable: it leaves them as they are. -/
def State.badOf : List Nat := (wordsOf a bs.length).filter (fun w => s.wordBad w && !coversWord a bs.length w)

/-- Memory with the words a write covers in part corrected and the flips of those it covers cleared. -/
def State.cleaned : State :=
  ((wordsOf a bs.length).filter (coversWord a bs.length)).foldl State.unflip
    ((s.wakeMem a).correct ((wordsOf a bs.length).filter (fun w => !coversWord a bs.length w && !s.wordBad w)))

/-- The state in which a write stores its bytes: as cleaned, its cipher blocks brought under its key. -/
def State.readied : State := if a < dramEnd then (s.cleaned a bs).rekey key (blocksOf key a bs.length) else s.cleaned a bs

theorem State.writeMem_eq : s.writeMem key a bs =
    ((s.badOf a bs).head?.map (8 * ·), match (s.badOf a bs).head? with
      | some w => ((s.readied key a bs).pokesBut (s.badOf a bs) a bs).reportUe (8 * w)
      | none => (s.readied key a bs).pokesBut (s.badOf a bs) a bs) := rfl

/-- The report of an error leaves the bytes and the flips as the stores left them. -/
theorem State.writeMem_mem : (s.writeMem key a bs).2.mem.bytes = ((s.readied key a bs).pokesBut (s.badOf a bs) a bs).mem.bytes ∧
    (s.writeMem key a bs).2.mem.flips = ((s.readied key a bs).pokesBut (s.badOf a bs) a bs).mem.flips := by
  rw [State.writeMem_eq]
  dsimp only
  split
  · exact State.reportUe_mem _ _
  · exact ⟨rfl, rfl⟩

theorem State.cleaned_cells : (s.cleaned a bs).cells = s.cells :=
  (State.unflips_cells _ _).trans ((State.correct_cells _ _).trans (State.wakeMem_cells s a))

theorem State.cleaned_wf (hs : Mem.wf s.mem = true) : Mem.wf (s.cleaned a bs).mem = true :=
  wf_fold (fun s w h => State.unflip_wf s w h) _ (State.correct_wf _ _ (State.wakeMem_wf s a hs))

theorem State.readied_wf (hs : Mem.wf s.mem = true) : Mem.wf (s.readied key a bs).mem = true := by
  unfold State.readied
  split
  · exact State.rekey_wf _ _ _ (s.cleaned_wf a bs hs)
  · exact s.cleaned_wf a bs hs

theorem State.readied_flips : (s.readied key a bs).mem.flips = (s.cleaned a bs).mem.flips := by
  unfold State.readied
  split
  · exact State.rekey_flips _ _ _
  · rfl

/-- A word the write covers has no flips left. -/
theorem State.cleaned_covered {w : Nat} (hs : Mem.wf s.mem = true) (hw : w ∈ wordsOf a bs.length) (hc : coversWord a bs.length w = true) :
    Tbl.get 0 (s.cleaned a bs).mem.flips w = 0 :=
  State.unflips_flips (State.correct_wf _ _ (State.wakeMem_wf s a hs)) (.inl (List.mem_filter.mpr ⟨hw, hc⟩))

variable {s key a bs}

theorem State.badOf_nil (h : ∀ w ∈ wordsOf a bs.length, s.wordBad w = true → coversWord a bs.length w = true) : s.badOf a bs = [] := by
  refine List.filter_eq_nil_iff.mpr fun w hw hbad => ?_
  obtain ⟨hb, hc⟩ := Bool.and_eq_true_iff.mp hbad
  rw [h w hw hb] at hc
  cases hc

theorem State.mem_badOf {w : Nat} (hw : w ∈ wordsOf a bs.length) (hb : s.wordBad w = true) (hc : coversWord a bs.length w = false) : w ∈ s.badOf a bs :=
  List.mem_filter.mpr ⟨hw, by rw [hb, hc]; rfl⟩

/-- Where nothing changes its key a write's preparation leaves the bytes of memory alone. -/
theorem State.readied_held (h : dramEnd ≤ a ∨ ∀ c ∈ blocksOf key a bs.length, Tbl.get 0 s.mem.enc c = key) :
    (s.readied key a bs).mem.bytes = s.mem.bytes := by
  obtain ⟨hbytes, henc⟩ := Prod.mk.inj (s.cleaned_cells a bs)
  unfold State.readied
  split
  next hlow =>
    have hheld := h.resolve_left (Nat.not_le.mpr hlow)
    rw [State.rekey_held (by rw [henc]; exact hheld)]
    exact hbytes
  · exact hbytes

/-- A byte outside the run, or of an uncorrectable word covered in part, stands. -/
theorem State.writeMem_stands {x : Nat} (h : dramEnd ≤ a ∨ ∀ c ∈ blocksOf key a bs.length, Tbl.get 0 s.mem.enc c = key)
    (hx : (x < a ∨ a + bs.length ≤ x) ∨ x / 8 ∈ s.badOf a bs) : Tbl.get 0 (s.writeMem key a bs).2.mem.bytes x = Tbl.get 0 s.mem.bytes x := by
  rw [(s.writeMem_mem key a bs).1, State.pokesBut_other hx, State.readied_held h]

end

/-! ## A read -/

section
variable {s : State} {key a : Nat}

theorem State.wakeMem_wordBad (s : State) (a : Nat) : (s.wakeMem a).wordBad = s.wordBad := by
  unfold State.wakeMem
  split <;> rfl

theorem State.readMem_bad {n w : Nat} (h : (wordsOf a n).find? s.wordBad = some w) :
    (s.readMem key a n).1 = .inr (8 * w) ∧ (s.readMem key a n).2.mem.bytes = s.mem.bytes := by
  have hcheck : (s.wakeMem a).readCheck (wordsOf a n) = (some (8 * w), (s.wakeMem a).reportUe (8 * w)) := by
    rw [State.readCheck, State.wakeMem_wordBad, h]
  rw [State.readMem, hcheck]
  exact ⟨rfl, (State.reportUe_mem _ _).1.trans (congrArg Prod.fst (s.wakeMem_cells a))⟩

/-- Bytes held under the key, or outside DRAM, are those of memory. -/
theorem State.peeks_held {l : List Nat} (h : ∀ x ∈ l, dramEnd ≤ x ∨ Tbl.get 0 s.mem.enc (x / 16) = key) : s.peeks key l = (l.map (Tbl.get 0 s.mem.bytes), s) := by
  induction l with
  | nil => rfl
  | cons x l ih =>
    obtain ⟨hx, hl⟩ := List.forall_mem_cons.mp h
    have hpeek : s.peek key x = (Tbl.get 0 s.mem.bytes x, s) := by
      refine if_pos ?_
      split
      next hlow => exact hx.resolve_left (Nat.not_le.mpr hlow)
      · rfl
    change ((s.peek key x).1 :: ((s.peek key x).2.peeks key l).1, ((s.peek key x).2.peeks key l).2) = _
    rw [hpeek, ih hl]
    rfl

theorem State.readMem_held {n : Nat} (hgood : ∀ w ∈ wordsOf a n, s.wordBad w = false)
    (h : ∀ x ∈ addrs a n, dramEnd ≤ x ∨ Tbl.get 0 s.mem.enc (x / 16) = key) :
    (s.readMem key a n).1 = .inl ((List.range n).map (fun k => Tbl.get 0 s.mem.bytes (k + a))) ∧ (s.readMem key a n).2.mem.bytes = s.mem.bytes := by
  have hcheck : (s.wakeMem a).readCheck (wordsOf a n) = (none, (s.wakeMem a).correct (wordsOf a n)) := by
    rw [State.readCheck, State.wakeMem_wordBad, List.find?_eq_none.mpr fun w hw => Bool.eq_false_iff.mp (hgood w hw)]
  obtain ⟨hbytes, henc⟩ := Prod.mk.inj ((State.correct_cells _ (wordsOf a n)).trans (s.wakeMem_cells a))
  rw [State.readMem, hcheck]
  dsimp only
  rw [State.peeks_held (by rw [henc]; exact h), addrs, List.map_map, hbytes]
  exact ⟨rfl, rfl⟩

/-- A byte without flips that no key holds is stored as it stands. -/
theorem State.rawByte_plain (he : Tbl.get 0 s.mem.enc (a / 16) = 0) (hf : Tbl.get 0 s.mem.flips (a / 8) = 0) : s.rawByte a = Tbl.get 0 s.mem.bytes a := by
  have hdata : s.dataByte a = Tbl.get 0 s.mem.bytes a := by
    rw [State.dataByte, he]
    rfl
  rw [State.rawByte, hdata, hf]
  simp

end

/-- Settles O50: the bytes a write stores and those it leaves, what a read answers, and the places of raw DRAM. -/
theorem memoryWrites : Obligations.MemoryWrites := by
  intro s key a bs
  refine ⟨fun hs hcov => ?written, fun hheld x hx => State.writeMem_stands hheld (.inl hx), fun w hw hbad hc hheld => ?partly,
    fun n w => State.readMem_bad, fun n hgood hheld => State.readMem_held hgood fun x hx => ?_, fun x y => ?places, State.rawByte_plain⟩
  case written =>
    have hnil := State.badOf_nil hcov
    obtain ⟨hbytes, hflips⟩ := s.writeMem_mem key a bs
    rw [hnil] at hbytes hflips
    refine ⟨?_, fun k b hk => ?_, fun w hw hc => ?_⟩
    · rw [State.writeMem_eq, hnil]
      rfl
    · rw [hbytes]
      exact State.pokesBut_same (s.readied_wf key a bs hs) hk
    · rw [hflips, State.pokesBut_flips, State.readied_flips]
      exact s.cleaned_covered a bs hs hw hc
  case partly =>
    have hmem := State.mem_badOf hw hbad hc
    refine ⟨?_, fun x hx => State.writeMem_stands hheld (.inr (hx ▸ hmem))⟩
    rw [State.writeMem_eq]
    cases hl : s.badOf a bs with
    | nil => rw [hl] at hmem; cases hmem
    | cons v l => rfl
  case places =>
    simp only [rawPlace, checkPlace, tagPlace, groupOf, linePos, Prod.mk.injEq, ne_eq]
    refine ⟨?_, ?_, ?_, ?_, ?_, ?_, ?_, ?_⟩ <;> omega
  · simp only [addrs, List.mem_map, List.mem_range] at hx
    obtain ⟨k, hk, rfl⟩ := hx
    exact hheld.imp (by omega) fun h => h.2 _ (by omega) (by omega)

end Sys2Proof.Machine

/-! SUPPORT and PROOFS. A poll of SHADOW_PI: what reading a piece leaves of the instances, and the one request it makes (05, log 36). -/

namespace Sys2Proof.Machine

section
variable (s : State)

theorem insts_foldl {α : Type} {f : State → α → State} (h : ∀ s a, (f s a).insts = s.insts) (l : List α) (s : State) : (l.foldl f s).insts = s.insts := by
  induction l generalizing s with
  | nil => rfl
  | cons a l ih => exact (ih _).trans (h s a)

/-! ## Events leave the instances alone -/

@[simp] theorem State.bmeDiscard_insts (n : Nat) : (s.bmeDiscard n).insts = s.insts := by
  obtain ⟨f, x, h⟩ := s.bmeDiscard_touches n
  rw [h]

@[simp] theorem State.cause_insts (n c : Nat) : (s.cause n c).insts = s.insts := by
  obtain ⟨f, x, h, o, e⟩ := s.cause_touches n c
  rw [e]

@[simp] theorem State.sendWrite_insts (n addr : Nat) (bs : List Byte) (relaxed : Bool) : (s.sendWrite n addr bs relaxed).insts = s.insts := rfl

theorem State.hold_insts (n : Nat) (h : HeldPost) : (s.hold_ n h).insts = s.insts := rfl

@[simp] theorem State.dlogPut_insts (i page : Nat) : (s.dlogPut i page).insts = s.insts := by
  unfold State.dlogPut
  dsimp only
  split
  · simp
  · split <;> simp

@[simp] theorem State.dlogAll_insts (i : Nat) (ps : List Nat) : (s.dlogAll i ps).1.insts = s.insts := by
  induction ps generalizing s with
  | nil => rfl
  | cons p ps ih =>
    rw [State.dlogAll]
    split
    · simp [ih]
    · rfl

@[simp] theorem State.post_insts (n addr : Nat) (bs : List Byte) (relaxed : Bool) : (s.post n addr bs relaxed).insts = s.insts := by
  unfold State.post State.postAs
  dsimp only
  repeat' split
  all_goals simp [State.hold_insts]

@[simp] theorem State.postRing_insts (i dva : Nat) (bs : List Byte) : (s.postRing i dva bs).insts = s.insts := by
  unfold State.postRing
  split
  · simp
  · rfl

@[simp] theorem State.sendGroup_insts (n : Nat) (fs : List (BitVec 12 × Flit)) : (s.sendGroup n fs).insts = s.insts := rfl

@[simp] theorem State.pumpPort_insts (n : Nat) : (s.pumpPort n).insts = s.insts :=
  insts_foldl (fun t g => t.sendGroup_insts n g) _ _

@[simp] theorem State.sendOn_insts (n : Nat) (p : Packet) : (s.sendOn n p).insts = s.insts := State.pumpPort_insts _ n

@[simp] theorem State.routeOut_insts (p : Packet) (via : Option Nat) : (s.routeOut p via).1.insts = s.insts := by
  unfold State.routeOut
  split
  · rfl
  · exact insts_foldl (fun t n => t.sendOn_insts n p) _ s

@[simp] theorem State.injectQuiet_insts (p : Packet) : (s.injectQuiet p).insts = s.insts := by
  unfold State.injectQuiet State.carried
  dsimp only
  repeat' split
  all_goals simp

@[simp] theorem State.newXferBy_insts (dst : ChipId) (why : Purpose) (ps : List Packet) : (s.newXferBy State.injectQuiet dst why ps).insts = s.insts := by
  unfold State.newXferBy
  dsimp only
  split
  · rfl
  · exact insts_foldl (fun t p => t.injectQuiet_insts p) _ _

@[simp] theorem State.deviceSignal_insts (g : Sig) : (s.deviceSignal g).insts = s.insts := by
  unfold State.deviceSignal
  split <;> rfl

@[simp] theorem State.event_insts (code sev inst x y : Nat) : (s.event code sev inst x y).insts = s.insts := by
  have pushed : ∀ bs, (s.pushEvent bs).insts = s.insts := by
    intro bs
    unfold State.pushEvent State.evqWrite
    dsimp only
    repeat' split
    all_goals simp
  unfold State.event
  dsimp only
  split
  · rw [State.cause_insts, pushed]
  · exact pushed _

/-! ## So does a read of memory, and a translation -/

@[simp] theorem State.reportUe_insts (a : Nat) : (s.reportUe a).insts = s.insts := by
  unfold State.reportUe
  dsimp only
  rw [State.event_insts]
  repeat' split
  all_goals rfl

@[simp] theorem State.bumpCe_insts (n : Nat) : (s.bumpCe n).insts = s.insts := by
  unfold State.bumpCe
  dsimp only
  split
  · exact State.event_insts _ _ _ _ _ _
  · rfl

@[simp] theorem State.correctTag_insts (g : Nat) : (s.correctTag g).insts = s.insts := by
  unfold State.correctTag
  split
  · exact State.bumpCe_insts _ _
  · rfl

@[simp] theorem State.correct_insts (ws : List Nat) : (s.correct ws).insts = s.insts := by
  refine insts_foldl (fun s w => ?_) ws s
  have htag : (if 8 * w < dramEnd then s.correctTag (groupOf (8 * w)) else s).insts = s.insts := by
    split
    · exact State.correctTag_insts _ _
    · rfl
  dsimp only
  generalize (if 8 * w < dramEnd then s.correctTag (groupOf (8 * w)) else s) = u at htag ⊢
  split
  · exact (State.bumpCe_insts _ _).trans htag
  · exact htag

@[simp] theorem State.peeks_insts (key : Nat) (l : List Nat) : (s.peeks key l).2.insts = s.insts := by
  induction l generalizing s with
  | nil => rfl
  | cons a l ih =>
    refine (ih _).trans ?_
    unfold State.peek
    dsimp only
    repeat' split
    all_goals rfl

@[simp] theorem State.wakeMem_insts (a : Nat) : (s.wakeMem a).insts = s.insts := by
  unfold State.wakeMem
  split <;> rfl

@[simp] theorem State.readMem_insts (key a n : Nat) : (s.readMem key a n).2.insts = s.insts := by
  have checked : ((s.wakeMem a).readCheck (wordsOf a n)).2.insts = s.insts := by
    unfold State.readCheck
    split <;> simp
  unfold State.readMem
  split
  next h => rwa [h] at checked
  next h =>
    rw [h] at checked
    exact (State.peeks_insts _ _ _).trans checked

@[simp] theorem State.walkRead_insts (a : Nat) : (s.walkRead a).2.insts = s.insts := by
  have hread := s.readMem_insts 0 a 8
  unfold State.walkRead
  split
  next h => rwa [h] at hread
  next h => rwa [h] at hread

theorem State.walkRead_insts_of {a : Nat} {r : Option Nat} {t : State} {s : State} (h : s.walkRead a = (r, t)) : t.insts = s.insts := by
  rw [← s.walkRead_insts a, h]

@[simp] theorem State.walk_insts (i dva : Nat) (write : Bool) : (s.walk i dva write).2.insts = s.insts := by
  unfold State.walk
  dsimp only
  split
  · rfl
  split
  · rfl
  split
  next h1 =>
    have first := State.walkRead_insts_of h1
    exact first
  next e1 s1 h1 =>
    have first := State.walkRead_insts_of h1
    change s1.insts = s.insts at first
    split
    · exact first
    split
    · exact first
    split
    next h2 => exact (State.walkRead_insts_of h2).trans first
    next e2 s2 h2 =>
      have second : s2.insts = s.insts := (State.walkRead_insts_of h2).trans first
      split
      · exact second
      split
      · split <;> exact second
      split
      · exact second
      split
      · exact second
      split
      next h3 => exact (State.walkRead_insts_of h3).trans second
      next e3 s3 h3 =>
        have third : s3.insts = s.insts := (State.walkRead_insts_of h3).trans second
        split
        · exact third
        · split <;> exact third

theorem State.xlate_insts {i dva len : Nat} {write : Bool} {r : Target} {t : State} (h : s.xlate i dva len write = (r, t)) : t.insts = s.insts := by
  unfold State.xlate at h
  split at h
  · cases h; rfl
  · split at h
    · cases h; rfl
    · split at h
      · cases h; rfl
      · rw [← s.walk_insts i dva write, h]

/-- A piece that is still to be asked for is asked for at once, and the instances stand. -/
theorem State.gatherPiece_need {i access base dva len : Nat} {st : Tbl (Option Byte)} {asks : List (Nat × Nat × AskTo)} {t : State}
    (h : s.gatherPiece i st access base dva len = (.need asks, t)) : (∃ a, asks = [a]) ∧ t.insts = s.insts := by
  unfold State.gatherPiece at h
  dsimp only at h
  split at h
  · cases h
  split at h
  · cases h
  · cases h
  · cases h
  next hx =>
    split at h
    · split at h
      · cases h
      · split at h
        · cases h
        · split at h <;> cases h
    · split at h
      · cases h
      · cases h
        exact ⟨⟨_, rfl⟩, s.xlate_insts hx⟩
  next hx =>
    split at h
    · cases h
    · split at h
      · split at h
        · cases h
          exact ⟨⟨_, rfl⟩, s.xlate_insts hx⟩
        · cases h
      · cases h
        exact ⟨⟨_, rfl⟩, s.xlate_insts hx⟩

theorem State.ringInst_host_of {s t : State} (h : t.insts = s.insts) (n : Nat) : t.ringInst (.host n) = s.ringInst (.host n) := by
  rw [State.ringInst, State.sqInst, h]
  rfl

end

/-- Settles O9: a value that is here is a doorbell at once, one that is asked for is a doorbell when it comes, and one that is refused brings nothing. -/
theorem shadowIndexPoll : Obligations.ShadowIndexPoll := by
  intro s n
  refine ⟨fun hr hp => ?_, exec_shadowPiPoll_quiet, fun p hon hne hahead h => State.producer_of_taken hon hne hahead h, fun bs => ⟨rfl, rfl⟩⟩
  rw [exec_shadowPiPoll_reads hr hp, State.pollRing]
  refine ⟨fun bs t h => by simp only [h], fun asks t h => ?_, fun x t h => by simp only [h]⟩
  obtain ⟨⟨a, rfl⟩, hinsts⟩ := s.gatherPiece_need h
  simp only [h, List.foldl_cons, List.foldl_nil, State.ringInst_host_of hinsts]

end Sys2Proof.Machine

/-! SUPPORT and PROOFS. Control blocks read as they were made, and the training of a fabric port (02). -/

namespace Sys2Proof.Machine

/-! ## Blocks -/

/-- The types of control block (Table 2-1). -/
def ctlTypes : List Byte := [bkIdle, bkLcw0, bkLcw1, bkTs, bkAlign, bkFence, bkDown]

/-- A field of a number below 2^56, as bits. -/
theorem extract_ofNat {c lo len : Nat} (hc : c < 2 ^ 56) : (BitVec.ofNat 56 c).extractLsb' lo len = BitVec.ofNat len (c / 2 ^ lo) := by
  apply BitVec.eq_of_toNat_eq
  rw [BitVec.extractLsb'_toNat, BitVec.toNat_ofNat, BitVec.toNat_ofNat, Nat.mod_eq_of_lt hc, Nat.shiftRight_eq_div_pow]

/-- A field that a number holds above `lo` is read there. -/
theorem extract_field {c lo len : Nat} {x : BitVec len} (hc : c < 2 ^ 56) (h : c / 2 ^ lo % 2 ^ len = x.toNat) :
    (BitVec.ofNat 56 c).extractLsb' lo len = x := by
  apply BitVec.eq_of_toNat_eq
  rw [extract_ofNat hc, BitVec.toNat_ofNat, h]

/-- So is a single bit. -/
theorem bit_field {c i : Nat} {b : Bool} (hc : c < 2 ^ 56) (h : c / 2 ^ i % 2 = b2n b) : (BitVec.ofNat 56 c).getLsbD i = b := by
  rw [BitVec.getLsbD_ofNat, Nat.testBit_eq_decide_div_mod_eq, h]
  by_cases hi : i < 56
  · cases b <;> simp [hi, b2n]
  · have hz : c / 2 ^ i = 0 := Nat.div_eq_of_lt (hc.trans_le (Nat.pow_le_pow_right (by decide) (by omega)))
    rw [hz] at h
    cases b
    · simp [b2n]
    · cases h

theorem ctlBlock_is {type : Byte} (ht : type ∈ ctlTypes) (c : Nat) : (ctlBlock type c).is = .ctl type (BitVec.ofNat 56 c) := by
  have htype : (ctlBlock type c).payload.extractLsb' 0 8 = type := by
    apply BitVec.eq_of_toNat_eq
    simp only [ctlBlock, BitVec.extractLsb'_toNat, BitVec.toNat_ofNat, Nat.shiftRight_zero]
    omega
  have hcontent : (ctlBlock type c).payload.extractLsb' 8 56 = BitVec.ofNat 56 c := by
    apply BitVec.eq_of_toNat_eq
    simp only [ctlBlock, BitVec.extractLsb'_toNat, BitVec.toNat_ofNat, Nat.shiftRight_eq_div_pow]
    omega
  unfold Block.is
  rw [htype, hcontent]
  refine (if_neg (show ¬ syncCtl = syncData by decide)).trans (if_pos ?_)
  rw [Bool.and_eq_true]
  exact ⟨rfl, List.contains_iff_mem.mpr ht⟩

theorem Block.flip_flip (b : Block) : b.flip.flip = b := by
  simp [Block.flip]

/-! ## Training sets -/

theorem TrainSet.content_lt (t : TrainSet) : t.content < 2 ^ 56 := by
  have hready : b2n t.ready ≤ 1 := by cases t.ready <;> decide
  simp only [TrainSet.content]
  omega

/-- A training set reads as it was sent. -/
theorem trainSet_ctlBlock (t : TrainSet) : (ctlBlock bkTs t.content).trainSet = some t := by
  have hlt := t.content_lt
  have hready : b2n t.ready ≤ 1 := by cases t.ready <;> decide
  rw [Block.trainSet, ctlBlock_is (by decide)]
  refine (if_pos rfl).trans (congrArg some ?_)
  rw [extract_field (x := t.tstate) hlt (by simp only [TrainSet.content]; omega), extract_field (x := t.lane) hlt (by simp only [TrainSet.content]; omega),
    extract_field (x := t.port) hlt (by simp only [TrainSet.content]; omega), extract_field (x := t.preset) hlt (by simp only [TrainSet.content]; omega),
    bit_field (b := t.ready) hlt (by simp only [TrainSet.content]; omega), extract_field (x := t.chip) hlt (by simp only [TrainSet.content]; omega),
    extract_field (x := t.cinc) hlt (by simp only [TrainSet.content]; omega), extract_field (x := t.proto) hlt (by simp only [TrainSet.content]; omega),
    extract_field (x := t.stands) hlt (by simp only [TrainSet.content]; omega), extract_field (x := t.nlevel) hlt (by simp only [TrainSet.content]; omega)]

theorem ctlBlock_upright (type : Byte) (c : Nat) : (ctlBlock type c).invertedTs = false := rfl

theorem ctlBlock_inverted (c : Nat) : (ctlBlock bkTs c).flip.invertedTs = true := by
  have hpayload : (ctlBlock bkTs c).payload.extractLsb' 0 8 = bkTs := by
    apply BitVec.eq_of_toNat_eq
    simp only [ctlBlock, BitVec.extractLsb'_toNat, BitVec.toNat_ofNat, Nat.shiftRight_zero]
    omega
  have hsync : (ctlBlock bkTs c).sync = syncCtl := rfl
  generalize ctlBlock bkTs c = b at hpayload hsync ⊢
  have htype : b.flip.payload.extractLsb' 0 8 = ~~~bkTs := by
    rw [← hpayload, Block.flip]
    ext i hi
    simp [show i < 64 by omega]
  rw [Block.invertedTs, htype, beq_self_eq_true, Bool.and_true, Block.flip, hsync]
  exact (by decide : (~~~syncCtl == syncData) = true)

/-- In LOCK a lane on which every bit arrives complemented is found, and reads as what was sent (R72). -/
theorem Port.readTrain_inverted {p : Port} (hp : p.train = .lock) (t0 t1 : TrainSet) :
    p.readTrain (ctlBlock bkTs t0.content) (ctlBlock bkTs t1.content).flip = some (t0, t1, 2) := by
  have hinv : p.inverted (ctlBlock bkTs t0.content) (ctlBlock bkTs t1.content).flip = 2 := by
    rw [Port.inverted, if_pos hp, ctlBlock_upright, ctlBlock_inverted]
    rfl
  have hlane : unflip 2 1 (ctlBlock bkTs t1.content).flip = ctlBlock bkTs t1.content := Block.flip_flip _
  have hother : unflip 2 0 (ctlBlock bkTs t0.content) = ctlBlock bkTs t0.content := rfl
  unfold Port.readTrain
  dsimp only
  rw [hinv, hother, hlane, trainSet_ctlBlock, trainSet_ctlBlock]

/-! ## A port's training -/

section
variable {s : State} {n : Nat} {t0 t1 : TrainSet} {inv : BitVec 2}

/-- What the rows about a port that carries or trains ask of it. -/
theorem State.portUp_guard (hruns : s.fabricRuns = true) (hn : n < 24) (hup : (s.port n).up = true) :
    (s.fabricRuns && decide (n < 24) && (s.port n).up) = true := by
  rw [hruns, decide_eq_true hn, hup]; rfl

theorem State.portUp_guard_fails (h : s.fabricRuns = false ∨ 24 ≤ n ∨ (s.port n).up = false) :
    ¬ (s.fabricRuns && decide (n < 24) && (s.port n).up) = true := by
  simp only [Bool.and_eq_true, decide_eq_true_eq, not_and_or, Bool.not_eq_true, Nat.not_lt]
  tauto

theorem State.takeDown_idle (h : (s.port n).st ≠ .active) :
    s.takeDown n = s.updPort n (fun p => { p.into .down with backoff := true, attempts := 0, link := Link.reset }) :=
  if_neg (mt beq_iff_eq.mp h)

theorem State.retrain_idle (h : (s.port n).st ≠ .active) :
    s.retrain n = (s.updPort n (fun p => { p with attempts := 0, backoff := false })).trainIn n .lock :=
  if_neg (mt beq_iff_eq.mp h)

theorem exec_trainingAdvance_reads {b0 b1 : Block} (h : (s.port n).readTrain b0 b1 = some (t0, t1, inv)) :
    exec (.trainingAdvance n b0 b1) s = .next (s.advance n t0 t1 inv) := by
  change Host.Outcome.next (match (s.port n).readTrain b0 b1 with
    | some (t0, t1, inverted) => s.advance n t0 t1 inverted
    | none => s) = _
  rw [h]

theorem exec_trainingAdvance_none {b0 b1 : Block} (h : (s.port n).readTrain b0 b1 = none) : exec (.trainingAdvance n b0 b1) s = .next s := by
  change Host.Outcome.next (match (s.port n).readTrain b0 b1 with
    | some (t0, t1, inverted) => s.advance n t0 t1 inverted
    | none => s) = _
  rw [h]

/-- The next training state, by the one the port is in. -/
def State.moveOn (s : State) (n : Nat) (t0 : TrainSet) (inv : BitVec 2) : TrainState → State
  | .lock => (s.updPort n (fun q => { q with invert := inv })).trainIn n .equalize
  | .equalize => (s.updPort n (fun q => { q with preset := t0.preset })).trainIn n .align
  | .align => (s.updPort n (fun q => { q with swap := t0.lane == 1 })).trainIn n .config
  | .config => s.trained n t0

/-- READY sets of the port's own state on both lanes move it on. -/
theorem State.advance_ready (hruns : s.fabricRuns = true) (hn : n < 24) (hst : (s.port n).st = .training) (hb : (s.port n).backoff = false)
    (hr : (s.port n).ready = true) (h0 : t0.ready = true) (h1 : t1.ready = true) (hs0 : t0.tstate = (s.port n).train.code)
    (hs1 : t1.tstate = (s.port n).train.code) (hl : t0.lane ≠ t1.lane) : s.advance n t0 t1 inv = s.moveOn n t0 inv (s.port n).train := by
  unfold State.advance
  dsimp only
  rw [if_neg (by simp [hruns, hn, hst, hb, hr, h0, h1, hs0, hs1, hl])]
  rfl

theorem State.advance_waits (h : t0.ready = false ∨ t1.ready = false ∨ t0.tstate ≠ (s.port n).train.code ∨ t1.tstate ≠ (s.port n).train.code ∨
    (s.port n).ready = false) : s.advance n t0 t1 inv = s := by
  refine if_pos ?_
  obtain h | h | h | h | h := h <;> simp [h]

theorem State.trained_differs {t : TrainSet} {bad : Nat} (h : s.mismatchOf t = bad) (hbad : bad ≠ 0) : s.trained n t =
    (s.updPort n (fun p => { p.into .incompatible with mismatch := BitVec.ofNat 3 bad })).event evPortIncompatible 0 0 (n + 32 * bad) 0 := by
  subst h
  exact if_pos hbad

theorem State.mismatchOf_proto {t : TrainSet} (h : t.proto ≠ 1) : s.mismatchOf t = 1 := if_pos h

theorem State.mismatchOf_stands {t : TrainSet} (hp : t.proto = 1) (h : t.stands.toNat ≠ Grade.stands s.fuses.grade) : s.mismatchOf t = 2 := by
  rw [State.mismatchOf, if_neg (not_not.mpr hp), if_pos h]

theorem State.mismatchOf_nlevel {t : TrainSet} (hp : t.proto = 1) (hs : t.stands.toNat = Grade.stands s.fuses.grade) (h : t.nlevel ≠ s.boot.nlevel) :
    s.mismatchOf t = 3 := by
  rw [State.mismatchOf, if_neg (not_not.mpr hp), if_neg (not_not.mpr hs), if_pos h]

theorem State.mismatchOf_none {t : TrainSet} (hp : t.proto = 1) (hs : t.stands.toNat = Grade.stands s.fuses.grade) (h : t.nlevel = s.boot.nlevel) :
    s.mismatchOf t = 0 := by
  rw [State.mismatchOf, if_neg (not_not.mpr hp), if_neg (not_not.mpr hs), if_neg (not_not.mpr h)]

/-- With a partner that fits, CONFIG ends ACTIVE, or HELD in a formed domain. -/
theorem State.trained_fits {t : TrainSet} (h : s.mismatchOf t = 0) {r q : State}
    (hr : r = (s.draw 48).2.updPort n (fun p => { p with st := if s.dom.formed then .held else .active, mismatch := 0, attempts := 0, partnerPort := t.port.setWidth 8, partnerChip := t.chip, partnerInc := t.cinc, partnerSerial := (s.draw 48).1, link := p.link.begin_ }))
    (hq : q = (if t.chip = 0 then r else { r with dom := { r.dom with incs := Tbl.set 0 r.dom.incs t.chip.toNat t.cinc } })) :
    s.trained n t = ((State.sendLcws n 16 q).portUp n).pumpPort n := by
  subst hr hq
  exact if_neg (not_not.mpr h)

/-- A port in training whose state has passed its limit. -/
theorem exec_trainingTimeout_training (hruns : s.fabricRuns = true) (hn : n < 24) (hst : (s.port n).st = .training) (hb : (s.port n).backoff = false) :
    exec (.trainingTimeout n) s = .next (if 8 ≤ (s.port n).attempts + 1
      then s.updPort n (fun q => { q with attempts := 0, backoff := true, train := .lock, ready := false })
      else (s.updPort n (fun q => { q with attempts := (s.port n).attempts + 1 })).trainIn n .lock) :=
  congrArg Host.Outcome.next (if_pos (by rw [hruns, decide_eq_true hn, hst, hb]; rfl))

theorem exec_trainingTimeout_idle (h : (s.port n).st ≠ .training ∨ (s.port n).backoff = true) : exec (.trainingTimeout n) s = .next s := by
  refine congrArg Host.Outcome.next (if_neg ?_)
  obtain h | h := h <;> simp [h]

theorem exec_trainingBackoff_waits (hruns : s.fabricRuns = true) (hn : n < 24) (hb : (s.port n).backoff = true)
    (hst : (s.port n).st = .training ∨ (s.port n).st = .down) :
    exec (.trainingBackoff n) s = .next ((s.updPort n (fun q => { q with backoff := false })).trainIn n .lock) := by
  refine congrArg Host.Outcome.next (if_pos ?_)
  rw [hruns, decide_eq_true hn, hb]
  obtain h | h := hst <;> rw [h] <;> rfl

theorem exec_trainingBackoff_idle (hb : (s.port n).backoff = false) : exec (.trainingBackoff n) s = .next s :=
  congrArg Host.Outcome.next (if_neg (by rw [hb, Bool.and_false]; exact Bool.false_ne_true))

end

/-- Settles O41: losses by what the port was, each training state by the sets that stand on its lanes, CONFIG by what the partner says. -/
theorem portTraining : Obligations.PortTraining := by
  intro s n b0 b1 t0 t1 inv
  refine ⟨fun hruns hn hup => ?up, fun h => ?idle, fun h => ⟨State.takeDown_idle h, State.retrain_idle h⟩,
    fun hruns hn hst hb hread hr h0 h1 hs0 hs1 hl => ?advance, fun hread h => (exec_trainingAdvance_reads hread).trans (congrArg _ (State.advance_waits h)),
    exec_trainingAdvance_none, fun hp => Port.readTrain_inverted hp t0 t1, fun hruns hn hst hb => ?timeout, exec_trainingTimeout_idle,
    exec_trainingBackoff_waits, exec_trainingBackoff_idle⟩
  case up =>
    have hguard := State.portUp_guard hruns hn hup
    exact ⟨congrArg _ (if_pos hguard), congrArg _ (if_pos hguard), congrArg _ (if_pos hguard)⟩
  case idle =>
    have hguard := State.portUp_guard_fails h
    exact ⟨congrArg _ (if_neg hguard), congrArg _ (if_neg hguard), congrArg _ (if_neg hguard)⟩
  case timeout =>
    rw [exec_trainingTimeout_training hruns hn hst hb]
    exact ⟨fun h => congrArg _ (if_neg (Nat.not_le.mpr h)), fun h => congrArg _ (if_pos h)⟩
  case advance =>
    rw [exec_trainingAdvance_reads hread, State.advance_ready hruns hn hst hb hr h0 h1 hs0 hs1 hl]
    have config : (s.port n).train = .config → s.moveOn n t0 inv (s.port n).train = s.trained n t0 := fun h => by rw [h]; rfl
    refine ⟨fun h => by rw [h]; rfl, fun h => by rw [h]; rfl, fun h => by rw [h]; rfl, fun h hp => ?_, fun h hp hs => ?_, fun h hp hs hv => ?_,
      fun r q er eq h hp hs hv => ?_⟩ <;> rw [config h]
    · rw [State.trained_differs (State.mismatchOf_proto hp) (by decide)]; rfl
    · rw [State.trained_differs (State.mismatchOf_stands hp hs) (by decide)]; rfl
    · rw [State.trained_differs (State.mismatchOf_nlevel hp hs hv) (by decide)]; rfl
    · rw [State.trained_fits (State.mismatchOf_none hp hs hv) er eq]

end Sys2Proof.Machine

/-! SUPPORT and PROOFS. The link layer: groups as pairs of blocks, control words, resends (02). -/

namespace Sys2Proof.Machine

/-! ## Bytes and numbers -/

theorem ofLe_lt (bs : List Byte) : ofLe bs < 256 ^ bs.length := by
  induction bs with
  | nil => decide
  | cons b bs ih =>
    have hb := b.isLt
    rw [ofLe, List.length_cons, Nat.pow_succ]
    omega

theorem toLe_ofLe (bs : List Byte) : toLe bs.length (ofLe bs) = bs := by
  induction bs with
  | nil => rfl
  | cons b bs ih =>
    have hb := b.isLt
    have hhead : BitVec.ofNat 8 (b.toNat + 256 * ofLe bs) = b := BitVec.eq_of_toNat_eq (by rw [BitVec.toNat_ofNat]; omega)
    have htail : (b.toNat + 256 * ofLe bs) / 256 = ofLe bs := by omega
    rw [ofLe, List.length_cons, toLe, hhead, htail, ih]

/-- The lower bytes of a number do not show what lies above them. -/
theorem toLe_add (n v x : Nat) : toLe n (v + x * 256 ^ n) = toLe n v := by
  induction n generalizing v with
  | zero => rfl
  | succ n ih =>
    have hpow : x * 256 ^ (n + 1) = 256 * (x * 256 ^ n) := by rw [Nat.pow_succ]; ac_rfl
    have hhead : BitVec.ofNat 8 (v + x * 256 ^ (n + 1)) = BitVec.ofNat 8 v := BitVec.eq_of_toNat_eq (by simp only [BitVec.toNat_ofNat]; omega)
    have htail : (v + x * 256 ^ (n + 1)) / 256 = v / 256 + x * 256 ^ n := by omega
    rw [toLe, toLe, hhead, htail, ih]

/-! ## Groups as pairs of blocks -/

theorem dataBlock_is {bs : List Byte} (h : bs.length = 8) : (dataBlock bs).is = .data bs := by
  refine (if_pos rfl).trans (congrArg BlockIs.data ?_)
  have hlt : ofLe bs < 2 ^ 64 := by
    have := ofLe_lt bs
    rw [h] at this
    exact this
  rw [dataBlock, BitVec.toNat_ofNat, Nat.mod_eq_of_lt hlt, ← h, toLe_ofLe]

theorem pairData_data {a b : List Byte} (ha : a.length = 8) (hb : b.length = 8) : pairData (dataBlock a, dataBlock b) = some (a ++ b) := by
  rw [pairData, dataBlock_is ha, dataBlock_is hb]

theorem isAlign_data {a b : List Byte} : isAlign (dataBlock a, dataBlock b) = false := rfl

theorem isAlign_flitPairs {f : Flit} {q : Block × Block} (h : q ∈ flitPairs f) : isAlign q = false := by
  simp only [flitPairs, List.mem_cons, List.not_mem_nil, or_false] at h
  obtain rfl | rfl := h <;> exact isAlign_data

theorem isAlign_alignPair : isAlign alignPair = true := by decide

/-- The 32 bytes of a flit are those of its two pairs. -/
theorem flitPairs_data {f : Flit} (h : f.length = 32) : (flitPairs f).map pairData = [some (f.take 16), some (f.drop 16)] := by
  have hfirst : f.take 8 ++ (f.drop 8).take 8 = f.take 16 := (List.take_add (i := 8) (j := 8) (l := f)).symm
  have hsecond : (f.drop 16).take 8 ++ (f.drop 24).take 8 = f.drop 16 := by
    have hrest : f.drop 24 = (f.drop 16).drop 8 := (List.drop_drop (i := 8) (j := 16) (l := f)).symm
    have hshort : ((f.drop 16).drop 8).length = 8 := by rw [List.length_drop, List.length_drop, h]
    rw [hrest, List.take_of_length_le (l := (f.drop 16).drop 8) hshort.le, List.take_append_drop]
  simp only [flitPairs, List.map_cons, List.map_nil]
  rw [pairData_data (by simp [h]) (by simp [h]), pairData_data (by simp [h]) (by simp [h]), hfirst, hsecond]

theorem flatMap_flitPairs_data {fs : List Flit} (h : ∀ f ∈ fs, f.length = 32) :
    (fs.flatMap flitPairs).map pairData = fs.flatMap (fun f => [some (f.take 16), some (f.drop 16)]) := by
  rw [List.map_flatMap]
  exact List.flatMap_congr fun f hf => flitPairs_data (h f hf)

/-- The bytes of the pairs of flits make up the flits. -/
theorem flitsOf_pairs (fs : List Flit) : flitsOf ((fs.flatMap (fun f => [some (f.take 16), some (f.drop 16)])).filterMap id) = fs := by
  induction fs with
  | nil => rfl
  | cons f fs ih =>
    change (f.take 16 ++ f.drop 16) :: flitsOf ((fs.flatMap (fun f => [some (f.take 16), some (f.drop 16)])).filterMap id) = _
    rw [ih, List.take_append_drop]

/-! ## Control words -/

theorem b2n_le (b : Bool) : b2n b ≤ 1 := by cases b <;> decide

theorem Lcw.half0_lt (w : Lcw) : w.half0 < 2 ^ 56 := by
  have hbits := And.intro (b2n_le w.empty) (And.intro (b2n_le w.ackv) (b2n_le w.nak))
  simp only [Lcw.half0, fld, Nat.shiftRight_eq_div_pow]
  omega

theorem Lcw.half1_lt (w : Lcw) : w.half1 < 2 ^ 56 := by
  simp only [Lcw.half1, fld, Nat.shiftRight_eq_div_pow]
  omega

/-- A control word reads as it was sent. -/
theorem lcwOf_halves (w : Lcw) : lcwOf (BitVec.ofNat 56 w.half0) (BitVec.ofNat 56 w.half1) = w := by
  have h0 := w.half0_lt
  have h1 := w.half1_lt
  have hempty := b2n_le w.empty
  have hackv := b2n_le w.ackv
  have hnak := b2n_le w.nak
  have hlow : w.half0 / 2 ^ 32 % 2 ^ 24 = w.gcrc.toNat % 2 ^ 24 := by simp only [Lcw.half0, fld, Nat.shiftRight_eq_div_pow]; omega
  have hhigh : w.half1 % 2 ^ 8 = w.gcrc.toNat / 2 ^ 24 := by simp only [Lcw.half1, fld, Nat.shiftRight_eq_div_pow]; omega
  have hcrc : (BitVec.ofNat 56 w.half1).extractLsb' 0 8 ++ (BitVec.ofNat 56 w.half0).extractLsb' 32 24 = w.gcrc := by
    apply BitVec.eq_of_toNat_eq
    rw [BitVec.toNat_append, extract_ofNat h0, extract_ofNat h1, BitVec.toNat_ofNat, BitVec.toNat_ofNat, hlow, Nat.pow_zero, Nat.div_one, hhigh,
      ← Nat.shiftLeft_add_eq_or_of_lt (Nat.mod_lt _ (by decide)), Nat.shiftLeft_eq]
    omega
  rw [lcwOf, hcrc, extract_field (x := w.gseq) h0 (by simp only [Lcw.half0]; omega), extract_field (x := w.gcnt) h0 (by simp only [Lcw.half0]; omega),
    bit_field (b := w.empty) h0 (by simp only [Lcw.half0]; omega), extract_field (x := w.ackseq) h0 (by simp only [Lcw.half0]; omega),
    bit_field (b := w.ackv) h0 (by simp only [Lcw.half0]; omega), bit_field (b := w.nak) h0 (by simp only [Lcw.half0]; omega),
    extract_field (x := w.rsv0) h0 (by simp only [Lcw.half0]; omega), extract_field (x := w.cvcA) h1 (by simp only [Lcw.half1, fld]; omega),
    extract_field (x := w.ccntA) h1 (by simp only [Lcw.half1, fld]; omega), extract_field (x := w.cvcB) h1 (by simp only [Lcw.half1, fld]; omega),
    extract_field (x := w.ccntB) h1 (by simp only [Lcw.half1, fld]; omega), extract_field (x := w.rsv1) h1 (by simp only [Lcw.half1, fld]; omega),
    extract_field (x := w.lcrc) h1 (by simp only [Lcw.half1, fld]; omega)]

/-- The check of a control word does not cover itself. -/
theorem Lcw.crc_sealed (w : Lcw) (h : w.lcrc = 0) (c : BitVec 16) : ({ w with lcrc := c } : Lcw).crc = w.crc := by
  have hhalf : ({ w with lcrc := c } : Lcw).half1 = w.half1 + c.toNat * 256 ^ 5 := by
    have hzero : w.lcrc.toNat = 0 := by rw [h]; rfl
    simp only [Lcw.half1, hzero]
    omega
  have hother : ({ w with lcrc := c } : Lcw).half0 = w.half0 := rfl
  rw [Lcw.crc, Lcw.crc, hhalf, hother, toLe_add]

/-! ## A receiver's reading of a group -/

theorem lcwPair_is (w : Lcw) : (lcwPair w).1.is = .ctl bkLcw0 (BitVec.ofNat 56 w.half0) ∧ (lcwPair w).2.is = .ctl bkLcw1 (BitVec.ofNat 56 w.half1) :=
  ⟨ctlBlock_is (by decide) _, ctlBlock_is (by decide) _⟩

theorem isAlign_lcwPair (w : Lcw) : isAlign (lcwPair w) = false := by
  rw [isAlign, (lcwPair_is w).1, (lcwPair_is w).2]
  exact (by decide : (bkLcw0 == bkAlign && bkLcw1 == bkAlign) = false)

/-- ALIGN pairs are removed wherever they stand. -/
theorem readGroup_align (ps qs : List (Block × Block)) : readGroup (ps ++ alignPair :: qs) = readGroup (ps ++ qs) := by
  have hfilter : (ps ++ alignPair :: qs).filter (fun q => !isAlign q) = (ps ++ qs).filter (fun q => !isAlign q) := by
    rw [List.filter_append, List.filter_append, List.filter_cons_of_neg (by rw [isAlign_alignPair]; decide)]
  rw [readGroup, readGroup, hfilter]

theorem flatMap_flitPairs_valid {fs : List Flit} (h : ∀ f ∈ fs, f.length = 32) : ((fs.flatMap flitPairs).map pairData).all Option.isSome = true := by
  rw [flatMap_flitPairs_data h]
  refine List.all_eq_true.mpr fun o ho => ?_
  obtain ⟨f, _, hf⟩ := List.mem_flatMap.mp ho
  simp only [List.mem_cons, List.not_mem_nil, or_false] at hf
  obtain rfl | rfl := hf <;> rfl

theorem flatMap_flitPairs_even {fs : List Flit} (h : ∀ f ∈ fs, f.length = 32) : ((fs.flatMap flitPairs).map pairData).length % 2 = 0 := by
  rw [flatMap_flitPairs_data h, List.length_flatMap]
  simp

theorem groupPairs_noAlign (fs : List Flit) (w : Lcw) : (groupPairs fs w).filter (fun q => !isAlign q) = fs.flatMap flitPairs ++ [lcwPair w] := by
  refine List.filter_eq_self.mpr fun q hq => ?_
  obtain hq | hq := List.mem_append.mp hq
  · obtain ⟨f, _, hf⟩ := List.mem_flatMap.mp hq
    rw [isAlign_flitPairs hf]; rfl
  · rw [List.mem_singleton.mp hq, isAlign_lcwPair]; rfl

/-- Pairs that hold no ALIGN, closed by the two halves of a control word. -/
theorem readGroup_closed {ps qs : List (Block × Block)} {q : Block × Block} {a b : BitVec 56} (hfilter : ps.filter (fun q => !isAlign q) = qs ++ [q])
    (h0 : q.1.is = .ctl bkLcw0 a) (h1 : q.2.is = .ctl bkLcw1 b) : readGroup ps =
      some (flitsOf ((qs.map pairData).filterMap id), (qs.map pairData).all Option.isSome && decide ((qs.map pairData).length % 2 = 0), lcwOf a b) := by
  unfold readGroup
  dsimp only
  rw [hfilter, List.getLast?_concat]
  dsimp only
  rw [h0, h1]
  dsimp only
  rw [if_pos ⟨rfl, rfl⟩, List.dropLast_concat]

/-- The pairs of flits and of the word behind them read as those flits and that word. -/
theorem readGroup_groupPairs {fs : List Flit} (h : ∀ f ∈ fs, f.length = 32) (w : Lcw) : readGroup (groupPairs fs w) = some (fs, true, w) := by
  have hflits : flitsOf (((fs.flatMap flitPairs).map pairData).filterMap id) = fs := by
    rw [flatMap_flitPairs_data h, flitsOf_pairs]
  rw [readGroup_closed (groupPairs_noAlign fs w) (lcwPair_is w).1 (lcwPair_is w).2, hflits, flatMap_flitPairs_valid h,
    decide_eq_true (flatMap_flitPairs_even h), lcwOf_halves, Bool.true_and]

/-- The receiver's descrambler undoes the scrambler, and ends in its state. -/
theorem descramble_scramble (st : BitVec 58) (bs : List Bool) : descramble st (scramble st bs).1 = (bs, (scramble st bs).2) := by
  induction bs generalizing st with
  | nil => rfl
  | cons b bs ih =>
    simp only [scramble, descramble, ih, Bool.xor_assoc, Bool.xor_self, Bool.xor_false]

/-! ## What a port does with a group -/

section
variable {s t : State} {n : Nat} {ps : List (Block × Block)} {flits : List Flit} {ok : Bool} {w : Lcw}

/-- The port carries packets. -/
def Port.carrying (p : Port) : Bool := p.st == .active || p.st == .held

theorem Port.carrying_iff (p : Port) : p.carrying = true ↔ p.st = .active ∨ p.st = .held := by
  rw [Port.carrying, Bool.or_eq_true, beq_iff_eq, beq_iff_eq]

theorem exec_flitGroup (hruns : s.fabricRuns = true) (hn : n < 24) (hc : (s.port n).carrying = true) : exec (.flitGroup n ps) s =
    .next (match readGroup (ps.map (s.port n).corrected) with
      | none => s.refuseGroup n false
      | some (flits, ok, lcw) => s.groupIn n flits ok lcw) := by
  have hguard : ¬ (!(s.fabricRuns && decide (n < 24) && (s.port n).carrying)) = true := by
    rw [hruns, hc, decide_eq_true hn]
    decide
  exact congrArg Host.Outcome.next (if_neg hguard)

theorem State.groupIn_unsound (h : w.lcrc ≠ w.crc) : s.groupIn n flits ok w = s.refuseGroup n false := if_pos h

section
variable (hw : w.lcrc = w.crc) (ht : s.takeLcw n w = t)
include hw ht

theorem State.groupIn_empty (h : w.empty = true ∨ (t.port n).st = .training) : s.groupIn n flits ok w = t := by
  subst ht
  refine (if_neg (not_not.mpr hw)).trans (if_pos ?_)
  rw [Bool.or_eq_true, decide_eq_true_eq]
  exact h

/-- A group behind a sound word is judged by its own check and its count. -/
theorem State.groupIn_flits (he : w.empty = false) (hst : (t.port n).st ≠ .training) : s.groupIn n flits ok w =
    if ok = true ∧ w.gcrc = crc32c flits.flatten ∧ flits.length = w.gcnt.toNat + 1 then t.takeGroup n flits w.gseq
    else t.refuseGroup n (w.gseq = (s.port n).link.rxLast + 1) := by
  subst ht
  refine (if_neg (not_not.mpr hw)).trans ((if_neg ?_).trans ?_)
  · rw [Bool.or_eq_true, decide_eq_true_eq, he]
    exact fun h => h.elim Bool.false_ne_true hst
  · simp only [Bool.and_eq_true, decide_eq_true_eq, and_assoc]

end

/-- The rows that act on a port that carries packets. -/
theorem State.carrying_guard (hruns : s.fabricRuns = true) (hc : (s.port n).carrying = true) : (s.fabricRuns && (s.port n).carrying) = true := by
  rw [hruns, hc]; rfl

theorem State.carrying_guard_fails (h : s.fabricRuns = false ∨ (s.port n).carrying = false) : (s.fabricRuns && (s.port n).carrying) = false := by
  obtain h | h := h <;> simp [h]

theorem exec_resendLimit (retrained : Bool) : exec (.resendLimit n retrained) s =
    .next (if s.fabricRuns && (s.port n).carrying && decide (16 ≤ (s.port n).link.stalls) then (if retrained then s.retrain n else s.takeDown n) else s) := rfl

theorem State.sendLcws_idle (h : s.lcwDue n = false) (k : Nat) : State.sendLcws n k s = s := by
  cases k with
  | zero => rfl
  | succ k => exact if_neg (Bool.eq_false_iff.mp h)

/-- A group at or below the last one accepted is acknowledged and dropped. -/
theorem State.takeGroup_again (hne : w.gseq ≠ (s.port n).link.rxLast + 1) (hany : (s.port n).link.rxAny = true)
    (h : ((s.port n).link.rxLast - (w.gseq + BitVec.ofNat 12 (flits.length - 1))).toNat < 2048) :
    s.takeGroup n flits w.gseq = s.updPort n (fun p => { p with link := { p.link with ackDue := true } }) := by
  refine (if_neg hne).trans (if_pos ?_)
  rw [hany, seqAtOrBelow, decide_eq_true h]
  rfl

theorem State.resend_none (h : (s.port n).link.unacked = []) : s.resend n = s := if_pos (by rw [h]; rfl)

theorem State.resend_some (h : (s.port n).link.unacked ≠ []) : s.resend n =
    (s.updPort n (fun p => { p with resends := satInc p.resends, link := { p.link with stalls := p.link.stalls + 1 } })).bumpReplay.sendFlits n
      (s.port n).link.unacked :=
  if_neg (mt List.isEmpty_iff.mp h)

/-- More credit than link-up granted is no credit. -/
theorem Link.credited_over {l : Link} {vc c : Nat} (hc : c ≠ 0) (hu : l.used.contains vc = true) (h : Tbl.get 0 l.granted vc < Tbl.get 0 l.credit vc + c) :
    l.credited vc c = none := by
  rw [Link.credited, if_neg hc, hu]
  exact if_pos h

/-- At most eight flits leave as one group. -/
theorem State.sendFlits_group {g : List (BitVec 12 × Flit)} (hne : g ≠ []) (hlen : g.length ≤ 8) : s.sendFlits n g = s.sendGroup n g := by
  have hpieces : pieces 8 g.length g = [g] := by
    obtain ⟨k, hk⟩ := Nat.exists_eq_succ_of_ne_zero (mt List.length_eq_zero_iff.mp hne)
    rw [hk, pieces, if_neg (mt List.isEmpty_iff.mp hne), List.take_of_length_le hlen, List.drop_eq_nil_of_le hlen]
    cases k <;> rfl
  rw [State.sendFlits, hpieces]
  rfl

theorem State.lcwFor_sealed (l : Link) (seq : BitVec 12) (nak : Bool) : (s.lcwFor l seq flits nak).lcrc = (s.lcwFor l seq flits nak).crc :=
  (Lcw.crc_sealed _ rfl _).symm

theorem State.lcwFor_flits (h : flits ≠ []) (l : Link) (seq : BitVec 12) (nak : Bool) :
    (s.lcwFor l seq flits nak).gcrc = crc32c flits.flatten ∧ (s.lcwFor l seq flits nak).empty = false :=
  ⟨if_neg (mt List.isEmpty_iff.mp h), Bool.eq_false_iff.mpr (mt List.isEmpty_iff.mp h)⟩

end

/-- Settles O42: a group by its word, its place and its check; resends and credits; what a word carries. -/
theorem linkLayer : Obligations.LinkLayer := by
  intro s t n ps flits ok w retrained
  refine ⟨fun hruns hn hst => ?carries, fun h => State.sendLcws_idle h 64, fun h => readGroup_groupPairs h w, readGroup_align ps, descramble_scramble,
    fun h => ?quiet, fun q hq hseq => hq ▸ if_pos hseq, State.takeGroup_again, State.resend_none, State.resend_some, fun l vc c => Link.credited_over,
    fun g => State.sendFlits_group, fun l seq nak hne => ?word, fun h vc => ?_, fun h vc => ?_⟩
  case carries =>
    have hc := (s.port n).carrying_iff.mpr hst
    have hguard := State.carrying_guard hruns hc
    refine ⟨fun hread => ?_, fun hread hw => ?_, fun hread hw ht => ?_, congrArg _ (if_pos hguard), fun hmany => ?_, fun hfew => ?_, congrArg _ (if_pos hguard)⟩
    · rw [exec_flitGroup hruns hn hc, hread]
    · rw [exec_flitGroup hruns hn hc, hread]
      exact congrArg _ (State.groupIn_unsound hw)
    · rw [exec_flitGroup hruns hn hc, hread]
      refine ⟨fun h => congrArg _ (State.groupIn_empty hw ht h), fun he hst hok hcrc hcnt => ?_, fun he hst hbad => ?_⟩
      · exact congrArg _ ((State.groupIn_flits hw ht he hst).trans (if_pos ⟨hok, hcrc, hcnt⟩))
      · refine congrArg _ ((State.groupIn_flits hw ht he hst).trans (if_neg ?_))
        rintro ⟨hok, hcrc, hcnt⟩
        exact hbad.elim (by rw [hok]; decide) (fun h => h.elim (· hcrc) (· hcnt))
    · rw [exec_resendLimit, hguard, decide_eq_true hmany]
      rfl
    · rw [exec_resendLimit, hguard, decide_eq_false (Nat.not_le.mpr hfew)]
      rfl
  case quiet =>
    have hidle : (s.fabricRuns && (s.port n).carrying) = false := by
      refine State.carrying_guard_fails (h.imp_right fun h => Bool.eq_false_iff.mpr fun hc => ?_)
      exact ((s.port n).carrying_iff.mp hc).elim h.1 h.2
    refine ⟨congrArg _ (if_pos ?_), congrArg _ (if_neg (Bool.eq_false_iff.mp hidle)), ?_, congrArg _ (if_neg (Bool.eq_false_iff.mp hidle))⟩
    · change (!(s.fabricRuns && decide (n < 24) && (s.port n).carrying)) = true
      rw [Bool.and_right_comm, hidle]
      rfl
    · rw [exec_resendLimit, hidle]
      rfl
  case word => exact ⟨State.lcwFor_sealed l seq nak, (State.lcwFor_flits hne l seq nak).1, rfl, rfl, rfl, (State.lcwFor_flits hne l seq nak).2, rfl⟩
  · rw [State.returns, h]
    rfl
  · rw [State.returns, h]
    rfl

end Sys2Proof.Machine

/-! SUPPORT and PROOFS. What a packet past its checks does, by its type (02, 03, 08, 15). -/

namespace Sys2Proof.Machine

/-- The bit of an address that tells the host aperture. -/
theorem bit_toNat {w : Nat} (x : BitVec w) (n : Nat) : bit x.toNat n = x.getLsbD n := by
  rw [bit, fld, BitVec.getLsbD, Nat.testBit_eq_decide_div_mod_eq, Nat.shiftRight_eq_div_pow, Nat.pow_one]
  rfl

section
variable {s t : State} {p : Packet} {take : Taker}

/-! ## Held, or taken -/

theorem State.passOn_held {x : Part} (h : (s.dropCopies p).resettingPart p = some x) : State.passOn take s p = (s.dropCopies p).holdFor x p := by
  rw [State.passOn]
  simp only [h]

section
variable (hfree : (s.dropCopies p).resettingPart p = none)
include hfree

theorem State.passOn_behind (ho : p.ord = true) (hb : (s.dropCopies p).ordBlocked p = true) : State.passOn take s p =
    { s.dropCopies p with fab := { (s.dropCopies p).fab with ordHeld := (s.dropCopies p).fab.ordHeld ++ [p] } } := by
  rw [State.passOn]
  simp only [hfree, ho, hb, Bool.and_true, if_true]

theorem State.passOn_free (h : p.ord = false ∨ (s.dropCopies p).ordBlocked p = false) : State.passOn take s p =
    if (take (s.dropCopies p) p).1 = .wait then s.dropCopies p
    else State.releaseOrd take ((take (s.dropCopies p) p).2.fab.ordHeld.length + 1) ((take (s.dropCopies p) p).2.settle p (take (s.dropCopies p) p).1) := by
  have hpass : (p.ord && (s.dropCopies p).ordBlocked p) = false := by
    obtain h | h := h <;> simp [h]
  rw [State.passOn]
  simp only [hfree, hpass, Bool.false_eq_true, if_false]

end

/-! ## By type -/

theorem takeAny_write (ht : p.type = tyWrite) (hm : p.msg = none) : takeAny s p = s.takeWrite p := by
  unfold takeAny takeWith
  rw [if_pos ht, hm]

theorem takeAny_coll {m : CtlMsg} (ht : p.type = tyWrite) (hm : p.msg = some m) : takeAny s p = (.done 0, s.takeColl p m) := by
  unfold takeAny takeWith
  rw [if_pos ht, hm]

theorem takeAny_readReq (ht : p.type = tyReadReq) : takeAny s p = s.takeRead p := by
  unfold takeAny takeWith
  rw [ht]
  rfl

theorem takeAny_launch (ht : p.type = tyLaunch) : takeAny s p = s.takeLaunch p := by
  unfold takeAny takeWith
  rw [ht]
  rfl

theorem takeAny_heartbeat (ht : p.type = tyHeartbeat) : takeAny s p = (.done 0, State.takeHeartbeat none [] s p) := by
  unfold takeAny takeWith
  rw [ht]
  rfl

theorem takeAny_journal (ht : p.type = tyJournal) : takeAny s p = (.done 0, s.takeRecords p) := by
  unfold takeAny takeWith
  rw [ht]
  rfl

theorem takeAny_inst (ht : p.type = tyInstCtl) : takeAny s p = (.done 0, s.takeInst p) := by
  unfold takeAny takeWith
  rw [ht]
  rfl

/-! ## Writes -/

/-- A WRITE of one packet without signal, unless the dirty log would hold it back, writes its payload. -/
theorem State.takeWrite_plain (hv : p.isVoid = false) (hc : p.pktcnt = 1) (hs : p.sig = false) :
    s.takeWrite p = if s.logHolds p then (.wait, s) else (.done (s.commitData p).1, (s.commitData p).2) := by
  have hone : p.pktcnt.toNat = 1 := by rw [hc]; rfl
  rw [State.takeWrite, hv, hs, if_neg Bool.false_ne_true, if_pos hone]
  rfl

theorem State.takeWrite_void (hv : p.isVoid = true) (hk : s.slotOf p.src p.tid = none) :
    s.takeWrite p = (.done 0, (s.dropTracker p.src p.tid).dropXferCopies p.src p.tid) := by
  have hslot : ((s.dropTracker p.src p.tid).dropXferCopies p.src p.tid).slotOf p.src p.tid = none := hk
  rw [State.takeWrite, if_pos hv]
  simp only [hslot]

/-- What is reported of an access, by its outcome. -/
theorem State.commitData_of {o : Nat} (h : s.commitBytes p = (o, t)) : s.commitData p = (o, t.reportRefusal p o) := by
  rw [State.commitData, h]

section
variable (hd : p.data ≠ [])
include hd

theorem length_data_ne : p.data.length ≠ 0 := mt List.length_eq_zero_iff.mp hd

section
variable (hlow : p.addr.getLsbD 47 = false)
include hlow

theorem State.commitBytes_outside (hstage : inStaging p.addr.toNat p.data.length = false) (h : s.inDram p.addr.toNat p.data.length = false) :
    s.commitBytes p = (0x16, s) := by
  rw [State.commitBytes, if_neg (length_data_ne hd), bit_toNat, hlow, if_neg Bool.false_ne_true, h, hstage]
  rfl

section
variable (hin : s.inDram p.addr.toNat p.data.length = true)
include hin

theorem State.commitBytes_denied (h : s.confDenied p.inst.toNat p.enc p.addr.toNat p.data.length = true) : s.commitBytes p = (0x12, s) := by
  rw [State.commitBytes, if_neg (length_data_ne hd), bit_toNat, hlow, if_neg Bool.false_ne_true, hin, h]
  rfl

theorem State.commitBytes_memory (h : s.confDenied p.inst.toNat p.enc p.addr.toNat p.data.length = false) {r : Option Nat}
    (hw : s.writeMem (if p.enc then s.keyOf p.inst.toNat else 0) p.addr.toNat p.data = (r, t)) :
    s.commitBytes p = (if r.isSome then 0x15 else 0, t) := by
  rw [State.commitBytes, if_neg (length_data_ne hd), bit_toNat, hlow, if_neg Bool.false_ne_true, hin, h]
  simp only [Bool.true_or, Bool.not_true, Bool.false_eq_true, if_false, hw]
  cases r <;> rfl

end

end

section
variable (hhigh : p.addr.getLsbD 47 = true)
include hhigh

theorem State.commitBytes_linkDown (h : s.pcie.up = false) : s.commitBytes p = (0x16, s) := by
  rw [State.commitBytes, if_neg (length_data_ne hd), bit_toNat, if_pos hhigh, h]
  rfl

theorem State.commitBytes_slot (hup : s.pcie.up = true) (h : s.slotPermits p p.data.length true = false) : s.commitBytes p = (0x14, s) := by
  rw [State.commitBytes, if_neg (length_data_ne hd), bit_toNat, if_pos hhigh, hup, h]
  rfl

theorem State.commitBytes_host (hup : s.pcie.up = true) (h : s.slotPermits p p.data.length true = true) :
    s.commitBytes p = (0, s.post p.inst.toNat (s.busAddr p.inst.toNat p.addr.toNat) p.data (bulk p.ord p.data.length)) := by
  rw [State.commitBytes, if_neg (length_data_ne hd), bit_toNat, if_pos hhigh, hup, h]
  rfl

end

end

/-- A packet far beyond the first one missing is asked for again. -/
theorem State.takePart_beyond {r : Tracker} (hk : s.tracker p.src p.tid = some r) (h : lowestOpen (r.done.length + 1) 0 r.done + 256 ≤ p.pktidx.toNat) :
    s.takePart p = (.resend, s.setTracker r) := by
  unfold State.takePart
  dsimp only
  rw [hk]
  exact if_pos h

theorem State.takePart_full (hk : s.tracker p.src p.tid = none) (h : 2048 ≤ s.fab.trackers.length) : s.takePart p = (.later, s) := by
  unfold State.takePart
  dsimp only
  rw [hk]
  exact if_pos (decide_eq_true h)

/-! ## Reads -/

section
variable (hlow : p.addr.getLsbD 47 = false)
include hlow

theorem State.takeRead_outside (hd : s.inDram p.addr.toNat p.len.toNat = false) (hs : inStaging p.addr.toNat p.len.toNat = false) :
    s.takeRead p = (.done 0x16, s.badTarget p) := by
  unfold State.takeRead
  dsimp only
  rw [bit_toNat, hlow, if_neg Bool.false_ne_true, hd, hs]
  rfl

theorem State.takeRead_memory (hd : s.inDram p.addr.toNat p.len.toNat = true) (hconf : s.confDenied p.inst.toNat p.enc p.addr.toNat p.len.toNat = false)
    {bs : List Byte} (hr : s.readMem (if p.enc then s.keyOf p.inst.toNat else 0) p.addr.toNat p.len.toNat = (.inl bs, t)) :
    s.takeRead p = (.served, t.sendRsp p 0 1 p.addr.toNat bs) := by
  unfold State.takeRead
  dsimp only
  rw [bit_toNat, hlow, if_neg Bool.false_ne_true, hd, hconf, Bool.and_false, hr]
  rfl

end

end

/-- Settles O44: held or taken, by type; a write by where its payload goes, a read by what it may read. -/
theorem packetContents : Obligations.PacketContents := by
  intro s p i
  refine ⟨fun _ x hx => State.passOn_held hx, fun take t hfree ho hwait => ?waits, fun _ => State.passOn_behind, fun take f t hfree ho htake hf => ?taken,
    fun _ => rfl, takeAny_write, takeAny_readReq, takeAny_launch, fun m hm => ⟨fun ht => takeAny_coll ht hm, takeWith_ctl s hm⟩, takeAny_heartbeat,
    takeAny_journal, takeAny_inst, fun _ hv hc hs => ?plain, State.takeWrite_void, fun hlow hd hstage => ?memory, fun hhigh hd => ?host,
    fun t => State.takePart_beyond, State.takePart_full,
    fun hlow => ⟨State.takeRead_outside hlow, fun bs t hd hconf => State.takeRead_memory hlow hd hconf⟩, fun hi => ?inst⟩
  case waits =>
    rw [State.passOn_free hfree ho, hwait]
    exact if_pos rfl
  case taken =>
    rw [State.passOn_free hfree ho, htake]
    exact if_neg hf
  case plain =>
    rw [State.takeWrite_plain hv hc hs]
    exact ⟨fun h => if_neg (Bool.eq_false_iff.mp h), fun h => if_pos h⟩
  case memory =>
    exact ⟨fun h => State.commitData_of (State.commitBytes_outside hd hlow hstage h),
      fun hin hconf => State.commitData_of (State.commitBytes_denied hd hlow hin hconf),
      fun t hin hconf hw => State.commitData_of (State.commitBytes_memory hd hlow hin hconf hw),
      fun a t hin hconf hw => State.commitData_of (State.commitBytes_memory hd hlow hin hconf hw)⟩
  case host =>
    exact ⟨fun h => State.commitData_of (State.commitBytes_linkDown hd hhigh h), fun hup h => State.commitData_of (State.commitBytes_slot hd hhigh hup h),
      fun hup h => State.commitData_of (State.commitBytes_host hd hhigh hup h)⟩
  case inst =>
    subst hi
    refine ⟨fun h => ?_, fun h => ?_, fun h => ?_, fun h => ?_⟩ <;> simp only [State.takeInst, h]

end Sys2Proof.Machine

/-! SUPPORT and PROOFS. Packets at a port, copies, holds and what is given up (02, 08). -/

namespace Sys2Proof.Machine

section
variable {s : State} {n k : Nat} {p : Packet} {h : HeldPacket} {src : ChipId} {tid : BitVec 24}

/-! ## A packet at a port -/

theorem exec_packetReceive_other (hno : s.portTakes n p = false ∨ p.mcid.isSome = true) : exec (.packetReceive n p) s = .next s := by
  refine congrArg Host.Outcome.next (if_pos ?_)
  obtain h | h := hno <;> simp [h]

section
variable (ht : s.portTakes n p = true)
include ht

theorem exec_packetReceive_taken (hm : p.mcid = none) : exec (.packetReceive n p) s = .next
    (if p.malformed then (s.consumed n p).dropPacket p 2
    else if p.dst = s.dom.chipId ∨ p.type = tyDisc then s.consumed n p
    else if 6 ≤ p.vl.toNat then (s.consumed n p).dropPacket p 1
    else (s.consumed n p).forward { p with vl := p.vl + 1 } (some n)) := by
  refine congrArg Host.Outcome.next ((if_neg (by rw [ht, hm]; decide)).trans ?_)
  simp only [Bool.or_eq_true, decide_eq_true_eq]
  rfl

theorem exec_multicastReceive_taken {m : Nat} (hm : p.mcid = some m) : exec (.multicastReceive n p) s = .next
    (if p.malformed then (s.consumed n p).dropPacket p 2
    else if !(Tbl.get 0 s.act.mc m).getLsbD 25 then (s.consumed n p).dropPacket p 4
    else if (Tbl.get 0 s.act.mc m).getLsbD 24 then ((s.consumed n p).copies (Tbl.get 0 s.act.mc m) n p).localCopy p
    else (s.consumed n p).copies (Tbl.get 0 s.act.mc m) n p) := by
  refine congrArg Host.Outcome.next ?_
  rw [hm]
  exact if_neg (by rw [ht]; decide)

end

theorem exec_multicastReceive_unicast (hm : p.mcid = none) : exec (.multicastReceive n p) s = .next s := by
  refine congrArg Host.Outcome.next ?_
  rw [hm]

theorem exec_multicastReceive_closed (ht : s.portTakes n p = false) : exec (.multicastReceive n p) s = .next s := by
  refine congrArg Host.Outcome.next ?_
  split
  · rfl
  · exact if_pos (by rw [ht]; rfl)

theorem Packet.mcid_mc (h : p.mc = true) : p.mcid = some (p.dst.toNat % 4096) := if_pos h

theorem Packet.mcid_broadcast (h : p.mc = false) (hd : p.dst = 0xFFFF) : p.mcid = some 0 := (if_neg (Bool.eq_false_iff.mp h)).trans (if_pos hd)

/-! ## Copies delivered here -/

theorem State.localCopy_crc (h : p.crc ≠ p.pcrc) : s.localCopy p = s.bumpPcrc := if_pos h

theorem State.localCopy_held {x : Part} (hc : p.crc = p.pcrc) (hx : s.resettingPart p = some x) :
    s.localCopy p = { s with fab := { s.fab with mcHeld := s.fab.mcHeld ++ [({ part := x.key, packet := p } : HeldPacket)] } } := by
  rw [State.localCopy, if_neg (not_not.mpr hc), hx]

/-! ## Holds that end, and what is given up -/

theorem exec_multicastHoldExpiry_held (hk : s.fab.mcHeld[k]? = some h) : exec (.multicastHoldExpiry k) s =
    .next (({ s with fab := { s.fab with mcHeld := s.fab.mcHeld.eraseIdx k } } : State).dropPacket h.packet 5) := by
  refine congrArg Host.Outcome.next ?_
  rw [hk]

theorem exec_multicastHoldExpiry_none (hk : s.fab.mcHeld.length ≤ k) : exec (.multicastHoldExpiry k) s = .next s := by
  refine congrArg Host.Outcome.next ?_
  rw [List.getElem?_eq_none hk]

theorem exec_partResetHoldExpiry_held (hk : s.fab.held[k]? = some h) : exec (.partResetHoldExpiry k) s =
    .next ((({ s with fab := { s.fab with held := s.fab.held.eraseIdx k } } : State).oweOrd h.packet).sendNak h.packet 3) := by
  refine congrArg Host.Outcome.next ?_
  rw [hk]
  rfl

theorem exec_partResetHoldExpiry_none (hk : s.fab.held.length ≤ k) : exec (.partResetHoldExpiry k) s = .next s := by
  refine congrArg Host.Outcome.next ?_
  rw [List.getElem?_eq_none hk]

theorem exec_transferAbandon_tracked {t : Tracker} (ht : s.tracker src tid = some t) (hl : s.live = true) :
    exec (.transferAbandon src tid) s = .next ((s.abandon t).afterAnswer) := by
  refine congrArg Host.Outcome.next ?_
  rw [ht]
  exact if_pos hl

theorem exec_transferAbandon_idle (h : s.tracker src tid = none ∨ s.live = false) : exec (.transferAbandon src tid) s = .next s := by
  refine congrArg Host.Outcome.next ?_
  split
  next ht => exact if_neg (Bool.eq_false_iff.mp (h.resolve_left (by rw [ht]; exact Option.some_ne_none _)))
  · rfl

end

/-- Settles O45: a packet by where it is for, a copy by its ID's entry, and what the end of a hold does. -/
theorem packetRouting : Obligations.PacketRouting := by
  intro s n k p h src tid t
  refine ⟨fun ht hm => ?unicast, fun ht => ⟨exec_packetReceive_other (.inl ht), exec_multicastReceive_closed ht⟩, fun hm => exec_packetReceive_other (.inr hm),
    exec_multicastReceive_unicast, Packet.mcid_mc, Packet.mcid_broadcast, fun m ht hm => ?multicast, State.localCopy_crc, fun x => State.localCopy_held,
    exec_multicastHoldExpiry_held, exec_multicastHoldExpiry_none, exec_partResetHoldExpiry_held, exec_partResetHoldExpiry_none, rfl,
    exec_transferAbandon_tracked, exec_transferAbandon_idle, fun part begins hl => congrArg _ (if_pos (by rw [hl]; rfl)),
    fun part hl => congrArg _ ((if_neg (by rw [hl]; decide)).trans (if_pos rfl)), fun part r hl hr => ?leaves, rfl, rfl⟩
  case unicast =>
    rw [exec_packetReceive_taken ht hm]
    refine ⟨fun hf => congrArg _ (if_pos hf), fun hf hd => ?_, fun hf hd ht hv => ?_, fun hf hd ht hv => ?_⟩ <;> rw [if_neg (Bool.eq_false_iff.mp hf)]
    · rw [if_pos hd]
    · rw [if_neg (not_or.mpr ⟨hd, ht⟩), if_pos hv]
    · rw [if_neg (not_or.mpr ⟨hd, ht⟩), if_neg (Nat.not_le.mpr hv)]
  case multicast =>
    rw [exec_multicastReceive_taken ht hm]
    refine ⟨fun hf => congrArg _ (if_pos hf), fun hf hv => ?_, fun hf hv => ?_⟩ <;> rw [if_neg (Bool.eq_false_iff.mp hf), hv] <;> rfl
  case leaves =>
    subst hr
    exact congrArg _ ((if_neg (by rw [hl]; decide)).trans (if_neg Bool.false_ne_true))

end Sys2Proof.Machine

/-! SUPPORT and PROOFS. Answers at the source of a transfer, and its resends (02, 08, 13). -/

namespace Sys2Proof.Machine

section
variable {s : State} {p : Packet} {x : Xfer} {dst : ChipId} {tid : BitVec 24}

/-! ## Which transfer an answer is for -/

theorem State.answered_none (h : p.tinc ≠ s.dom.chipInc ∨ p.sinc ≠ Tbl.get 0 s.dom.incs p.src.toNat ∨ p.crc ≠ p.pcrc) : s.answered p = none := by
  refine if_neg fun hall => ?_
  simp only [Bool.and_eq_true, decide_eq_true_eq] at hall
  tauto

theorem State.countAnswer_crc (hm : s.mine p = true) (hf : p.malformed = false) (hc : p.crc ≠ p.pcrc) : s.countAnswer p = s.bumpPcrc := by
  rw [State.countAnswer, hm, hf, decide_eq_true hc]
  rfl

theorem State.countAnswer_quiet (h : s.mine p = false ∨ p.malformed = true ∨ p.crc = p.pcrc) : s.countAnswer p = s := by
  refine if_neg ?_
  obtain h | h | h := h <;> simp [h]

/-- What an answer does, once its transfer is known: `act` where the row is for it. -/
def State.answerWith (s : State) (p : Packet) (act : Xfer → State) : State :=
  (match s.answered p with | some x => act x | none => s.countAnswer p).afterAnswer

theorem State.answerWith_of {act : Xfer → State} (h : s.answered p = some x) : s.answerWith p act = (act x).afterAnswer := by
  rw [State.answerWith, h]

theorem State.answerWith_none {act : Xfer → State} (h : s.answered p = none) : s.answerWith p act = (s.countAnswer p).afterAnswer := by
  rw [State.answerWith, h]

/-! ## The rows of answers -/

theorem exec_readRsp : exec (.readRsp p) s = .next (s.answerWith p (fun x =>
    if p.type == tyReadRsp && x.pkts.any (fun q => q.type == tyReadReq) then s.takeRsp x p else s)) := rfl

theorem exec_xferAck : exec (.xferAck p) s = .next (s.answerWith p (fun x =>
    if p.type == tyAck && (match x.purpose with | .abort _ => false | _ => true) then s.applyAck x p.reason else s)) := rfl

theorem exec_abortAck : exec (.abortAck p) s = .next (s.answerWith p (fun x =>
    if p.type == tyAck && (match x.purpose with | .abort _ => true | _ => false) then s.applyAck x p.reason else s)) := rfl

theorem exec_e2eNakCrc : exec (.e2eNakCrc p) s = .next (s.answerWith p (fun x =>
    if p.type == tyNak && p.reason = 1 then (s.heard x).resendPkts x (x.pkts.filter (fun q => q.pktidx == p.pktidx)) else s)) := rfl

theorem exec_e2eNakRetryLater : exec (.e2eNakRetryLater p) s = .next (s.answerWith p (fun x =>
    if p.type == tyNak && p.reason = 3 then
      (s.heard x).updXfer x (fun y => { y with refused := if y.refused.contains p.pktidx.toNat then y.refused else y.refused ++ [p.pktidx.toNat] })
    else s)) := rfl

theorem exec_e2eNakAbandoned : exec (.e2eNakAbandoned p) s = .next (s.answerWith p (fun x =>
    if p.type == tyNak && p.reason = 4 then (s.endXfer x).xferFail x x.abandonedErr else s)) := rfl

/-- An answer without its transfer is counted where its code is wrong. -/
theorem exec_answers_none (h : s.answered p = none) {t : State} (hc : s.countAnswer p = t) :
    exec (.readRsp p) s = .next t.afterAnswer ∧ exec (.xferAck p) s = .next t.afterAnswer ∧ exec (.abortAck p) s = .next t.afterAnswer ∧
    exec (.e2eNakCrc p) s = .next t.afterAnswer ∧ exec (.e2eNakRetryLater p) s = .next t.afterAnswer ∧ exec (.e2eNakAbandoned p) s = .next t.afterAnswer := by
  subst hc
  rw [exec_readRsp, exec_xferAck, exec_abortAck, exec_e2eNakCrc, exec_e2eNakRetryLater, exec_e2eNakAbandoned]
  exact ⟨congrArg _ (State.answerWith_none h), congrArg _ (State.answerWith_none h), congrArg _ (State.answerWith_none h), congrArg _ (State.answerWith_none h),
    congrArg _ (State.answerWith_none h), congrArg _ (State.answerWith_none h)⟩

section
variable (h : s.answered p = some x)
include h

theorem exec_xferAck_ended (ht : p.type = tyAck) (hx : ∀ c, x.purpose ≠ .abort c) : exec (.xferAck p) s = .next ((s.applyAck x p.reason).afterAnswer) := by
  have hpurpose : (match x.purpose with | .abort _ => false | _ => true) = true := by
    split
    next c hc => exact absurd hc (hx c)
    · rfl
  rw [exec_xferAck, State.answerWith_of h, if_pos (by rw [ht]; exact hpurpose)]

theorem exec_abortAck_ended {c : Nat} (ht : p.type = tyAck) (hx : x.purpose = .abort c) :
    exec (.abortAck p) s = .next ((s.applyAck x p.reason).afterAnswer) := by
  rw [exec_abortAck, State.answerWith_of h, if_pos (by rw [ht, hx]; rfl)]

end

/-- The refusals of Table 8-8 fail what the transfer was for. -/
theorem State.applyAck_refused {o : Nat} (ho : o ∈ [0x10, 0x11, 0x12, 0x14, 0x15, 0x16]) : s.applyAck x o = (s.endXfer x).xferFail x (x.outcomeErr o) := by
  simp only [List.mem_cons, List.not_mem_nil, or_false] at ho
  obtain rfl | rfl | rfl | rfl | rfl | rfl := ho <;> rfl

/-! ## What an ABANDONED says -/

theorem Xfer.abandonedErr_write {q : Packet} (hq : x.pkts.getLast? = some q) (ht : q.type ≠ tyReadReq) : x.abandonedErr =
    { status := stCheckerFail, peer := x.dst.toNat, objChip := if q.sig then x.dst.toNat else 0, objIdx := if q.sig then q.obj.toNat else 0,
      objKind := if q.sig then sigObjKind q.kind.toNat else 0 } := by
  rw [Xfer.abandonedErr, hq]
  exact if_neg (mt beq_iff_eq.mp ht)

/-- The access code of a read: 4 where a context fetches by it, else 1. -/
def readAccess : Purpose → Nat
  | .ctxRead _ _ _ => 4
  | _ => 1

/-- A read's fault: of the host its DVA, of memory its LPA. -/
theorem Xfer.abandonedErr_read {q : Packet} (hq : x.pkts.getLast? = some q) (ht : q.type = tyReadReq) : x.abandonedErr =
    if bit q.addr.toNat 47 then { status := stXltFault, addr := x.dva, access := readAccess x.purpose }
    else { status := stCheckerFail, addr := q.addr.toNat, access := readAccess x.purpose, peer := x.dst.toNat } := by
  rw [Xfer.abandonedErr, hq]
  refine (if_pos (beq_iff_eq.mpr ht)).trans ?_
  cases x.purpose <;> rfl

/-! ## STALE -/

section
variable (hm : s.mine p = true) (hf : p.malformed = false) (ht : p.type = tyNak) (hr : p.reason = 2) (inc : BitVec 8)
include hm hf ht hr

theorem exec_e2eNakStale_mine : exec (.e2eNakStale p inc) s = .next (if p.crc ≠ p.pcrc then s.bumpPcrc else match s.xferOf p.src p.tid with
    | none => s
    | some x =>
      ((if s.dom.root then { s with dom := { s.dom with incs := Tbl.set 0 s.dom.incs x.dst.toNat inc } }
        else State.ctl { s with dom := { s.dom with incs := Tbl.set 0 s.dom.incs x.dst.toNat inc } } s.dom.rootId (.incRequest x.dst)).heard x).resendPkts x
          x.pkts) := by
  refine congrArg Host.Outcome.next ((if_pos ?_).trans rfl)
  rw [hm, hf, ht, decide_eq_true hr]
  rfl

theorem exec_e2eNakStale_crc (hc : p.crc ≠ p.pcrc) : exec (.e2eNakStale p inc) s = .next s.bumpPcrc := by
  rw [exec_e2eNakStale_mine hm hf ht hr, if_pos hc]

theorem exec_e2eNakStale_none (hc : p.crc = p.pcrc) (hx : s.xferOf p.src p.tid = none) : exec (.e2eNakStale p inc) s = .next s := by
  rw [exec_e2eNakStale_mine hm hf ht hr, if_neg (not_not.mpr hc), hx]

theorem exec_e2eNakStale_known (hc : p.crc = p.pcrc) (hx : s.xferOf p.src p.tid = some x) : exec (.e2eNakStale p inc) s = .next
    (((if s.dom.root then { s with dom := { s.dom with incs := Tbl.set 0 s.dom.incs x.dst.toNat inc } }
      else State.ctl { s with dom := { s.dom with incs := Tbl.set 0 s.dom.incs x.dst.toNat inc } } s.dom.rootId (.incRequest x.dst)).heard x).resendPkts x
        x.pkts) := by
  rw [exec_e2eNakStale_mine hm hf ht hr, if_neg (not_not.mpr hc), hx]

end

/-! ## The resend point and the acknowledgement limit -/

theorem exec_resends_unknown (hx : s.xferOf dst tid = none) :
    exec (.retryLaterResend dst tid) s = .next s.afterAnswer ∧ exec (.xferAckTimeout dst tid) s = .next s.afterAnswer := by
  constructor <;> refine congrArg (fun t => Host.Outcome.next (State.afterAnswer t)) ?_ <;> rw [hx]

theorem exec_retryLaterResend_known (hx : s.xferOf dst tid = some x) (hl : s.live = true) : exec (.retryLaterResend dst tid) s = .next (State.afterAnswer
    (if x.refused = [] then s else if 20 ≤ x.rounds then s.giveUp x
      else (s.updXfer x (fun y => { y with rounds := y.rounds + 1, refused := [] })).resendPkts x (x.pkts.filter (fun q => x.refused.contains q.pktidx.toNat)))) := by
  refine congrArg (fun t => Host.Outcome.next (State.afterAnswer t)) ?_
  rw [hx]
  simp only [hl, Bool.not_true, Bool.false_or, List.isEmpty_iff]

theorem exec_xferAckTimeout_known (hx : s.xferOf dst tid = some x) (hl : s.live = true) :
    exec (.xferAckTimeout dst tid) s = .next (s.sendAgain x).afterAnswer := by
  refine congrArg (fun t => Host.Outcome.next (State.afterAnswer t)) ?_
  rw [hx]
  exact if_pos hl

theorem Xfer.mute_iff : x.mute = true ↔ x.sends = 4 ∨ ∃ e ∈ x.pktSends, e.2 = 8 := by
  simp [Xfer.mute]

theorem State.sendAgain_gone (h : (s.resendAll x).xferOf x.dst x.tid = none) : s.sendAgain x = s.resendAll x := by
  rw [State.sendAgain]
  simp only [h]

theorem State.sendAgain_left {y : Xfer} (h : (s.resendAll x).xferOf x.dst x.tid = some y) :
    s.sendAgain x = if y.mute then (s.resendAll x).unresponsive y else s.resendAll x := by
  rw [State.sendAgain]
  simp only [h]

theorem State.unresponsive_far (hr : s.dom.root = false) (hx : x.dst ≠ s.dom.rootId) : s.unresponsive x = s.ctl s.dom.rootId (.declare x.dst) := by
  rw [State.unresponsive, if_neg (Bool.eq_false_iff.mp hr), if_pos hx]

section
variable (hr : s.dom.root = false) (hx : x.dst = s.dom.rootId)
include hr hx

theorem State.unresponsive_atRoot_standby {d : ChipId} (hd : s.dom.standby = some d) :
    s.unresponsive x = if d = s.dom.chipId then s.lossDetected else s.ctl d (.declare x.dst) := by
  rw [State.unresponsive, if_neg (Bool.eq_false_iff.mp hr), if_neg (not_not.mpr hx), hd]

theorem State.unresponsive_atRoot_alone (hd : s.dom.standby = none) : s.unresponsive x = s.giveUp x := by
  rw [State.unresponsive, if_neg (Bool.eq_false_iff.mp hr), if_neg (not_not.mpr hx), hd]

end

end

/-- Settles O46: an answer by its type and its reason, the resend point and the acknowledgement limit by what has been sent. -/
theorem answers : Obligations.Answers := by
  intro s p x inc dst tid
  refine ⟨fun h => ?answered, fun q hq => ⟨Xfer.abandonedErr_write hq, fun ht hb => ?_, fun ht hb => ?_⟩,
    fun h hm hf hc => exec_answers_none h (State.countAnswer_crc hm hf hc), fun h hq => exec_answers_none h (State.countAnswer_quiet hq),
    State.answered_none, fun hm hf ht hr => ?stale, ⟨rfl, rfl, fun o ho => State.applyAck_refused ho⟩, fun hg => if_pos hg, exec_resends_unknown,
    fun hx hl => ?known, fun hr => if_pos hr, State.unresponsive_far,
    fun hr hx => ⟨fun d hd hne => ?_, fun hd => ?_, State.unresponsive_atRoot_alone hr hx⟩⟩
  case answered =>
    refine ⟨fun ht hq => ?_, exec_xferAck_ended h, fun c => exec_abortAck_ended h, fun ht hr => ?_, fun ht hr => ?_, fun ht hr => ?_⟩
    · rw [exec_readRsp, State.answerWith_of h, if_pos (by rw [ht, hq]; rfl)]
    · rw [exec_e2eNakCrc, State.answerWith_of h, if_pos (by rw [ht, hr]; rfl)]
    · rw [exec_e2eNakRetryLater, State.answerWith_of h, if_pos (by rw [ht, hr]; rfl)]
    · rw [exec_e2eNakAbandoned, State.answerWith_of h, if_pos (by rw [ht, hr]; rfl)]
  · exact (Xfer.abandonedErr_read hq ht).trans (if_neg (Bool.eq_false_iff.mp hb))
  · exact (Xfer.abandonedErr_read hq ht).trans (if_pos hb)
  case stale =>
    exact ⟨exec_e2eNakStale_crc hm hf ht hr inc, exec_e2eNakStale_none hm hf ht hr inc,
      fun r hc hx hr' => hr' ▸ exec_e2eNakStale_known hm hf ht hr inc hc hx⟩
  case known =>
    refine ⟨fun h => ?_, fun h hmany => ?_, fun h hfew => ?_, fun r hr => ⟨fun hgone => ?_, fun y hy => ⟨fun hs hp => ?_, fun hs => ?_⟩⟩⟩
    · rw [exec_retryLaterResend_known hx hl, if_pos h]
    · rw [exec_retryLaterResend_known hx hl, if_neg h, if_pos hmany]
    · rw [exec_retryLaterResend_known hx hl, if_neg h, if_neg (Nat.not_le.mpr hfew)]
    all_goals subst hr
    · rw [exec_xferAckTimeout_known hx hl, State.sendAgain_gone hgone]
    · rw [exec_xferAckTimeout_known hx hl, State.sendAgain_left hy, if_neg]
      rw [Xfer.mute_iff]
      rintro (h | ⟨e, he, h⟩)
      · exact hs h
      · exact hp e he h
    · rw [exec_xferAckTimeout_known hx hl, State.sendAgain_left hy, if_pos (Xfer.mute_iff.mpr hs)]
  · rw [State.unresponsive_atRoot_standby hr hx hd, if_neg hne]
  · rw [State.unresponsive_atRoot_standby hr hx hd, if_pos rfl]

end Sys2Proof.Machine

/-! SUPPORT and PROOFS. Election, discovery and domain formation (02, 19). -/

namespace Sys2Proof.Machine

section
variable {s : State} {n k : Nat} {p : Packet} {key : Word64} {r : Report} {serial : BitVec 48} {id : ChipId} {d : Word32} {reason : BitVec 8}

/-! ## DISC packets at a port -/

section
variable (ht : s.portTakes n p = true) (hd : p.type = tyDisc) (hf : p.malformed = false)
include ht hd hf

theorem State.discAt_sound : s.discAt n p = fun act => if p.crc ≠ p.pcrc then s.bumpPcrc else match p.msg with | some m => act m | none => s := by
  funext act
  refine if_neg ?_
  rw [ht, hf, decide_eq_false (not_not.mpr hd)]
  decide

theorem State.discAt_crc (hc : p.crc ≠ p.pcrc) (act : CtlMsg → State) : s.discAt n p act = s.bumpPcrc := by
  rw [State.discAt_sound ht hd hf]
  exact if_pos hc

theorem State.discAt_says (hc : p.crc = p.pcrc) {m : CtlMsg} (hm : p.msg = some m) (act : CtlMsg → State) : s.discAt n p act = act m := by
  rw [State.discAt_sound ht hd hf]
  dsimp only
  rw [if_neg (not_not.mpr hc), hm]

end

theorem State.discAt_closed (h : s.portTakes n p = false ∨ p.type ≠ tyDisc ∨ p.malformed = true) (act : CtlMsg → State) : s.discAt n p act = s := by
  refine if_pos ?_
  obtain h | h | h := h <;> simp [h]

/-! ## What each message does between the fabric unit's start and the formation -/

/-- Outside the election, and on a port that is not ACTIVE, what a neighbour says of the election is nothing. -/
theorem State.neighbour_idle (h : s.electing = false ∨ (s.port n).st ≠ .active) :
    s.takeElect n key = s ∧ s.takeParent n = s ∧ s.takeDiscReport n r = s ∧ s.takeReady n serial = s := by
  obtain h | h := h <;> simp [State.takeElect, State.takeParent, State.takeDiscReport, State.takeReady, h]

/-- So is an order that is not the parent's. -/
theorem State.order_idle (h : s.electing = false ∨ s.disc.parent ≠ some n) : s.takeAssign n serial id d = s ∧ s.takeReject n serial reason = s := by
  obtain h | h := h <;> simp [State.takeAssign, State.takeReject, h]

section
variable (he : s.electing = true)
include he

section
variable (hst : (s.port n).st = .active)
include hst

theorem State.takeElect_active : s.takeElect n key = s.takeKey n key := if_pos (by rw [he, decide_eq_true hst]; rfl)

theorem State.takeParent_active (h : n ∉ s.disc.children) :
    s.takeParent n = { s with disc := { s.disc with children := s.disc.children ++ [n] } } :=
  if_pos (by simp [he, hst, h])

/-- A REPORT of another chip is kept, and relayed to the parent where there is one. -/
theorem State.takeDiscReport_active (hc : s.disc.closed = false) (hr : r.serial ≠ s.fuses.serial) : s.takeDiscReport n r =
    match s.disc.parent with
    | some k => ({ s with disc := { s.disc with reports := keepReport s.disc.reports r } } : State).sendDisc k (.report r)
    | none => { s with disc := { s.disc with reports := keepReport s.disc.reports r } } :=
  (if_pos (by rw [he, decide_eq_true hst, hc, decide_eq_true hr]; rfl)).trans rfl

theorem State.takeReady_active : s.takeReady n serial = if s.disc.closed then
      ({ s with disc := { s.disc with readies := if s.disc.readies.contains serial then s.disc.readies else s.disc.readies ++ [serial] } } : State).formCommit
    else match s.disc.parent with
      | some k => s.sendDisc k (.ready serial)
      | none => s :=
  (if_neg (by rw [he, decide_eq_false (not_not.mpr hst)]; decide)).trans rfl

end

section
variable (hp : s.disc.parent = some n)
include hp

theorem State.takeAssign_parent : s.takeAssign n serial id d =
    if serial = s.fuses.serial then { s with dom := { s.dom with chipId := id } } else s.sendDiscs s.disc.children (.assign serial id d) :=
  if_neg (by rw [he, decide_eq_false (not_not.mpr hp)]; decide)

theorem State.takeReject_parent : s.takeReject n serial reason =
    if serial = s.fuses.serial then s.formOne 1 resRejected else s.sendDiscs s.disc.children (.reject serial reason) :=
  if_neg (by rw [he, decide_eq_false (not_not.mpr hp)]; decide)

theorem exec_assignTimeout_parent : exec .assignTimeout s = .next (if s.dom.chipId = 0
    then ({ s with disc := { s.disc with reports := [], children := [] } } : State).candidate else s) := by
  refine congrArg Host.Outcome.next ?_
  simp only [he, hp, Option.isSome_some, Bool.and_self, Bool.true_and, decide_eq_true_eq]

end

theorem exec_rootTimer_best (ha : s.disc.active = true) (hb : s.disc.best = s.ownKey) (hp : s.disc.parent = none) (hr : s.disc.isRoot = false) :
    exec .rootTimer s = .next { s with disc := { s.disc with isRoot := true, reports := s.ownReport :: s.disc.reports.filter (fun x => x.serial ≠ s.fuses.serial) } } :=
  congrArg Host.Outcome.next (if_pos (by rw [he, ha, decide_eq_true hb, hp, hr]; rfl))

theorem exec_formationWaitExpiry_electing :
    exec .formationWaitExpiry s = .next (if s.activeMask = 0 then s.formOne 1 resDomainOfOne else s) := by
  refine congrArg Host.Outcome.next ?_
  simp only [he, Bool.true_and, decide_eq_true_eq]

end

theorem exec_rootTimer_other (h : s.disc.best ≠ s.ownKey ∨ s.disc.parent.isSome = true) : exec .rootTimer s = .next s := by
  refine congrArg Host.Outcome.next (if_neg ?_)
  simp only [Bool.and_eq_true, decide_eq_true_eq, Option.isNone_iff_eq_none, Option.isSome_iff_ne_none] at h ⊢
  tauto

/-! ## Keys -/

theorem State.takeKey_noBetter (ha : s.disc.active = true) (h : key.toNat ≤ s.disc.best.toNat) : s.takeKey n key = s := by
  rw [State.takeKey, ha]
  exact (if_pos h).trans (if_pos rfl)

/-- A chip that has closed no collection has no role to give up. -/
theorem State.giveUpRoot_open (hc : s.disc.closed = false) : s.giveUpRoot = s := if_pos (by rw [hc]; rfl)

theorem State.takeKey_better (ha : s.disc.active = true) (hc : s.disc.closed = false) (h : s.disc.best.toNat < key.toNat) : s.takeKey n key =
    ((({ s with disc := { s.disc with active := true, best := key, parent := some n, isRoot := false, reports := s.disc.reports.filter (fun x => x.serial ≠ s.fuses.serial), children := s.disc.children.filter (· ≠ n) } } : State).announceKey).sendDisc
      n .parent).reportUp n (s.disc.reports.filter (fun x => x.serial ≠ s.fuses.serial)) := by
  rw [State.takeKey, ha]
  refine (if_neg (Nat.not_le.mpr h)).trans ?_
  rw [State.giveUpRoot_open hc]

theorem State.giveUpRoot_closed (hc : s.disc.closed = true) :
    s.giveUpRoot.dom.root = false ∧ s.giveUpRoot.dom.chipId = 0 ∧ s.giveUpRoot.disc.granted = [] ∧ s.giveUpRoot.disc.closed = false := by
  rw [State.giveUpRoot, if_neg (by rw [hc]; decide)]
  exact ⟨rfl, rfl, rfl, rfl⟩

/-! ## The end of the collection -/

/-- A limit of the configuration area, or its default where none is set. -/
def orDefault (v d : Nat) : Nat := if v = 0 then d else v

theorem orDefault_zero {v : Nat} (d : Nat) (h : v = 0) : orDefault v d = d := if_pos h

/-- The collection may close: its report count, its waits or FORM_MAX say so. -/
def State.collectionDue (s : State) (sf sr : Nat) : Bool :=
  (decide (leAt s.boot.cfg 24 2 ≠ 0) && decide (leAt s.boot.cfg 24 2 ≤ s.disc.reports.length))
    || (decide (leAt s.boot.cfg 24 2 = 0) && decide (orDefault (leAt s.boot.cfg 26 2) 50 ≤ sf) && decide (orDefault (leAt s.boot.cfg 28 2) 10 ≤ sr))
    || decide (orDefault (leAt s.boot.cfg 32 4) 5000 ≤ sf)

theorem State.collectionDue_iff {sf sr : Nat} : s.collectionDue sf sr = true ↔
    (leAt s.boot.cfg 24 2 ≠ 0 ∧ leAt s.boot.cfg 24 2 ≤ s.disc.reports.length) ∨
    (leAt s.boot.cfg 24 2 = 0 ∧ orDefault (leAt s.boot.cfg 26 2) 50 ≤ sf ∧ orDefault (leAt s.boot.cfg 28 2) 10 ≤ sr) ∨
    orDefault (leAt s.boot.cfg 32 4) 5000 ≤ sf := by
  simp only [State.collectionDue, Bool.or_eq_true, Bool.and_eq_true, decide_eq_true_eq, and_assoc, or_assoc]

theorem exec_collectionClose {sf sr : Nat} : exec (.collectionClose sf sr) s =
    .next (if s.electing && s.disc.isRoot && !s.disc.closed && s.collectionDue sf sr then s.closeCollection else s) := rfl

section
variable {sf sr : Nat}

theorem exec_collectionClose_root (he : s.electing = true) (hr : s.disc.isRoot = true) (hc : s.disc.closed = false) :
    exec (.collectionClose sf sr) s = .next (if s.collectionDue sf sr then s.closeCollection else s) := by
  rw [exec_collectionClose, he, hr, hc]
  rfl

theorem exec_collectionClose_other (h : s.electing = false ∨ s.disc.isRoot = false) : exec (.collectionClose sf sr) s = .next s := by
  rw [exec_collectionClose, if_neg]
  obtain h | h := h <;> simp [h]

end

/-! ## Fences -/

section
variable {src chip : ChipId} {ports : List Nat}

theorem State.takeFence_root (hf : s.dom.formed = true) (hr : s.fromRoot src = true) (hc : chip ≠ s.dom.chipId) : s.takeFence src chip = s.fencePorts chip :=
  if_pos (by rw [hf, hr, decide_eq_true hc]; rfl)

theorem State.takeFence_other (h : s.dom.formed = false ∨ s.fromRoot src = false ∨ chip = s.dom.chipId) : s.takeFence src chip = s := by
  refine if_neg ?_
  obtain h | h | h := h <;> simp [h]

theorem exec_fenceReceived_all (hl : s.live = true) (hf : s.dom.formed = true) (ha : s.activeMask ≠ 0) (h : ∀ x ∈ s.activePorts, x ∈ ports) :
    exec (.fenceReceived ports) s = .next (({ s with dom := { s.dom with fencedSelf := true } } : State).emit .selfFenced) := by
  have hall : s.activePorts.all (fun n => ports.contains n) = true := List.all_eq_true.mpr fun x hx => List.contains_iff_mem.mpr (h x hx)
  exact congrArg Host.Outcome.next (if_pos (by rw [hl, hf, decide_eq_true ha, hall]; rfl))

theorem exec_fenceReceived_some {x : Nat} (hx : x ∈ s.activePorts) (h : x ∉ ports) : exec (.fenceReceived ports) s = .next s := by
  refine congrArg Host.Outcome.next (if_neg fun hall => ?_)
  exact h (List.contains_iff_mem.mp (List.all_eq_true.mp (Bool.and_eq_true_iff.mp hall).2 x hx))

theorem exec_fenceReceived_other (h : s.live = false ∨ s.dom.formed = false) : exec (.fenceReceived ports) s = .next s := by
  refine congrArg Host.Outcome.next (if_neg ?_)
  obtain h | h := h <;> simp [h]

end

end

/-- Settles O47: DISC packets at their port, each message by the election's state, the end of the collection, and fences. -/
theorem domainFormation : Obligations.DomainFormation := by
  intro s n k p key r serial id chip src d reason ports sf sr
  refine ⟨fun ht hd hf => ⟨fun hc => ?crc, fun hc => ?message⟩, fun h => ?closed, fun he hst => ?active, fun hst => State.neighbour_idle (.inr hst),
    State.takeKey_noBetter, State.takeKey_better, State.giveUpRoot_closed, fun he => ?electing, fun hp => State.order_idle (.inr hp), fun he => ?quiet,
    State.takeFence_root, State.takeFence_other, fun hl hf => ⟨exec_fenceReceived_all hl hf, fun x hx h => exec_fenceReceived_some hx h⟩,
    exec_fenceReceived_other⟩
  case crc =>
    have refused := State.discAt_crc ht hd hf hc
    exact ⟨congrArg _ (refused _), congrArg _ (refused _), congrArg _ (refused _), congrArg _ (refused _), congrArg _ (refused _), congrArg _ (refused _)⟩
  case message =>
    have acts {m : CtlMsg} (hm : p.msg = some m) := State.discAt_says ht hd hf hc hm
    exact ⟨fun hm => congrArg _ (acts hm _), fun hm => congrArg _ (acts hm _), fun hm => congrArg _ (acts hm _), fun hm => congrArg _ (acts hm _),
      fun hm => congrArg _ (acts hm _), fun hm => congrArg _ (acts hm _)⟩
  case closed =>
    have ignored := State.discAt_closed h
    exact ⟨congrArg _ (ignored _), congrArg _ (ignored _), congrArg _ (ignored _), congrArg _ (ignored _), congrArg _ (ignored _), congrArg _ (ignored _)⟩
  case active =>
    refine ⟨State.takeElect_active he hst, State.takeParent_active he hst, fun hc hr hp => ?_, fun hc hr hp => ?_, fun hc => ?_, fun hc hp => ?_,
      fun hc hp => ?_⟩
    · rw [State.takeDiscReport_active he hst hc hr, hp]
    · rw [State.takeDiscReport_active he hst hc hr, hp]
    · rw [State.takeReady_active he hst, if_pos hc]
    · rw [State.takeReady_active he hst, if_neg (Bool.eq_false_iff.mp hc), hp]
    · rw [State.takeReady_active he hst, if_neg (Bool.eq_false_iff.mp hc), hp]
  case electing =>
    refine ⟨exec_rootTimer_best he, exec_rootTimer_other, fun hp => ⟨⟨?_, ?_⟩, fun hne => ⟨?_, ?_⟩, fun hz => ?_, fun hnz => ?_⟩, fun ha => ?_, fun ha => ?_,
      fun hr hc => ?root, fun hr => exec_collectionClose_other (.inr hr)⟩
    · rw [State.takeAssign_parent he hp, if_pos rfl]
    · rw [State.takeReject_parent he hp, if_pos rfl]
    · rw [State.takeAssign_parent he hp, if_neg hne]
    · rw [State.takeReject_parent he hp, if_neg hne]
    · rw [exec_assignTimeout_parent he hp, if_pos hz]
    · rw [exec_assignTimeout_parent he hp, if_neg hnz]
    · rw [exec_formationWaitExpiry_electing he, if_pos ha]
    · rw [exec_formationWaitExpiry_electing he, if_neg ha]
    case root =>
      rw [exec_collectionClose_root he hr hc]
      refine ⟨fun hx hlen => ?_, fun hx hw hq hsf hsr => ?_, fun hm hsf => ?_, fun hx hw hm hsf => ?_⟩
      · rw [if_pos (State.collectionDue_iff.mpr (.inl ⟨hx, hlen⟩))]
      · rw [if_pos (State.collectionDue_iff.mpr (.inr (.inl ⟨hx, by rwa [orDefault_zero _ hw], by rwa [orDefault_zero _ hq]⟩)))]
      · rw [if_pos (State.collectionDue_iff.mpr (.inr (.inr (by rwa [orDefault_zero _ hm]))))]
      · rw [if_neg]
        rw [State.collectionDue_iff, orDefault_zero _ hw, orDefault_zero _ hm]
        omega
  case quiet =>
    obtain ⟨helect, hparent, hreport, hready⟩ := State.neighbour_idle (n := n) (key := key) (r := r) (serial := serial) (.inl he)
    obtain ⟨hassign, hreject⟩ := State.order_idle (n := n) (serial := serial) (id := id) (d := d) (reason := reason) (.inl he)
    refine ⟨helect, hparent, hreport, hassign, hreject, hready, congrArg _ (if_neg ?_), exec_collectionClose_other (.inl he), congrArg _ (if_neg ?_),
      congrArg _ (if_neg ?_)⟩ <;> simp [he]

end Sys2Proof.Machine

/-! SUPPORT and PROOFS. Prepares, commits, losses and answers as they arrive at a member and at the root (02, 14, 15). -/

namespace Sys2Proof.Machine

section
variable {s t : State} {d : Word32} {lost : List ChipId} {routing ok : Bool} {roster : Option Roster} {part : Option CmdPart} {src chip : ChipId} {n : Nat}
  {off : BitVec 24} {v : Word64}

theorem State.fromRoot_iff : s.fromRoot src = true ↔ src = s.dom.rootId ∨ s.dom.standby = some src := by
  rw [State.fromRoot, Bool.or_eq_true, beq_iff_eq, beq_iff_eq]

/-! ## Prepares -/

/-- A prepare acts on a formed member that is not the root and that it does not name, from the root or its standby, for the next epoch. -/
theorem State.takePrepare_other (h : s.dom.formed = false ∨ s.dom.root = true ∨ s.fromRoot src = false ∨ s.dom.chipId ∈ lost ∨ d ≠ s.dom.depoch + 1) :
    s.takePrepare src d lost part = s := by
  refine if_pos ?_
  simp only [Bool.or_eq_true, Bool.not_eq_true', decide_eq_true_eq, List.contains_iff_mem]
  tauto

/-- The status a member answers a prepare with. -/
def State.statusOf (s : State) : Option CmdPart → Nat
  | some p => s.partStatus p
  | none => msDone

/-- Who is root once the chips named are lost. -/
def State.heirOf (s : State) (lost : List ChipId) : ChipId :=
  if lost.contains s.dom.rootId then (match s.dom.standby with | some d => d | none => s.dom.rootId) else s.dom.rootId

theorem State.takePrepare_next (hf : s.dom.formed = true) (hr : s.dom.root = false) (hs : s.fromRoot src = true) (hl : s.dom.chipId ∉ lost)
    (hd : d = s.dom.depoch + 1) (ht : t = s.prepareLocal lost) : s.takePrepare src d lost part =
      State.prepareAnswer { t with dom := { t.dom with preparing := some d, leaving := lost, owed := some (BitVec.ofNat 16 (t.statusOf part)), rootId := s.heirOf lost } } := by
  subst ht
  refine (if_neg ?_).trans ?_
  · simp only [Bool.or_eq_true, Bool.not_eq_true', decide_eq_true_eq, List.contains_iff_mem, hf, hr, hs, hl, hd]
    simp
  · cases part <;> rfl

theorem State.heirOf_stays (h : s.dom.rootId ∉ lost) : s.heirOf lost = s.dom.rootId :=
  if_neg fun hc => h (List.contains_iff_mem.mp hc)

theorem State.heirOf_standby {x : ChipId} (h : s.dom.rootId ∈ lost) (hx : s.dom.standby = some x) : s.heirOf lost = x := by
  rw [State.heirOf, if_pos (List.contains_iff_mem.mpr h), hx]

theorem State.prepareAnswer_none (h : s.dom.owed = none) : s.prepareAnswer = s := by
  rw [State.prepareAnswer, h]

section
variable {st : BitVec 16} (ho : s.dom.owed = some st) (hp : s.dom.preparing = some d)
include ho hp

theorem State.prepareAnswer_owed : s.prepareAnswer = if s.leavingShares then s else
    if s.dom.root then ({ s with dom := { s.dom with owed := none } } : State).takePrepareAck s.dom.chipId d st.toNat
    else ({ s with dom := { s.dom with owed := none } } : State).ctl s.dom.rootId (.prepareAck d st) := by
  rw [State.prepareAnswer, ho, hp]

end

/-! ## Commits -/

/-- The commit is for this chip: its roster names it, or it is a member and no roster comes with it. -/
def State.named (s : State) : Option Roster → Bool
  | some r => r.members.contains s.dom.chipId
  | none => s.dom.formed

/-- Who takes a commit: a member, from the root or its standby; before the formation a chip that has its ID. -/
def State.awaits (s : State) (src : ChipId) (routing : Bool) : Bool :=
  if s.dom.formed then !s.dom.root && s.fromRoot src else s.electing && s.dom.chipId ≠ 0 && routing && s.disc.parent.isSome

theorem State.takeCommit_eq : s.takeCommit src d routing roster part =
    if s.named roster && s.awaits src routing && decide (d = s.dom.depoch + 1) then s.commitLocal d routing roster part false else s := rfl

theorem State.named_some {r : Roster} : s.named (some r) = true ↔ s.dom.chipId ∈ r.members := List.contains_iff_mem

theorem State.awaits_member (hf : s.dom.formed = true) : s.awaits src routing = (!s.dom.root && s.fromRoot src) := if_pos hf

theorem State.awaits_formation (hf : s.dom.formed = false) (he : s.electing = true) (hid : s.dom.chipId ≠ 0) (hp : s.disc.parent.isSome = true) :
    s.awaits src true = true := by
  rw [State.awaits, if_neg (Bool.eq_false_iff.mp hf), he, decide_eq_true hid, hp]
  rfl

theorem State.takeCommit_taken (hd : d = s.dom.depoch + 1) (hn : s.named roster = true) (ha : s.awaits src routing = true) :
    s.takeCommit src d routing roster part = s.commitLocal d routing roster part false := by
  rw [State.takeCommit_eq, hn, ha, decide_eq_true hd]
  rfl

theorem State.takeCommit_unnamed {r : Roster} (hn : s.dom.chipId ∉ r.members) : s.takeCommit src d routing (some r) part = s := by
  rw [State.takeCommit_eq, Bool.eq_false_iff.mpr (mt State.named_some.mp hn)]
  rfl

theorem State.takeCommit_other (h : d ≠ s.dom.depoch + 1 ∨ (s.dom.formed = true ∧ (s.dom.root = true ∨ s.fromRoot src = false))) :
    s.takeCommit src d routing roster part = s := by
  rw [State.takeCommit_eq, if_neg]
  obtain h | ⟨hf, h⟩ := h
  · rw [decide_eq_false h, Bool.and_false]
    exact Bool.false_ne_true
  · rw [State.awaits_member hf]
    obtain h | h := h <;> simp [h]

/-! ## Acknowledgements, ports and losses at the root -/

theorem State.takePrepareAck_due {st : Nat} (hr : s.dom.root = true) (hu : s.rootw.use.isSome = true) (hd : d = s.dom.depoch + 1) (ha : src ∈ s.rootw.acks)
    (ht : t = { s with rootw := { s.rootw with acks := s.rootw.acks.filter (· ≠ src) } }) :
    s.takePrepareAck src d st = if st ≠ 0 then s.commandRefused st else if s.rootw.acks.filter (· ≠ src) = [] then t.finishEpoch.rootGo else t := by
  subst ht
  refine (if_pos ?_).trans ?_
  · rw [hr, hu, decide_eq_true hd, List.contains_iff_mem.mpr ha]
    rfl
  · simp only [List.isEmpty_iff]

theorem State.takePrepareAck_other {st : Nat} (h : s.dom.root = false ∨ s.rootw.use = none ∨ d ≠ s.dom.depoch + 1 ∨ src ∉ s.rootw.acks) :
    s.takePrepareAck src d st = s := by
  refine if_neg fun hall => ?_
  simp only [Bool.and_eq_true, decide_eq_true_eq, List.contains_iff_mem, Option.isSome_iff_ne_none] at hall
  obtain ⟨⟨⟨hr, hu⟩, hd⟩, ha⟩ := hall
  obtain h | h | h | h := h
  · rw [hr] at h; cases h
  · exact hu h
  · exact h hd
  · exact h ha

theorem State.takePortLeft_member (h : chip ∈ s.memberList) : s.takePortLeft chip n = (s.portDown chip n).rootGo := if_pos (List.contains_iff_mem.mpr h)

theorem State.takePortLeft_other (h : chip ∉ s.memberList) : s.takePortLeft chip n = s := if_neg (mt List.contains_iff_mem.mp h)

theorem State.lossAtRoot_root (hr : s.dom.root = true) {unresponsive : Bool} (h : unresponsive = true ∨ s.cutOff chip = true) :
    s.lossAtRoot chip unresponsive = (s.declareLost chip).rootGo := by
  refine if_pos ?_
  rw [hr, Bool.true_and, Bool.or_eq_true]
  exact h

theorem State.heardDeclare_member (h : src ∈ s.memberList) : s.heardDeclare src chip =
    if s.dom.root then s.lossAtRoot chip true else if chip = s.dom.rootId then s.lossDetected else s :=
  if_neg (by rw [List.contains_iff_mem.mpr h]; decide)

theorem State.heardDeclare_stranger (h : src ∉ s.memberList) : s.heardDeclare src chip = s :=
  if_pos (by rw [Bool.eq_false_iff.mpr (mt List.contains_iff_mem.mp h)]; rfl)

theorem State.heardDeclare_other (h : src ∉ s.memberList ∨ (s.dom.root = false ∧ chip ≠ s.dom.rootId)) : s.heardDeclare src chip = s := by
  by_cases hm : src ∈ s.memberList
  · obtain ⟨hr, hc⟩ := h.resolve_left (not_not.mpr hm)
    rw [State.heardDeclare_member hm, if_neg (Bool.eq_false_iff.mp hr), if_neg hc]
  · exact State.heardDeclare_stranger hm

theorem exec_chipLossDeclare_found : exec (.chipLossDeclare chip none) s = .next (if s.live then s.lossAtRoot chip false else s) := rfl

theorem exec_chipLossDeclare_other (h : s.live = false ∨ s.dom.root = false ∨ s.cutOff chip = false) : exec (.chipLossDeclare chip none) s = .next s := by
  rw [exec_chipLossDeclare_found]
  obtain h | h | h := h
  · rw [if_neg (Bool.eq_false_iff.mp h)]
  · rw [State.lossAtRoot, h]; simp
  · rw [State.lossAtRoot, h]; simp

/-! ## Answers of the management window -/

theorem State.takeMgmtAnswer_lock (ha : s.rootw.asking.head? = some src) (ho : off = 0x48) : s.takeMgmtAnswer src off v ok = (s.lockAnswer src ok).rootGo :=
  if_pos (by rw [decide_eq_true ha, decide_eq_true ho]; rfl)

theorem State.takeMgmtAnswer_rest (h : s.rootw.asking.head? ≠ some src ∨ off ≠ 0x48) : s.takeMgmtAnswer src off v ok =
    if s.mgr.rmtBusy = true ∧ s.mgr.rmtChip = src ∧ s.mgr.rmtOff = off then s.rmtDone v ok else s := by
  refine (if_neg fun hall => ?_).trans ?_
  · obtain ⟨ha, ho⟩ := Bool.and_eq_true_iff.mp hall
    exact h.elim (· (of_decide_eq_true ha)) (· (of_decide_eq_true ho))
  · simp only [Bool.and_eq_true, decide_eq_true_eq, and_assoc]

/-- An access of the root or of the Security Controller, at an offset of its width, is acted on. -/
theorem State.takeCtl_mgmt {agent : BitVec 3} {behalf wide : Bool} {w : Option Word64} (ha : agent = 3 ∨ agent = 4)
    (ho : off.toNat % (if wide then 8 else 4) = 0) : s.takeCtl src (.mgmt agent behalf off wide w) = s.mgmtAccess src agent behalf off.toNat wide w := by
  refine if_pos ?_
  simp only [Bool.and_eq_true, Bool.or_eq_true, decide_eq_true_eq]
  exact ⟨ha, ho⟩

theorem State.takeCtl_incAnswer {inc : BitVec 8} (hs : src = s.dom.rootId) (hc : chip ≠ s.dom.chipId) :
    s.takeCtl src (.incAnswer chip inc) = { s with dom := { s.dom with incs := Tbl.set 0 s.dom.incs chip.toNat inc } } :=
  if_pos (by rw [decide_eq_true hs, decide_eq_true hc]; rfl)

end

/-- Settles O48: each message by its row, a prepare and a commit by who sends it to whom, an answer by who asked. -/
theorem domainEpochs : Obligations.DomainEpochs := by
  intro s d lost routing ok roster part src chip n off v
  refine ⟨rfl, rfl, fun _ => rfl, rfl, rfl, rfl, rfl, rfl, fun _ => rfl, fun _ _ _ _ => rfl, rfl, fun _ => State.takeCtl_incAnswer,
    fun _ _ _ _ => State.takeCtl_mgmt, State.fromRoot_iff, fun hf hr hs hl hd t st ht hst => ?prepare, State.takePrepare_other, fun st ho hp => ?owed,
    State.prepareAnswer_none, fun hd => ⟨fun hf hr hs hn => ?_, fun r hf hr hs hr' hn => ?_, fun r hr' hn => ?_, fun r hf he hid hrt hp hr' hn => ?_⟩,
    State.takeCommit_other, fun hr hu hd ha => ⟨fun st hst => ?_, fun t ht => ⟨fun h => ?_, fun h => ?_⟩⟩, fun st => State.takePrepareAck_other,
    State.takePortLeft_member, State.takePortLeft_other, fun hm hr => ?_, fun hm hr hc => ?_, State.heardDeclare_other, fun hl hr hcut => ?_,
    exec_chipLossDeclare_other, State.takeMgmtAnswer_lock, fun h hb hc ho => ?_, fun h => ?_⟩
  case prepare =>
    obtain rfl : st = t.statusOf part := hst.trans (by cases part <;> rfl)
    rw [State.takePrepare_next hf hr hs hl hd ht]
    exact ⟨fun h => by rw [State.heirOf_stays h], fun x h hx => by rw [State.heirOf_standby h hx]⟩
  case owed =>
    rw [State.prepareAnswer_owed ho hp]
    exact ⟨fun h => if_pos h, fun h hr => by rw [if_neg (Bool.eq_false_iff.mp h), if_neg (Bool.eq_false_iff.mp hr)]⟩
  · subst hn
    exact State.takeCommit_taken hd hf (by rw [State.awaits_member hf, hr, hs]; rfl)
  · subst hr'
    exact State.takeCommit_taken hd (State.named_some.mpr hn) (by rw [State.awaits_member hf, hr, hs]; rfl)
  · rw [hr']
    exact State.takeCommit_unnamed hn
  · subst hrt hr'
    exact State.takeCommit_taken hd (State.named_some.mpr hn) (State.awaits_formation hf he hid hp)
  · rw [State.takePrepareAck_due hr hu hd ha rfl, if_pos hst]
  · rw [State.takePrepareAck_due hr hu hd ha ht, if_neg (not_not.mpr rfl), if_pos h]
  · rw [State.takePrepareAck_due hr hu hd ha ht, if_neg (not_not.mpr rfl), if_neg h]
  · rw [State.heardDeclare_member hm, if_pos hr, State.lossAtRoot_root hr (.inl rfl)]
  · rw [State.heardDeclare_member hm, if_neg (Bool.eq_false_iff.mp hr), if_pos hc]
  · rw [exec_chipLossDeclare_found, if_pos hl, State.lossAtRoot_root hr (.inr hcut)]
  · rw [State.takeMgmtAnswer_rest h, if_pos ⟨hb, hc, ho⟩]
  · rw [State.takeMgmtAnswer_rest (.inl h.1), if_neg]
    rintro ⟨hb, hc, ho⟩
    exact h.2.elim (fun h => absurd hb (Bool.eq_false_iff.mp h)) fun h => h.elim (· hc) (· ho)

end Sys2Proof.Machine

/-! SUPPORT and PROOFS. The pair: beats and their echoes, the lease, claims and votes, journal epochs (14). -/

namespace Sys2Proof.Machine

section
variable {s t : State} {p : Packet} {src x : ChipId} {found : List (Nat × List (List Byte))}

/-! ## Beats and the lease -/

theorem exec_beatTimer_paired (hx : s.dom.standby = some x) (hl : s.live = true) (hf : s.dom.formed = true) (hfe : s.isFe = true) (hb : s.pair.beaten = false)
    (ht : t = s.pairPorts.foldl (fun s n => s.newXferOn n x (s.hbPkt 1 false false 0 s.pair.jepoch)) s) :
    exec .beatTimer s = .next (t.newXfer x .ctl [t.hbPkt 1 true false 0 t.pair.jepoch]) := by
  subst ht
  refine congrArg Host.Outcome.next ?_
  rw [hx]
  exact if_pos (by rw [hl, hf, hfe, hb]; rfl)

theorem exec_beatTimer_idle (h : s.dom.standby = none ∨ s.live = false ∨ s.isFe = false ∨ s.pair.beaten = true) : exec .beatTimer s = .next s := by
  refine congrArg Host.Outcome.next ?_
  split
  next hx =>
    refine if_neg ?_
    rw [hx] at h
    obtain h | h | h | h := h
    · cases h
    all_goals simp [h]
  · rfl

theorem exec_leaseLapse_runs (hl : s.live = true) (hf : s.dom.formed = true) (hp : s.paired = true) (hle : s.pair.lease = true)
    (hc : s.pair.claiming = false) (hb : s.pair.beaten = false) :
    exec .leaseLapse s = .next (({ s with pair := { s.pair with lease := false } } : State).startClaim) :=
  congrArg Host.Outcome.next (if_pos (by rw [hl, hf, hp, hle, hc, hb]; rfl))

theorem exec_leaseLapse_idle (h : s.live = false ∨ s.paired = false ∨ s.pair.lease = false ∨ s.pair.beaten = true) : exec .leaseLapse s = .next s := by
  refine congrArg Host.Outcome.next (if_neg ?_)
  obtain h | h | h | h := h <;> simp [h]

theorem State.takeBeat_standby (hr : s.dom.role = .standby) (hsrc : p.src = s.dom.frontEnd) (hl : s.pair.lossSeen = false)
    (ht : t = { s with pair := { s.pair with resend := false } }) :
    s.takeBeat none p = t.newXfer p.src .ctl [s.hbPkt 2 (hbRouted p) s.pair.resend 0 s.pair.applied] ∧
    (∀ n, hbRouted p = false → s.takeBeat (some n) p = t.newXferOn n p.src (s.hbPkt 2 false s.pair.resend 0 s.pair.applied)) := by
  subst ht
  have hguard : ¬ (decide (s.dom.role ≠ .standby) || decide (p.src ≠ s.dom.frontEnd) || s.pair.lossSeen) = true := by simp [hr, hsrc, hl]
  refine ⟨if_neg hguard, fun n hn => (if_neg hguard).trans ?_⟩
  dsimp only
  rw [hn]
  exact if_neg Bool.false_ne_true

theorem State.takeBeat_other (h : s.dom.role ≠ .standby ∨ p.src ≠ s.dom.frontEnd) (via : Option Nat) : s.takeBeat via p = s := by
  refine if_pos ?_
  obtain h | h := h <;> simp [h]

theorem State.takeEcho_other (h : s.isFe = false ∨ s.dom.standby ≠ some p.src) : s.takeEcho p = s := by
  refine if_pos ?_
  obtain h | h := h <;> simp [h]

/-- An ECHO of the standby renews the lease. -/
theorem State.takeEcho_standby (hfe : s.isFe = true) (hs : s.dom.standby = some p.src) (hc : s.pair.claiming = false) (hb : s.pair.beaten = false)
    (hr : hbResend p = false) : s.takeEcho p = ({ s with pair := { s.pair with lease := true } } : State).journalApplied (hbJepoch p) := by
  refine (if_neg (by simp [hfe, hs])).trans ((if_pos (by rw [hr]; rfl)).trans ?_)
  simp only [hc, hb, Bool.or_self, Bool.not_false, Bool.or_true]

/-! ## Losses -/

theorem State.lossDetected_first (hl : s.live = true) (hf : s.dom.formed = true) (hr : s.dom.role = .standby) (hs : s.pair.lossSeen = false) :
    s.lossDetected = ({ s with pair := { s.pair with lossSeen := true } } : State).startClaim :=
  if_pos (by rw [hl, hf, decide_eq_true hr, hs]; rfl)

theorem State.lossDetected_other (h : s.live = false ∨ s.dom.role ≠ .standby ∨ s.pair.lossSeen = true) : s.lossDetected = s := by
  refine if_neg ?_
  obtain h | h | h := h <;> simp [h]

/-- What a member says of the root, at a chip that is not the root. -/
theorem State.heardDeclare_root (hm : src ∈ s.memberList) (hr : s.dom.root = false) : s.heardDeclare src s.dom.rootId = s.lossDetected := by
  rw [State.heardDeclare_member hm, if_neg (Bool.eq_false_iff.mp hr), if_pos rfl]

theorem State.heardDeclare_ofRoot_other (h : s.live = false ∨ s.dom.role ≠ .standby ∨ s.pair.lossSeen = true) (hr : s.dom.root = false) :
    s.heardDeclare src s.dom.rootId = s := by
  by_cases hm : src ∈ s.memberList
  · exact (State.heardDeclare_root hm hr).trans (State.lossDetected_other h)
  · exact State.heardDeclare_stranger hm

/-! ## Claims and votes -/

/-- The first claim of a domain epoch has the chip's vote. -/
theorem State.vote_first {c : ChipId} {d : Word32} (h : ∀ c, s.pair.granted ≠ some (d, c)) :
    s.vote c d = (true, { s with pair := { s.pair with granted := some (d, c) } }) := by
  refine if_neg ?_
  split
  next e b hg =>
    intro he
    obtain rfl : e = d := beq_iff_eq.mp he
    exact h b hg
  · exact Bool.false_ne_true

theorem State.vote_later {b c : ChipId} {d : Word32} (h : s.pair.granted = some (d, b)) : s.vote c d = (false, s) := by
  refine if_pos ?_
  rw [h]
  exact beq_self_eq_true d

theorem State.takeClaim_vote (hf : s.dom.formed = true) {v : Bool} (h : s.vote (hbClaimant p) (hbDepoch p) = (v, t)) :
    s.takeClaim p = t.newXfer p.src .ctl [t.hbPkt (if v then 4 else 5) true false (hbClaimant p) 0] := by
  rw [State.takeClaim, if_neg (by rw [hf]; decide), h]

theorem State.countGrant_new (hc : s.pair.claiming = true) (hm : src ∈ s.memberList) (hn : src ∉ s.pair.grants)
    (ht : t = { s with pair := { s.pair with grants := s.pair.grants ++ [src] } }) : s.countGrant src found =
      if s.memberList.length < 2 * (s.pair.grants.length + 1) ∨ (s.isFe = true ∧ 2 * (s.pair.grants.length + 1) = s.memberList.length) then t.claimWon found else t := by
  subst ht
  refine (if_neg (by simp [hc, hm, hn])).trans ?_
  simp only [List.length_append, List.length_cons, List.length_nil, Nat.zero_add, Bool.or_eq_true, Bool.and_eq_true, decide_eq_true_eq]
  rfl

theorem State.takeGrant_mine (h : hbClaimant p = s.dom.chipId) : s.takeGrant p found = s.countGrant p.src found := if_pos h

theorem State.claim_other (h : hbClaimant p ≠ s.dom.chipId) : s.takeGrant p found = s ∧ s.takeDeny p = s :=
  ⟨if_neg h, if_neg (by simp [h])⟩

theorem State.takeDeny_mine (h : hbClaimant p = s.dom.chipId) (hc : s.pair.claiming = true) (hn : p.src ∉ s.pair.denies) :
    s.takeDeny p = { s with pair := { s.pair with denies := s.pair.denies ++ [p.src] } } :=
  if_pos (by simp [h, hc, hn])

theorem exec_claimTimeout : exec .claimTimeout s =
    .next (if s.pair.claiming then { s with pair := { s.pair with claiming := false, beaten := s.pair.beaten || s.isFe } } else s) := rfl

/-! ## Journal epochs -/

theorem exec_journalEpochClose_open (hl : s.live = true) (hp : s.paired = true) (ho : s.pair.openRecs ≠ [])
    (ht : t = { s with pair := { s.pair with jepoch := s.pair.jepoch + 1, openRecs := [], kept := s.pair.kept ++ [({ num := s.pair.jepoch + 1, recs := s.pair.openRecs } : JEpoch)] } }) :
    exec .journalEpochClose s = .next ((t.hallWritten (epochWords (s.pair.jepoch + 1) s.pair.openRecs)).sendEpoch (s.pair.jepoch + 1) s.pair.openRecs) := by
  have hclose : s.closeEpoch = (t.hallWritten (epochWords (s.pair.jepoch + 1) s.pair.openRecs)).sendEpoch (s.pair.jepoch + 1) s.pair.openRecs := by
    subst ht
    rw [State.closeEpoch, if_neg (mt List.isEmpty_iff.mp ho)]
  rw [← hclose]
  exact congrArg Host.Outcome.next (if_pos (by rw [hl, hp]; rfl))

theorem exec_journalEpochClose_idle (h : s.live = false ∨ s.paired = false ∨ s.pair.openRecs = []) : exec .journalEpochClose s = .next s := by
  refine congrArg Host.Outcome.next ?_
  obtain h | h | h := h
  · exact if_neg (by simp [h])
  · exact if_neg (by simp [h])
  · rw [State.closeEpoch, h]
    exact ite_self s

end

/-- Settles O49: beats by who the chip is to whom, claims by the votes of this domain epoch, an epoch by what it holds. -/
theorem pairAndClaims : Obligations.PairAndClaims := by
  intro s p src x found
  refine ⟨fun hx hl hf hfe hb t ht => exec_beatTimer_paired hx hl hf hfe hb ht, exec_beatTimer_idle, exec_leaseLapse_runs, exec_leaseLapse_idle,
    fun hl hf hr hs => ?loss, fun h => ⟨congrArg _ (State.lossDetected_other h), State.heardDeclare_ofRoot_other h⟩, State.heardDeclare_stranger,
    fun hc => by rw [exec_claimTimeout, if_pos hc], fun hc => by rw [exec_claimTimeout, if_neg (Bool.eq_false_iff.mp hc)], fun hl hp ho t ht => exec_journalEpochClose_open hl hp ho ht,
    exec_journalEpochClose_idle, fun hf h t ht => ?_, fun c hf h => ?later, fun hc hm hn t ht => ?count,
    fun hr hsrc hl t ht => State.takeBeat_standby hr hsrc hl ht, fun h via => State.takeBeat_other h via, State.takeEcho_other, State.takeEcho_standby,
    State.takeGrant_mine, State.claim_other, State.takeDeny_mine⟩
  case loss =>
    have hloss := State.lossDetected_first hl hf hr hs
    exact ⟨congrArg _ hloss, fun hm hroot => (State.heardDeclare_root hm hroot).trans hloss⟩
  · subst ht
    have hvote := State.takeClaim_vote hf (State.vote_first (c := hbClaimant p) h)
    exact hvote
  case later =>
    have hvote := State.takeClaim_vote hf (State.vote_later (c := hbClaimant p) h)
    exact hvote
  case count =>
    rw [State.countGrant_new hc hm hn ht]
    refine ⟨fun h => if_pos (.inl h), fun hfe h => if_pos (.inr ⟨hfe, h⟩), fun h hfe => if_neg ?_⟩
    rintro (hlt | ⟨h, -⟩)
    · exact Nat.not_le.mpr hlt h
    · rw [hfe] at h
      cases h

end Sys2Proof.Machine

/-! SUPPORT and PROOFS. The manager's command queue: what its front is, and which row it is for (05, 15). -/

namespace Sys2Proof.Machine

section
variable {s t : State} {m : List Byte} {v : Word32} {k : Nat}

/-- The opcodes of the manager's commands, DLOG apart. -/
def cmdOpcodes : List Nat :=
  [0x01, 0x02, 0x03, 0x04, 0x05, 0x06, 0x07, 0x08, 0x09, 0x0A, 0x0F, 0x10, 0x11, 0x12, 0x13, 0x20, 0x21, 0x22, 0x23, 0x24, 0x25, 0x28]

theorem cmdKnown_opcode (h : mOpcode m ∈ cmdOpcodes) : cmdKnown m = true := by
  rw [cmdKnown, Bool.or_eq_true]
  exact .inl (List.contains_iff_mem.mpr h)

theorem cmdKnown_dlog (h : mOpcode m = 0x14) (hs : leAt m 8 1 ≤ 3) : cmdKnown m = true := by
  rw [cmdKnown, h, decide_eq_true hs]
  decide

/-! ## The front of the queue -/

theorem State.frontCmd_none (h : s.mgr.cmdPi = s.mgr.cmdCi) : s.frontCmd = none := if_pos h

theorem State.frontCmd_some (h : s.mgr.cmdPi ≠ s.mgr.cmdCi) : s.frontCmd = some (getTbl s.mgr.cmd (64 * (s.mgr.cmdCi.toNat % 8)) 64) := if_neg h

theorem State.settleQueue_bad (hm : s.frontCmd = some m) (hb : cmdKnown m = false ∨ headerOk m = false) (k : Nat) :
    s.settleQueue (k + 1) = (s.takeCmd.respond m msBadCommand []).settleQueue k := by
  rw [State.settleQueue, hm]
  refine if_neg ?_
  obtain h | h := hb <;> simp [h]

theorem State.refuseQueue_front (hm : s.frontCmd = some m) (k : Nat) :
    s.refuseQueue (k + 1) = ((s.takeCmd.respond m msNotFrontEnd []).event evMgmtRefused 0 (mInst m) (mInst m) 0x100300).refuseQueue k := by
  rw [State.refuseQueue, hm]

/-! ## A command's row -/

section
variable {op : Nat} {f : State → Nat → List Byte → State}

theorem State.runCmd_taken (hm : s.frontCmd = some m) (he : s.executes = true) (hh : headerOk m = true) (hk : cmdKnown m = true) (ho : mOpcode m = op) :
    s.runCmd op f = (f s.takeCmd (mInst m) m).settleQueue 8 := by
  rw [State.runCmd, hm]
  exact if_pos (by rw [he, decide_eq_true ho, hk, hh]; rfl)

theorem State.runCmd_other (hm : s.frontCmd = some m) (ho : mOpcode m ≠ op) : s.runCmd op f = s := by
  rw [State.runCmd, hm]
  exact if_neg (by simp [ho])

theorem State.runCmd_idle (h : s.frontCmd = none ∨ s.executes = false) : s.runCmd op f = s := by
  rw [State.runCmd]
  split
  next hm => exact if_neg (by simp [h.resolve_left (by rw [hm]; exact Option.some_ne_none _)])
  · rfl

end

theorem State.runDlog_sub {sub : Nat} (hm : s.frontCmd = some m) (hs : leAt m 8 1 = sub) : s.runDlog sub = s.runCmd 0x14 (State.doDlog sub) := by
  rw [State.runDlog, hm]
  exact if_pos hs

theorem State.runDlog_other {sub : Nat} (hm : s.frontCmd = some m) (hs : leAt m 8 1 ≠ sub) : s.runDlog sub = s := by
  rw [State.runDlog, hm]
  exact if_neg hs

theorem State.runDlog_idle (sub : Nat) (h : s.frontCmd = none ∨ s.executes = false) : s.runDlog sub = s := by
  rw [State.runDlog]
  split
  · split
    · exact State.runCmd_idle h
    · rfl
  · rfl

/-! ## The doorbell -/

theorem exec_commandDoorbell_served (hup : s.pcie.up = true) (hs : s.boot.served = true) (hin : s.safest.inSafe = false) (v : Word32) :
    exec (.commandDoorbell v) s = .next (s.commandDb v) :=
  congrArg Host.Outcome.next (if_pos (by rw [hup, hs, hin]; rfl))

theorem exec_commandDoorbell_unserved (h : s.pcie.up = false ∨ s.boot.served = false ∨ s.safest.inSafe = true) (v : Word32) :
    exec (.commandDoorbell v) s = .next s := by
  refine congrArg Host.Outcome.next (if_neg ?_)
  obtain h | h | h := h <;> simp [h]

theorem State.commandDb_same : s.commandDb s.mgr.cmdPi = s := by
  refine if_pos ?_
  rw [BitVec.sub_self]
  rfl

section
variable (hne : v ≠ s.mgr.cmdPi) (hahead : (v - s.mgr.cmdPi).toNat < 2 ^ 31)
include hne hahead

/-- An index ahead of the one held. -/
theorem State.commandDb_ahead : s.commandDb v = if 8 < (v - s.mgr.cmdCi).toNat then s.fnError 0 esDbOverrun
    else if ({ s with mgr := { s.mgr with cmdPi := v } } : State).executes then ({ s with mgr := { s.mgr with cmdPi := v } } : State).settleQueue 8
    else if decide (s.boot.state = .ready) && !s.isFe then ({ s with mgr := { s.mgr with cmdPi := v } } : State).refuseQueue 8
    else { s with mgr := { s.mgr with cmdPi := v } } := by
  refine if_neg ?_
  have hzero : (v - s.mgr.cmdPi).toNat ≠ 0 := fun h => hne (by bv_omega)
  rw [Bool.or_eq_true, decide_eq_true_eq, decide_eq_true_eq]
  omega

end

end

/-- Settles O52: a row by the opcode of the message at the front, the queue by its indices, the doorbell by how far it is ahead. -/
theorem managerCommandsRun : Obligations.ManagerCommandsRun := by
  intro s m bs
  refine ⟨fun hm he hh => ⟨?rows, ?logs⟩, fun h => ?idle, State.frontCmd_none, State.frontCmd_some, fun k hm hb => State.settleQueue_bad hm hb k,
    fun v hup hs hin => ?doorbell, fun v h => exec_commandDoorbell_unserved h v, fun k hm => State.refuseQueue_front hm k⟩
  case rows =>
    intro goes
    have row : ∀ c op f, op ∈ cmdOpcodes → exec c s = .next (s.runCmd op f) → goes c op f := by
      intro c op f hop hexec
      refine ⟨fun ho => ?_, fun ho => ?_⟩
      · rw [hexec, State.runCmd_taken hm he hh (cmdKnown_opcode (ho ▸ hop)) ho]
      · rw [hexec, State.runCmd_other hm ho]
    iterate 21 refine ⟨row _ _ _ (by decide) rfl, ?_⟩
    exact row _ _ _ (by decide) rfl
  case logs =>
    intro logs
    have row : ∀ c sub, sub ≤ 3 → exec c s = .next (s.runDlog sub) → logs c sub := by
      intro c sub hsub hexec
      refine ⟨fun ho hs => ?_, fun hs => ?_⟩
      · rw [hexec, State.runDlog_sub hm hs, State.runCmd_taken hm he hh (cmdKnown_dlog ho (hs ▸ hsub)) ho]
      · rw [hexec, State.runDlog_other hm hs]
    exact ⟨row _ _ (by decide) rfl, row _ _ (by decide) rfl, row _ _ (by decide) rfl, row _ _ (by decide) rfl⟩
  case idle =>
    have row : ∀ {c op f}, exec c s = .next (s.runCmd op f) → exec c s = .next s := fun hexec => hexec.trans (congrArg _ (State.runCmd_idle h))
    have log : ∀ {c sub}, exec c s = .next (s.runDlog sub) → exec c s = .next s := fun hexec => hexec.trans (congrArg _ (State.runDlog_idle _ h))
    iterate 22 refine ⟨row rfl, ?_⟩
    exact ⟨log rfl, log rfl, log rfl, log rfl⟩
  case doorbell =>
    rw [exec_commandDoorbell_served hup hs hin]
    refine ⟨fun h => ?_, fun hne hahead hover => ?_, fun hne hahead hroom t ht => ?_⟩
    · rw [h, State.commandDb_same]
    · rw [State.commandDb_ahead hne hahead, if_pos hover]
    · subst ht
      rw [State.commandDb_ahead hne hahead, if_neg (Nat.not_lt.mpr hroom)]
      refine ⟨fun hx => by rw [if_pos hx], fun hx hready hfe => ?_⟩
      rw [if_neg (Bool.eq_false_iff.mp hx), decide_eq_true hready, hfe]
      rfl

end Sys2Proof.Machine

/-! SUPPORT and PROOFS. What the manager's commands do once they are taken: their refusals in order, and their effect (15). -/

namespace Sys2Proof.Machine

section
variable {s t : State} {i : Nat} {m host : List Byte} {st : Nat}

/-! ## The refusals they share -/

theorem State.common_fields (states : List InstState) : s.common i true states = some msBadCommand := rfl

theorem State.common_pending (states : List InstState) (hp : (s.inst i).pend.isSome = true) : s.common i false states = some msBusy := if_pos hp

section
variable {states : List InstState} (hp : (s.inst i).pend = none)
include hp

theorem State.common_absent (ha : (s.inst i).state = .absent) : s.common i false states = some msBadInstance :=
  (if_neg Bool.false_ne_true).trans ((if_neg (by rw [hp]; decide)).trans (if_pos ha))

theorem State.common_state (ha : (s.inst i).state ≠ .absent) : s.common i false states = if (s.inst i).state ∈ states then none else some msBusy := by
  refine (if_neg Bool.false_ne_true).trans ((if_neg (by rw [hp]; decide)).trans ((if_neg ha).trans ?_))
  by_cases h : (s.inst i).state ∈ states <;> simp [h]

end

/-! ## CREATE and SET_VECTORS -/

theorem State.doCreate_exists (h : i = 0 ∨ (s.inst i).state ≠ .absent) : s.doCreate i m = s.respond m msBusy [] := by
  refine if_pos ?_
  obtain h | h := h <;> simp [h]

theorem State.doCreate_absent (hi : i ≠ 0) (ha : (s.inst i).state = .absent) (hp : (s.inst i).pend = none) : s.doCreate i m =
    if createFields m = false then s.respond m msBadCommand []
    else if s.ringsTaken i m = true ∨ 16 < s.rtTotal + leAt m 18 1 ∨ s.vecRoom i (leAt m 8 2) = none then s.respond m msNoResource []
    else ((((s.makeInst i m).fillKey i).cause i causeError).respond m msDone []).journalCommand m := by
  refine (if_neg (by simp [hi, ha, hp])).trans ?_
  simp only [Bool.not_eq_true', Bool.or_eq_true, decide_eq_true_eq, Option.isNone_iff_eq_none, or_assoc]

theorem State.doSetVectors_sound (hc : s.common i (!(decide (1 ≤ leAt m 8 2 ∧ leAt m 8 2 ≤ 1024) && restZero m 10)) [.ready] = none) : s.doSetVectors i m =
    if (s.fc i).msixEn then s.respond m msMsixEnabled []
    else if (s.vecRoom i (leAt m 8 2)).isNone then s.respond m msNoResource []
    else (((s.changeVectors i (leAt m 8 2)).capChange i).respond m msDone []).journalCommand m := by
  rw [State.doSetVectors, hc]

/-! ## Commands with a chip set -/

section
variable {good secure lack busy : Bool} {states : List InstState}

theorem State.csetCmd_refused (hc : s.common i (!(good && s.csetGood m)) states = some st) : s.csetCmd i m good secure lack busy states = s.respond m st [] := by
  rw [State.csetCmd, hc]

theorem State.csetCmd_sound (hc : s.common i (!(good && s.csetGood m)) states = none) : s.csetCmd i m good secure lack busy states =
    if secure then s.respond m msSecureHeld [] else if lack then s.respond m msNoResource [] else if busy then s.respond m msBusy [] else s.carry i m := by
  rw [State.csetCmd, hc]

end

theorem State.carry_here (hc : csetChips (mCset m) = [s.dom.chipId]) (ho : mOpcode m ≠ 0x08) : s.carry i m =
    if s.lock.held then s.respond m msLocked []
    else (((({ s.grantLock 2 s.dom.chipInc false with shd := (s.grantLock 2 s.dom.chipInc false).shd.staged i m } : State).commitShadow).unlock).respond m msDone
      []).journalCommand m :=
  (if_pos hc).trans (if_neg ho)

/-! ## DESTROY, QUIESCE, QUERY and RESUME -/

theorem State.doDestroy_sound (hc : s.common i (!restZero m 8) [.ready] = none) : s.doDestroy i m =
    if i = 0 then s.respond m msBadInstance []
    else if s.ringsOn i then s.respond m msBusy []
    else State.pendCmd (s.updInst i (fun x => { x with state := .destroying })) i m := by
  rw [State.doDestroy, hc]

theorem State.doQuiesce_sound (hc : s.common i (!restZero m 8) [.ready] = none) : s.doQuiesce i m = s.pendCmd i m := by
  rw [State.doQuiesce, hc]

theorem State.doDestroy_doQuiesce_refused (hc : s.common i (!restZero m 8) [.ready] = some st) :
    s.doDestroy i m = s.respond m st [] ∧ s.doQuiesce i m = s.respond m st [] := by
  rw [State.doDestroy, State.doQuiesce, hc]
  exact ⟨rfl, rfl⟩

theorem exec_quiesceComplete_quiet (he : s.executes = true) (hs : (s.inst i).state = .quiescing) (hq : s.quiet i = true) :
    exec (.quiesceComplete i) s = .next ((s.updInst i (fun x => { x with state := .quiesced })).endPending i msDone []) :=
  congrArg Host.Outcome.next (if_pos (by rw [he, decide_eq_true hs, hq]; rfl))

theorem exec_quiesceComplete_other (h : s.executes = false ∨ (s.inst i).state ≠ .quiescing ∨ s.quiet i = false) : exec (.quiesceComplete i) s = .next s := by
  refine congrArg Host.Outcome.next (if_neg ?_)
  obtain h | h | h := h <;> simp [h]

theorem State.doQuery_sound (hz : restZero m 8 = true) (hp : (s.inst i).pend = none) : s.doQuery i m = s.respond m msDone (s.queryBody i) := by
  rw [State.doQuery, if_neg (by rw [hz]; decide), if_neg (by rw [hp]; decide)]

section
variable (hz : restZero m 8 = true) (hr : s.commandRuns i = false)
include hz hr

theorem State.doResume_quiesced (hs : (s.inst i).state = .quiesced ∨ (s.inst i).state = .quiescing) : s.doResume i m =
    ((((s.endPending i msBusy []).respond m msDone []).updInst i (fun x => { x with pend := some { opcode := 0x11, tag := BitVec.ofNat 8 (mTag m), msg := m } })).queueCommand i) := by
  refine (if_neg (by rw [hz]; decide)).trans ((if_neg (Bool.eq_false_iff.mp hr)).trans ((if_neg ?_).trans (if_neg ?_)))
  · obtain h | h := hs <;> rw [h] <;> decide
  · obtain h | h := hs <;> rw [h] <;> decide

theorem State.doResume_ready (hs : (s.inst i).state = .ready) : s.doResume i m = s.respond m msBusy [] := by
  refine (if_neg (by rw [hz]; decide)).trans ((if_neg (Bool.eq_false_iff.mp hr)).trans ((if_neg ?_).trans (if_pos ?_)))
  · rw [hs]; decide
  · rw [hs]; decide

end

/-! ## SAVE, RESTORE and DLOG -/

theorem State.doSave_sound (hc : s.common i (!(restZero m 20 && decide (leAt m 8 8 < 2 ^ 48))) [.quiesced] = none) : s.doSave i m =
    if s.isConf i then s.respond m msSecureHeld []
    else if leAt m 16 4 < (s.image i).1.length then s.pendThen m msNoResource []
    else ((s.image i).2.storeImage (leAt m 8 8) (s.image i).1).pendThen m msDone (toLe 4 (s.image i).1.length) := by
  rw [State.doSave, hc]

section
variable (hc : s.common i (!(restZero m 20 && decide (leAt m 8 8 < 2 ^ 48))) [.ready] = none) (hconf : s.isConf i = false)
include hc hconf

theorem State.doRestore_ringsOn (hr : s.ringsOn i = true) : s.doRestore host i m = s.respond m msBusy [] := by
  rw [State.doRestore, hc]
  exact (if_neg (Bool.eq_false_iff.mp hconf)).trans (if_pos hr)

section
variable (hr : s.ringsOn i = false) {bs : List Byte} (hl : s.loadPieces (leAt m 8 8) host (piecesOf (leAt m 8 8) (leAt m 16 4)) = (bs, t))
include hr hl

theorem State.doRestore_bad (hv : imageValid bs = false) : s.doRestore host i m = t.pendThen m msImageBad [] := by
  rw [State.doRestore, hc]
  dsimp only
  rw [if_neg (Bool.eq_false_iff.mp hconf), if_neg (Bool.eq_false_iff.mp hr), hl]
  exact if_pos (by rw [hv]; rfl)

theorem State.doRestore_misfit (hv : imageValid bs = true) (hf : t.imageFits i bs = false) : s.doRestore host i m = t.pendThen m msImageMismatch [] := by
  rw [State.doRestore, hc]
  dsimp only
  rw [if_neg (Bool.eq_false_iff.mp hconf), if_neg (Bool.eq_false_iff.mp hr), hl]
  exact (if_neg (by rw [hv]; decide)).trans (if_pos (by rw [hf]; rfl))

end

end

theorem State.doDlog_sound {sub : Nat} (hc : s.common i (!restZero m 9) [.ready, .quiescing, .quiesced] = none) : State.doDlog sub s i m =
    if sub = 0 ∧ s.dlog.size = 0 then s.respond m msBusy []
    else if s.rootOthers = [] ∨ sub = 2 then ((s.dlogPart i sub).respond m msDone []).journalCommand m
    else s.pendCmd i m := by
  rw [State.doDlog, hc]
  simp only [Bool.and_eq_true, Bool.or_eq_true, decide_eq_true_eq, List.isEmpty_iff]

theorem exec_dlogRoom_other (h : s.live = false ∨ s.dlogRoomNow = false) : exec .dlogRoom s = .next s := by
  refine congrArg Host.Outcome.next (if_neg ?_)
  obtain h | h := h <;> simp [h]

end

/-- Settles O53: each command by its first refusal, in order, and by what it does when none holds. -/
theorem managerCommandEffects : Obligations.ManagerCommandEffects := by
  intro s i m host st
  refine ⟨fun bad states => ⟨?_, ?_, ?_, ?_, ?_⟩, State.doCreate_exists, fun hi ha hp => ?create, fun hc => ?vectors,
    fun good secure lack busy states => ⟨State.csetCmd_refused, fun hc => ?cset⟩, fun hc => if_neg hc, fun hc ho => ?carry, rfl,
    fun hc => ⟨fun hi => ?_, fun hi hr => ?_, fun hi hr => ?_, State.doQuiesce_sound hc⟩, State.doDestroy_doQuiesce_refused, exec_quiesceComplete_quiet,
    exec_quiesceComplete_other, State.doQuery_sound, State.doResume_quiesced, State.doResume_ready, fun hc => ?save,
    fun hc hconf => ⟨State.doRestore_ringsOn hc hconf, fun bs t hr hl => ⟨State.doRestore_bad hc hconf hr hl, State.doRestore_misfit hc hconf hr hl⟩⟩,
    fun sub hc => ?dlog, fun hl hr => congrArg _ (if_pos (by rw [hl, hr]; rfl)), exec_dlogRoom_other⟩
  case create =>
    rw [State.doCreate_absent hi ha hp]
    refine ⟨fun h => if_pos h, fun h hno => ?_, fun h hr hrt hv => ?_⟩ <;> rw [if_neg (by rw [h]; decide)]
    · rw [if_pos hno]
    · rw [if_neg]
      rintro (h | h | h)
      · rw [hr] at h; cases h
      · exact Nat.not_lt.mpr hrt h
      · rw [h] at hv; cases hv
  case vectors =>
    rw [State.doSetVectors_sound hc]
    refine ⟨fun h => if_pos h, fun h hv => ?_, fun h hv => ?_⟩ <;> rw [if_neg (Bool.eq_false_iff.mp h)]
    · rw [hv]; rfl
    · rw [if_neg (by simpa using Option.isSome_iff_ne_none.mp hv)]
  case cset =>
    rw [State.csetCmd_sound hc]
    refine ⟨fun h => if_pos h, fun h hl => ?_, fun h hl hb => ?_, fun h hl hb => ?_⟩ <;> subst h hl
    · rfl
    · subst hb; rfl
    · subst hb; rfl
  case carry =>
    rw [State.carry_here hc ho]
    refine ⟨fun h => if_pos h, fun h t ht => ?_⟩
    subst ht
    exact if_neg (Bool.eq_false_iff.mp h)
  case save =>
    rw [State.doSave_sound hc]
    refine ⟨fun h => if_pos h, fun h hl => ?_, fun h hl => ?_⟩ <;> rw [if_neg (Bool.eq_false_iff.mp h)]
    · rw [if_pos hl]
    · rw [if_neg (Nat.not_lt.mpr hl)]
  case dlog =>
    rw [State.doDlog_sound hc]
    refine ⟨fun hsub hd => if_pos ⟨hsub, hd⟩, fun hd ho => ?_, fun hd ho hsub => ?_⟩ <;> rw [if_neg (fun h => hd h.2)]
    · rw [if_pos (.inl ho)]
    · rw [if_neg (not_or.mpr ⟨ho, hsub⟩)]
  · rintro rfl
    exact State.common_fields states
  · rintro rfl
    exact State.common_pending states
  · rintro rfl
    exact State.common_absent
  · rintro rfl hp ha hs
    rw [State.common_state hp ha, if_neg hs]
  · rintro rfl hp ha hs
    rw [State.common_state hp ha, if_pos hs]
  · rw [State.doDestroy_sound hc, if_pos hi]
  · rw [State.doDestroy_sound hc, if_neg hi, if_pos hr]
  · rw [State.doDestroy_sound hc, if_neg hi, if_neg (Bool.eq_false_iff.mp hr)]

end Sys2Proof.Machine

/-! SUPPORT and PROOFS. The sequence lock, remote access and the manager's domain commit (15, 22). -/

namespace Sys2Proof.Machine

section
variable {s : State} {agent : BitVec 3} {wide ok : Bool} {v : Word64}

/-! ## The sequence lock -/

theorem State.lockServed_agents (h : agent = 0 ∨ 4 < agent.toNat) : s.lockServed agent = false := by
  have hno : ¬ (1 ≤ agent.toNat ∧ agent.toNat ≤ 4) := by
    obtain rfl | h := h
    · decide
    · omega
  rw [State.lockServed, decide_eq_false hno, Bool.and_false]

/-- The rows of the lock are its operations, where they are served. -/
theorem exec_seqlock : exec (.seqlockAcquire agent) s = .next (if s.lockServed agent then s.lockOp agent false 1 else s) ∧
    exec (.seqlockCommit agent) s = .next (if s.lockServed agent then s.lockOp agent false 2 else s) ∧
    exec (.seqlockAbandon agent) s = .next (if s.lockServed agent then s.lockOp agent false 3 else s) := ⟨rfl, rfl, rfl⟩

theorem State.lockOp_ops : s.lockOp agent false 1 = (if s.lock.held then s else s.grantLock agent (s.agentInc agent) false) ∧
    s.lockOp agent false 2 = (if s.holds agent false then s.commitShadow.unlock else s) ∧
    s.lockOp agent false 3 = (if s.holds agent false then s.abandonShadow else s) := ⟨rfl, rfl, rfl⟩

/-! ## The manager's domain commit -/

theorem exec_epochCtl : exec .epochCtlCommit s = .next (if s.mgmtTakes then s.epochCtl 1 else s) ∧
    exec .epochCtlAbandon s = .next (if s.mgmtTakes then s.epochCtl 2 else s) := ⟨rfl, rfl⟩

theorem State.epochCtl_notFe (h : s.isFe = false) : s.epochCtl 1 = s.blkError blkFe beNotFe ∧ s.epochCtl 2 = s.blkError blkFe beNotFe := by
  simp [State.epochCtl, h]

theorem State.epochCtl_busy (hfe : s.isFe = true) (hb : s.mgr.epBusy = true) :
    s.epochCtl 1 = s.blkError blkFe beBusy ∧ s.epochCtl 2 = s.blkError blkFe beBusy := by
  simp [State.epochCtl, hfe, hb]

theorem State.epochCtl_free (hfe : s.isFe = true) (hb : s.mgr.epBusy = false) :
    s.epochCtl 1 = ({ s with mgr := { s.mgr with epBusy := true } } : State).rootGo ∧ s.epochCtl 2 = { s.dropMgrLocks with mgr := { s.mgr with epRes := 0 } } := by
  simp [State.epochCtl, hfe, hb]

/-! ## Remote access -/

/-- A remote access is a write of FE_RMT_CTL with GO. -/
theorem exec_rmt : exec (.rmtRead wide) s = .next (if s.mgmtTakes then s.managerWrite 0x410 false (BitVec.ofNat 64 (1 + 2 * b2n false + 4 * b2n wide)) else s) ∧
    exec (.rmtWrite wide) s = .next (if s.mgmtTakes then s.managerWrite 0x410 false (BitVec.ofNat 64 (1 + 2 * b2n true + 4 * b2n wide)) else s) := ⟨rfl, rfl⟩

theorem exec_rmtReply_idle (h : s.mgr.rmtBusy = false) (e : RmtEnd) : exec (.rmtReply e) s = .next s := by
  cases e with
  | answer p =>
    refine congrArg Host.Outcome.next (if_neg ?_)
    rw [h, Bool.false_and, Bool.and_false]
    exact Bool.false_ne_true
  | lost => exact congrArg Host.Outcome.next (if_neg (Bool.eq_false_iff.mp h))
  | noReply => exact congrArg Host.Outcome.next (if_neg (Bool.eq_false_iff.mp h))

theorem exec_rmtReply_without (h : s.mgr.rmtBusy = true) : exec (.rmtReply .lost) s = .next (s.rmtEnd 2) ∧ exec (.rmtReply .noReply) s = .next (s.rmtEnd 3) :=
  ⟨congrArg Host.Outcome.next (if_pos h), congrArg Host.Outcome.next (if_pos h)⟩

theorem State.rmtDone_read (h : s.mgr.rmtWrite = false) : s.rmtDone v ok = { s with mgr := { s.mgr with rmtData := v, rmtBusy := false, rmtRes := 0 } } :=
  if_neg (Bool.eq_false_iff.mp h)

theorem State.rmtDone_write (h : s.mgr.rmtWrite = true) (ho : s.mgr.rmtOff ≠ 0x48) : s.rmtDone v ok = s.rmtEnd (if ok then 0 else 4) := by
  refine (if_pos h).trans ?_
  rw [if_neg ho]

section
variable (ha : s.rmtAligned = true)
include ha

/-- An aligned access of another chip. -/
theorem State.rmtGo_far (hc : s.mgr.rmtChip ≠ s.dom.chipId) : s.rmtGo =
    if s.isLost s.mgr.rmtChip then ({ s with mgr := { s.mgr with rmtBusy := true } } : State).rmtEnd 2
    else if s.mgr.rmtChip ∉ s.memberList then ({ s with mgr := { s.mgr with rmtBusy := true } } : State).rmtEnd 1
    else ({ s with mgr := { s.mgr with rmtBusy := true } } : State).ctl s.mgr.rmtChip
      (.mgmt 3 true s.mgr.rmtOff s.mgr.rmtWide (if s.mgr.rmtWrite then some s.mgr.rmtData else none)) := by
  unfold State.rmtGo
  dsimp only
  rw [if_neg (by rw [ha]; decide), if_neg hc]
  simp only [Bool.not_eq_true', List.contains_eq_mem, decide_eq_false_iff_not]

/-- An aligned read of this chip. -/
theorem State.rmtGo_here (hc : s.mgr.rmtChip = s.dom.chipId) (hw : s.mgr.rmtWrite = false) {r : Nat × State}
    (hr : r = ({ s with mgr := { s.mgr with rmtBusy := true } } : State).mgmtRead s.mgr.rmtOff.toNat s.mgr.rmtWide) :
    s.rmtGo = { r.2 with mgr := { r.2.mgr with rmtData := BitVec.ofNat 64 r.1, rmtBusy := false, rmtRes := 0 } } := by
  subst hr
  unfold State.rmtGo
  dsimp only
  rw [if_neg (by rw [ha]; decide), if_pos hc, if_neg (Bool.eq_false_iff.mp hw)]
  rfl

end

end

/-- Settles O55: the lock's operations by who holds it, remote access by its end and by the chip it names, the commit by what runs. -/
theorem lockAndRemoteAccess : Obligations.LockAndRemoteAccess := by
  intro s agent wide ok v
  obtain ⟨hacquire, hcommit, habandon⟩ := exec_seqlock (s := s) (agent := agent)
  obtain ⟨hread, hwrite⟩ := exec_rmt (s := s) (wide := wide)
  obtain ⟨hstart, hdrop⟩ := exec_epochCtl (s := s)
  rw [hacquire, hcommit, habandon, hread, hwrite, hstart, hdrop]
  refine ⟨fun hs => ?served, fun hs => ?_, State.lockServed_agents, fun hm => ?_, fun hm => ?_, State.epochCtl_notFe, State.epochCtl_busy, State.epochCtl_free,
    exec_rmtReply_idle, fun hb => ⟨(exec_rmtReply_without hb).1, (exec_rmtReply_without hb).2, State.rmtDone_read, State.rmtDone_write⟩,
    fun ha hc r hr => ?far, fun hc ha hw r hr => State.rmtGo_here ha hc hw hr⟩
  case served =>
    obtain ⟨htake, hmake, hfree⟩ := State.lockOp_ops (s := s) (agent := agent)
    simp only [if_pos hs]
    rw [htake, hmake, hfree]
    exact ⟨fun h => by rw [if_pos h], fun h => by rw [if_neg (Bool.eq_false_iff.mp h)]; rfl, fun h => by rw [if_pos h, if_pos h]; exact ⟨rfl, rfl⟩,
      fun h => by rw [if_neg (Bool.eq_false_iff.mp h), if_neg (Bool.eq_false_iff.mp h)]; exact ⟨rfl, rfl⟩⟩
  · simp only [if_neg (Bool.eq_false_iff.mp hs), and_self]
  · rw [if_pos hm, if_pos hm, if_pos hm, if_pos hm]
    exact ⟨rfl, rfl, rfl, rfl⟩
  · simp only [if_neg (Bool.eq_false_iff.mp hm), and_self]
  case far =>
    subst hr
    rw [State.rmtGo_far ha hc]
    refine ⟨fun h => if_pos h, fun h hm => ?_, fun h hm => ?_⟩ <;> rw [if_neg (Bool.eq_false_iff.mp h)]
    · rw [if_pos hm]
    · rw [if_neg (not_not.mpr hm)]

end Sys2Proof.Machine

/-! SUPPORT and PROOFS. The safety monitor: arming, the probe, and the safe state (17). -/

namespace Sys2Proof.Machine

section
variable {s t : State} {n : Nat} {g src det : BitVec 8} {v : Word32}

/-! ## The registers of the monitor -/

theorem exec_safeRegisters (hr : s.ready = true) : exec .safeArm s = .next s.arm ∧ exec .safeDisarm s = .next (s.disarm 0) ∧
    exec .safeTest s = .next s.testPulse ∧ exec (.safeStatusClear v) s = .next (s.statusClear v) :=
  ⟨congrArg _ (if_pos hr), congrArg _ (if_pos hr), congrArg _ (if_pos hr), congrArg _ (if_pos hr)⟩

theorem exec_safeRegisters_unready (hr : s.ready = false) : exec .safeArm s = .next s ∧ exec .safeDisarm s = .next s ∧ exec .safeTest s = .next s ∧
    exec (.safeStatusClear v) s = .next s := by
  have hno := Bool.eq_false_iff.mp hr
  exact ⟨congrArg _ (if_neg hno), congrArg _ (if_neg hno), congrArg _ (if_neg hno), congrArg _ (if_neg hno)⟩

theorem State.arm_refused (h : s.armRefusal ≠ 0) :
    s.arm = { s with safe := { s.safe with status := s.safe.status ||| 0x10, reason := BitVec.ofNat 3 s.armRefusal } } := if_pos h

theorem State.arm_accepted (h : s.armRefusal = 0) : s.arm = if s.safe.armed then s
    else { s with safe := { s.safe with armed := true, safeN := false, pCount := 0, probe := .idle, trigSeen := false } } := if_neg (not_not.mpr h)

theorem State.disarm_eq (cause : Nat) : s.disarm cause = if s.safe.armed
    then ({ s with safe := { s.safe with armed := false, safeN := false, probe := .idle } } : State).event evDisarmed 0 0 cause 0 else s := by
  unfold State.disarm
  cases s.safe.armed <;> rfl

theorem exec_probeLate_armed (hr : s.ready = true) (hm : s.safe.mode = true) (ha : s.safe.armed = true) : exec .probeLate s = .next (s.enterSafe 0x1A 0) :=
  congrArg Host.Outcome.next (if_pos (by rw [hr, hm, ha]; rfl))

theorem exec_probeLate_unready (hr : s.ready = false) : exec .probeLate s = .next s :=
  congrArg Host.Outcome.next (if_neg (by rw [hr]; exact Bool.false_ne_true))

/-! ## The probe -/

theorem State.probeDue_unready (hr : s.ready = false) : s.probeDue = false := by
  rw [State.probeDue, hr]
  rfl

theorem exec_probeRun_idle (h : s.probeDue = false) : exec .probeRun s = .next s :=
  congrArg Host.Outcome.next (if_pos (by rw [h]; rfl))

/-- The frames the probe reads once it has signalled that it begins. -/
def State.probeFrames (s : State) : Bool × State :=
  ((({ s with safe := { s.safe with trigSeen := false } } : State).probeSignal s.safe.trig 1).probeSignal s.safe.done 1).frameOk [0, 1, 2, 3]

section
variable (hd : s.probeDue = true)
include hd

theorem exec_probeRun_frames (h : s.probeFrames.1 = false) : exec .probeRun s = .next (s.probeFrames.2.enterSafe 0x1A 0) :=
  congrArg Host.Outcome.next ((if_neg (by rw [hd]; decide)).trans (if_pos (by rw [← State.probeFrames, h]; rfl)))

theorem exec_probeRun_patterns (h : s.probeFrames.1 = true)
    (hp : s.probeFrames.2.badPattern ((patternBlocks s.probeFrames.2.patternNo).map (fun o => (patternBase + o, 0x8000))) = none) :
    exec .probeRun s = .next s.probeFrames.2.injectPattern := by
  refine congrArg Host.Outcome.next ((if_neg (by rw [hd]; decide)).trans ((if_neg (by rw [← State.probeFrames, h]; decide)).trans ?_))
  rw [← State.probeFrames, hp]

end

theorem exec_probeStandGrant_free (hp : s.safe.probe = .running g) (hl : s.live = true) (hn : n < 8) (hs : s.safe.pStands.getLsbD n = true)
    (hg : g.getLsbD n = false) (hf : Tbl.get 0 s.stands n = 0) : exec (.probeStandGrant n) s =
      .next (({ s with safe := { s.safe with probe := .running (g ||| BitVec.ofNat 8 (2 ^ n)) } } : State).wakeStands (2 ^ n)) := by
  refine congrArg Host.Outcome.next ?_
  rw [hp]
  exact if_pos (by rw [hl, decide_eq_true hn, hs, hg, decide_eq_true hf]; rfl)

theorem exec_probeStandGrant_other (h : s.safe.probe = .idle ∨ s.live = false ∨ 8 ≤ n ∨ s.safe.pStands.getLsbD n = false) :
    exec (.probeStandGrant n) s = .next s := by
  refine congrArg Host.Outcome.next ?_
  split
  next hp =>
    refine if_neg ?_
    obtain h | h | h | h := h
    · rw [hp] at h; cases h
    · simp [h]
    · simp [Nat.not_lt.mpr h]
    · simp [h]
  · rfl

theorem exec_probeCompare_idle (h : s.safe.probe = .idle) (w : Verdict) : exec (.probeCompare w) s = .next s :=
  congrArg Host.Outcome.next (if_pos (by rw [h]; exact Bool.or_true _))

theorem exec_probeCompare_ran (hl : s.live = true) (hp : s.safe.probe = .running s.safe.pStands)
    (hb : s.badPattern [(patternBase + 0x80000 + 2048 * s.patternNo, 2048)] = none) :
    exec (.probeCompare .pass) s = .next s.probePass ∧ exec (.probeCompare .fail) s = .next ((s.draw 8).2.enterSafe 0x1A (s.draw 8).1.toNat) := by
  have hran : ¬ (!s.live || s.safe.probe != .running s.safe.pStands) = true := by simp [hl, hp]
  constructor
  · refine congrArg Host.Outcome.next ((if_neg hran).trans ?_)
    rw [hb]
  · refine congrArg Host.Outcome.next ((if_neg hran).trans ?_)
    rw [hb]
    rfl

/-- A probe that passes raises SAFE_N where it was low. -/
theorem State.probePass_eq {u : State} (ht : t = s.probeSignal s.safe.done 0)
    (hu : u = { t with safe := { t.safe with probe := .idle, patterns := t.safe.patterns + 1, pCount := t.safe.pCount + 1 } }) :
    s.probePass = if t.safe.safeN then u
      else ({ u with safe := { u.safe with safeN := true }, safest := { u.safest with latched := false } } : State).event evArmed 0 0 u.safe.pCount.toNat 0 := by
  subst ht hu
  rfl

/-! ## The safe state -/

section
variable (hm : s.monitored = true)
include hm

theorem exec_safeStateEnter_dangerous (hd : dangerous src.toNat = true) : exec (.safeStateEnter src det) s = .next (s.enterSafe src.toNat det.toNat) :=
  congrArg Host.Outcome.next (if_pos (by rw [hm, hd]; rfl))

theorem exec_clockLoss_clock (hn : n < 7) : exec (.clockLoss n) s =
    .next (({ s with clk := { s.clk with mon := s.clk.mon ||| BitVec.ofNat 7 (2 ^ n) } } : State).enterSafe 0x14 0) :=
  congrArg Host.Outcome.next (if_pos (by rw [hm, decide_eq_true hn]; rfl))

end

theorem exec_safeStateEnter_other (h : s.monitored = false ∨ dangerous src.toNat = false) : exec (.safeStateEnter src det) s = .next s := by
  refine congrArg Host.Outcome.next (if_neg ?_)
  obtain h | h := h <;> simp [h]

theorem exec_clockLoss_other (h : s.monitored = false ∨ 7 ≤ n) : exec (.clockLoss n) s = .next s := by
  refine congrArg Host.Outcome.next (if_neg ?_)
  obtain h | h := h <;> simp [h]

theorem State.enterSafe_first (h : s.safest.inSafe = false) (source detail : Nat) :
    (s.enterSafe source detail).safe.safeN = false ∧ (s.enterSafe source detail).safe.faultN = true ∧ (s.enterSafe source detail).safest.inSafe = true ∧
    (s.enterSafe source detail).safest.last = s.faultWord source detail ∧ (s.enterSafe source detail).boot.state = .safe ∧
    (s.enterSafe source detail).fab.enabled = false ∧ (s.enterSafe source detail).mem = s.mem := by
  rw [State.enterSafe, if_neg (Bool.eq_false_iff.mp h)]
  exact ⟨rfl, rfl, rfl, rfl, rfl, rfl, rfl⟩

theorem State.enterSafe_further (h : s.safest.inSafe = true) (source detail : Nat) : s.enterSafe source detail =
    { s with safest := { s.safest with last := furtherFault s.safest.last, stuck := s.safest.stuck || source == 0x19 } } := if_pos h

end

/-- Settles O57: arming by its refusals, the probe by what it reads, the safe state by whether the chip is in it. -/
theorem safetyMonitor : Obligations.SafetyMonitor := by
  intro s v n low g src det
  refine ⟨fun hr => ?registers, fun hr => ?unready, fun ht hin => congrArg _ (if_pos (by rw [ht, hin]; rfl)),
    fun ht => congrArg _ (if_neg (by rw [ht]; exact Bool.false_ne_true)), exec_probeRun_idle, fun t hd ht => ?probe, exec_probeStandGrant_free,
    exec_probeStandGrant_other, exec_probeCompare_ran, fun h => ⟨exec_probeCompare_idle h _, exec_probeCompare_idle h _⟩,
    fun hm => ⟨congrArg _ (if_pos hm), exec_safeStateEnter_dangerous hm, fun hd => exec_safeStateEnter_other (.inr hd), exec_clockLoss_clock hm,
      fun hn => exec_clockLoss_other (.inr hn)⟩,
    fun hm => ⟨congrArg _ (if_neg (Bool.eq_false_iff.mp hm)), exec_safeStateEnter_other (.inl hm), exec_clockLoss_other (.inl hm)⟩,
    fun h => State.enterSafe_first h n det.toNat, fun h => State.enterSafe_further h n det.toNat, fun w hw => if_pos hw, fun t u ht hu => ?pass⟩
  case registers =>
    obtain ⟨harm, hdisarm, htest, hclear⟩ := exec_safeRegisters (v := v) hr
    rw [harm, hdisarm, htest, hclear]
    refine ⟨fun h => congrArg _ (State.arm_refused h), fun h ha => ?_, fun h ha => ?_, fun ha => ?_, fun ha => ?_, rfl, rfl, exec_probeLate_armed hr⟩
    · rw [State.arm_accepted h, if_pos ha]
    · rw [State.arm_accepted h, if_neg (Bool.eq_false_iff.mp ha)]
    · rw [State.disarm_eq, if_pos ha]
    · rw [State.disarm_eq, if_neg (Bool.eq_false_iff.mp ha)]
  case unready =>
    obtain ⟨harm, hdisarm, htest, hclear⟩ := exec_safeRegisters_unready (v := v) hr
    exact ⟨harm, hdisarm, htest, hclear, exec_probeLate_unready hr, exec_probeRun_idle (State.probeDue_unready hr)⟩
  case probe =>
    obtain rfl : t = s.probeFrames := ht
    exact ⟨exec_probeRun_frames hd, exec_probeRun_patterns hd⟩
  case pass =>
    rw [State.probePass_eq ht hu]
    exact ⟨fun h => if_pos h, fun h => if_neg (Bool.eq_false_iff.mp h)⟩

end Sys2Proof.Machine

/-! SUPPORT and PROOFS. The stages of a start, and room on the event ring (19). -/

namespace Sys2Proof.Machine

section
variable {s : State} {t : BitVec 8} {dig : List Byte} {keys : List (List Byte)}

/-- A stage does nothing in the state of another. -/
theorem stage_other {st : StartState} {x : State} (h : s.boot.state ≠ st) : (if s.boot.state ≠ st then s else x) = s := if_pos h

theorem stage_own {st : StartState} {x : State} (h : s.boot.state = st) : (if s.boot.state ≠ st then s else x) = x := if_neg (not_not.mpr h)

/-! ## ROM and memory training -/

section
variable (hst : s.boot.state = .rom)
include hst

theorem exec_bootRom_fails : exec (.bootRom (some t) dig keys) s =
    .next (((s.event evSelftestFail 3 0 t.toNat 0).zeroizeNow 3 true).stopFailed resRomSelftest t.toNat) :=
  congrArg Host.Outcome.next (stage_own hst)

theorem exec_bootRom_boots : exec (.bootRom none dig keys) s = .next (s.romBoot dig keys) := congrArg Host.Outcome.next (stage_own hst)

end

/-- What the boot ROM goes on to after it has measured. -/
theorem State.romBoot_measured {u : State} (hu : u = (s.extendMr 0 dig).extendMr 0 s.fuseBytes) :
    (s.boot.mode ≠ 0 → s.romBoot dig keys = u.stopRecovery resRecoveryStrap s.boot.mode.toNat) ∧
    (s.boot.mode = 0 → s.flash.sfdp = false → s.romBoot dig keys = u.stopRecovery resFlashNotFound 1) ∧
    (s.boot.mode = 0 → s.flash.sfdp = true → u.directory = none → s.romBoot dig keys = u.stopRecovery resFlashNotFound 2) := by
  subst hu
  refine ⟨fun h => if_pos h, fun h hf => (if_neg (not_not.mpr h)).trans (if_pos (by rw [hf]; rfl)), fun h hf hd => ?_⟩
  refine (if_neg (not_not.mpr h)).trans ((if_neg (by rw [hf]; decide)).trans ?_)
  rw [hd]

section
variable (hst : s.boot.state = .memtrain)
include hst

theorem exec_memtrain_fails {f : BitVec 4 × BitVec 4} : exec (.memtrain (some f)) s = .next (s.stopFailed resMemtrainFail (f.1.toNat + 256 * f.2.toNat)) :=
  congrArg Host.Outcome.next (stage_own hst)

theorem exec_memtrain_trains : exec (.memtrain none) s = .next (if s.boot.kind = 3 then s.confirmAll.enter .bist else s.trainAll.enter .meminit) :=
  congrArg Host.Outcome.next (stage_own hst)

end

/-- A warm restart keeps its training where it holds. -/
theorem State.confirmAll_trained (h : s.mem.trained = 0xF) : s.confirmAll =
    if (s.draw 1).1 = 0 then { (s.draw 1).2 with mem := { s.mem with selfRef := false } } else (s.draw 1).2.trainAll := by
  have hc : (decide (s.mem.trained = 0xF) && decide ((s.draw 1).1 = 0)) = decide ((s.draw 1).1 = 0) := by rw [decide_eq_true h, Bool.true_and]
  by_cases hd : (s.draw 1).1 = 0
  · exact (if_pos (hc.trans (decide_eq_true hd))).trans (if_pos hd).symm
  · exact (if_neg (Bool.eq_false_iff.mp (hc.trans (decide_eq_false hd)))).trans (if_neg hd).symm

theorem State.confirmAll_untrained (h : s.mem.trained ≠ 0xF) : s.confirmAll = (s.draw 1).2.trainAll :=
  if_neg (by rw [decide_eq_false h]; exact Bool.false_ne_true)

/-! ## MEMINIT, BIST, IMAGES and injection -/

/-- DRAM cleared. -/
def State.dramZeroed (s : State) : State :=
  { s with mem := { s.mem with bytes := s.mem.bytes.filter (fun c => decide (dramEnd ≤ c.1)), enc := [], tagDiff := [],
                               flips := s.mem.flips.filter (fun c => decide (dramEnd ≤ 8 * c.1)) } }

theorem exec_meminit_own (hst : s.boot.state = .meminit) : exec .meminit s = .next (s.dramZeroed.enter .bist) := congrArg Host.Outcome.next (stage_own hst)

section
variable (hst : s.boot.state = .bist) {rep tiles : List Nat} {u : State} (hu : u = rep.foldl (fun s x => s.result resSramRepaired x) s)
include hst hu

theorem exec_bist_fatal {logic : Bool} {b : Nat} :
    exec (.bist tiles rep (some (logic, b))) s = .next (u.stopFailed (if logic then resLbistFail else resSramFail) b) := by
  subst hu
  exact congrArg Host.Outcome.next (stage_own hst)

theorem exec_bist_repaired {w v : State} (hw : w = u.baseMap tiles)
    (hv : v = ((List.range w.fuses.grade.tiles).filter (fun x => tiles.contains (w.tile x).phys.toNat)).foldl State.repairTile w) :
    exec (.bist tiles rep none) s =
      .next (({ v with mem := { v.mem with bytes := v.mem.bytes.filter (fun c => decide (c.1 < dramEnd)), flips := v.mem.flips.filter (fun c => decide (8 * c.1 < dramEnd)) } } : State).enter .images) := by
  subst hu hw hv
  exact congrArg Host.Outcome.next (stage_own hst)

end

section
variable (hst : s.boot.state = .images) {golden : Bool}
include hst

theorem exec_images_missing (hd : s.directory = none) : exec (.images keys golden) s = .next (s.stopRecovery resFlashNotFound 2) := by
  refine congrArg Host.Outcome.next ((stage_own hst).trans ?_)
  rw [hd]

theorem exec_images_found {d : List Byte} {r : Bool × State} (hd : s.directory = some d) (hr : s.startImages d keys [2, 4, 3] = r) :
    exec (.images keys golden) s = .next (if r.1 then r.2.imagesRest d golden else r.2) := by
  subst hr
  refine congrArg Host.Outcome.next ((stage_own hst).trans ?_)
  rw [hd]

end

theorem exec_inject_own (hst : s.boot.state = .inject) (fs : List (Nat × Nat)) :
    exec (.inject fs) s = .next (s.injections (fs.filter (fun f => !(s.fuses.grade == .S && f.1 == 0x11)))) :=
  congrArg Host.Outcome.next (stage_own hst)

/-! ## FABRIC and FRONTEND -/

theorem exec_fabric_other (h : s.boot.state ≠ .fabric ∨ s.safest.inSafe = true ∨ s.fab.enabled = true ∨ s.dom.formed = true) : exec .fabric s = .next s := by
  refine congrArg Host.Outcome.next (if_pos ?_)
  obtain h | h | h | h := h <;> simp [h]

theorem exec_fabric_own (hst : s.boot.state = .fabric) (hin : s.safest.inSafe = false) (he : s.fab.enabled = false) (hf : s.dom.formed = false) {u : State}
    (hu : u = { s with fab := { s.fab with ports := (List.range 24).foldl (fun m p => if bit s.unusedPorts p then Tbl.upd Port.reset m p (fun x => { x with st := .parked }) else m) s.fab.ports } }) :
    exec .fabric s = .next (if s.fuses.grade = .S ∨ popCount24 s.unusedPorts = 24 then u.formOne 1 resDomainOfOne
      else s.usablePorts.foldl (fun s p => s.trainIn p .lock) { u with fab := { u.fab with enabled := true } }) := by
  subst hu
  refine congrArg Host.Outcome.next ((if_neg ?_).trans ?_)
  · rw [hin, he, hf, decide_eq_false (not_not.mpr hst)]
    decide
  · simp only [Bool.or_eq_true, decide_eq_true_eq]

theorem exec_frontend_formed (hst : s.boot.state = .frontend) (hin : s.safest.inSafe = false) (hf : s.dom.formed = true) :
    exec .frontend s = .next s.frontEnd :=
  congrArg Host.Outcome.next (if_pos (by rw [decide_eq_true hst, hin, hf]; rfl))

theorem exec_frontend_other (h : s.boot.state ≠ .frontend ∨ s.safest.inSafe = true ∨ s.dom.formed = false) : exec .frontend s = .next s := by
  refine congrArg Host.Outcome.next (if_neg ?_)
  obtain h | h | h := h <;> simp [h]

/-! ## Room on the event ring -/

theorem exec_eventRingRoom_dropped (hs : s.act.evqSize ≠ 0) (hd : s.evq.drop ≠ 0) (hn : s.evqDepth < s.evqN) (hin : s.safest.inSafe = false) :
    exec .eventRingRoom s =
      .next (({ s with evq := { s.evq with drop := 0 } } : State).pushEvent (eventBytes evOverflow 0 0 s.dom.chipId.toNat s.now s.evq.drop.toNat 0)) :=
  congrArg Host.Outcome.next (if_pos (by rw [decide_eq_true hs, decide_eq_true hd, decide_eq_true hn, hin]; rfl))

theorem exec_eventRingRoom_other (h : s.act.evqSize = 0 ∨ s.evq.drop = 0 ∨ s.evqN ≤ s.evqDepth ∨ s.safest.inSafe = true) :
    exec .eventRingRoom s = .next s := by
  refine congrArg Host.Outcome.next (if_neg fun hall => ?_)
  simp only [Bool.and_eq_true, decide_eq_true_eq, Bool.not_eq_true'] at hall
  obtain ⟨⟨⟨hs, hd⟩, hn⟩, hin⟩ := hall
  obtain h | h | h | h := h
  · exact hs h
  · exact hd h
  · omega
  · rw [hin] at h; cases h

end

/-- Settles O59: each stage in its own state, by what it finds, and in no other. -/
theorem startStages : Obligations.StartStages := by
  intro s t dig keys f b logic golden tiles rep fs
  refine ⟨fun h => ⟨congrArg Host.Outcome.next (stage_other h), congrArg Host.Outcome.next (stage_other h)⟩, fun hst => ⟨exec_bootRom_fails hst, fun u hu => ?rom⟩,
    fun h => ⟨congrArg Host.Outcome.next (stage_other h), congrArg Host.Outcome.next (stage_other h)⟩,
    fun hst => ⟨exec_memtrain_fails hst, fun hk => ?_, fun hk => ?_, State.confirmAll_trained, State.confirmAll_untrained⟩, fun h => congrArg Host.Outcome.next (stage_other h),
    fun hst => ⟨s.dramZeroed, exec_meminit_own hst, rfl, rfl, rfl, rfl⟩, fun h => ⟨congrArg Host.Outcome.next (stage_other h), congrArg Host.Outcome.next (stage_other h)⟩,
    fun hst u hu => ⟨exec_bist_fatal hst hu, fun w v hw hv => exec_bist_repaired hst hu hw hv⟩, fun h => congrArg Host.Outcome.next (stage_other h), fun hst => exec_images_missing hst,
    fun d r hst hd hr => exec_images_found hst hd hr, fun h => congrArg Host.Outcome.next (stage_other h), fun hst => ⟨exec_inject_own hst [], exec_inject_own hst fs⟩,
    exec_fabric_other, fun hst hin he hf u hu => ?fabric, exec_frontend_formed, exec_frontend_other, exec_eventRingRoom_dropped, exec_eventRingRoom_other⟩
  case rom =>
    rw [exec_bootRom_boots hst]
    obtain ⟨hstrap, hsfdp, hdir⟩ := State.romBoot_measured (keys := keys) hu
    exact ⟨fun h => congrArg _ (hstrap h), fun h hf => congrArg _ (hsfdp h hf), fun h hf hd => congrArg _ (hdir h hf hd)⟩
  case fabric =>
    rw [exec_fabric_own hst hin he hf hu]
    exact ⟨fun h => congrArg _ (if_pos h), fun hg hp => congrArg _ (if_neg (not_or.mpr ⟨hg, hp⟩))⟩
  · rw [exec_memtrain_trains hst, if_neg hk]
    rfl
  · rw [exec_memtrain_trains hst, if_pos hk]

end Sys2Proof.Machine

/-! SUPPORT and PROOFS. The I2C commands of recovery (19, 21). -/

namespace Sys2Proof.Machine

section
variable {s : State} {d : BitVec 7}

/-! ## The slave's address -/

theorem State.onI2c_absent (h : s.boot.state = .reset ∨ d.toNat ≠ 0x58 + s.boot.i2cAddr.toNat) (f : State → State) : s.onI2c d f = s := by
  refine if_neg fun hall => ?_
  simp only [Bool.and_eq_true, decide_eq_true_eq] at hall
  obtain ⟨hst, hd⟩ := hall
  exact h.elim hst fun hne => hne hd

section
variable (hd : d.toNat = 0x58 + s.boot.i2cAddr.toNat)
include hd

theorem State.onI2c_answers (h : s.boot.state ≠ .reset) (f : State → State) : s.onI2c d f = f s :=
  if_pos (by rw [decide_eq_true h, decide_eq_true hd]; rfl)

/-! ## Commands of the state RECOVERY -/

/-- A command of RECOVERY is not acknowledged elsewhere. -/
theorem State.inRecovery_nack (hr : s.boot.state ≠ .reset) (h : s.boot.state ≠ .recovery) (f : State → State) : s.inRecovery d f = s.emit .i2cNack :=
  (State.onI2c_answers hd hr _).trans (if_neg h)

theorem State.inRecovery_acts (h : s.boot.state = .recovery) (f : State → State) : s.inRecovery d f = f s :=
  (State.onI2c_answers hd (by rw [h]; decide) _).trans (if_pos h)

section
variable (hst : s.boot.state = .recovery)
include hst

/-- A read answers at most 32 bytes. -/
theorem exec_flashRead_own {n k : Nat} (hk : min n 32 = k) : exec (.flashRead d n) s =
    .next (({ s with flash := { s.flash with offset := s.flash.offset + BitVec.ofNat 32 k, err := false } } : State).emit (.i2c (s.flashAt s.flash.offset.toNat k))) := by
  subst hk
  exact congrArg Host.Outcome.next (State.inRecovery_acts hd hst _)

theorem exec_flashProgram_own (bs : List Byte) : exec (.flashProgram d bs) s =
    .next (if 32 < bs.length then (s.program (bs.take 32)).emit .i2cNack else s.program (bs.take 32)) :=
  congrArg Host.Outcome.next (State.inRecovery_acts hd hst _)

theorem exec_flashProgram_short {bs : List Byte} (h : bs.length ≤ 32) : exec (.flashProgram d bs) s = .next (s.program bs) := by
  rw [exec_flashProgram_own hd hst, if_neg (Nat.not_lt.mpr h), List.take_of_length_le h]

theorem exec_flashProgram_long {bs : List Byte} (h : 32 < bs.length) : exec (.flashProgram d bs) s = .next ((s.program (bs.take 32)).emit .i2cNack) := by
  rw [exec_flashProgram_own hd hst, if_pos h]

theorem exec_flashErase_wrongCode {code : Byte} (h : code ≠ 1) : exec (.flashErase d code) s = .next { s with flash := { s.flash with err := true } } :=
  congrArg Host.Outcome.next ((State.inRecovery_acts hd hst _).trans (if_pos h))

theorem exec_flashErase_sector : exec (.flashErase d 1) s =
    .next { s with flash := { s.flash with bytes := s.flash.bytes.filter (fun e => !decide (s.flash.offset.toNat / 0x10000 * 0x10000 ≤ e.1 ∧ e.1 < s.flash.offset.toNat / 0x10000 * 0x10000 + 0x10000)), busy := true, err := false } } :=
  congrArg Host.Outcome.next ((State.inRecovery_acts hd hst _).trans (if_neg (not_not.mpr rfl)))

/-- The state and the byte that FLASH_STATUS answers. -/
theorem exec_flashStatus_own : exec (.flashStatus d) s =
    .next (({ (if s.flash.busy then (s.draw 1).2 else s) with
        flash := { (if s.flash.busy then (s.draw 1).2 else s).flash with busy := s.flash.busy && (s.draw 1).1 == 1 } } : State).emit
      (.i2c [BitVec.ofNat 8 (b2n (s.flash.busy && (s.draw 1).1 == 1) + 2 * b2n s.flash.err)])) :=
  congrArg Host.Outcome.next (State.inRecovery_acts hd hst _)

theorem exec_flashStatus_idle (hb : s.flash.busy = false) : exec (.flashStatus d) s = .next (s.emit (.i2c [BitVec.ofNat 8 (2 * b2n s.flash.err)])) := by
  have hflash : { s.flash with busy := false } = s.flash := by rw [← hb]
  rw [exec_flashStatus_own hd hst, hb, Bool.false_and, if_neg Bool.false_ne_true, hflash, show b2n false = 0 from rfl, Nat.zero_add]

theorem exec_flashStatus_busy (hb : s.flash.busy = true) : exec (.flashStatus d) s =
    .next (({ (s.draw 1).2 with flash := { s.flash with busy := (s.draw 1).1 == 1 } } : State).emit (.i2c [BitVec.ofNat 8 (b2n ((s.draw 1).1 == 1) + 2 * b2n s.flash.err)])) := by
  rw [exec_flashStatus_own hd hst, hb, Bool.true_and, if_pos rfl]
  rfl

end

/-! ## RESTART -/

theorem exec_i2cRestart_nack {code : Byte} (h : s.boot.state ≠ .reset) (hr : s.boot.state ≠ .recovery) (hf : s.boot.state ≠ .failed) :
    exec (.i2cRestart d code) s = .next (s.emit .i2cNack) :=
  congrArg Host.Outcome.next ((State.onI2c_answers hd h _).trans (if_pos (by rw [decide_eq_true hr, decide_eq_true hf]; rfl)))

/-- In RECOVERY and FAILED a restart hangs on its code alone. -/
theorem exec_i2cRestart_own (h : s.boot.state = .recovery ∨ s.boot.state = .failed) (code : Byte) :
    exec (.i2cRestart d code) s = .next (if code ≠ 0xA5 then s else (s.chipReset false).coldIfFree 1) := by
  refine congrArg Host.Outcome.next ((State.onI2c_answers hd ?_ _).trans (if_neg ?_))
  · obtain h | h := h <;> rw [h] <;> decide
  · obtain h | h := h <;> rw [h] <;> decide

end

/-! ## What programming leaves in the flash -/

/-- The flash's bytes as programming leaves them. -/
def programmed (a : Nat) (bs : List Byte) (t : Tbl Byte) : Tbl Byte := (indexed a bs).foldl (fun t e => Tbl.upd 0xFF t e.1 (· &&& e.2)) t

theorem State.program_bytes (bs : List Byte) : (s.program bs).flash.bytes = programmed s.flash.offset.toNat bs s.flash.bytes := rfl

theorem programmed_cons (a : Nat) (b : Byte) (bs : List Byte) (t : Tbl Byte) :
    programmed a (b :: bs) t = programmed (a + 1) bs (Tbl.upd 0xFF t a (· &&& b)) := rfl

/-- Programming leaves every byte outside its run. -/
theorem programmed_other {a x : Nat} {bs : List Byte} {t : Tbl Byte} (h : x < a ∨ a + bs.length ≤ x) :
    Tbl.get 0xFF (programmed a bs t) x = Tbl.get 0xFF t x := by
  induction bs generalizing a t with
  | nil => rfl
  | cons b bs ih =>
    rw [List.length_cons] at h
    rw [programmed_cons, ih (by omega)]
    exact Tbl.get_set_other 0xFF _ _ _ _ (by omega)

/-- Programming clears the bits of a byte of its run that its own byte has clear. -/
theorem programmed_same {a k : Nat} {b : Byte} {bs : List Byte} {t : Tbl Byte} (ht : Tbl.wf 0xFF t = true) (hk : bs[k]? = some b) :
    Tbl.get 0xFF (programmed a bs t) (a + k) = Tbl.get 0xFF t (a + k) &&& b := by
  induction bs generalizing a k t with
  | nil => cases hk
  | cons c bs ih =>
    rw [programmed_cons]
    cases k with
    | zero =>
      obtain rfl : c = b := Option.some.inj hk
      rw [programmed_other (.inl (by omega))]
      exact Tbl.get_set 0xFF _ none _ _ ht
    | succ k =>
      have hrest : Tbl.wf 0xFF (Tbl.upd 0xFF t a (· &&& c)) = true := Tbl.wf_set 0xFF t _ _ ht
      rw [show a + (k + 1) = a + 1 + k by omega, ih hrest hk]
      exact congrArg (· &&& b) (Tbl.get_set_other 0xFF _ _ _ _ (by omega))

end

/-- Settles O60: the slave's address, each command in RECOVERY and in the other states, and what programming leaves in the flash. -/
theorem recoveryBus : Obligations.RecoveryBus := by
  intro s d v n bs code
  refine ⟨fun h => ?absent, fun hd => ⟨fun h => congrArg Host.Outcome.next (State.onI2c_answers hd h _), fun hr h => ?nack, fun hst => ?own, fun h => ?restart⟩, rfl,
    fun x _ _ hx => programmed_other hx, fun k b hwf hk => programmed_same hwf hk⟩
  case absent =>
    have hnone : ∀ f, Host.Outcome.next (s.onI2c d f) = (.next s : Host.Outcome State Fault Refusal) := fun f => congrArg Host.Outcome.next (State.onI2c_absent h f)
    exact ⟨hnone _, hnone _, hnone _, hnone _, hnone _, hnone _, hnone _⟩
  case nack =>
    have hnack : ∀ f, Host.Outcome.next (s.inRecovery d f) = (.next (s.emit .i2cNack) : Host.Outcome State Fault Refusal) :=
      fun f => congrArg Host.Outcome.next (State.inRecovery_nack hd hr h f)
    exact ⟨hnack _, hnack _, hnack _, hnack _, hnack _, exec_i2cRestart_nack hd hr h⟩
  case own =>
    exact ⟨congrArg Host.Outcome.next (State.inRecovery_acts hd hst _), fun hn => exec_flashRead_own hd hst (Nat.min_eq_left hn),
      fun hn => exec_flashRead_own hd hst (Nat.min_eq_right (Nat.le_of_lt hn)), exec_flashProgram_short hd hst, exec_flashProgram_long hd hst,
      exec_flashErase_wrongCode hd hst, exec_flashErase_sector hd hst, exec_flashStatus_idle hd hst, exec_flashStatus_busy hd hst⟩
  case restart =>
    exact ⟨fun hc => (exec_i2cRestart_own hd h code).trans (congrArg _ (if_pos hc)), (exec_i2cRestart_own hd h 0xA5).trans (congrArg _ (if_neg (not_not.mpr rfl)))⟩

end Sys2Proof.Machine
